-- ==== Sys2Proof/Word.lean ====
section
/-! DEFINITION. The word and byte types of the PGN9600 model: what the manual treats as bits. -/

namespace Sys2Proof

/-- One byte. -/
abbrev Byte := BitVec 8

/-- One 32-bit register (R36). -/
abbrev Word := BitVec 32

/-- An endpoint `{X[6:0], Y[6:0]}` (R81). -/
abbrev Endpoint := BitVec 14

end Sys2Proof
end

