-- ==== Sys2Proof/Syntax.lean ====
section
/-! DEFINITION. The commands of the block: one constructor per row of spec/opcode_table.json, with its operands. -/

namespace Sys2Proof

/-- The paths by which an access reaches the register switch, and with each its latch (R36, R38). -/
inductive Path where
  | port (p : Fin 4)
  | sideband
  | keystone
deriving DecidableEq, Repr

/-- Who makes a register access: its path, the requesting endpoint and TAG of the packet that carried it, the original hop
count when that packet was hop-addressed, and the virtual channel it arrived on (R38, R82, R83, R91). -/
structure Access where
  path : Path
  requester : Endpoint
  tag : BitVec 16
  hop : Option Byte
  vc : BitVec 3 := 4
deriving DecidableEq, Repr

/-- A packet: the common header of R81, bytes 8-15 as R83 lays them out (a response and a MSG read them through the
accessors of R86 and R88), and what follows the header. -/
structure Pkt where
  opc : BitVec 5
  vc : BitVec 3
  hops : BitVec 7
  dir : Bool
  dest : Endpoint
  leg : Bool
  nbr : Bool
  src : Endpoint
  tag : BitVec 16
  addr : BitVec 40
  len : Byte
  b14 : Byte
  b15 : Byte
  payload : List Byte
deriving DecidableEq, Repr

/-- What one receive lane (16 is RXS) delivers in the time of one flit (R49, R50): its 32 B slots in order, as its own
forward error correction leaves them. -/
structure LaneIn where
  lane : Nat
  slots : List (List Byte)
deriving DecidableEq, Repr

/-- What the forward error correction of one receive lane finds in that time (R49, R71): the symbols that it corrected, and the
codewords that it could not (at YXL-1 the 66-bit blocks in error). -/
structure LaneFec where
  lane : Nat
  fixed : Nat
  bad : Nat
deriving DecidableEq, Repr

/-- A marker and the receive lane that it comes in on (R54, R62). -/
structure LaneMarker where
  lane : Nat
  bytes : List Byte
deriving DecidableEq, Repr

/-- What training at a generation finds of the 17 lanes (R52, R55): the lanes that are good, and those of inverted polarity. -/
structure TrainFound where
  good : BitVec 17
  inv : BitVec 17
deriving DecidableEq, Repr

/-- The steps of adaptation that a window's end brings (R59): the receiver's equaliser as it would stand, and the step asked of the
partner's taps. -/
structure EqStep where
  leq : Word
  txeq : BitVec 4
deriving DecidableEq, Repr

/-- The addresses of a SETDASA (R41): the static address that it names, and the dynamic one that it gives. -/
structure AddrPair where
  sa : BitVec 7
  da : BitVec 7
deriving DecidableEq, Repr

/-- What the pins of the test access port bring (R29, R374): the levels that SAMPLE/PRELOAD loads, if any, or a level of TRST_N. -/
inductive PortPins where
  | preload (levels : Option (List Bool))
  | trst (low : Bool)
deriving DecidableEq, Repr

/-- What a read of one granule meets in the cells (R302, R304): the symbols in error beside the erased ones, whether an
error falls in an address symbol, and how the single repeat of a misdirected access ends. A granule no observation
names reads without a symbol in error. -/
structure CellObs where
  granule : Nat
  syms : List Nat
  addrErr : Bool
  repeatOk : Bool
deriving DecidableEq, Repr

/-- The rails of R275, in the bit order of RST_RAIL. -/
inductive Rail where
  | vaux | vdd | vddl | vddt | vpp | vkp
deriving DecidableEq, Repr

/-- A unit of rolling recalibration (R352). -/
inductive CalUnit where
  | data (c : Nat) (pc : Nat)
  | cmd (c : Nat)
  | keep (k : Nat)
deriving DecidableEq, Repr

/-- The eye of a pin as a placement measures it (R347): its width in steps, its centre, and whether a seed was used (R351). -/
structure Eye where
  width : Nat
  centre : Nat
  seeded : Bool := false
deriving DecidableEq, Repr

/-- What power-up calibration measured (R345): CAL_RES in 0.1 Ω, REFCLK in ppm, the duration of step 5, and the codes and
values that the CAL registers then hold. -/
structure CalResult where
  /-- the step trims of the keep courses, and the eyes of their TSVs as the placement is renewed -/
  ktrim : List Nat := []
  keep : List (List Eye) := []
  resDohm : Nat
  refPpm : Int
  ms : Nat
  stepFs : Nat
  ztsv : Word
  zlane : List Word
  sgain : List Word
  soff : List Word
  region : List Word
  dtrim : List Nat
  seeds : Nat
deriving DecidableEq, Repr

/-- The commands. Each constructor is one row of the table; its docstring names the rule that decides it. A command for a
write of a register carries the access and the value written; a command for a timer or an outside event states that the
event has come. -/
inductive Instr where
  /-- R31 -/
  | lintelForceNChange (low : Bool)
  /-- R19 -/
  | pageProgramComplete (k : Nat) (slot : Nat) (ok : Bool)
  /-- R38 -/
  | regLoRead (a : Access) (addr : Nat)
  /-- R38 -/
  | regHiRead (a : Access) (addr : Nat)
  /-- R38 -/
  | regLoWrite (a : Access) (addr : Nat) (v : Word)
  /-- R38 -/
  | regHiWrite (a : Access) (addr : Nat) (v : Word)
  /-- R36 -/
  | registerWrite (a : Access) (addr : Nat) (v : Word)
  /-- R41 -/
  | entdaa (da : BitVec 7)
  /-- R41 -/
  | setdasa (a : AddrPair)
  /-- R41 -/
  | setnewda (da : BitVec 7)
  /-- R41 -/
  | rstdaa
  /-- R41 -/
  | enec
  /-- R41 -/
  | disec
  /-- R41 -/
  | getpid
  /-- R41 -/
  | getbcr
  /-- R41 -/
  | getdcr
  /-- R41 -/
  | getstatus
  /-- R41 -/
  | setmwl (len : BitVec 16)
  /-- R41 -/
  | setmrl (len : BitVec 16)
  /-- R41 -/
  | getmwl
  /-- R41 -/
  | getmrl
  /-- R41 -/
  | rstactNoReset
  /-- R41 -/
  | rstactSidebandReset
  /-- R282 -/
  | rstactColdReset
  /-- R41 -/
  | cccNotAcknowledged (code : Byte) (defining : Byte)
  /-- R42 -/
  | privateWriteReadOp (frame : List Byte)
  /-- R42 -/
  | privateWriteWriteOp (frame : List Byte)
  /-- R42 -/
  | privateWriteInvalid (frame : List Byte)
  /-- R42 -/
  | privateRead
  /-- R45 -/
  | semAcquire (a : Access) (n : Nat) (epoch : BitVec 16)
  /-- R45 -/
  | semRelease (a : Access) (n : Nat) (epoch : BitVec 16)
  /-- R45 -/
  | semRenew (a : Access) (n : Nat) (epoch : BitVec 16)
  /-- R45 -/
  | semLeaseExpiry (n : Nat)
  /-- R45 -/
  | ksSessionWrite (a : Access) (epoch : BitVec 16)
  /-- R47 -/
  | evtAckSeqWrite (a : Access) (v : Word)
  /-- R48 -/
  | eventMsgDeferredSend (n : Nat)
  /-- R53 -/
  | signalDetect (p : Fin 4)
  /-- R54 -/
  | capabilityMarkerReceived (p : Fin 4) (marker : LaneMarker)
  /-- R54 -/
  | negotiateTimeout (p : Fin 4)
  /-- R52, R55: bit `n` of `good` is set when receive lane `n` (16 is LS) reached a FOM of 96 within the bound, bit `n` of
  `inv` when it receives its pair inverted. -/
  | trainGenerationDone (p : Fin 4) (found : TrainFound)
  /-- R63 -/
  | alignDone (p : Fin 4) (skewPs : Nat) (lane : Nat)
  /-- R57, R59: the 32 bins of the window, the equaliser setting the lane would move to next, and the step it would ask of
  the partner's taps, as TXEQ_REQ of R62. -/
  | fomWindowEnd (p : Fin 4) (lane : Nat) (hist : List Nat) (step : EqStep)
  /-- R62 -/
  | alignmentMarkerReceived (p : Fin 4) (lane : Nat) (marker : List Byte)
  /-- R58 -/
  | laneLossOfLock (p : Fin 4) (lane : Nat)
  /-- R53 -/
  | signalLossTimeout (p : Fin 4)
  /-- R53 -/
  | lnkRetrain (a : Access) (p : Fin 4) (v : Word)
  /-- R53 -/
  | lnkDisable (a : Access) (p : Fin 4) (v : Word)
  /-- R65 -/
  | lnkLintelCloseWrite (a : Access) (ring : Fin 2) (v : Word)
  /-- R76 -/
  | dataFlitReceived (p : Fin 4) (lanes : List LaneIn) (fec : List LaneFec)
  /-- R75 -/
  | idleFlitReceived (p : Fin 4) (lanes : List LaneIn) (fec : List LaneFec)
  /-- R79 -/
  | initFlitReceived (p : Fin 4) (lanes : List LaneIn) (fec : List LaneFec)
  /-- R76 -/
  | nakRepeatTimer (p : Fin 4)
  /-- R76 -/
  | ackTimer (p : Fin 4)
  /-- R78 -/
  | initTimer (p : Fin 4)
  /-- R77 -/
  | replayTimeout (p : Fin 4)
  /-- R83 -/
  | rd (p : Fin 4) (pkt : Pkt) (obs : List CellObs)
  /-- R84 -/
  | wr (p : Fin 4) (pkt : Pkt) (obs : List CellObs)
  /-- R85 -/
  | fadd (p : Fin 4) (pkt : Pkt) (obs : List CellObs)
  /-- R85 -/
  | cas64 (p : Fin 4) (pkt : Pkt) (obs : List CellObs)
  /-- R85 -/
  | cas128 (p : Fin 4) (pkt : Pkt) (obs : List CellObs)
  /-- R88 -/
  | msgReceived (p : Fin 4) (pkt : Pkt)
  /-- R105 -/
  | rstPacket (p : Fin 4) (pkt : Pkt)
  /-- R105 -/
  | rstPacketResetStart
  /-- R101 -/
  | rspReceived (p : Fin 4) (pkt : Pkt)
  /-- R82 -/
  | reservedOpcPacket (p : Fin 4) (pkt : Pkt)
  /-- R93 -/
  | packetTransit (p : Fin 4) (pkt : Pkt)
  /-- R91 -/
  | hopPacketForward (p : Fin 4) (pkt : Pkt)
  /-- R101 -/
  | responseTimeout (tag : BitVec 16)
  /-- R102: the packet at index `k` of port `p`'s output queue has waited LTC_LINKWAIT. -/
  | linkwaitExpiry (p : Fin 4) (k : Nat)
  /-- R173: `mgt` names the MGT queue of M0-M3. -/
  | masterPortAdmit (m : Fin 8) (mgt : Bool)
  /-- R134 -/
  | wqEnable (a : Access) (q : Fin 64) (v : Word)
  /-- R134 -/
  | wqDisable (a : Access) (q : Fin 64) (v : Word)
  /-- R110 -/
  | sqDoorbell (a : Access) (q : Fin 64) (v : Word)
  /-- R111 -/
  | cqDoorbell (a : Access) (q : Fin 64) (v : Word)
  /-- R113 -/
  | descriptorFetchStart (q : Fin 64)
  /-- R127 -/
  | descriptorDispatch
  /-- R129 -/
  | nop (q : Fin 64) (d : List Byte)
  /-- R129 -/
  | fence (q : Fin 64) (d : List Byte)
  /-- R118 -/
  | chiselRun (q : Fin 64) (d : List Byte)
  /-- R119 -/
  | copy (q : Fin 64) (d : List Byte)
  /-- R120 -/
  | fill (q : Fin 64) (d : List Byte)
  /-- R249 -/
  | keepCheckpoint (q : Fin 64) (d : List Byte)
  /-- R253 -/
  | keepArm (q : Fin 64) (d : List Byte)
  /-- R253 -/
  | keepDisarm (q : Fin 64) (d : List Byte)
  /-- R272 -/
  | keepStatus (q : Fin 64) (d : List Byte)
  /-- R268 -/
  | keyShareSupply (q : Fin 64) (d : List Byte)
  /-- R268 -/
  | keyShareClear (q : Fin 64) (d : List Byte)
  /-- R252 -/
  | holdupCharacterize (q : Fin 64) (d : List Byte)
  /-- R252: `uv2` is V2 at the ball, in µV. -/
  | characterizeEnd (uv2 : Nat)
  /-- R371 -/
  | bistRequest (q : Fin 64) (d : List Byte)
  /-- R124 -/
  | telemetrySnapshot (q : Fin 64) (d : List Byte)
  /-- R322 -/
  | repairQuery (q : Fin 64) (d : List Byte)
  /-- R125: what the reads of an image in this stack meet in the cells. -/
  | fwStage (q : Fin 64) (d : List Byte) (obs : List CellObs)
  /-- R126 -/
  | fwActivate (q : Fin 64) (d : List Byte)
  /-- R126: whether the image it was started into starts. -/
  | keystoneRestartDone (started : Bool)
  /-- R133 -/
  | completionMsgTimer (q : Fin 64)
  /-- R142 -/
  | channelRequestAccept (c : Fin 32)
  /-- R147 -/
  | commandSlot (c : Fin 32) (pc : Fin 2) (obs : List CellObs)
  /-- R153 -/
  | refreshDue (c : Fin 32) (pc : Fin 2) (bank : Fin 16)
  /-- R149 -/
  | openRowIdleTimeout (c : Fin 32) (pc : Fin 2) (bank : Fin 16)
  /-- R161 -/
  | channelIdleRequest (c : Fin 32)
  /-- R161 -/
  | channelIdleTimeout (c : Fin 32)
  /-- R162 -/
  | selfRefreshExit (c : Fin 32)
  /-- R158 -/
  | mcDlyapply (a : Access) (c : Fin 32) (v : Word)
  /-- R158 -/
  | dlyApplyPullinTimeout (c : Fin 32) (pc : Fin 2)
  /-- R177: target T0-T33. -/
  | mortarHeaderHandshake (t : Fin 34)
  /-- R178 -/
  | mortarDataBeat (t : Fin 34)
  /-- R181 -/
  | guaranteeMeterTick
  /-- R182 -/
  | guaranteeWindowEnd
  /-- R183 -/
  | throttleCapWindow
  /-- R187 -/
  | paceMeterWindow (n : Fin 16) (count : Nat)
  /-- R184 -/
  | mtrCommit (a : Access) (v : Word)
  /-- R215: `remote` holds the block's bytes when PROG is remote; `ok` says that every read was answered OK. -/
  | programReadDone (n : Fin 16) (remote : List Byte) (ok : Bool) (obs : List CellObs)
  /-- R216 -/
  | jobAdmit
  /-- R218 -/
  | sliceIssue
  /-- R219 -/
  | sliceDataArrive (n : Fin 16) (c : Fin 32) (obs : List CellObs)
  /-- R220 -/
  | chiselCycle (n : Fin 16)
  /-- R236 -/
  | groupSortDone (n : Fin 16)
  /-- R215: `ok = false` when a remote write was refused or not answered; `gran` is the first granule of OUT that may not
  have landed, `spill` says it lies in SPILL. -/
  | outputWritesAnswered (n : Fin 16) (ok : Bool) (gran : Nat) (spill : Bool)
  /-- R215 -/
  | jobCompletionSent (n : Fin 16)
  /-- R220 -/
  | chiselPaceWindow (count : Nat)
  /-- R244 -/
  | trickleCopyStart (obs : List CellObs)
  /-- R246 -/
  | sealTimer
  /-- R246: whether each course's record read back correctly. -/
  | sealReadbackDone (ok0 : Bool) (ok1 : Bool)
  /-- R248 -/
  | foldMapWritten
  /-- R250: the sample at the ball, in µV. -/
  | holdSenseSample (uv : Nat)
  /-- R251 -/
  | energyBudgetUpdate
  /-- R256 -/
  | pwrFailNFall
  /-- R404 -/
  | pwrFailNRise
  /-- R404 -/
  | powerReturn10ms
  /-- R257 -/
  | saveUnitsDrained
  /-- R260 -/
  | saveHoldTimeout (k : Fin 2)
  /-- R262: whether each course's journal and map can be read. -/
  | restoreImageChosen (read0 : Bool) (read1 : Bool)
  /-- R263 -/
  | restoreMapLoaded
  /-- R263 -/
  | hotPassTimeout
  /-- R264: the pages 0-15 of the unit whose slots read uncorrectably. -/
  | restoreUnitDone (unit : Nat) (bad : List Nat)
  /-- R264 -/
  | touchFetchDone (unit : Nat) (bad : List Nat) (ns : Nat)
  /-- R289 -/
  | vauxRise
  /-- R282 -/
  | vauxLoss
  /-- R282, R30: the strap balls as sampled. -/
  | porRelease (compat : Bool) (sbaddr : BitVec 3)
  /-- R275 -/
  | railGood (r : Rail)
  /-- R278 -/
  | railUndervoltage (r : Rail)
  /-- R283 -/
  | resetNAssert
  /-- R283 -/
  | resetNRelease
  /-- R282 -/
  | rstCmdWarm (a : Access) (v : Word)
  /-- R282 -/
  | rstCmdCold (a : Access) (v : Word)
  /-- R298 -/
  | rstRecoverExit (a : Access) (v : Word)
  /-- R286 -/
  | rstBlkreq (a : Access) (v : Word)
  /-- R286: `timeout` when RST_IDLE_TMO ran out first. -/
  | blockUnitIdle (timeout : Bool)
  /-- R288 -/
  | watchdogExpiry
  /-- R297 -/
  | startTimeout
  /-- R296 -/
  | ready60s
  /-- R285 -/
  | resetProgramWaitTimeout (k : Fin 2)
  /-- R284 -/
  | resetIntervalEnd
  /-- R372: the result code of R366, the failing test, its first failing step, and the duration in ms. -/
  | powerupSelftestDone (result : Fin 4) (test : Byte) (step : BitVec 24) (ms : BitVec 16)
  /-- R386 -/
  | fuseLoadCommit
  /-- R296: the keep-bus TSVs of each course that found no working setting. -/
  | keepBusTrained (eyes0 : List Eye) (eyes1 : List Eye)
  /-- R33 -/
  | firmwareStart
  /-- R345 -/
  | powerupCalDone (m : CalResult)
  /-- R163: the pins that found no working setting, and the delay values of the 120 pins. -/
  | channelTrainingDone (c : Fin 32) (eyes : List Eye) (stby : List Eye)
  /-- R309 -/
  | keepRecoveryDone (granule : Nat) (slotOk : Bool)
  /-- R310 -/
  | scrubUnitIssue (obs : List CellObs)
  /-- R311 -/
  | scrubBehindTimeout
  /-- R318 -/
  | repairFuseRetry
  /-- R315 -/
  | rowRepairHold (c : Fin 32) (pc : Fin 2) (bank : Fin 16) (row : Nat) (obs : List CellObs)
  /-- R306 -/
  | celogEntryFree (a : Access) (n : Fin 64) (v : Word)
  /-- R22: current in mA and voltage in mV of the 40 segments. -/
  | segmentSample (r : List (Nat × Nat))
  /-- R330: the conversions of the 88 sensors in 0.01 °C; `none` where a sensor completes none. -/
  | sensorConversion (r : List (Option Int))
  /-- R331 -/
  | sensorNoConversion (n : Fin 88)
  /-- R328: the 80 nodes in 0.01 °C as Loesh firmware computes them, and the lid the fit moves toward. -/
  | thermalModelUpdate (nodes : List Int) (lid : Int)
  /-- R334 -/
  | hwEstimateUpdate
  /-- R332 -/
  | thmSensmaskWrite (a : Access) (n : Fin 3) (v : Word)
  /-- R352 -/
  | rollVisitStart (u : CalUnit)
  /-- R347: the settings that were error-free. -/
  | sweepDone (u : CalUnit) (errFree : List Nat)
  /-- R352 -/
  | visitIncompleteTimeout (u : CalUnit)
  /-- R350 -/
  | calKapply (a : Access) (k : Fin 2) (v : Word)
  /-- R350 -/
  | keepBusGap (k : Fin 2)
  /-- R356: the replica-line mean step in fs and the trim of each of the 32 channels. -/
  | trackStepTimer (fs : List Nat) (trim : List Nat)
  /-- R356 -/
  | trackImpedanceTimer (ztsv : Word) (zlane : List Word)
  /-- R356 -/
  | trackGainTimer (n : Fin 40) (v : Word)
  /-- R356 -/
  | trackOffsetTimer (v : List Word)
  /-- R370 -/
  | sliceTick
  /-- R363: the save reads of a ROW slice meet these cells. -/
  | sliceResourceGranted (obs : List CellObs)
  /-- R366: the mismatch vector of each step executed, whether the budget was exceeded, the cause of R369, the eye of a
  swept slice. -/
  | sliceEnd (mism : List (BitVec 64)) (overBudget : Bool) (cause : Byte) (errFree : List Nat)
  /-- R365 -/
  | sliceBudgetExpiry
  /-- R374 -/
  | bypass
  /-- R374 -/
  | idcode
  /-- R29, R374: the boundary register's new contents when preloading, or a level of TRST_N. -/
  | samplePreload (pins : PortPins)
  /-- R374 -/
  | extest
  /-- R374 -/
  | clamp
  /-- R374 -/
  | highz
  /-- R376 -/
  | unlockNonce
  /-- R376 -/
  | unlockLoad (token : List Byte)
  /-- R375: whether the read-back found only zeros, and the courses whose wrappers are accessed. -/
  | scanEnter (zero : Bool) (courses : List Nat)
  /-- R387 -/
  | fuseProgramWord (a : Access) (v : Word)
  /-- R391 -/
  | lifecycleAdvance (a : Access) (v : Word)
  /-- R392 -/
  | lifecycleRetire (a : Access) (v : Word)
  /-- R387: 0 verified, 1 read-back differs, 2 aborted; the word's data as it reads back. -/
  | fuseProgramDone (outcome : Fin 3) (read : Word)
  /-- R394 -/
  | fusLockWrite (a : Access) (v : Word)
  /-- R382 -/
  | fusRdaddrWrite (a : Access) (v : Word)
  /-- R108 -/
  | ltcRstauthLockWrite (a : Access) (v : Word)
  /-- R402 -/
  | refclkLoss
  /-- R344 -/
  | refclkReturn
  /-- R62 -/
  | markerMissing (p : Fin 4) (lane : Nat)
  /-- R53 -/
  | lnkEnable (a : Access) (p : Fin 4) (v : Word)
  /-- R252 -/
  | keepHoldcapWrite (a : Access) (v : Word)
  /-- R90 -/
  | ltcCoordWrite (a : Access) (v : Word)
deriving DecidableEq, Repr

end Sys2Proof
end

