-- ==== Sys2Proof/Machine/Bits.lean ====
section
/-! DEFINITION. Bit fields of a register value, byte strings, the CRC-32 of R74, and small arithmetic helpers. -/

namespace Sys2Proof.Machine

/-- Bits [hi:lo] of a value. -/
def getBits (x hi lo : Nat) : Nat := x / 2 ^ lo % 2 ^ (hi + 1 - lo)

/-- A value with bits [hi:lo] replaced. -/
def setBits (x hi lo v : Nat) : Nat :=
  x % 2 ^ lo + v % 2 ^ (hi + 1 - lo) * 2 ^ lo + x / 2 ^ (hi + 1) * 2 ^ (hi + 1)

/-- One bit as a truth value. -/
def bitAt (x i : Nat) : Bool := x / 2 ^ i % 2 == 1

def b2n (b : Bool) : Nat := if b then 1 else 0

/-- The `n` low bytes of a value, least significant first. -/
def leBytes : Nat → Nat → List Byte
  | 0, _ => []
  | n + 1, v => BitVec.ofNat 8 v :: leBytes n (v / 256)

/-- The value of a byte string, least significant byte first. -/
def leNat : List Byte → Nat
  | [] => 0
  | b :: bs => b.toNat + 256 * leNat bs

/-- `n` bytes of a string from an offset; zeros past its end. -/
def sliceB (bs : List Byte) (off n : Nat) : List Byte :=
  let t := (bs.drop off).take n
  t ++ List.replicate (n - t.length) 0

/-- The little-endian field of `n` bytes at an offset of a byte string. -/
def fieldB (bs : List Byte) (off n : Nat) : Nat := leNat (sliceB bs off n)

/-- One byte of a string; 0 past its end. -/
def byteB (bs : List Byte) (off : Nat) : Byte := bs.getD off 0

/-- A byte string padded with zeros to a length. -/
def padB (n : Nat) (bs : List Byte) : List Byte := bs ++ List.replicate (n - bs.length) 0

/-- A string with some bytes written at an offset. -/
def putB (bs : List Byte) (off : Nat) (w : List Byte) : List Byte :=
  (padB off bs).take off ++ w ++ bs.drop (off + w.length)

/-- The number of one bits among the `n` low bits. -/
def popcount : Nat → Nat → Nat
  | 0, _ => 0
  | n + 1, v => v % 2 + popcount n (v / 2)

/-- The parity of the `n` low bits: 1 when an odd number of them is set. -/
def parity (n v : Nat) : Nat := popcount n v % 2

def ceilDiv (a b : Nat) : Nat := (a + b - 1) / b

/-- A counter of `w` bits that stops at its largest value. -/
def satAdd (w x d : Nat) : Nat := min (2 ^ w - 1) (x + d)

/-- The value of a `w`-bit two's complement number. -/
def signed (w x : Nat) : Int := if x < 2 ^ (w - 1) then (x : Int) else (x : Int) - (2 ^ w : Nat)

/-- A number as `w` bits of two's complement. -/
def twos (w : Nat) (x : Int) : Nat := (x % ((2 ^ w : Nat) : Int)).toNat

/-- A number held to the range of `w` bits of two's complement. -/
def satTwos (w : Nat) (x : Int) : Nat :=
  twos w (max (-((2 ^ (w - 1) : Nat) : Int)) (min (((2 ^ (w - 1) : Nat) : Int) - 1) x))

/-- One bit of the reflected CRC-32 of R74 (polynomial 0x04C1_1DB7, reflected 0xEDB8_8320). -/
def crcBit (c : BitVec 32) : BitVec 32 :=
  if c.getLsbD 0 then (c >>> 1) ^^^ 0xEDB88320#32 else c >>> 1

/-- `n` bits of the CRC. -/
def crcBits : Nat → BitVec 32 → BitVec 32
  | 0, c => c
  | n + 1, c => crcBits n (crcBit c)

/-- The CRC-32 of R74 over a byte string. -/
def crc32 (bs : List Byte) : BitVec 32 :=
  ~~~ (bs.foldl (fun c b => crcBits 8 (c ^^^ b.setWidth 32)) 0xFFFFFFFF#32)

/-- The first index below `n` that satisfies a test, searching upward from `start` and wrapping. -/
def findFrom (n start : Nat) (p : Nat → Bool) : Option Nat :=
  ((List.range n).map fun i => (start + i) % n).find? p

/-- A list with entry `i` replaced. -/
def setAt {α : Type} (l : List α) (i : Nat) (x : α) : List α := l.set i x

/-- A list with entry `i` passed through a function. -/
def modAt {α : Type} (l : List α) (i : Nat) (f : α → α) : List α := l.modify i f

end Sys2Proof.Machine
end

