-- ==== Sys2Proof/Machine/RegMap.lean ====
section
/-! DEFINITION. The register map: every register table of the manual as a catalogue row, the address of every register and
the place of every field, under the manual's names. An address here is the low 24 bits of a local address: the block in
[23:20] and the offset in [19:0] (R34). -/

namespace Sys2Proof.Machine

/-- The access types of R37. -/
inductive Acc where
  | ro | rw | rw1c | wo | rws | rsh
deriving DecidableEq, Repr

/-- One field of a register table: its bits, its access type and its reset value. A reset value that the table gives as a
word (image, strap, trim, load, record, repair) is 0 here; State.reset names it. (DESIGN CHOICE, log entry 133) -/
structure FldRow where
  hi : Nat
  lo : Nat
  acc : Acc
  rst : Nat
deriving DecidableEq, Repr

/-- One register table: the first address, the strides and counts of its indices, and its fields. -/
structure RegRow where
  base : Nat
  dims : List (Nat × Nat)
  flds : List FldRow
deriving DecidableEq, Repr

/-- A field of one register: its address and its bits. -/
structure Fld where
  addr : Nat
  hi : Nat
  lo : Nat
deriving DecidableEq, Repr

/-- The registers of block KS. -/
def catKS0 : List RegRow := [
  -- KS_ID
  ⟨0x0, [], [⟨31, 16, .ro, 0x9600⟩, ⟨15, 8, .ro, 0x50⟩, ⟨7, 0, .ro, 0xc5⟩]⟩,
  -- KS_REV
  ⟨0x4, [], [⟨7, 4, .ro, 1⟩, ⟨3, 0, .ro, 1⟩]⟩,
  -- KS_STATE
  ⟨0x8, [], [⟨7, 4, .ro, 1⟩, ⟨3, 0, .ro, 2⟩]⟩,
  -- KS_STRAP
  ⟨0xC, [], [⟨3, 1, .ro, 0⟩, ⟨0, 0, .ro, 0⟩]⟩,
  -- KS_FWVER
  ⟨0x10, [], [⟨31, 24, .ro, 0⟩, ⟨23, 16, .ro, 0⟩, ⟨15, 1, .ro, 0⟩, ⟨0, 0, .ro, 0⟩]⟩,
  -- KS_TIME_LO
  ⟨0x20, [], [⟨31, 0, .rw, 0⟩]⟩,
  -- KS_TIME_HI
  ⟨0x24, [], [⟨31, 0, .rw, 0⟩]⟩,
  -- KS_SEM_LEASE
  ⟨0x30, [], [⟨15, 0, .rw, 0x64⟩]⟩,
  -- KS_SESSION
  ⟨0x34, [], [⟨15, 0, .wo, 0⟩]⟩,
  -- KS_SEM
  ⟨0x1000, [(16, 32)], [⟨31, 31, .ro, 0⟩, ⟨30, 30, .ro, 0⟩, ⟨29, 28, .ro, 0⟩, ⟨27, 14, .ro, 0⟩, ⟨13, 12, .ro, 0⟩]⟩,
  -- KS_SEM_CMD
  ⟨0x1004, [(16, 32)], [⟨31, 16, .wo, 0⟩, ⟨1, 0, .wo, 0⟩]⟩,
  -- KS_SEM_EPOCH
  ⟨0x1008, [(16, 32)], [⟨31, 16, .ro, 0⟩, ⟨15, 0, .ro, 0⟩]⟩
]

/-- Every register table of block KS. -/
def catKS : List RegRow := catKS0

/-- The registers of block RST. -/
def catRST0 : List RegRow := [
  -- RST_CAUSE
  ⟨0x100000, [], [⟨31, 31, .rws, 1⟩, ⟨30, 28, .rws, 5⟩, ⟨24, 20, .rws, 1⟩, ⟨13, 0, .rws, 0⟩]⟩,
  -- RST_SRCMASK
  ⟨0x100004, [], [⟨15, 0, .rws, 2⟩]⟩,
  -- RST_CAUSETIME_LO
  ⟨0x100008, [], [⟨31, 0, .rws, 0⟩]⟩,
  -- RST_CAUSETIME_HI
  ⟨0x10000C, [], [⟨31, 0, .rws, 0⟩]⟩,
  -- RST_CMD
  ⟨0x100010, [], [⟨31, 16, .wo, 0⟩, ⟨1, 0, .wo, 0⟩]⟩,
  -- RST_RECOVER_EXIT
  ⟨0x100014, [], [⟨31, 16, .wo, 0⟩, ⟨0, 0, .wo, 0⟩]⟩,
  -- RST_BLKREQ
  ⟨0x100018, [], [⟨31, 31, .wo, 0⟩, ⟨30, 30, .ro, 0⟩, ⟨29, 28, .ro, 0⟩, ⟨7, 0, .rw, 0⟩]⟩,
  -- RST_IDLE_TMO
  ⟨0x10001C, [], [⟨6, 0, .rw, 0x64⟩]⟩,
  -- RST_BLKSTAT
  ⟨0x100020, [], [⟨31, 16, .ro, 0⟩, ⟨8, 8, .ro, 0⟩, ⟨7, 0, .ro, 0⟩]⟩,
  -- RST_DEFER
  ⟨0x100024, [], [⟨31, 31, .ro, 0⟩, ⟨30, 28, .ro, 0⟩, ⟨15, 0, .ro, 0⟩]⟩,
  -- RST_WDOG
  ⟨0x100028, [], [⟨31, 16, .rws, 0⟩, ⟨0, 0, .ro, 0⟩]⟩,
  -- RST_START
  ⟨0x100030, [], [⟨31, 16, .ro, 0⟩, ⟨8, 8, .ro, 0⟩, ⟨3, 0, .ro, 0⟩]⟩
]

/-- More registers of block RST. -/
def catRST1 : List RegRow := [
  -- RST_BRINGUP
  ⟨0x100034, [], [⟨31, 28, .ro, 1⟩, ⟨27, 24, .ro, 0⟩, ⟨21, 20, .ro, 0⟩, ⟨17, 16, .ro, 0⟩, ⟨15, 0, .ro, 0⟩]⟩,
  -- RST_STEPMS
  ⟨0x100040, [(4, 8)], [⟨15, 0, .ro, 0⟩]⟩,
  -- RST_RAIL
  ⟨0x100060, [], [⟨5, 0, .ro, 1⟩]⟩,
  -- RST_RAILHIST
  ⟨0x100064, [], [⟨5, 1, .ro, 0x1f⟩]⟩,
  -- RST_UVCNT
  ⟨0x100068, [], [⟨31, 0, .rw1c, 0⟩]⟩,
  -- RST_PINS
  ⟨0x10006C, [], [⟨4, 4, .ro, 0⟩, ⟨3, 3, .ro, 1⟩, ⟨2, 2, .ro, 1⟩, ⟨1, 1, .ro, 1⟩, ⟨0, 0, .ro, 1⟩]⟩
]

/-- Every register table of block RST. -/
def catRST : List RegRow := catRST0 ++ catRST1

/-- The registers of block FUS. -/
def catFUS0 : List RegRow := [
  -- FUS_STAT
  ⟨0x200000, [], [⟨31, 16, .ro, 0⟩, ⟨2, 2, .ro, 0⟩, ⟨1, 1, .ro, 0⟩, ⟨0, 0, .ro, 0⟩]⟩,
  -- FUS_LIFE
  ⟨0x200004, [], [⟨11, 8, .ro, 0⟩, ⟨7, 4, .ro, 0⟩, ⟨3, 3, .ro, 0⟩, ⟨2, 0, .ro, 0⟩]⟩,
  -- FUS_LOCK
  ⟨0x200008, [], [⟨10, 0, .rw, 0⟩]⟩,
  -- FUS_LOCKF
  ⟨0x20000C, [], [⟨10, 0, .ro, 0⟩]⟩,
  -- FUS_ID0
  ⟨0x200010, [], [⟨31, 0, .ro, 0⟩]⟩,
  -- FUS_ID1
  ⟨0x200014, [], [⟨31, 0, .ro, 0⟩]⟩,
  -- FUS_LOADCNT
  ⟨0x200018, [], [⟨31, 16, .rws, 0⟩, ⟨15, 0, .rws, 0⟩]⟩,
  -- FUS_MARGCNT
  ⟨0x20001C, [], [⟨11, 0, .ro, 0⟩]⟩,
  -- FUS_MARG
  ⟨0x200020, [(4, 8)], [⟨31, 31, .ro, 0⟩, ⟨10, 0, .ro, 0⟩]⟩,
  -- FUS_REGSTAT
  ⟨0x200040, [(4, 11)], [⟨26, 16, .ro, 0⟩, ⟨15, 8, .ro, 0⟩, ⟨6, 6, .ro, 0⟩, ⟨5, 5, .ro, 0⟩, ⟨4, 4, .ro, 0⟩, ⟨3, 3, .ro, 0⟩, ⟨2, 0, .ro, 0⟩]⟩,
  -- FUS_PGADDR
  ⟨0x200080, [], [⟨10, 0, .rw, 0⟩]⟩,
  -- FUS_PGDATA
  ⟨0x200084, [], [⟨31, 0, .wo, 0⟩]⟩
]

/-- More registers of block FUS. -/
def catFUS1 : List RegRow := [
  -- FUS_PGCMD
  ⟨0x200088, [], [⟨31, 16, .wo, 0⟩, ⟨10, 8, .wo, 0⟩, ⟨1, 0, .wo, 0⟩]⟩,
  -- FUS_PGSTAT
  ⟨0x20008C, [], [⟨31, 31, .ro, 0⟩, ⟨19, 16, .ro, 0⟩, ⟨10, 0, .ro, 0⟩]⟩,
  -- FUS_RDADDR
  ⟨0x200090, [], [⟨10, 0, .rw, 0⟩]⟩,
  -- FUS_RDNORM
  ⟨0x200094, [], [⟨31, 0, .ro, 0⟩]⟩,
  -- FUS_RDTIGHT
  ⟨0x200098, [], [⟨31, 0, .ro, 0⟩]⟩,
  -- FUS_RDINFO
  ⟨0x20009C, [], [⟨31, 31, .ro, 0⟩, ⟨30, 30, .ro, 0⟩, ⟨23, 17, .ro, 0⟩, ⟨16, 15, .ro, 0⟩, ⟨14, 8, .ro, 0⟩, ⟨7, 6, .ro, 0⟩, ⟨5, 0, .ro, 0⟩]⟩,
  -- FUS_RFFREE
  ⟨0x2000A0, [], [⟨9, 8, .ro, 0⟩, ⟨7, 0, .ro, 0⟩]⟩,
  -- FUS_CFGOPT
  ⟨0x2000A4, [], [⟨31, 0, .ro, 0⟩]⟩
]

/-- Every register table of block FUS. -/
def catFUS : List RegRow := catFUS0 ++ catFUS1

/-- The registers of block LNK. -/
def catLNK0 : List RegRow := [
  -- LNK_CTL
  ⟨0x300000, [(65536, 4)], [⟨3, 3, .wo, 0⟩, ⟨2, 2, .rw, 1⟩, ⟨1, 0, .rw, 3⟩]⟩,
  -- LNK_STAT
  ⟨0x300004, [(65536, 4)], [⟨21, 20, .ro, 0⟩, ⟨19, 18, .ro, 0⟩, ⟨17, 16, .ro, 0⟩, ⟨15, 11, .ro, 0x10⟩, ⟨10, 8, .ro, 0⟩, ⟨7, 6, .ro, 0⟩, ⟨5, 4, .ro, 0⟩, ⟨3, 0, .ro, 1⟩]⟩,
  -- LNK_PARTNER
  ⟨0x300008, [(65536, 4)], [⟨15, 8, .ro, 0⟩, ⟨7, 0, .ro, 0⟩]⟩,
  -- LNK_TRAINCNT
  ⟨0x30000C, [(65536, 4)], [⟨31, 16, .rw1c, 0⟩, ⟨15, 0, .rw1c, 0⟩]⟩,
  -- LNK_SKEW
  ⟨0x300010, [(65536, 4)], [⟨20, 16, .ro, 0⟩, ⟨15, 0, .ro, 0⟩]⟩,
  -- LNK_LSTAT
  ⟨0x301000, [(65536, 4), (128, 17)], [⟨12, 12, .ro, 0⟩, ⟨11, 7, .ro, 0⟩, ⟨6, 6, .ro, 0⟩, ⟨5, 5, .ro, 0⟩, ⟨4, 3, .ro, 0⟩]⟩,
  -- LNK_LFOM
  ⟨0x301004, [(65536, 4), (128, 17)], [⟨31, 24, .ro, 0⟩, ⟨23, 16, .rw1c, 0⟩, ⟨15, 8, .rw1c, 0xff⟩, ⟨7, 0, .ro, 0⟩]⟩,
  -- LNK_LEQ
  ⟨0x301008, [(65536, 4), (128, 17)], [⟨31, 28, .ro, 0⟩, ⟨27, 0, .ro, 0⟩]⟩,
  -- LNK_LTXEQ
  ⟨0x30100C, [(65536, 4), (128, 17)], [⟨17, 12, .ro, 0⟩, ⟨11, 6, .ro, 0x3f⟩, ⟨5, 0, .ro, 0⟩]⟩,
  -- LNK_LFECC
  ⟨0x301010, [(65536, 4), (128, 17)], [⟨31, 0, .rw1c, 0⟩]⟩,
  -- LNK_LFECU
  ⟨0x301014, [(65536, 4), (128, 17)], [⟨31, 0, .rw1c, 0⟩]⟩,
  -- LNK_LMKERR
  ⟨0x301018, [(65536, 4), (128, 17)], [⟨31, 0, .rw1c, 0⟩]⟩
]

/-- More registers of block LNK. -/
def catLNK1 : List RegRow := [
  -- LNK_LCTL
  ⟨0x30101C, [(65536, 4), (128, 17)], [⟨1, 1, .rw, 0⟩, ⟨0, 0, .rw, 0⟩]⟩,
  -- LNK_HIST
  ⟨0x301020, [(65536, 4), (128, 17), (4, 16)], [⟨31, 16, .ro, 0⟩, ⟨15, 0, .ro, 0⟩]⟩,
  -- LNK_LINTEL
  ⟨0x340000, [(4, 2)], [⟨15, 15, .ro, 0⟩, ⟨14, 14, .ro, 0⟩, ⟨13, 13, .ro, 1⟩, ⟨12, 12, .ro, 0⟩, ⟨8, 8, .ro, 1⟩, ⟨0, 0, .rw, 0⟩]⟩
]

/-- Every register table of block LNK. -/
def catLNK : List RegRow := catLNK0 ++ catLNK1

/-- The registers of block LTC. -/
def catLTC0 : List RegRow := [
  -- LTC_COORD
  ⟨0x400000, [], [⟨31, 31, .rws, 0⟩, ⟨13, 7, .rws, 0⟩, ⟨6, 0, .rws, 0⟩]⟩,
  -- LTC_RINGSIZE
  ⟨0x400004, [], [⟨15, 8, .rws, 0⟩, ⟨7, 0, .rws, 0⟩]⟩,
  -- LTC_LINKWAIT
  ⟨0x400008, [], [⟨15, 0, .rw, 0x32⟩]⟩,
  -- LTC_CPL_TMO
  ⟨0x40000C, [], [⟨15, 0, .rw, 0xa⟩]⟩,
  -- LTC_RSTAUTH_LOCK
  ⟨0x400010, [], [⟨0, 0, .rws, 0⟩]⟩,
  -- LTC_RSTLAST
  ⟨0x400014, [], [⟨31, 31, .rws, 0⟩, ⟨19, 18, .rws, 0⟩, ⟨17, 16, .rws, 0⟩, ⟨13, 0, .rws, 0⟩]⟩,
  -- LTC_DROP
  ⟨0x400018, [], [⟨31, 16, .rw1c, 0⟩, ⟨15, 0, .rw1c, 0⟩]⟩,
  -- LTC_RSTAUTH
  ⟨0x400020, [(4, 8)], [⟨31, 31, .rws, 0⟩, ⟨17, 16, .rws, 0⟩, ⟨13, 0, .rws, 0⟩]⟩,
  -- LTC_NBR
  ⟨0x400100, [(64, 4)], [⟨31, 31, .ro, 0⟩, ⟨30, 30, .ro, 0⟩, ⟨29, 29, .ro, 0⟩, ⟨28, 28, .ro, 0⟩, ⟨27, 24, .ro, 0⟩, ⟨23, 22, .ro, 0⟩, ⟨13, 0, .ro, 0⟩]⟩,
  -- LTC_PEPOCH
  ⟨0x400104, [(64, 4)], [⟨31, 16, .ro, 0⟩, ⟨15, 0, .ro, 0⟩]⟩,
  -- LTC_RETRY
  ⟨0x400108, [(64, 4)], [⟨31, 16, .rw1c, 0⟩, ⟨15, 0, .rw1c, 0⟩]⟩,
  -- LTC_LOST
  ⟨0x40010C, [(64, 4)], [⟨31, 16, .rw1c, 0⟩, ⟨15, 0, .rw1c, 0⟩]⟩
]

/-- More registers of block LTC. -/
def catLTC1 : List RegRow := [
  -- LTC_TXBYTES_LO
  ⟨0x400110, [(64, 4)], [⟨31, 0, .ro, 0⟩]⟩,
  -- LTC_TXBYTES_HI
  ⟨0x400114, [(64, 4)], [⟨31, 0, .ro, 0⟩]⟩,
  -- LTC_RXBYTES_LO
  ⟨0x400118, [(64, 4)], [⟨31, 0, .ro, 0⟩]⟩,
  -- LTC_RXBYTES_HI
  ⟨0x40011C, [(64, 4)], [⟨31, 0, .ro, 0⟩]⟩,
  -- LTC_CREDIT
  ⟨0x400120, [(64, 4), (4, 6)], [⟨31, 16, .ro, 0⟩, ⟨15, 0, .ro, 0⟩]⟩
]

/-- Every register table of block LTC. -/
def catLTC : List RegRow := catLTC0 ++ catLTC1

/-- The registers of block WQ. -/
def catWQ0 : List RegRow := [
  -- WQ_GCTL
  ⟨0x500000, [], [⟨0, 0, .rw, 0⟩]⟩,
  -- WQ_GSTAT
  ⟨0x500004, [], [⟨22, 16, .ro, 0⟩, ⟨12, 8, .ro, 0⟩, ⟨3, 0, .ro, 0⟩]⟩,
  -- WQ_CFG
  ⟨0x510000, [(32, 64)], [⟨31, 31, .rw, 0⟩, ⟨30, 27, .rw, 0xf⟩, ⟨26, 22, .rw, 4⟩, ⟨21, 17, .rw, 4⟩, ⟨13, 0, .rw, 0⟩]⟩,
  -- WQ_SQBASE
  ⟨0x510004, [(32, 64)], [⟨27, 0, .rw, 0⟩]⟩,
  -- WQ_CQBASE
  ⟨0x510008, [(32, 64)], [⟨27, 0, .rw, 0⟩]⟩,
  -- WQ_SQDB
  ⟨0x51000C, [(32, 64)], [⟨15, 0, .rw, 0⟩]⟩,
  -- WQ_CQDB
  ⟨0x510010, [(32, 64)], [⟨15, 0, .rw, 0⟩]⟩,
  -- WQ_COAL
  ⟨0x510014, [(32, 64)], [⟨31, 31, .rw, 0⟩, ⟨23, 16, .rw, 1⟩, ⟨15, 0, .rw, 0x10⟩]⟩,
  -- WQ_STAT
  ⟨0x510018, [(32, 64)], [⟨31, 29, .ro, 0⟩, ⟨28, 25, .ro, 0⟩, ⟨24, 20, .ro, 0⟩, ⟨15, 0, .ro, 0⟩]⟩,
  -- WQ_PROG
  ⟨0x51001C, [(32, 64)], [⟨31, 24, .rw1c, 0⟩, ⟨16, 16, .ro, 1⟩, ⟨15, 0, .ro, 0⟩]⟩
]

/-- Every register table of block WQ. -/
def catWQ : List RegRow := catWQ0

/-- The registers of block MC. -/
def catMC0 : List RegRow := [
  -- MC_CTL
  ⟨0x600000, [(32768, 32)], [⟨5, 5, .rw, 0⟩, ⟨4, 4, .rw, 0⟩, ⟨1, 0, .rw, 0⟩]⟩,
  -- MC_STAT
  ⟨0x600004, [(32768, 32)], [⟨13, 12, .ro, 0⟩, ⟨9, 8, .ro, 0⟩, ⟨5, 4, .ro, 1⟩, ⟨2, 0, .ro, 0⟩]⟩,
  -- MC_PAGE
  ⟨0x600008, [(32768, 32)], [⟨23, 16, .rw, 0x10⟩, ⟨15, 0, .rw, 0x64⟩]⟩,
  -- MC_BATCH
  ⟨0x60000C, [(32768, 32)], [⟨31, 24, .rw, 0x40⟩, ⟨15, 8, .rw, 0x20⟩, ⟨7, 0, .rw, 8⟩]⟩,
  -- MC_LTGT
  ⟨0x600010, [(32768, 32), (4, 4)], [⟨15, 0, .rw, 0x1f4⟩]⟩,
  -- MC_LTGT
  ⟨0x600020, [(32768, 32), (4, 1)], [⟨15, 0, .rw, 0xfa0⟩]⟩,
  -- MC_LTGT
  ⟨0x600024, [(32768, 32), (4, 1)], [⟨15, 0, .rw, 0x7d0⟩]⟩,
  -- MC_LTGT
  ⟨0x600028, [(32768, 32), (4, 1)], [⟨15, 0, .rw, 0x4e20⟩]⟩,
  -- MC_LTGT
  ⟨0x60002C, [(32768, 32), (4, 1)], [⟨15, 0, .rw, 0x3e8⟩]⟩,
  -- MC_REFCTL
  ⟨0x600030, [(32768, 32)], [⟨11, 8, .rw, 8⟩, ⟨1, 0, .rw, 0⟩]⟩,
  -- MC_REFSTAT
  ⟨0x600034, [(32768, 32)], [⟨13, 8, .ro, 0⟩, ⟨5, 0, .ro, 0⟩]⟩,
  -- MC_TRRCTL
  ⟨0x600038, [(32768, 32)], [⟨15, 0, .rw, 0x800⟩]⟩
]

/-- More registers of block MC. -/
def catMC1 : List RegRow := [
  -- MC_TRRSTAT
  ⟨0x60003C, [(32768, 32)], [⟨31, 0, .rw1c, 0⟩]⟩,
  -- MC_TIM0
  ⟨0x600040, [(32768, 32)], [⟨31, 0, .ro, 0x2a1c0e0e⟩]⟩,
  -- MC_TIM1
  ⟨0x600044, [(32768, 32)], [⟨31, 0, .ro, 0x4100810⟩]⟩,
  -- MC_TIM2
  ⟨0x600048, [(32768, 32)], [⟨31, 0, .ro, 0x24244868⟩]⟩,
  -- MC_TIM3
  ⟨0x60004C, [(32768, 32)], [⟨31, 0, .ro, 0xb457a80c⟩]⟩,
  -- MC_RD_LO
  ⟨0x600050, [(32768, 32)], [⟨31, 0, .ro, 0⟩]⟩,
  -- MC_RD_HI
  ⟨0x600054, [(32768, 32)], [⟨31, 0, .ro, 0⟩]⟩,
  -- MC_WR_LO
  ⟨0x600058, [(32768, 32)], [⟨31, 0, .ro, 0⟩]⟩,
  -- MC_WR_HI
  ⟨0x60005C, [(32768, 32)], [⟨31, 0, .ro, 0⟩]⟩,
  -- MC_ACT_LO
  ⟨0x600060, [(32768, 32)], [⟨31, 0, .ro, 0⟩]⟩,
  -- MC_ACT_HI
  ⟨0x600064, [(32768, 32)], [⟨31, 0, .ro, 0⟩]⟩,
  -- MC_HIT_LO
  ⟨0x600068, [(32768, 32)], [⟨31, 0, .ro, 0⟩]⟩
]

/-- More registers of block MC. -/
def catMC2 : List RegRow := [
  -- MC_HIT_HI
  ⟨0x60006C, [(32768, 32)], [⟨31, 0, .ro, 0⟩]⟩,
  -- MC_REFPB_LO
  ⟨0x600070, [(32768, 32)], [⟨31, 0, .ro, 0⟩]⟩,
  -- MC_REFPB_HI
  ⟨0x600074, [(32768, 32)], [⟨31, 0, .ro, 0⟩]⟩,
  -- MC_REFAB
  ⟨0x600078, [(32768, 32)], [⟨31, 0, .rw1c, 0⟩]⟩,
  -- MC_FORCED
  ⟨0x60007C, [(32768, 32)], [⟨31, 0, .rw1c, 0⟩]⟩,
  -- MC_PULLIN
  ⟨0x600080, [(32768, 32)], [⟨31, 0, .rw1c, 0⟩]⟩,
  -- MC_POSTPONE
  ⟨0x600084, [(32768, 32)], [⟨31, 0, .rw1c, 0⟩]⟩,
  -- MC_BATCHSW
  ⟨0x600088, [(32768, 32)], [⟨31, 0, .rw1c, 0⟩]⟩,
  -- MC_SRCNT
  ⟨0x60008C, [(32768, 32)], [⟨31, 0, .rw1c, 0⟩]⟩,
  -- MC_MISS
  ⟨0x600090, [(32768, 32), (4, 8)], [⟨31, 0, .rw1c, 0⟩]⟩,
  -- MC_PCSTAT
  ⟨0x6000B0, [(32768, 32), (4, 2)], [⟨29, 29, .ro, 0⟩, ⟨28, 28, .ro, 0⟩, ⟨24, 16, .ro, 0⟩, ⟨8, 0, .ro, 0⟩]⟩,
  -- MC_TRRLAST
  ⟨0x6000B8, [(32768, 32)], [⟨31, 31, .ro, 0⟩, ⟨30, 30, .ro, 0⟩, ⟨29, 26, .ro, 0⟩, ⟨16, 0, .ro, 0⟩]⟩
]

/-- More registers of block MC. -/
def catMC3 : List RegRow := [
  -- MC_INGRESS
  ⟨0x6000BC, [(32768, 32)], [⟨22, 16, .rw1c, 0⟩, ⟨6, 0, .ro, 0⟩]⟩,
  -- MC_BANKQ
  ⟨0x6000C0, [(32768, 32), (4, 16)], [⟨27, 27, .ro, 0⟩, ⟨26, 22, .ro, 0⟩, ⟨21, 16, .ro, 0⟩, ⟨11, 11, .ro, 0⟩, ⟨10, 6, .ro, 0⟩, ⟨5, 0, .ro, 0⟩]⟩,
  -- MC_DLY
  ⟨0x600100, [(32768, 32), (4, 30)], [⟨31, 24, .rsh, 0x80⟩, ⟨23, 16, .rsh, 0x80⟩, ⟨15, 8, .rsh, 0x80⟩, ⟨7, 0, .rsh, 0x80⟩]⟩,
  -- MC_DLYOVR
  ⟨0x600178, [(32768, 32)], [⟨0, 0, .rw, 0⟩]⟩,
  -- MC_DLYAPPLY
  ⟨0x60017C, [(32768, 32)], [⟨8, 8, .ro, 0⟩, ⟨0, 0, .wo, 0⟩]⟩
]

/-- Every register table of block MC. -/
def catMC : List RegRow := catMC0 ++ catMC1 ++ catMC2 ++ catMC3

/-- The registers of block MTR. -/
def catMTR0 : List RegRow := [
  -- MTR_CTL
  ⟨0x700000, [], [⟨0, 0, .rsh, 1⟩]⟩,
  -- MTR_COMMIT
  ⟨0x700004, [], [⟨0, 0, .wo, 0⟩]⟩,
  -- MTR_COMMIT_STAT
  ⟨0x700008, [], [⟨31, 30, .ro, 0⟩, ⟨29, 15, .ro, 0⟩, ⟨11, 0, .ro, 0⟩]⟩,
  -- MTR_FLOOR
  ⟨0x70000C, [], [⟨31, 31, .ro, 0⟩, ⟨29, 28, .ro, 1⟩, ⟨27, 16, .ro, 0x6b8⟩, ⟨11, 0, .ro, 0x6b8⟩]⟩,
  -- MTR_GSUM
  ⟨0x700010, [], [⟨30, 16, .ro, 5⟩, ⟨14, 0, .ro, 5⟩]⟩,
  -- MTR_PACE
  ⟨0x700040, [(4, 16)], [⟨27, 16, .rw1c, 0xfff⟩, ⟨11, 0, .ro, 0⟩]⟩,
  -- MTR_OSTD
  ⟨0x700100, [(64, 4)], [⟨12, 0, .rsh, 0x400⟩]⟩,
  -- MTR_OSTD
  ⟨0x700200, [(64, 1)], [⟨12, 0, .rsh, 0x1000⟩]⟩,
  -- MTR_OSTD
  ⟨0x700240, [(64, 1)], [⟨12, 0, .rsh, 0x800⟩]⟩,
  -- MTR_OSTD
  ⟨0x700280, [(64, 1)], [⟨12, 0, .rsh, 0x100⟩]⟩,
  -- MTR_OSTD
  ⟨0x7002C0, [(64, 1)], [⟨12, 0, .rsh, 0x40⟩]⟩,
  -- MTR_MINBW
  ⟨0x700104, [(64, 5)], [⟨11, 0, .rsh, 0⟩]⟩
]

/-- More registers of block MTR. -/
def catMTR1 : List RegRow := [
  -- MTR_MINBW
  ⟨0x700244, [(64, 1)], [⟨11, 0, .rsh, 4⟩]⟩,
  -- MTR_MINBW
  ⟨0x700284, [(64, 1)], [⟨11, 0, .rsh, 0⟩]⟩,
  -- MTR_MINBW
  ⟨0x7002C4, [(64, 1)], [⟨11, 0, .rsh, 1⟩]⟩,
  -- MTR_BURST
  ⟨0x700108, [(64, 4)], [⟨6, 0, .rsh, 4⟩]⟩,
  -- MTR_BURST
  ⟨0x700208, [(64, 1)], [⟨6, 0, .rsh, 0x10⟩]⟩,
  -- MTR_BURST
  ⟨0x700248, [(64, 3)], [⟨6, 0, .rsh, 4⟩]⟩,
  -- MTR_ACTBW
  ⟨0x70010C, [(64, 5)], [⟨27, 16, .ro, 0⟩, ⟨11, 0, .ro, 0⟩]⟩,
  -- MTR_ACTBW
  ⟨0x70024C, [(64, 1)], [⟨27, 16, .ro, 4⟩, ⟨11, 0, .ro, 4⟩]⟩,
  -- MTR_ACTBW
  ⟨0x70028C, [(64, 1)], [⟨27, 16, .ro, 0⟩, ⟨11, 0, .ro, 0⟩]⟩,
  -- MTR_ACTBW
  ⟨0x7002CC, [(64, 1)], [⟨27, 16, .ro, 1⟩, ⟨11, 0, .ro, 1⟩]⟩,
  -- MTR_STAT
  ⟨0x700110, [(64, 8)], [⟨31, 31, .ro, 0⟩, ⟨30, 28, .ro, 0⟩, ⟨27, 27, .ro, 0⟩, ⟨12, 0, .ro, 0⟩]⟩,
  -- MTR_BYTES_LO
  ⟨0x700114, [(64, 8)], [⟨31, 0, .ro, 0⟩]⟩
]

/-- More registers of block MTR. -/
def catMTR2 : List RegRow := [
  -- MTR_BYTES_HI
  ⟨0x700118, [(64, 8)], [⟨31, 0, .ro, 0⟩]⟩,
  -- MTR_HELD
  ⟨0x70011C, [(64, 8)], [⟨31, 0, .rw1c, 0⟩]⟩,
  -- MTR_PREEMPT
  ⟨0x700120, [(64, 8)], [⟨31, 0, .rw1c, 0⟩]⟩,
  -- MTR_GSHORT
  ⟨0x700124, [(64, 8)], [⟨31, 0, .rw1c, 0⟩]⟩,
  -- MTR_MAXLAT
  ⟨0x700128, [(64, 8)], [⟨15, 0, .rw1c, 0⟩]⟩
]

/-- Every register table of block MTR. -/
def catMTR : List RegRow := catMTR0 ++ catMTR1 ++ catMTR2

/-- The registers of block CHS. -/
def catCHS0 : List RegRow := [
  -- CHS_CTL
  ⟨0x800000, [], [⟨0, 0, .rw, 0⟩]⟩,
  -- CHS_STAT
  ⟨0x800004, [], [⟨20, 16, .ro, 0⟩, ⟨12, 8, .ro, 0⟩, ⟨0, 0, .ro, 0⟩]⟩,
  -- CHS_SRAM
  ⟨0x800008, [], [⟨29, 16, .rw1c, 0⟩, ⟨13, 0, .ro, 0x3000⟩]⟩,
  -- CHS_PACE
  ⟨0x80000C, [], [⟨27, 16, .rw1c, 0xfff⟩, ⟨11, 0, .ro, 0⟩]⟩,
  -- CHS_RDBYTES_LO
  ⟨0x800010, [], [⟨31, 0, .ro, 0⟩]⟩,
  -- CHS_RDBYTES_HI
  ⟨0x800014, [], [⟨31, 0, .ro, 0⟩]⟩,
  -- CHS_WRBYTES_LO
  ⟨0x800018, [], [⟨31, 0, .ro, 0⟩]⟩,
  -- CHS_WRBYTES_HI
  ⟨0x80001C, [], [⟨31, 0, .ro, 0⟩]⟩,
  -- CHS_ROWS_LO
  ⟨0x800020, [], [⟨31, 0, .ro, 0⟩]⟩,
  -- CHS_ROWS_HI
  ⟨0x800024, [], [⟨31, 0, .ro, 0⟩]⟩,
  -- CHS_JOBS
  ⟨0x800028, [], [⟨31, 0, .rw1c, 0⟩]⟩,
  -- CHS_PROWS
  ⟨0x80002C, [], [⟨31, 0, .rw1c, 0⟩]⟩
]

/-- More registers of block CHS. -/
def catCHS1 : List RegRow := [
  -- CHS_CHW
  ⟨0x800100, [(4, 32)], [⟨31, 16, .rw1c, 0⟩, ⟨15, 0, .ro, 0⟩]⟩,
  -- CHS_SLOTSTAT
  ⟨0x800200, [(16, 16)], [⟨31, 29, .ro, 0⟩, ⟨28, 28, .ro, 0⟩, ⟨27, 22, .ro, 0⟩, ⟨21, 20, .ro, 0⟩, ⟨15, 0, .ro, 0⟩]⟩,
  -- CHS_SLOTPOS
  ⟨0x800204, [(16, 16)], [⟨31, 0, .ro, 0⟩]⟩,
  -- CHS_SLOTSEL
  ⟨0x800208, [(16, 16)], [⟨31, 0, .ro, 0⟩]⟩,
  -- CHS_SLOTNEED
  ⟨0x80020C, [(16, 16)], [⟨13, 0, .ro, 0⟩]⟩,
  -- CHS_SUMWR
  ⟨0x801000, [], [⟨31, 0, .ro, 0⟩]⟩,
  -- CHS_SUMRD
  ⟨0x801004, [], [⟨31, 0, .rw, 0⟩]⟩,
  -- CHS_SUMSTAT
  ⟨0x801008, [], [⟨0, 0, .ro, 0⟩]⟩,
  -- CHS_SUM
  ⟨0x801010, [(4, 16)], [⟨31, 0, .ro, 0⟩]⟩
]

/-- Every register table of block CHS. -/
def catCHS : List RegRow := catCHS0 ++ catCHS1

/-- The registers of block KEEP. -/
def catKEEP0 : List RegRow := [
  -- KEEP_CTL
  ⟨0x900000, [], [⟨3, 3, .rw, 0⟩, ⟨2, 2, .rws, 0⟩, ⟨1, 1, .rw, 0⟩, ⟨0, 0, .rw, 1⟩]⟩,
  -- KEEP_STAT
  ⟨0x900004, [], [⟨25, 24, .ro, 0⟩, ⟨23, 23, .ro, 0⟩, ⟨22, 22, .ro, 0⟩, ⟨21, 20, .ro, 0⟩, ⟨14, 12, .ro, 0⟩, ⟨3, 3, .ro, 0⟩, ⟨2, 2, .ro, 0⟩, ⟨1, 0, .ro, 0⟩]⟩,
  -- KEEP_TRICKLE_BW
  ⟨0x900008, [], [⟨9, 0, .rw, 0x14⟩]⟩,
  -- KEEP_CATCHUP_BW
  ⟨0x90000C, [], [⟨9, 0, .rw, 0x1e0⟩]⟩,
  -- KEEP_SEAL_MS
  ⟨0x900010, [], [⟨15, 0, .rw, 0x3e8⟩]⟩,
  -- KEEP_OPEN_MS
  ⟨0x900014, [], [⟨15, 0, .rw, 0xfa⟩]⟩,
  -- KEEP_HOLDCAP
  ⟨0x900018, [], [⟨31, 0, .rw, 0⟩]⟩,
  -- KEEP_HOLDVMIN
  ⟨0x90001C, [], [⟨15, 0, .rw, 0⟩]⟩,
  -- KEEP_HOLDETA
  ⟨0x900020, [], [⟨9, 0, .rw, 0x352⟩]⟩,
  -- KEEP_HOLDFIX
  ⟨0x900024, [], [⟨15, 0, .ro, 0xbb8⟩]⟩,
  -- KEEP_HOLDCHK
  ⟨0x900028, [], [⟨31, 31, .ro, 0⟩, ⟨30, 0, .ro, 0⟩]⟩,
  -- KEEP_HOLDV
  ⟨0x90002C, [], [⟨15, 0, .ro, 0⟩]⟩
]

/-- More registers of block KEEP. -/
def catKEEP1 : List RegRow := [
  -- KEEP_EAVAIL
  ⟨0x900030, [], [⟨31, 0, .ro, 0⟩]⟩,
  -- KEEP_DIRTY
  ⟨0x900034, [], [⟨24, 0, .ro, 0⟩]⟩,
  -- KEEP_DMAX
  ⟨0x900038, [], [⟨24, 0, .ro, 0⟩]⟩,
  -- KEEP_SEALSEQ_LO
  ⟨0x900040, [], [⟨31, 0, .ro, 0⟩]⟩,
  -- KEEP_SEALSEQ_HI
  ⟨0x900044, [], [⟨31, 0, .ro, 0⟩]⟩,
  -- KEEP_SEALTIME_LO
  ⟨0x900048, [], [⟨31, 0, .ro, 0⟩]⟩,
  -- KEEP_SEALTIME_HI
  ⟨0x90004C, [], [⟨31, 0, .ro, 0⟩]⟩,
  -- KEEP_CKPTSEQ_LO
  ⟨0x900050, [], [⟨31, 0, .ro, 0⟩]⟩,
  -- KEEP_CKPTSEQ_HI
  ⟨0x900054, [], [⟨31, 0, .ro, 0⟩]⟩,
  -- KEEP_KEYPOL
  ⟨0x900058, [], [⟨8, 8, .ro, 0⟩, ⟨0, 0, .rw, 0⟩]⟩,
  -- KEEP_KEYSTAT
  ⟨0x90005C, [], [⟨31, 16, .ro, 0⟩, ⟨15, 8, .rw1c, 0⟩, ⟨1, 1, .ro, 0⟩, ⟨0, 0, .ro, 0⟩]⟩,
  -- KEEP_OLDLEFT
  ⟨0x900060, [], [⟨24, 0, .ro, 0⟩]⟩
]

/-- More registers of block KEEP. -/
def catKEEP2 : List RegRow := [
  -- KEEP_RESTPROG
  ⟨0x900064, [], [⟨20, 0, .ro, 0⟩]⟩,
  -- KEEP_TOUCH
  ⟨0x900068, [], [⟨31, 0, .rw1c, 0⟩]⟩,
  -- KEEP_TOUCHLAT
  ⟨0x90006C, [], [⟨15, 0, .rw1c, 0⟩]⟩,
  -- KEEP_ADMHOLD
  ⟨0x900070, [], [⟨31, 0, .rw1c, 0⟩]⟩,
  -- KEEP_COPIES_LO
  ⟨0x900074, [], [⟨31, 0, .ro, 0⟩]⟩,
  -- KEEP_COPIES_HI
  ⟨0x900078, [], [⟨31, 0, .ro, 0⟩]⟩,
  -- KEEP_SAVE
  ⟨0x90007C, [], [⟨31, 16, .ro, 0⟩, ⟨15, 0, .ro, 0⟩]⟩,
  -- KEEP_LOSTPG
  ⟨0x900080, [], [⟨24, 0, .ro, 0⟩]⟩,
  -- KEEP_POOLFREE
  ⟨0x900100, [(16, 2)], [⟨20, 0, .ro, 0⟩]⟩,
  -- KEEP_POOLPEND
  ⟨0x900104, [(16, 2)], [⟨20, 0, .ro, 0⟩]⟩,
  -- KEEP_WEARMAX
  ⟨0x900108, [(16, 2)], [⟨31, 0, .ro, 0⟩]⟩,
  -- KEEP_SPARE
  ⟨0x90010C, [(16, 2)], [⟨18, 0, .ro, 0⟩]⟩
]

/-- More registers of block KEEP. -/
def catKEEP3 : List RegRow := [
  -- KEEP_RETIRED
  ⟨0x900120, [(4, 2)], [⟨31, 0, .ro, 0⟩]⟩,
  -- KEEP_WEARQ
  ⟨0x900140, [], [⟨24, 24, .rw, 0⟩, ⟨23, 0, .rw, 0⟩]⟩,
  -- KEEP_WEARQV
  ⟨0x900144, [], [⟨31, 0, .ro, 0⟩]⟩
]

/-- Every register table of block KEEP. -/
def catKEEP : List RegRow := catKEEP0 ++ catKEEP1 ++ catKEEP2 ++ catKEEP3

/-- The registers of block INT. -/
def catINT0 : List RegRow := [
  -- INT_CTL
  ⟨0xA00000, [], [⟨11, 8, .rw, 3⟩, ⟨7, 4, .rw, 2⟩, ⟨0, 0, .rw, 1⟩]⟩,
  -- INT_SCRUB_HRS
  ⟨0xA00004, [], [⟨7, 0, .rw, 0x18⟩]⟩,
  -- INT_SCRUB_POS
  ⟨0xA00008, [], [⟨28, 0, .rws, 0⟩]⟩,
  -- INT_SCRUB_PASS
  ⟨0xA0000C, [], [⟨31, 16, .rws, 0⟩, ⟨15, 0, .rws, 0⟩]⟩,
  -- INT_SCRUB_STAT
  ⟨0xA00010, [], [⟨1, 1, .ro, 0⟩, ⟨0, 0, .ro, 0⟩]⟩,
  -- INT_CECNT_LO
  ⟨0xA00018, [], [⟨31, 0, .rws, 0⟩]⟩,
  -- INT_CECNT_HI
  ⟨0xA0001C, [], [⟨31, 0, .rws, 0⟩]⟩,
  -- INT_UECNT
  ⟨0xA00020, [], [⟨31, 0, .rws, 0⟩]⟩,
  -- INT_RECOVCNT
  ⟨0xA00024, [], [⟨31, 0, .rws, 0⟩]⟩,
  -- INT_POISCNT
  ⟨0xA00028, [], [⟨31, 0, .rws, 0⟩]⟩,
  -- INT_MISDIR
  ⟨0xA0002C, [], [⟨31, 0, .rws, 0⟩]⟩,
  -- INT_UELAST
  ⟨0xA00030, [], [⟨31, 31, .rws, 0⟩, ⟨30, 0, .rws, 0⟩]⟩
]

/-- More registers of block INT. -/
def catINT1 : List RegRow := [
  -- INT_UEINFO
  ⟨0xA00034, [], [⟨5, 5, .rws, 0⟩, ⟨4, 4, .rws, 0⟩, ⟨3, 3, .rws, 0⟩, ⟨2, 0, .rws, 0⟩]⟩,
  -- INT_CELOG_OVF
  ⟨0xA00040, [], [⟨31, 0, .rws, 0⟩]⟩,
  -- INT_CELOG_USED
  ⟨0xA00044, [], [⟨6, 0, .ro, 0⟩]⟩,
  -- INT_REPFUSE
  ⟨0xA00048, [], [⟨20, 16, .ro, 0⟩, ⟨8, 0, .ro, 0⟩]⟩,
  -- INT_REPROW
  ⟨0xA0004C, [], [⟨31, 16, .ro, 0⟩, ⟨15, 0, .ro, 0⟩]⟩,
  -- INT_REPTSV
  ⟨0xA00050, [], [⟨31, 24, .ro, 0⟩, ⟨23, 16, .ro, 0⟩, ⟨15, 8, .ro, 0⟩, ⟨7, 0, .ro, 0⟩]⟩,
  -- INT_PEND
  ⟨0xA00060, [(4, 16)], [⟨31, 0, .rws, 0⟩]⟩,
  -- INT_CH_CE
  ⟨0xA00100, [(16, 32)], [⟨31, 0, .rws, 0⟩]⟩,
  -- INT_CH_UE
  ⟨0xA00104, [(16, 32)], [⟨31, 0, .rws, 0⟩]⟩,
  -- INT_PCSTAT
  ⟨0xA00108, [(16, 32)], [⟨20, 20, .ro, 0⟩, ⟨19, 17, .ro, 0⟩, ⟨15, 8, .ro, 0⟩, ⟨7, 0, .ro, 0⟩]⟩,
  -- INT_CH_ROWS
  ⟨0xA0010C, [(16, 32)], [⟨31, 16, .ro, 0⟩, ⟨15, 0, .ro, 0⟩]⟩,
  -- INT_KEEPBUS
  ⟨0xA00300, [(4, 2)], [⟨4, 4, .ro, 0⟩, ⟨3, 3, .ro, 0⟩, ⟨2, 0, .ro, 0⟩]⟩
]

/-- More registers of block INT. -/
def catINT2 : List RegRow := [
  -- INT_TSVC
  ⟨0xA00400, [(4, 18)], [⟨31, 24, .ro, 0⟩, ⟨23, 16, .ro, 0⟩, ⟨9, 0, .rw1c, 0x3ff⟩]⟩,
  -- INT_FENCE
  ⟨0xA00500, [(4, 16)], [⟨31, 31, .ro, 0⟩, ⟨30, 26, .ro, 0⟩, ⟨25, 25, .ro, 0⟩, ⟨24, 21, .ro, 0⟩, ⟨16, 0, .ro, 0⟩]⟩,
  -- INT_CELOG_A
  ⟨0xA01000, [(16, 64)], [⟨31, 31, .rw1c, 0⟩, ⟨30, 0, .rws, 0⟩]⟩,
  -- INT_CELOG_B
  ⟨0xA01004, [(16, 64)], [⟨31, 24, .rws, 0⟩, ⟨21, 16, .rws, 0⟩, ⟨15, 10, .rws, 0x3f⟩, ⟨9, 8, .rws, 0⟩, ⟨7, 5, .rws, 0⟩, ⟨4, 4, .rws, 0⟩, ⟨3, 3, .rws, 0⟩]⟩,
  -- INT_CELOG_F
  ⟨0xA01008, [(16, 64)], [⟨31, 0, .rws, 0⟩]⟩,
  -- INT_CELOG_L
  ⟨0xA0100C, [(16, 64)], [⟨31, 0, .rws, 0⟩]⟩
]

/-- Every register table of block INT. -/
def catINT : List RegRow := catINT0 ++ catINT1 ++ catINT2

/-- The registers of block THM. -/
def catTHM0 : List RegRow := [
  -- THM_CTL
  ⟨0xB00000, [], [⟨3, 0, .rws, 0⟩]⟩,
  -- THM_STAT
  ⟨0xB00004, [], [⟨31, 16, .ro, 0x8000⟩, ⟨15, 11, .ro, 0⟩, ⟨10, 9, .ro, 0⟩, ⟨8, 8, .ro, 0⟩, ⟨7, 7, .ro, 0⟩, ⟨6, 6, .ro, 0⟩]⟩,
  -- THM_LID
  ⟨0xB00008, [], [⟨15, 0, .ro, 0x8000⟩]⟩,
  -- THM_PWRTOT
  ⟨0xB0000C, [], [⟨16, 0, .ro, 0⟩]⟩,
  -- THM_ENERGY_LO
  ⟨0xB00010, [], [⟨31, 0, .ro, 0⟩]⟩,
  -- THM_ENERGY_HI
  ⟨0xB00014, [], [⟨31, 0, .ro, 0⟩]⟩,
  -- THM_THRMS
  ⟨0xB00018, [], [⟨31, 0, .rw1c, 0⟩]⟩,
  -- THM_TRIP
  ⟨0xB0001C, [], [⟨31, 16, .rws, 0⟩, ⟨15, 11, .rws, 0⟩, ⟨10, 10, .rws, 0⟩]⟩,
  -- THM_SENSMASK
  ⟨0xB00020, [(4, 3)], [⟨31, 0, .rw, 0⟩]⟩,
  -- THM_SENSSUSP
  ⟨0xB00030, [(4, 3)], [⟨31, 0, .ro, 0⟩]⟩,
  -- THM_CRS
  ⟨0xB00100, [(4, 20)], [⟨31, 16, .ro, 0x8000⟩, ⟨12, 12, .ro, 0⟩, ⟨11, 10, .ro, 0⟩, ⟨9, 8, .ro, 0⟩, ⟨3, 0, .ro, 0⟩]⟩,
  -- THM_CRSMAX
  ⟨0xB00180, [(4, 20)], [⟨15, 0, .rw1c, 0x8000⟩]⟩
]

/-- More registers of block THM. -/
def catTHM1 : List RegRow := [
  -- THM_QUAD
  ⟨0xB00200, [(16, 20), (4, 4)], [⟨31, 16, .ro, 0x8000⟩, ⟨15, 0, .ro, 0x8000⟩]⟩,
  -- THM_SENS
  ⟨0xB00400, [(4, 88)], [⟨15, 0, .ro, 0x8000⟩]⟩,
  -- THM_PWR
  ⟨0xB00600, [(4, 19)], [⟨15, 0, .ro, 0⟩]⟩,
  -- THM_SEG
  ⟨0xB00700, [(4, 40)], [⟨31, 16, .ro, 0⟩, ⟨15, 0, .ro, 0⟩]⟩
]

/-- Every register table of block THM. -/
def catTHM : List RegRow := catTHM0 ++ catTHM1

/-- The registers of block CAL. -/
def catCAL0 : List RegRow := [
  -- CAL_CTL
  ⟨0xC00000, [], [⟨31, 16, .rw, 0x64⟩, ⟨15, 8, .rw, 0x14⟩, ⟨2, 2, .rw, 1⟩, ⟨1, 1, .rw, 1⟩, ⟨0, 0, .rw, 1⟩]⟩,
  -- CAL_STAT
  ⟨0xC00004, [], [⟨31, 28, .ro, 0⟩, ⟨15, 8, .ro, 0⟩, ⟨3, 3, .ro, 0⟩, ⟨2, 2, .ro, 0⟩, ⟨1, 1, .ro, 0⟩, ⟨0, 0, .ro, 0⟩]⟩,
  -- CAL_COUNT
  ⟨0xC00008, [], [⟨31, 0, .ro, 0⟩]⟩,
  -- CAL_LAST_TIME_LO
  ⟨0xC0000C, [], [⟨31, 0, .ro, 0⟩]⟩,
  -- CAL_LAST_TIME_HI
  ⟨0xC00010, [], [⟨31, 0, .ro, 0⟩]⟩,
  -- CAL_RESMEAS
  ⟨0xC00014, [], [⟨15, 0, .ro, 0⟩]⟩,
  -- CAL_REFCLK
  ⟨0xC00018, [], [⟨15, 0, .ro, 0⟩]⟩,
  -- CAL_STEP
  ⟨0xC0001C, [], [⟨15, 0, .ro, 0x190⟩]⟩,
  -- CAL_ZTSV
  ⟨0xC00020, [], [⟨21, 16, .rw, 0⟩, ⟨13, 8, .rw, 0⟩, ⟨5, 0, .rw, 0⟩]⟩,
  -- CAL_ZLANE
  ⟨0xC00030, [(4, 4)], [⟨13, 8, .rw, 0⟩, ⟨5, 0, .rw, 0⟩]⟩,
  -- CAL_SGAIN
  ⟨0xC00100, [(4, 40)], [⟨31, 16, .rw, 0⟩, ⟨15, 0, .rw, 0⟩]⟩,
  -- CAL_SOFF
  ⟨0xC00200, [(4, 88)], [⟨15, 0, .rw, 0⟩]⟩
]

/-- More registers of block CAL. -/
def catCAL1 : List RegRow := [
  -- CAL_REGION
  ⟨0xC00400, [(4, 64)], [⟨23, 16, .ro, 0⟩, ⟨15, 0, .ro, 0⟩]⟩,
  -- CAL_ROLL
  ⟨0xC01000, [(32, 32)], [⟨31, 31, .ro, 0⟩, ⟨30, 24, .ro, 0x7f⟩, ⟨23, 23, .ro, 0⟩, ⟨22, 22, .ro, 0⟩, ⟨15, 0, .rw1c, 0⟩]⟩,
  -- CAL_LAST
  ⟨0xC01004, [(32, 32)], [⟨31, 28, .ro, 0⟩, ⟨27, 20, .ro, 0⟩, ⟨19, 10, .ro, 0⟩, ⟨7, 0, .ro, 0⟩]⟩,
  -- CAL_EYEMIN
  ⟨0xC01008, [(32, 32)], [⟨31, 25, .ro, 0⟩, ⟨9, 0, .rw1c, 0x3ff⟩]⟩,
  -- CAL_FAIL
  ⟨0xC0100C, [(32, 32)], [⟨31, 16, .rw1c, 0⟩, ⟨15, 0, .rw1c, 0⟩]⟩,
  -- CAL_DSTEP
  ⟨0xC01010, [(32, 32)], [⟨31, 16, .ro, 0x190⟩, ⟨7, 0, .ro, 0⟩]⟩,
  -- CAL_KDLY
  ⟨0xC02000, [(256, 2), (4, 45)], [⟨31, 24, .rsh, 0x80⟩, ⟨23, 16, .rsh, 0x80⟩, ⟨15, 8, .rsh, 0x80⟩, ⟨7, 0, .rsh, 0x80⟩]⟩,
  -- CAL_KAPPLY
  ⟨0xC020C0, [(256, 2)], [⟨8, 8, .ro, 0⟩, ⟨0, 0, .wo, 0⟩]⟩,
  -- CAL_KOVR
  ⟨0xC020C4, [(256, 2)], [⟨0, 0, .rw, 0⟩]⟩,
  -- CAL_KROLL
  ⟨0xC020C8, [(256, 2)], [⟨31, 31, .ro, 0⟩, ⟨30, 23, .ro, 0xff⟩, ⟨22, 22, .ro, 0⟩, ⟨15, 0, .rw1c, 0⟩]⟩,
  -- CAL_KLAST
  ⟨0xC020CC, [(256, 2)], [⟨31, 28, .ro, 0⟩, ⟨27, 20, .ro, 0⟩, ⟨19, 10, .ro, 0⟩, ⟨7, 0, .ro, 0⟩]⟩
]

/-- Every register table of block CAL. -/
def catCAL : List RegRow := catCAL0 ++ catCAL1

/-- The registers of block BST. -/
def catBST0 : List RegRow := [
  -- BST_CTL
  ⟨0xD00000, [], [⟨31, 16, .rw, 0xa⟩, ⟨1, 1, .rw, 1⟩, ⟨0, 0, .rw, 1⟩]⟩,
  -- BST_STAT
  ⟨0xD00004, [], [⟨31, 28, .ro, 0⟩, ⟨20, 16, .ro, 0⟩]⟩,
  -- BST_TARGET
  ⟨0xD00008, [], [⟨31, 0, .ro, 0⟩]⟩,
  -- BST_POS_ROW
  ⟨0xD0000C, [], [⟨26, 0, .rws, 0⟩]⟩,
  -- BST_POS_TSV
  ⟨0xD00010, [], [⟨12, 0, .rws, 0⟩]⟩,
  -- BST_PASSES
  ⟨0xD00014, [], [⟨31, 16, .rws, 0⟩, ⟨15, 0, .rws, 0⟩]⟩,
  -- BST_CNT_PASS
  ⟨0xD00018, [], [⟨31, 0, .rws, 0⟩]⟩,
  -- BST_CNT_FAIL
  ⟨0xD0001C, [], [⟨31, 0, .rws, 0⟩]⟩,
  -- BST_CNT_INC
  ⟨0xD00020, [], [⟨31, 0, .rws, 0⟩]⟩,
  -- BST_CNT_DEFER
  ⟨0xD00024, [], [⟨31, 0, .rws, 0⟩]⟩,
  -- BST_POWERUP
  ⟨0xD00028, [], [⟨31, 31, .ro, 0⟩, ⟨30, 28, .ro, 0⟩, ⟨27, 24, .ro, 0⟩, ⟨23, 16, .ro, 0⟩, ⟨15, 0, .ro, 0⟩]⟩,
  -- BST_SCAN
  ⟨0xD0002C, [], [⟨1, 1, .rws, 0⟩, ⟨0, 0, .ro, 0⟩]⟩
]

/-- More registers of block BST. -/
def catBST1 : List RegRow := [
  -- BST_INC
  ⟨0xD00100, [(4, 16)], [⟨31, 0, .rws, 0⟩]⟩,
  -- BST_LOGWR
  ⟨0xD00200, [], [⟨31, 0, .ro, 0⟩]⟩,
  -- BST_LOGRD
  ⟨0xD00204, [], [⟨31, 0, .rw, 0⟩]⟩,
  -- BST_LOGSTAT
  ⟨0xD00208, [], [⟨0, 0, .ro, 0⟩]⟩,
  -- BST_LOG
  ⟨0xD00210, [(4, 16)], [⟨31, 0, .ro, 0⟩]⟩
]

/-- Every register table of block BST. -/
def catBST : List RegRow := catBST0 ++ catBST1

/-- The registers of block EVT. -/
def catEVT0 : List RegRow := [
  -- EVT_WR_SEQ
  ⟨0xE00000, [], [⟨31, 0, .ro, 0⟩]⟩,
  -- EVT_RD_SEQ
  ⟨0xE00008, [], [⟨31, 0, .rws, 0⟩]⟩,
  -- EVT_RD_STAT
  ⟨0xE0000C, [], [⟨0, 0, .ro, 0⟩]⟩,
  -- EVT_ENT
  ⟨0xE00010, [(4, 4)], [⟨31, 0, .ro, 0⟩]⟩,
  -- EVT_ALERT_SEV
  ⟨0xE00020, [], [⟨2, 0, .rws, 2⟩]⟩,
  -- EVT_ACK_SEQ
  ⟨0xE00024, [], [⟨31, 0, .rws, 0xffffffff⟩]⟩,
  -- EVT_ALERT_SEQ
  ⟨0xE00028, [], [⟨31, 0, .ro, 0xffffffff⟩]⟩,
  -- EVT_MSGDEST
  ⟨0xE00040, [(4, 4)], [⟨31, 31, .rw, 0⟩, ⟨30, 28, .rw, 2⟩, ⟨13, 0, .rw, 0⟩]⟩
]

/-- Every register table of block EVT. -/
def catEVT : List RegRow := catEVT0

/-- The catalogue of a block by the number of R34. -/
def catalogue (blk : Nat) : List RegRow :=
  match blk with
  | 0 => catKS
  | 1 => catRST
  | 2 => catFUS
  | 3 => catLNK
  | 4 => catLTC
  | 5 => catWQ
  | 6 => catMC
  | 7 => catMTR
  | 8 => catCHS
  | 9 => catKEEP
  | 10 => catINT
  | 11 => catTHM
  | 12 => catCAL
  | 13 => catBST
  | 14 => catEVT
  | _ => []

/-- R42. -/
def KS_ID : Nat := 0x0
def KS_ID_PART : Fld := ⟨KS_ID, 31, 16⟩
def KS_ID_FAMILY : Fld := ⟨KS_ID, 15, 8⟩
def KS_ID_VENDOR : Fld := ⟨KS_ID, 7, 0⟩
/-- R42. -/
def KS_REV : Nat := 0x4
def KS_REV_BASE : Fld := ⟨KS_REV, 7, 4⟩
def KS_REV_METAL : Fld := ⟨KS_REV, 3, 0⟩
/-- R42. -/
def KS_STATE : Nat := 0x8
def KS_STATE_PREV : Fld := ⟨KS_STATE, 7, 4⟩
def KS_STATE_STATE : Fld := ⟨KS_STATE, 3, 0⟩
/-- R42. -/
def KS_STRAP : Nat := 0xC
def KS_STRAP_SBADDR : Fld := ⟨KS_STRAP, 3, 1⟩
def KS_STRAP_COMPAT : Fld := ⟨KS_STRAP, 0, 0⟩
/-- R42. -/
def KS_FWVER : Nat := 0x10
def KS_FWVER_MAJOR : Fld := ⟨KS_FWVER, 31, 24⟩
def KS_FWVER_MINOR : Fld := ⟨KS_FWVER, 23, 16⟩
def KS_FWVER_BUILD : Fld := ⟨KS_FWVER, 15, 1⟩
def KS_FWVER_SLOT : Fld := ⟨KS_FWVER, 0, 0⟩
/-- R42. -/
def KS_TIME_LO : Nat := 0x20
def KS_TIME_LO_TIME : Fld := ⟨KS_TIME_LO, 31, 0⟩
/-- R42. -/
def KS_TIME_HI : Nat := 0x24
def KS_TIME_HI_TIME : Fld := ⟨KS_TIME_HI, 31, 0⟩
/-- R44. -/
def KS_SEM_LEASE : Nat := 0x30
def KS_SEM_LEASE_LEASE_MS : Fld := ⟨KS_SEM_LEASE, 15, 0⟩
/-- R44. -/
def KS_SESSION : Nat := 0x34
def KS_SESSION_EPOCH : Fld := ⟨KS_SESSION, 15, 0⟩
/-- R44. -/
def KS_SEM (n : Nat) : Nat := 0x1000 + 16 * n
def KS_SEM_HELD (n : Nat) : Fld := ⟨KS_SEM n, 31, 31⟩
def KS_SEM_BROKEN (n : Nat) : Fld := ⟨KS_SEM n, 30, 30⟩
def KS_SEM_SRC (n : Nat) : Fld := ⟨KS_SEM n, 29, 28⟩
def KS_SEM_OWNER (n : Nat) : Fld := ⟨KS_SEM n, 27, 14⟩
def KS_SEM_PORT (n : Nat) : Fld := ⟨KS_SEM n, 13, 12⟩
/-- R44. -/
def KS_SEM_CMD (n : Nat) : Nat := 0x1004 + 16 * n
def KS_SEM_CMD_EPOCH (n : Nat) : Fld := ⟨KS_SEM_CMD n, 31, 16⟩
def KS_SEM_CMD_CMD (n : Nat) : Fld := ⟨KS_SEM_CMD n, 1, 0⟩
/-- R44. -/
def KS_SEM_EPOCH (n : Nat) : Nat := 0x1008 + 16 * n
def KS_SEM_EPOCH_LEFT_MS (n : Nat) : Fld := ⟨KS_SEM_EPOCH n, 31, 16⟩
def KS_SEM_EPOCH_EPOCH (n : Nat) : Fld := ⟨KS_SEM_EPOCH n, 15, 0⟩
/-- R46. -/
def EVT_WR_SEQ : Nat := 0xE00000
def EVT_WR_SEQ_SEQ : Fld := ⟨EVT_WR_SEQ, 31, 0⟩
/-- R46. -/
def EVT_RD_SEQ : Nat := 0xE00008
def EVT_RD_SEQ_SEQ : Fld := ⟨EVT_RD_SEQ, 31, 0⟩
/-- R46. -/
def EVT_RD_STAT : Nat := 0xE0000C
def EVT_RD_STAT_VALID : Fld := ⟨EVT_RD_STAT, 0, 0⟩
/-- R46. -/
def EVT_ENT (n : Nat) : Nat := 0xE00010 + 4 * n
def EVT_ENT_DATA (n : Nat) : Fld := ⟨EVT_ENT n, 31, 0⟩
/-- R46. -/
def EVT_ALERT_SEV : Nat := 0xE00020
def EVT_ALERT_SEV_SEV : Fld := ⟨EVT_ALERT_SEV, 2, 0⟩
/-- R46. -/
def EVT_ACK_SEQ : Nat := 0xE00024
def EVT_ACK_SEQ_SEQ : Fld := ⟨EVT_ACK_SEQ, 31, 0⟩
/-- R46. -/
def EVT_ALERT_SEQ : Nat := 0xE00028
def EVT_ALERT_SEQ_SEQ : Fld := ⟨EVT_ALERT_SEQ, 31, 0⟩
/-- R46. -/
def EVT_MSGDEST (n : Nat) : Nat := 0xE00040 + 4 * n
def EVT_MSGDEST_EN (n : Nat) : Fld := ⟨EVT_MSGDEST n, 31, 31⟩
def EVT_MSGDEST_MIN_SEV (n : Nat) : Fld := ⟨EVT_MSGDEST n, 30, 28⟩
def EVT_MSGDEST_DEST (n : Nat) : Fld := ⟨EVT_MSGDEST n, 13, 0⟩
/-- R71. -/
def LNK_CTL (p : Nat) : Nat := 0x300000 + 65536 * p
def LNK_CTL_RETRAIN (p : Nat) : Fld := ⟨LNK_CTL p, 3, 3⟩
def LNK_CTL_ENABLE (p : Nat) : Fld := ⟨LNK_CTL p, 2, 2⟩
def LNK_CTL_GENMAX (p : Nat) : Fld := ⟨LNK_CTL p, 1, 0⟩
/-- R71. -/
def LNK_STAT (p : Nat) : Nat := 0x300004 + 65536 * p
def LNK_STAT_LIMIT (p : Nat) : Fld := ⟨LNK_STAT p, 21, 20⟩
def LNK_STAT_PGEN (p : Nat) : Fld := ⟨LNK_STAT p, 19, 18⟩
def LNK_STAT_PARTNER (p : Nat) : Fld := ⟨LNK_STAT p, 17, 16⟩
def LNK_STAT_LS_USE (p : Nat) : Fld := ⟨LNK_STAT p, 15, 11⟩
def LNK_STAT_GROUP (p : Nat) : Fld := ⟨LNK_STAT p, 10, 8⟩
def LNK_STAT_WIDTH (p : Nat) : Fld := ⟨LNK_STAT p, 7, 6⟩
def LNK_STAT_GEN (p : Nat) : Fld := ⟨LNK_STAT p, 5, 4⟩
def LNK_STAT_STATE (p : Nat) : Fld := ⟨LNK_STAT p, 3, 0⟩
/-- R71. -/
def LNK_PARTNER (p : Nat) : Nat := 0x300008 + 65536 * p
def LNK_PARTNER_CAP (p : Nat) : Fld := ⟨LNK_PARTNER p, 15, 8⟩
def LNK_PARTNER_MAP (p : Nat) : Fld := ⟨LNK_PARTNER p, 7, 0⟩
/-- R71. -/
def LNK_TRAINCNT (p : Nat) : Nat := 0x30000C + 65536 * p
def LNK_TRAINCNT_SWAPS (p : Nat) : Fld := ⟨LNK_TRAINCNT p, 31, 16⟩
def LNK_TRAINCNT_TRAINS (p : Nat) : Fld := ⟨LNK_TRAINCNT p, 15, 0⟩
/-- R71. -/
def LNK_SKEW (p : Nat) : Nat := 0x300010 + 65536 * p
def LNK_SKEW_LANE (p : Nat) : Fld := ⟨LNK_SKEW p, 20, 16⟩
def LNK_SKEW_SKEW_PS (p : Nat) : Fld := ⟨LNK_SKEW p, 15, 0⟩
/-- R71. -/
def LNK_LSTAT (p n : Nat) : Nat := 0x301000 + 65536 * p + 128 * n
def LNK_LSTAT_INV (p n : Nat) : Fld := ⟨LNK_LSTAT p n, 12, 12⟩
def LNK_LSTAT_LOGICAL (p n : Nat) : Fld := ⟨LNK_LSTAT p n, 11, 7⟩
def LNK_LSTAT_INUSE (p n : Nat) : Fld := ⟨LNK_LSTAT p n, 6, 6⟩
def LNK_LSTAT_FAILED (p n : Nat) : Fld := ⟨LNK_LSTAT p n, 5, 5⟩
def LNK_LSTAT_CLASS (p n : Nat) : Fld := ⟨LNK_LSTAT p n, 4, 3⟩
/-- R71. -/
def LNK_LFOM (p n : Nat) : Nat := 0x301004 + 65536 * p + 128 * n
def LNK_LFOM_PFOM (p n : Nat) : Fld := ⟨LNK_LFOM p n, 31, 24⟩
def LNK_LFOM_MAXFOM (p n : Nat) : Fld := ⟨LNK_LFOM p n, 23, 16⟩
def LNK_LFOM_MINFOM (p n : Nat) : Fld := ⟨LNK_LFOM p n, 15, 8⟩
def LNK_LFOM_FOM (p n : Nat) : Fld := ⟨LNK_LFOM p n, 7, 0⟩
/-- R71. -/
def LNK_LEQ (p n : Nat) : Nat := 0x301008 + 65536 * p + 128 * n
def LNK_LEQ_CTLE (p n : Nat) : Fld := ⟨LNK_LEQ p n, 31, 28⟩
def LNK_LEQ_DFE (p n : Nat) : Fld := ⟨LNK_LEQ p n, 27, 0⟩
/-- R71. -/
def LNK_LTXEQ (p n : Nat) : Nat := 0x30100C + 65536 * p + 128 * n
def LNK_LTXEQ_POST (p n : Nat) : Fld := ⟨LNK_LTXEQ p n, 17, 12⟩
def LNK_LTXEQ_MAIN (p n : Nat) : Fld := ⟨LNK_LTXEQ p n, 11, 6⟩
def LNK_LTXEQ_PRE (p n : Nat) : Fld := ⟨LNK_LTXEQ p n, 5, 0⟩
/-- R71. -/
def LNK_LFECC (p n : Nat) : Nat := 0x301010 + 65536 * p + 128 * n
def LNK_LFECC_COUNT (p n : Nat) : Fld := ⟨LNK_LFECC p n, 31, 0⟩
/-- R71. -/
def LNK_LFECU (p n : Nat) : Nat := 0x301014 + 65536 * p + 128 * n
def LNK_LFECU_COUNT (p n : Nat) : Fld := ⟨LNK_LFECU p n, 31, 0⟩
/-- R71. -/
def LNK_LMKERR (p n : Nat) : Nat := 0x301018 + 65536 * p + 128 * n
def LNK_LMKERR_COUNT (p n : Nat) : Fld := ⟨LNK_LMKERR p n, 31, 0⟩
/-- R71. -/
def LNK_LCTL (p n : Nat) : Nat := 0x30101C + 65536 * p + 128 * n
def LNK_LCTL_OUT (p n : Nat) : Fld := ⟨LNK_LCTL p n, 1, 1⟩
def LNK_LCTL_HFREEZE (p n : Nat) : Fld := ⟨LNK_LCTL p n, 0, 0⟩
/-- R71. -/
def LNK_HIST (p n k : Nat) : Nat := 0x301020 + 65536 * p + 128 * n + 4 * k
def LNK_HIST_ODD (p n k : Nat) : Fld := ⟨LNK_HIST p n k, 31, 16⟩
def LNK_HIST_EVEN (p n k : Nat) : Fld := ⟨LNK_HIST p n k, 15, 0⟩
/-- R71. -/
def LNK_LINTEL (n : Nat) : Nat := 0x340000 + 4 * n
def LNK_LINTEL_PIN (n : Nat) : Fld := ⟨LNK_LINTEL n, 15, 15⟩
def LNK_LINTEL_STATE (n : Nat) : Fld := ⟨LNK_LINTEL n, 14, 14⟩
def LNK_LINTEL_BOOT (n : Nat) : Fld := ⟨LNK_LINTEL n, 13, 13⟩
def LNK_LINTEL_RESET (n : Nat) : Fld := ⟨LNK_LINTEL n, 12, 12⟩
def LNK_LINTEL_CLOSED (n : Nat) : Fld := ⟨LNK_LINTEL n, 8, 8⟩
def LNK_LINTEL_CLOSE (n : Nat) : Fld := ⟨LNK_LINTEL n, 0, 0⟩
/-- R108. -/
def LTC_COORD : Nat := 0x400000
def LTC_COORD_VALID : Fld := ⟨LTC_COORD, 31, 31⟩
def LTC_COORD_X : Fld := ⟨LTC_COORD, 13, 7⟩
def LTC_COORD_Y : Fld := ⟨LTC_COORD, 6, 0⟩
/-- R108. -/
def LTC_RINGSIZE : Nat := 0x400004
def LTC_RINGSIZE_YSIZE : Fld := ⟨LTC_RINGSIZE, 15, 8⟩
def LTC_RINGSIZE_XSIZE : Fld := ⟨LTC_RINGSIZE, 7, 0⟩
/-- R108. -/
def LTC_LINKWAIT : Nat := 0x400008
def LTC_LINKWAIT_MS : Fld := ⟨LTC_LINKWAIT, 15, 0⟩
/-- R108. -/
def LTC_CPL_TMO : Nat := 0x40000C
def LTC_CPL_TMO_MS : Fld := ⟨LTC_CPL_TMO, 15, 0⟩
/-- R108. -/
def LTC_RSTAUTH_LOCK : Nat := 0x400010
def LTC_RSTAUTH_LOCK_LOCK : Fld := ⟨LTC_RSTAUTH_LOCK, 0, 0⟩
/-- R108. -/
def LTC_RSTLAST : Nat := 0x400014
def LTC_RSTLAST_VALID : Fld := ⟨LTC_RSTLAST, 31, 31⟩
def LTC_RSTLAST_PSEL : Fld := ⟨LTC_RSTLAST, 19, 18⟩
def LTC_RSTLAST_REACH : Fld := ⟨LTC_RSTLAST, 17, 16⟩
def LTC_RSTLAST_SRC : Fld := ⟨LTC_RSTLAST, 13, 0⟩
/-- R108. -/
def LTC_DROP : Nat := 0x400018
def LTC_DROP_LOCAL : Fld := ⟨LTC_DROP, 31, 16⟩
def LTC_DROP_ROUTE : Fld := ⟨LTC_DROP, 15, 0⟩
/-- R108. -/
def LTC_RSTAUTH (n : Nat) : Nat := 0x400020 + 4 * n
def LTC_RSTAUTH_EN (n : Nat) : Fld := ⟨LTC_RSTAUTH n, 31, 31⟩
def LTC_RSTAUTH_MAXREACH (n : Nat) : Fld := ⟨LTC_RSTAUTH n, 17, 16⟩
def LTC_RSTAUTH_ENDPOINT (n : Nat) : Fld := ⟨LTC_RSTAUTH n, 13, 0⟩
/-- R108. -/
def LTC_NBR (p : Nat) : Nat := 0x400100 + 64 * p
def LTC_NBR_VALID (p : Nat) : Fld := ⟨LTC_NBR p, 31, 31⟩
def LTC_NBR_CVALID (p : Nat) : Fld := ⟨LTC_NBR p, 30, 30⟩
def LTC_NBR_MISCONN (p : Nat) : Fld := ⟨LTC_NBR p, 29, 29⟩
def LTC_NBR_RESUMED (p : Nat) : Fld := ⟨LTC_NBR p, 28, 28⟩
def LTC_NBR_PROTO (p : Nat) : Fld := ⟨LTC_NBR p, 27, 24⟩
def LTC_NBR_KIND (p : Nat) : Fld := ⟨LTC_NBR p, 23, 22⟩
def LTC_NBR_ENDPOINT (p : Nat) : Fld := ⟨LTC_NBR p, 13, 0⟩
/-- R108. -/
def LTC_PEPOCH (p : Nat) : Nat := 0x400104 + 64 * p
def LTC_PEPOCH_PARTNER (p : Nat) : Fld := ⟨LTC_PEPOCH p, 31, 16⟩
def LTC_PEPOCH_OWN (p : Nat) : Fld := ⟨LTC_PEPOCH p, 15, 0⟩
/-- R108. -/
def LTC_RETRY (p : Nat) : Nat := 0x400108 + 64 * p
def LTC_RETRY_REPLAYS (p : Nat) : Fld := ⟨LTC_RETRY p, 31, 16⟩
def LTC_RETRY_FLITERR (p : Nat) : Fld := ⟨LTC_RETRY p, 15, 0⟩
/-- R108. -/
def LTC_LOST (p : Nat) : Nat := 0x40010C + 64 * p
def LTC_LOST_EXPIRED (p : Nat) : Fld := ⟨LTC_LOST p, 31, 16⟩
def LTC_LOST_DISCARD (p : Nat) : Fld := ⟨LTC_LOST p, 15, 0⟩
/-- R108. -/
def LTC_TXBYTES_LO (p : Nat) : Nat := 0x400110 + 64 * p
def LTC_TXBYTES_LO_BYTES (p : Nat) : Fld := ⟨LTC_TXBYTES_LO p, 31, 0⟩
/-- R108. -/
def LTC_TXBYTES_HI (p : Nat) : Nat := 0x400114 + 64 * p
def LTC_TXBYTES_HI_BYTES (p : Nat) : Fld := ⟨LTC_TXBYTES_HI p, 31, 0⟩
/-- R108. -/
def LTC_RXBYTES_LO (p : Nat) : Nat := 0x400118 + 64 * p
def LTC_RXBYTES_LO_BYTES (p : Nat) : Fld := ⟨LTC_RXBYTES_LO p, 31, 0⟩
/-- R108. -/
def LTC_RXBYTES_HI (p : Nat) : Nat := 0x40011C + 64 * p
def LTC_RXBYTES_HI_BYTES (p : Nat) : Fld := ⟨LTC_RXBYTES_HI p, 31, 0⟩
/-- R108. -/
def LTC_CREDIT (p n : Nat) : Nat := 0x400120 + 64 * p + 4 * n
def LTC_CREDIT_RXFREE (p n : Nat) : Fld := ⟨LTC_CREDIT p n, 31, 16⟩
def LTC_CREDIT_TXCRED (p n : Nat) : Fld := ⟨LTC_CREDIT p n, 15, 0⟩
/-- R139. -/
def WQ_GCTL : Nat := 0x500000
def WQ_GCTL_PAUSE : Fld := ⟨WQ_GCTL, 0, 0⟩
/-- R139. -/
def WQ_GSTAT : Nat := 0x500004
def WQ_GSTAT_QACTIVE : Fld := ⟨WQ_GSTAT, 22, 16⟩
def WQ_GSTAT_CHSUSED : Fld := ⟨WQ_GSTAT, 12, 8⟩
def WQ_GSTAT_KSWAIT : Fld := ⟨WQ_GSTAT, 3, 0⟩
/-- R139. -/
def WQ_CFG (q : Nat) : Nat := 0x510000 + 32 * q
def WQ_CFG_EN (q : Nat) : Fld := ⟨WQ_CFG q, 31, 31⟩
def WQ_CFG_DEPTH (q : Nat) : Fld := ⟨WQ_CFG q, 30, 27⟩
def WQ_CFG_CQLOG (q : Nat) : Fld := ⟨WQ_CFG q, 26, 22⟩
def WQ_CFG_SQLOG (q : Nat) : Fld := ⟨WQ_CFG q, 21, 17⟩
def WQ_CFG_HOST (q : Nat) : Fld := ⟨WQ_CFG q, 13, 0⟩
/-- R139. -/
def WQ_SQBASE (q : Nat) : Nat := 0x510004 + 32 * q
def WQ_SQBASE_ADDR (q : Nat) : Fld := ⟨WQ_SQBASE q, 27, 0⟩
/-- R139. -/
def WQ_CQBASE (q : Nat) : Nat := 0x510008 + 32 * q
def WQ_CQBASE_ADDR (q : Nat) : Fld := ⟨WQ_CQBASE q, 27, 0⟩
/-- R139. -/
def WQ_SQDB (q : Nat) : Nat := 0x51000C + 32 * q
def WQ_SQDB_TAIL (q : Nat) : Fld := ⟨WQ_SQDB q, 15, 0⟩
/-- R139. -/
def WQ_CQDB (q : Nat) : Nat := 0x510010 + 32 * q
def WQ_CQDB_HEAD (q : Nat) : Fld := ⟨WQ_CQDB q, 15, 0⟩
/-- R139. -/
def WQ_COAL (q : Nat) : Nat := 0x510014 + 32 * q
def WQ_COAL_MSGEN (q : Nat) : Fld := ⟨WQ_COAL q, 31, 31⟩
def WQ_COAL_COUNT (q : Nat) : Fld := ⟨WQ_COAL q, 23, 16⟩
def WQ_COAL_TIME_US (q : Nat) : Fld := ⟨WQ_COAL q, 15, 0⟩
/-- R139. -/
def WQ_STAT (q : Nat) : Nat := 0x510018 + 32 * q
def WQ_STAT_STATE (q : Nat) : Fld := ⟨WQ_STAT q, 31, 29⟩
def WQ_STAT_ERR (q : Nat) : Fld := ⟨WQ_STAT q, 28, 25⟩
def WQ_STAT_INFLIGHT (q : Nat) : Fld := ⟨WQ_STAT q, 24, 20⟩
def WQ_STAT_SQHEAD (q : Nat) : Fld := ⟨WQ_STAT q, 15, 0⟩
/-- R139. -/
def WQ_PROG (q : Nat) : Nat := 0x51001C + 32 * q
def WQ_PROG_IGNDB (q : Nat) : Fld := ⟨WQ_PROG q, 31, 24⟩
def WQ_PROG_PHASE (q : Nat) : Fld := ⟨WQ_PROG q, 16, 16⟩
def WQ_PROG_CQTAIL (q : Nat) : Fld := ⟨WQ_PROG q, 15, 0⟩
/-- R166. -/
def MC_CTL (c : Nat) : Nat := 0x600000 + 32768 * c
def MC_CTL_PULLINOFF (c : Nat) : Fld := ⟨MC_CTL c, 5, 5⟩
def MC_CTL_BATCHOFF (c : Nat) : Fld := ⟨MC_CTL c, 4, 4⟩
def MC_CTL_POLICY (c : Nat) : Fld := ⟨MC_CTL c, 1, 0⟩
/-- R166. -/
def MC_STAT (c : Nat) : Nat := 0x600004 + 32768 * c
def MC_STAT_DEGR (c : Nat) : Fld := ⟨MC_STAT c, 13, 12⟩
def MC_STAT_THR (c : Nat) : Fld := ⟨MC_STAT c, 9, 8⟩
def MC_STAT_BAND (c : Nat) : Fld := ⟨MC_STAT c, 5, 4⟩
def MC_STAT_STATE (c : Nat) : Fld := ⟨MC_STAT c, 2, 0⟩
/-- R166. -/
def MC_PAGE (c : Nat) : Nat := 0x600008 + 32768 * c
def MC_PAGE_HITMAX (c : Nat) : Fld := ⟨MC_PAGE c, 23, 16⟩
def MC_PAGE_IDLE_NS (c : Nat) : Fld := ⟨MC_PAGE c, 15, 0⟩
/-- R166. -/
def MC_BATCH (c : Nat) : Nat := 0x60000C + 32768 * c
def MC_BATCH_BMAX (c : Nat) : Fld := ⟨MC_BATCH c, 31, 24⟩
def MC_BATCH_WHI (c : Nat) : Fld := ⟨MC_BATCH c, 15, 8⟩
def MC_BATCH_WLO (c : Nat) : Fld := ⟨MC_BATCH c, 7, 0⟩
/-- R166. -/
def MC_LTGT (c m : Nat) : Nat := 0x600010 + 32768 * c + 4 * m
def MC_LTGT_NS (c m : Nat) : Fld := ⟨MC_LTGT c m, 15, 0⟩
/-- R166. -/
def MC_REFCTL (c : Nat) : Nat := 0x600030 + 32768 * c
def MC_REFCTL_CAP1X (c : Nat) : Fld := ⟨MC_REFCTL c, 11, 8⟩
def MC_REFCTL_BANDMIN (c : Nat) : Fld := ⟨MC_REFCTL c, 1, 0⟩
/-- R166. -/
def MC_REFSTAT (c : Nat) : Nat := 0x600034 + 32768 * c
def MC_REFSTAT_DEBT1 (c : Nat) : Fld := ⟨MC_REFSTAT c, 13, 8⟩
def MC_REFSTAT_DEBT0 (c : Nat) : Fld := ⟨MC_REFSTAT c, 5, 0⟩
/-- R166. -/
def MC_TRRCTL (c : Nat) : Nat := 0x600038 + 32768 * c
def MC_TRRCTL_THRESH (c : Nat) : Fld := ⟨MC_TRRCTL c, 15, 0⟩
/-- R166. -/
def MC_TRRSTAT (c : Nat) : Nat := 0x60003C + 32768 * c
def MC_TRRSTAT_COUNT (c : Nat) : Fld := ⟨MC_TRRSTAT c, 31, 0⟩
/-- R166. -/
def MC_TIM0 (c : Nat) : Nat := 0x600040 + 32768 * c
def MC_TIM0_T (c : Nat) : Fld := ⟨MC_TIM0 c, 31, 0⟩
/-- R166. -/
def MC_TIM1 (c : Nat) : Nat := 0x600044 + 32768 * c
def MC_TIM1_T (c : Nat) : Fld := ⟨MC_TIM1 c, 31, 0⟩
/-- R166. -/
def MC_TIM2 (c : Nat) : Nat := 0x600048 + 32768 * c
def MC_TIM2_T (c : Nat) : Fld := ⟨MC_TIM2 c, 31, 0⟩
/-- R166. -/
def MC_TIM3 (c : Nat) : Nat := 0x60004C + 32768 * c
def MC_TIM3_T (c : Nat) : Fld := ⟨MC_TIM3 c, 31, 0⟩
/-- R166. -/
def MC_RD_LO (c : Nat) : Nat := 0x600050 + 32768 * c
def MC_RD_LO_COUNT (c : Nat) : Fld := ⟨MC_RD_LO c, 31, 0⟩
/-- R166. -/
def MC_RD_HI (c : Nat) : Nat := 0x600054 + 32768 * c
def MC_RD_HI_COUNT (c : Nat) : Fld := ⟨MC_RD_HI c, 31, 0⟩
/-- R166. -/
def MC_WR_LO (c : Nat) : Nat := 0x600058 + 32768 * c
def MC_WR_LO_COUNT (c : Nat) : Fld := ⟨MC_WR_LO c, 31, 0⟩
/-- R166. -/
def MC_WR_HI (c : Nat) : Nat := 0x60005C + 32768 * c
def MC_WR_HI_COUNT (c : Nat) : Fld := ⟨MC_WR_HI c, 31, 0⟩
/-- R166. -/
def MC_ACT_LO (c : Nat) : Nat := 0x600060 + 32768 * c
def MC_ACT_LO_COUNT (c : Nat) : Fld := ⟨MC_ACT_LO c, 31, 0⟩
/-- R166. -/
def MC_ACT_HI (c : Nat) : Nat := 0x600064 + 32768 * c
def MC_ACT_HI_COUNT (c : Nat) : Fld := ⟨MC_ACT_HI c, 31, 0⟩
/-- R166. -/
def MC_HIT_LO (c : Nat) : Nat := 0x600068 + 32768 * c
def MC_HIT_LO_COUNT (c : Nat) : Fld := ⟨MC_HIT_LO c, 31, 0⟩
/-- R166. -/
def MC_HIT_HI (c : Nat) : Nat := 0x60006C + 32768 * c
def MC_HIT_HI_COUNT (c : Nat) : Fld := ⟨MC_HIT_HI c, 31, 0⟩
/-- R166. -/
def MC_REFPB_LO (c : Nat) : Nat := 0x600070 + 32768 * c
def MC_REFPB_LO_COUNT (c : Nat) : Fld := ⟨MC_REFPB_LO c, 31, 0⟩
/-- R166. -/
def MC_REFPB_HI (c : Nat) : Nat := 0x600074 + 32768 * c
def MC_REFPB_HI_COUNT (c : Nat) : Fld := ⟨MC_REFPB_HI c, 31, 0⟩
/-- R166. -/
def MC_REFAB (c : Nat) : Nat := 0x600078 + 32768 * c
def MC_REFAB_COUNT (c : Nat) : Fld := ⟨MC_REFAB c, 31, 0⟩
/-- R166. -/
def MC_FORCED (c : Nat) : Nat := 0x60007C + 32768 * c
def MC_FORCED_COUNT (c : Nat) : Fld := ⟨MC_FORCED c, 31, 0⟩
/-- R166. -/
def MC_PULLIN (c : Nat) : Nat := 0x600080 + 32768 * c
def MC_PULLIN_COUNT (c : Nat) : Fld := ⟨MC_PULLIN c, 31, 0⟩
/-- R166. -/
def MC_POSTPONE (c : Nat) : Nat := 0x600084 + 32768 * c
def MC_POSTPONE_COUNT (c : Nat) : Fld := ⟨MC_POSTPONE c, 31, 0⟩
/-- R166. -/
def MC_BATCHSW (c : Nat) : Nat := 0x600088 + 32768 * c
def MC_BATCHSW_COUNT (c : Nat) : Fld := ⟨MC_BATCHSW c, 31, 0⟩
/-- R166. -/
def MC_SRCNT (c : Nat) : Nat := 0x60008C + 32768 * c
def MC_SRCNT_COUNT (c : Nat) : Fld := ⟨MC_SRCNT c, 31, 0⟩
/-- R166. -/
def MC_MISS (c m : Nat) : Nat := 0x600090 + 32768 * c + 4 * m
def MC_MISS_COUNT (c m : Nat) : Fld := ⟨MC_MISS c m, 31, 0⟩
/-- R166. -/
def MC_PCSTAT (c n : Nat) : Nat := 0x6000B0 + 32768 * c + 4 * n
def MC_PCSTAT_SREF (c n : Nat) : Fld := ⟨MC_PCSTAT c n, 29, 29⟩
def MC_PCSTAT_MODE (c n : Nat) : Fld := ⟨MC_PCSTAT c n, 28, 28⟩
def MC_PCSTAT_WRQ (c n : Nat) : Fld := ⟨MC_PCSTAT c n, 24, 16⟩
def MC_PCSTAT_RDQ (c n : Nat) : Fld := ⟨MC_PCSTAT c n, 8, 0⟩
/-- R166. -/
def MC_TRRLAST (c : Nat) : Nat := 0x6000B8 + 32768 * c
def MC_TRRLAST_VALID (c : Nat) : Fld := ⟨MC_TRRLAST c, 31, 31⟩
def MC_TRRLAST_PC (c : Nat) : Fld := ⟨MC_TRRLAST c, 30, 30⟩
def MC_TRRLAST_BANK (c : Nat) : Fld := ⟨MC_TRRLAST c, 29, 26⟩
def MC_TRRLAST_ROW (c : Nat) : Fld := ⟨MC_TRRLAST c, 16, 0⟩
/-- R166. -/
def MC_INGRESS (c : Nat) : Nat := 0x6000BC + 32768 * c
def MC_INGRESS_PEAK (c : Nat) : Fld := ⟨MC_INGRESS c, 22, 16⟩
def MC_INGRESS_FILL (c : Nat) : Fld := ⟨MC_INGRESS c, 6, 0⟩
/-- R166. -/
def MC_BANKQ (c n : Nat) : Nat := 0x6000C0 + 32768 * c + 4 * n
def MC_BANKQ_OPEN1 (c n : Nat) : Fld := ⟨MC_BANKQ c n, 27, 27⟩
def MC_BANKQ_Q1 (c n : Nat) : Fld := ⟨MC_BANKQ c n, 26, 22⟩
def MC_BANKQ_DEBT1 (c n : Nat) : Fld := ⟨MC_BANKQ c n, 21, 16⟩
def MC_BANKQ_OPEN0 (c n : Nat) : Fld := ⟨MC_BANKQ c n, 11, 11⟩
def MC_BANKQ_Q0 (c n : Nat) : Fld := ⟨MC_BANKQ c n, 10, 6⟩
def MC_BANKQ_DEBT0 (c n : Nat) : Fld := ⟨MC_BANKQ c n, 5, 0⟩
/-- R166. -/
def MC_DLY (c n : Nat) : Nat := 0x600100 + 32768 * c + 4 * n
def MC_DLY_D3 (c n : Nat) : Fld := ⟨MC_DLY c n, 31, 24⟩
def MC_DLY_D2 (c n : Nat) : Fld := ⟨MC_DLY c n, 23, 16⟩
def MC_DLY_D1 (c n : Nat) : Fld := ⟨MC_DLY c n, 15, 8⟩
def MC_DLY_D0 (c n : Nat) : Fld := ⟨MC_DLY c n, 7, 0⟩
/-- R166. -/
def MC_DLYOVR (c : Nat) : Nat := 0x600178 + 32768 * c
def MC_DLYOVR_HOLD (c : Nat) : Fld := ⟨MC_DLYOVR c, 0, 0⟩
/-- R166. -/
def MC_DLYAPPLY (c : Nat) : Nat := 0x60017C + 32768 * c
def MC_DLYAPPLY_PEND (c : Nat) : Fld := ⟨MC_DLYAPPLY c, 8, 8⟩
def MC_DLYAPPLY_APPLY (c : Nat) : Fld := ⟨MC_DLYAPPLY c, 0, 0⟩
/-- R190. -/
def MTR_CTL : Nat := 0x700000
def MTR_CTL_ADMIT_STRICT : Fld := ⟨MTR_CTL, 0, 0⟩
/-- R190. -/
def MTR_COMMIT : Nat := 0x700004
def MTR_COMMIT_COMMIT : Fld := ⟨MTR_COMMIT, 0, 0⟩
/-- R190. -/
def MTR_COMMIT_STAT : Nat := 0x700008
def MTR_COMMIT_STAT_RESULT : Fld := ⟨MTR_COMMIT_STAT, 31, 30⟩
def MTR_COMMIT_STAT_SUM : Fld := ⟨MTR_COMMIT_STAT, 29, 15⟩
def MTR_COMMIT_STAT_FLOOR : Fld := ⟨MTR_COMMIT_STAT, 11, 0⟩
/-- R190. -/
def MTR_FLOOR : Nat := 0x70000C
def MTR_FLOOR_SCALED : Fld := ⟨MTR_FLOOR, 31, 31⟩
def MTR_FLOOR_BAND : Fld := ⟨MTR_FLOOR, 29, 28⟩
def MTR_FLOOR_FBAND : Fld := ⟨MTR_FLOOR, 27, 16⟩
def MTR_FLOOR_FNOW : Fld := ⟨MTR_FLOOR, 11, 0⟩
/-- R190. -/
def MTR_GSUM : Nat := 0x700010
def MTR_GSUM_EFF : Fld := ⟨MTR_GSUM, 30, 16⟩
def MTR_GSUM_ACT : Fld := ⟨MTR_GSUM, 14, 0⟩
/-- R190. -/
def MTR_PACE (n : Nat) : Nat := 0x700040 + 4 * n
def MTR_PACE_MIN (n : Nat) : Fld := ⟨MTR_PACE n, 27, 16⟩
def MTR_PACE_RATE (n : Nat) : Fld := ⟨MTR_PACE n, 11, 0⟩
/-- R190. -/
def MTR_OSTD (m : Nat) : Nat := 0x700100 + 64 * m
def MTR_OSTD_GRAN (m : Nat) : Fld := ⟨MTR_OSTD m, 12, 0⟩
/-- R190. -/
def MTR_MINBW (m : Nat) : Nat := 0x700104 + 64 * m
def MTR_MINBW_GBPS (m : Nat) : Fld := ⟨MTR_MINBW m, 11, 0⟩
/-- R190. -/
def MTR_BURST (m : Nat) : Nat := 0x700108 + 64 * m
def MTR_BURST_GRAN (m : Nat) : Fld := ⟨MTR_BURST m, 6, 0⟩
/-- R190. -/
def MTR_ACTBW (m : Nat) : Nat := 0x70010C + 64 * m
def MTR_ACTBW_ACTIVE (m : Nat) : Fld := ⟨MTR_ACTBW m, 27, 16⟩
def MTR_ACTBW_EFFECTIVE (m : Nat) : Fld := ⟨MTR_ACTBW m, 11, 0⟩
/-- R190. -/
def MTR_STAT (m : Nat) : Nat := 0x700110 + 64 * m
def MTR_STAT_HELD (m : Nat) : Fld := ⟨MTR_STAT m, 31, 31⟩
def MTR_STAT_CAUSE (m : Nat) : Fld := ⟨MTR_STAT m, 30, 28⟩
def MTR_STAT_OWED (m : Nat) : Fld := ⟨MTR_STAT m, 27, 27⟩
def MTR_STAT_OUTST (m : Nat) : Fld := ⟨MTR_STAT m, 12, 0⟩
/-- R190. -/
def MTR_BYTES_LO (m : Nat) : Nat := 0x700114 + 64 * m
def MTR_BYTES_LO_BYTES (m : Nat) : Fld := ⟨MTR_BYTES_LO m, 31, 0⟩
/-- R190. -/
def MTR_BYTES_HI (m : Nat) : Nat := 0x700118 + 64 * m
def MTR_BYTES_HI_BYTES (m : Nat) : Fld := ⟨MTR_BYTES_HI m, 31, 0⟩
/-- R190. -/
def MTR_HELD (m : Nat) : Nat := 0x70011C + 64 * m
def MTR_HELD_US (m : Nat) : Fld := ⟨MTR_HELD m, 31, 0⟩
/-- R190. -/
def MTR_PREEMPT (m : Nat) : Nat := 0x700120 + 64 * m
def MTR_PREEMPT_COUNT (m : Nat) : Fld := ⟨MTR_PREEMPT m, 31, 0⟩
/-- R190. -/
def MTR_GSHORT (m : Nat) : Nat := 0x700124 + 64 * m
def MTR_GSHORT_COUNT (m : Nat) : Fld := ⟨MTR_GSHORT m, 31, 0⟩
/-- R190. -/
def MTR_MAXLAT (m : Nat) : Nat := 0x700128 + 64 * m
def MTR_MAXLAT_NS (m : Nat) : Fld := ⟨MTR_MAXLAT m, 15, 0⟩
/-- R239. -/
def CHS_CTL : Nat := 0x800000
def CHS_CTL_PAUSE : Fld := ⟨CHS_CTL, 0, 0⟩
/-- R239. -/
def CHS_STAT : Nat := 0x800004
def CHS_STAT_RUN : Fld := ⟨CHS_STAT, 20, 16⟩
def CHS_STAT_WAIT : Fld := ⟨CHS_STAT, 12, 8⟩
def CHS_STAT_PAUSED : Fld := ⟨CHS_STAT, 0, 0⟩
/-- R239. -/
def CHS_SRAM : Nat := 0x800008
def CHS_SRAM_PEAK : Fld := ⟨CHS_SRAM, 29, 16⟩
def CHS_SRAM_FREE : Fld := ⟨CHS_SRAM, 13, 0⟩
/-- R239. -/
def CHS_PACE : Nat := 0x80000C
def CHS_PACE_MIN : Fld := ⟨CHS_PACE, 27, 16⟩
def CHS_PACE_RATE : Fld := ⟨CHS_PACE, 11, 0⟩
/-- R239. -/
def CHS_RDBYTES_LO : Nat := 0x800010
def CHS_RDBYTES_LO_BYTES : Fld := ⟨CHS_RDBYTES_LO, 31, 0⟩
/-- R239. -/
def CHS_RDBYTES_HI : Nat := 0x800014
def CHS_RDBYTES_HI_BYTES : Fld := ⟨CHS_RDBYTES_HI, 31, 0⟩
/-- R239. -/
def CHS_WRBYTES_LO : Nat := 0x800018
def CHS_WRBYTES_LO_BYTES : Fld := ⟨CHS_WRBYTES_LO, 31, 0⟩
/-- R239. -/
def CHS_WRBYTES_HI : Nat := 0x80001C
def CHS_WRBYTES_HI_BYTES : Fld := ⟨CHS_WRBYTES_HI, 31, 0⟩
/-- R239. -/
def CHS_ROWS_LO : Nat := 0x800020
def CHS_ROWS_LO_ROWS : Fld := ⟨CHS_ROWS_LO, 31, 0⟩
/-- R239. -/
def CHS_ROWS_HI : Nat := 0x800024
def CHS_ROWS_HI_ROWS : Fld := ⟨CHS_ROWS_HI, 31, 0⟩
/-- R239. -/
def CHS_JOBS : Nat := 0x800028
def CHS_JOBS_COUNT : Fld := ⟨CHS_JOBS, 31, 0⟩
/-- R239. -/
def CHS_PROWS : Nat := 0x80002C
def CHS_PROWS_COUNT : Fld := ⟨CHS_PROWS, 31, 0⟩
/-- R239. -/
def CHS_CHW (c : Nat) : Nat := 0x800100 + 4 * c
def CHS_CHW_SLICES (c : Nat) : Fld := ⟨CHS_CHW c, 31, 16⟩
def CHS_CHW_PEND (c : Nat) : Fld := ⟨CHS_CHW c, 15, 0⟩
/-- R239. -/
def CHS_SLOTSTAT (n : Nat) : Nat := 0x800200 + 16 * n
def CHS_SLOTSTAT_STATE (n : Nat) : Fld := ⟨CHS_SLOTSTAT n, 31, 29⟩
def CHS_SLOTSTAT_POSHI (n : Nat) : Fld := ⟨CHS_SLOTSTAT n, 28, 28⟩
def CHS_SLOTSTAT_QUEUE (n : Nat) : Fld := ⟨CHS_SLOTSTAT n, 27, 22⟩
def CHS_SLOTSTAT_KIND (n : Nat) : Fld := ⟨CHS_SLOTSTAT n, 21, 20⟩
def CHS_SLOTSTAT_CID (n : Nat) : Fld := ⟨CHS_SLOTSTAT n, 15, 0⟩
/-- R239. -/
def CHS_SLOTPOS (n : Nat) : Nat := 0x800204 + 16 * n
def CHS_SLOTPOS_POS (n : Nat) : Fld := ⟨CHS_SLOTPOS n, 31, 0⟩
/-- R239. -/
def CHS_SLOTSEL (n : Nat) : Nat := 0x800208 + 16 * n
def CHS_SLOTSEL_SEL (n : Nat) : Fld := ⟨CHS_SLOTSEL n, 31, 0⟩
/-- R239. -/
def CHS_SLOTNEED (n : Nat) : Nat := 0x80020C + 16 * n
def CHS_SLOTNEED_NEED (n : Nat) : Fld := ⟨CHS_SLOTNEED n, 13, 0⟩
/-- R239. -/
def CHS_SUMWR : Nat := 0x801000
def CHS_SUMWR_SEQ : Fld := ⟨CHS_SUMWR, 31, 0⟩
/-- R239. -/
def CHS_SUMRD : Nat := 0x801004
def CHS_SUMRD_SEQ : Fld := ⟨CHS_SUMRD, 31, 0⟩
/-- R239. -/
def CHS_SUMSTAT : Nat := 0x801008
def CHS_SUMSTAT_VALID : Fld := ⟨CHS_SUMSTAT, 0, 0⟩
/-- R239. -/
def CHS_SUM (n : Nat) : Nat := 0x801010 + 4 * n
def CHS_SUM_DATA (n : Nat) : Fld := ⟨CHS_SUM n, 31, 0⟩
/-- R274. -/
def KEEP_CTL : Nat := 0x900000
def KEEP_CTL_PAUSE : Fld := ⟨KEEP_CTL, 3, 3⟩
def KEEP_CTL_ARMLOCK : Fld := ⟨KEEP_CTL, 2, 2⟩
def KEEP_CTL_INVDISARM : Fld := ⟨KEEP_CTL, 1, 1⟩
def KEEP_CTL_REARM : Fld := ⟨KEEP_CTL, 0, 0⟩
/-- R274. -/
def KEEP_STAT : Nat := 0x900004
def KEEP_STAT_PATH : Fld := ⟨KEEP_STAT, 25, 24⟩
def KEEP_STAT_SAVEINC : Fld := ⟨KEEP_STAT, 23, 23⟩
def KEEP_STAT_FENCED : Fld := ⟨KEEP_STAT, 22, 22⟩
def KEEP_STAT_KEY : Fld := ⟨KEEP_STAT, 21, 20⟩
def KEEP_STAT_PHASE : Fld := ⟨KEEP_STAT, 14, 12⟩
def KEEP_STAT_MEASVALID : Fld := ⟨KEEP_STAT, 3, 3⟩
def KEEP_STAT_ADMHOLD : Fld := ⟨KEEP_STAT, 2, 2⟩
def KEEP_STAT_ARM : Fld := ⟨KEEP_STAT, 1, 0⟩
/-- R274. -/
def KEEP_TRICKLE_BW : Nat := 0x900008
def KEEP_TRICKLE_BW_RATE : Fld := ⟨KEEP_TRICKLE_BW, 9, 0⟩
/-- R274. -/
def KEEP_CATCHUP_BW : Nat := 0x90000C
def KEEP_CATCHUP_BW_RATE : Fld := ⟨KEEP_CATCHUP_BW, 9, 0⟩
/-- R274. -/
def KEEP_SEAL_MS : Nat := 0x900010
def KEEP_SEAL_MS_MS : Fld := ⟨KEEP_SEAL_MS, 15, 0⟩
/-- R274. -/
def KEEP_OPEN_MS : Nat := 0x900014
def KEEP_OPEN_MS_MS : Fld := ⟨KEEP_OPEN_MS, 15, 0⟩
/-- R274. -/
def KEEP_HOLDCAP : Nat := 0x900018
def KEEP_HOLDCAP_UF : Fld := ⟨KEEP_HOLDCAP, 31, 0⟩
/-- R274. -/
def KEEP_HOLDVMIN : Nat := 0x90001C
def KEEP_HOLDVMIN_MV : Fld := ⟨KEEP_HOLDVMIN, 15, 0⟩
/-- R274. -/
def KEEP_HOLDETA : Nat := 0x900020
def KEEP_HOLDETA_PERMILLE : Fld := ⟨KEEP_HOLDETA, 9, 0⟩
/-- R274. -/
def KEEP_HOLDFIX : Nat := 0x900024
def KEEP_HOLDFIX_MJ : Fld := ⟨KEEP_HOLDFIX, 15, 0⟩
/-- R274. -/
def KEEP_HOLDCHK : Nat := 0x900028
def KEEP_HOLDCHK_VALID : Fld := ⟨KEEP_HOLDCHK, 31, 31⟩
def KEEP_HOLDCHK_UF : Fld := ⟨KEEP_HOLDCHK, 30, 0⟩
/-- R274. -/
def KEEP_HOLDV : Nat := 0x90002C
def KEEP_HOLDV_MV : Fld := ⟨KEEP_HOLDV, 15, 0⟩
/-- R274. -/
def KEEP_EAVAIL : Nat := 0x900030
def KEEP_EAVAIL_MJ : Fld := ⟨KEEP_EAVAIL, 31, 0⟩
/-- R274. -/
def KEEP_DIRTY : Nat := 0x900034
def KEEP_DIRTY_PAGES : Fld := ⟨KEEP_DIRTY, 24, 0⟩
/-- R274. -/
def KEEP_DMAX : Nat := 0x900038
def KEEP_DMAX_PAGES : Fld := ⟨KEEP_DMAX, 24, 0⟩
/-- R274. -/
def KEEP_SEALSEQ_LO : Nat := 0x900040
def KEEP_SEALSEQ_LO_SEQ : Fld := ⟨KEEP_SEALSEQ_LO, 31, 0⟩
/-- R274. -/
def KEEP_SEALSEQ_HI : Nat := 0x900044
def KEEP_SEALSEQ_HI_SEQ : Fld := ⟨KEEP_SEALSEQ_HI, 31, 0⟩
/-- R274. -/
def KEEP_SEALTIME_LO : Nat := 0x900048
def KEEP_SEALTIME_LO_TIME : Fld := ⟨KEEP_SEALTIME_LO, 31, 0⟩
/-- R274. -/
def KEEP_SEALTIME_HI : Nat := 0x90004C
def KEEP_SEALTIME_HI_TIME : Fld := ⟨KEEP_SEALTIME_HI, 31, 0⟩
/-- R274. -/
def KEEP_CKPTSEQ_LO : Nat := 0x900050
def KEEP_CKPTSEQ_LO_SEQ : Fld := ⟨KEEP_CKPTSEQ_LO, 31, 0⟩
/-- R274. -/
def KEEP_CKPTSEQ_HI : Nat := 0x900054
def KEEP_CKPTSEQ_HI_SEQ : Fld := ⟨KEEP_CKPTSEQ_HI, 31, 0⟩
/-- R274. -/
def KEEP_KEYPOL : Nat := 0x900058
def KEEP_KEYPOL_PENDING : Fld := ⟨KEEP_KEYPOL, 8, 8⟩
def KEEP_KEYPOL_POLICY : Fld := ⟨KEEP_KEYPOL, 0, 0⟩
/-- R274. -/
def KEEP_KEYSTAT : Nat := 0x90005C
def KEEP_KEYSTAT_EPOCH : Fld := ⟨KEEP_KEYSTAT, 31, 16⟩
def KEEP_KEYSTAT_BADSHARE : Fld := ⟨KEEP_KEYSTAT, 15, 8⟩
def KEEP_KEYSTAT_OLD : Fld := ⟨KEEP_KEYSTAT, 1, 1⟩
def KEEP_KEYSTAT_SHARE : Fld := ⟨KEEP_KEYSTAT, 0, 0⟩
/-- R274. -/
def KEEP_OLDLEFT : Nat := 0x900060
def KEEP_OLDLEFT_PAGES : Fld := ⟨KEEP_OLDLEFT, 24, 0⟩
/-- R274. -/
def KEEP_RESTPROG : Nat := 0x900064
def KEEP_RESTPROG_UNITS : Fld := ⟨KEEP_RESTPROG, 20, 0⟩
/-- R274. -/
def KEEP_TOUCH : Nat := 0x900068
def KEEP_TOUCH_COUNT : Fld := ⟨KEEP_TOUCH, 31, 0⟩
/-- R274. -/
def KEEP_TOUCHLAT : Nat := 0x90006C
def KEEP_TOUCHLAT_NS : Fld := ⟨KEEP_TOUCHLAT, 15, 0⟩
/-- R274. -/
def KEEP_ADMHOLD : Nat := 0x900070
def KEEP_ADMHOLD_US : Fld := ⟨KEEP_ADMHOLD, 31, 0⟩
/-- R274. -/
def KEEP_COPIES_LO : Nat := 0x900074
def KEEP_COPIES_LO_PAGES : Fld := ⟨KEEP_COPIES_LO, 31, 0⟩
/-- R274. -/
def KEEP_COPIES_HI : Nat := 0x900078
def KEEP_COPIES_HI_PAGES : Fld := ⟨KEEP_COPIES_HI, 31, 0⟩
/-- R274. -/
def KEEP_SAVE : Nat := 0x90007C
def KEEP_SAVE_MS : Fld := ⟨KEEP_SAVE, 31, 16⟩
def KEEP_SAVE_GIB : Fld := ⟨KEEP_SAVE, 15, 0⟩
/-- R274. -/
def KEEP_LOSTPG : Nat := 0x900080
def KEEP_LOSTPG_PAGES : Fld := ⟨KEEP_LOSTPG, 24, 0⟩
/-- R274. -/
def KEEP_POOLFREE (n : Nat) : Nat := 0x900100 + 16 * n
def KEEP_POOLFREE_SLOTS (n : Nat) : Fld := ⟨KEEP_POOLFREE n, 20, 0⟩
/-- R274. -/
def KEEP_POOLPEND (n : Nat) : Nat := 0x900104 + 16 * n
def KEEP_POOLPEND_SLOTS (n : Nat) : Fld := ⟨KEEP_POOLPEND n, 20, 0⟩
/-- R274. -/
def KEEP_WEARMAX (n : Nat) : Nat := 0x900108 + 16 * n
def KEEP_WEARMAX_COUNT (n : Nat) : Fld := ⟨KEEP_WEARMAX n, 31, 0⟩
/-- R274. -/
def KEEP_SPARE (n : Nat) : Nat := 0x90010C + 16 * n
def KEEP_SPARE_LEFT (n : Nat) : Fld := ⟨KEEP_SPARE n, 18, 0⟩
/-- R274. -/
def KEEP_RETIRED (n : Nat) : Nat := 0x900120 + 4 * n
def KEEP_RETIRED_COUNT (n : Nat) : Fld := ⟨KEEP_RETIRED n, 31, 0⟩
/-- R274. -/
def KEEP_WEARQ : Nat := 0x900140
def KEEP_WEARQ_COURSE : Fld := ⟨KEEP_WEARQ, 24, 24⟩
def KEEP_WEARQ_SLOT : Fld := ⟨KEEP_WEARQ, 23, 0⟩
/-- R274. -/
def KEEP_WEARQV : Nat := 0x900144
def KEEP_WEARQV_COUNT : Fld := ⟨KEEP_WEARQV, 31, 0⟩
/-- R300. -/
def RST_CAUSE : Nat := 0x100000
def RST_CAUSE_VALID : Fld := ⟨RST_CAUSE, 31, 31⟩
def RST_CAUSE_REACH : Fld := ⟨RST_CAUSE, 30, 28⟩
def RST_CAUSE_SOURCE : Fld := ⟨RST_CAUSE, 24, 20⟩
def RST_CAUSE_ENDPOINT : Fld := ⟨RST_CAUSE, 13, 0⟩
/-- R300. -/
def RST_SRCMASK : Nat := 0x100004
def RST_SRCMASK_MASK : Fld := ⟨RST_SRCMASK, 15, 0⟩
/-- R300. -/
def RST_CAUSETIME_LO : Nat := 0x100008
def RST_CAUSETIME_LO_TIME : Fld := ⟨RST_CAUSETIME_LO, 31, 0⟩
/-- R300. -/
def RST_CAUSETIME_HI : Nat := 0x10000C
def RST_CAUSETIME_HI_TIME : Fld := ⟨RST_CAUSETIME_HI, 31, 0⟩
/-- R300. -/
def RST_CMD : Nat := 0x100010
def RST_CMD_KEY : Fld := ⟨RST_CMD, 31, 16⟩
def RST_CMD_REACH : Fld := ⟨RST_CMD, 1, 0⟩
/-- R300. -/
def RST_RECOVER_EXIT : Nat := 0x100014
def RST_RECOVER_EXIT_KEY : Fld := ⟨RST_RECOVER_EXIT, 31, 16⟩
def RST_RECOVER_EXIT_EXIT : Fld := ⟨RST_RECOVER_EXIT, 0, 0⟩
/-- R300. -/
def RST_BLKREQ : Nat := 0x100018
def RST_BLKREQ_GO : Fld := ⟨RST_BLKREQ, 31, 31⟩
def RST_BLKREQ_BUSY : Fld := ⟨RST_BLKREQ, 30, 30⟩
def RST_BLKREQ_RESULT : Fld := ⟨RST_BLKREQ, 29, 28⟩
def RST_BLKREQ_TARGET : Fld := ⟨RST_BLKREQ, 7, 0⟩
/-- R300. -/
def RST_IDLE_TMO : Nat := 0x10001C
def RST_IDLE_TMO_US : Fld := ⟨RST_IDLE_TMO, 6, 0⟩
/-- R300. -/
def RST_BLKSTAT : Nat := 0x100020
def RST_BLKSTAT_ABORTED : Fld := ⟨RST_BLKSTAT, 31, 16⟩
def RST_BLKSTAT_BYFW : Fld := ⟨RST_BLKSTAT, 8, 8⟩
def RST_BLKSTAT_TARGET : Fld := ⟨RST_BLKSTAT, 7, 0⟩
/-- R300. -/
def RST_DEFER : Nat := 0x100024
def RST_DEFER_PEND : Fld := ⟨RST_DEFER, 31, 31⟩
def RST_DEFER_REACH : Fld := ⟨RST_DEFER, 30, 28⟩
def RST_DEFER_MASK : Fld := ⟨RST_DEFER, 15, 0⟩
/-- R300. -/
def RST_WDOG : Nat := 0x100028
def RST_WDOG_COUNT : Fld := ⟨RST_WDOG, 31, 16⟩
def RST_WDOG_ARMED : Fld := ⟨RST_WDOG, 0, 0⟩
/-- R300. -/
def RST_START : Nat := 0x100030
def RST_START_STARTS : Fld := ⟨RST_START, 31, 16⟩
def RST_START_INPROG : Fld := ⟨RST_START, 8, 8⟩
def RST_START_FAILS : Fld := ⟨RST_START, 3, 0⟩
/-- R300. -/
def RST_BRINGUP : Nat := 0x100034
def RST_BRINGUP_STEP : Fld := ⟨RST_BRINGUP, 31, 28⟩
def RST_BRINGUP_FAILSTEP : Fld := ⟨RST_BRINGUP, 27, 24⟩
def RST_BRINGUP_KIND : Fld := ⟨RST_BRINGUP, 21, 20⟩
def RST_BRINGUP_RECCAUSE : Fld := ⟨RST_BRINGUP, 17, 16⟩
def RST_BRINGUP_ELAPSED : Fld := ⟨RST_BRINGUP, 15, 0⟩
/-- R300. -/
def RST_STEPMS (n : Nat) : Nat := 0x100040 + 4 * n
def RST_STEPMS_MS (n : Nat) : Fld := ⟨RST_STEPMS n, 15, 0⟩
/-- R300. -/
def RST_RAIL : Nat := 0x100060
def RST_RAIL_GOOD : Fld := ⟨RST_RAIL, 5, 0⟩
/-- R300. -/
def RST_RAILHIST : Nat := 0x100064
def RST_RAILHIST_DROPPED : Fld := ⟨RST_RAILHIST, 5, 1⟩
/-- R300. -/
def RST_UVCNT : Nat := 0x100068
def RST_UVCNT_COUNT : Fld := ⟨RST_UVCNT, 31, 0⟩
/-- R300. -/
def RST_PINS : Nat := 0x10006C
def RST_PINS_TRIP : Fld := ⟨RST_PINS, 4, 4⟩
def RST_PINS_SEALDRV : Fld := ⟨RST_PINS, 3, 3⟩
def RST_PINS_LINTELF : Fld := ⟨RST_PINS, 2, 2⟩
def RST_PINS_RESETN : Fld := ⟨RST_PINS, 1, 1⟩
def RST_PINS_PWRFAILN : Fld := ⟨RST_PINS, 0, 0⟩
/-- R325. -/
def INT_CTL : Nat := 0xA00000
def INT_CTL_PINTHRESH : Fld := ⟨INT_CTL, 11, 8⟩
def INT_CTL_CETHRESH : Fld := ⟨INT_CTL, 7, 4⟩
def INT_CTL_SCRUBEN : Fld := ⟨INT_CTL, 0, 0⟩
/-- R325. -/
def INT_SCRUB_HRS : Nat := 0xA00004
def INT_SCRUB_HRS_HOURS : Fld := ⟨INT_SCRUB_HRS, 7, 0⟩
/-- R325. -/
def INT_SCRUB_POS : Nat := 0xA00008
def INT_SCRUB_POS_UNIT : Fld := ⟨INT_SCRUB_POS, 28, 0⟩
/-- R325. -/
def INT_SCRUB_PASS : Nat := 0xA0000C
def INT_SCRUB_PASS_PASSES : Fld := ⟨INT_SCRUB_PASS, 31, 16⟩
def INT_SCRUB_PASS_LASTMIN : Fld := ⟨INT_SCRUB_PASS, 15, 0⟩
/-- R325. -/
def INT_SCRUB_STAT : Nat := 0xA00010
def INT_SCRUB_STAT_BEHIND : Fld := ⟨INT_SCRUB_STAT, 1, 1⟩
def INT_SCRUB_STAT_ACTIVE : Fld := ⟨INT_SCRUB_STAT, 0, 0⟩
/-- R325. -/
def INT_CECNT_LO : Nat := 0xA00018
def INT_CECNT_LO_COUNT : Fld := ⟨INT_CECNT_LO, 31, 0⟩
/-- R325. -/
def INT_CECNT_HI : Nat := 0xA0001C
def INT_CECNT_HI_COUNT : Fld := ⟨INT_CECNT_HI, 31, 0⟩
/-- R325. -/
def INT_UECNT : Nat := 0xA00020
def INT_UECNT_COUNT : Fld := ⟨INT_UECNT, 31, 0⟩
/-- R325. -/
def INT_RECOVCNT : Nat := 0xA00024
def INT_RECOVCNT_COUNT : Fld := ⟨INT_RECOVCNT, 31, 0⟩
/-- R325. -/
def INT_POISCNT : Nat := 0xA00028
def INT_POISCNT_COUNT : Fld := ⟨INT_POISCNT, 31, 0⟩
/-- R325. -/
def INT_MISDIR : Nat := 0xA0002C
def INT_MISDIR_COUNT : Fld := ⟨INT_MISDIR, 31, 0⟩
/-- R325. -/
def INT_UELAST : Nat := 0xA00030
def INT_UELAST_VALID : Fld := ⟨INT_UELAST, 31, 31⟩
def INT_UELAST_GADDR : Fld := ⟨INT_UELAST, 30, 0⟩
/-- R325. -/
def INT_UEINFO : Nat := 0xA00034
def INT_UEINFO_MISDIR : Fld := ⟨INT_UEINFO, 5, 5⟩
def INT_UEINFO_POISONED : Fld := ⟨INT_UEINFO, 4, 4⟩
def INT_UEINFO_RECOVERED : Fld := ⟨INT_UEINFO, 3, 3⟩
def INT_UEINFO_MASTER : Fld := ⟨INT_UEINFO, 2, 0⟩
/-- R325. -/
def INT_CELOG_OVF : Nat := 0xA00040
def INT_CELOG_OVF_COUNT : Fld := ⟨INT_CELOG_OVF, 31, 0⟩
/-- R325. -/
def INT_CELOG_USED : Nat := 0xA00044
def INT_CELOG_USED_ENTRIES : Fld := ⟨INT_CELOG_USED, 6, 0⟩
/-- R325. -/
def INT_REPFUSE : Nat := 0xA00048
def INT_REPFUSE_PENDING : Fld := ⟨INT_REPFUSE, 20, 16⟩
def INT_REPFUSE_FREE : Fld := ⟨INT_REPFUSE, 8, 0⟩
/-- R325. -/
def INT_REPROW : Nat := 0xA0004C
def INT_REPROW_FENCED : Fld := ⟨INT_REPROW, 31, 16⟩
def INT_REPROW_SPARED : Fld := ⟨INT_REPROW, 15, 0⟩
/-- R325. -/
def INT_REPTSV : Nat := 0xA00050
def INT_REPTSV_ERASED : Fld := ⟨INT_REPTSV, 31, 24⟩
def INT_REPTSV_KEEPTSV : Fld := ⟨INT_REPTSV, 23, 16⟩
def INT_REPTSV_CMDTSV : Fld := ⟨INT_REPTSV, 15, 8⟩
def INT_REPTSV_DATATSV : Fld := ⟨INT_REPTSV, 7, 0⟩
/-- R325. -/
def INT_PEND (n : Nat) : Nat := 0xA00060 + 4 * n
def INT_PEND_WORD (n : Nat) : Fld := ⟨INT_PEND n, 31, 0⟩
/-- R325. -/
def INT_CH_CE (c : Nat) : Nat := 0xA00100 + 16 * c
def INT_CH_CE_COUNT (c : Nat) : Fld := ⟨INT_CH_CE c, 31, 0⟩
/-- R325. -/
def INT_CH_UE (c : Nat) : Nat := 0xA00104 + 16 * c
def INT_CH_UE_COUNT (c : Nat) : Fld := ⟨INT_CH_UE c, 31, 0⟩
/-- R325. -/
def INT_PCSTAT (c : Nat) : Nat := 0xA00108 + 16 * c
def INT_PCSTAT_FENCED (c : Nat) : Fld := ⟨INT_PCSTAT c, 20, 20⟩
def INT_PCSTAT_CMDSTBY (c : Nat) : Fld := ⟨INT_PCSTAT c, 19, 17⟩
def INT_PCSTAT_PC1 (c : Nat) : Fld := ⟨INT_PCSTAT c, 15, 8⟩
def INT_PCSTAT_PC0 (c : Nat) : Fld := ⟨INT_PCSTAT c, 7, 0⟩
/-- R325. -/
def INT_CH_ROWS (c : Nat) : Nat := 0xA0010C + 16 * c
def INT_CH_ROWS_FENCED (c : Nat) : Fld := ⟨INT_CH_ROWS c, 31, 16⟩
def INT_CH_ROWS_SPARED (c : Nat) : Fld := ⟨INT_CH_ROWS c, 15, 0⟩
/-- R325. -/
def INT_KEEPBUS (n : Nat) : Nat := 0xA00300 + 4 * n
def INT_KEEPBUS_FENCED (n : Nat) : Fld := ⟨INT_KEEPBUS n, 4, 4⟩
def INT_KEEPBUS_CODED (n : Nat) : Fld := ⟨INT_KEEPBUS n, 3, 3⟩
def INT_KEEPBUS_STBY (n : Nat) : Fld := ⟨INT_KEEPBUS n, 2, 0⟩
/-- R325. -/
def INT_TSVC (n : Nat) : Nat := 0xA00400 + 4 * n
def INT_TSVC_SPARED (n : Nat) : Fld := ⟨INT_TSVC n, 31, 24⟩
def INT_TSVC_SUSPECT (n : Nat) : Fld := ⟨INT_TSVC n, 23, 16⟩
def INT_TSVC_MINEYE (n : Nat) : Fld := ⟨INT_TSVC n, 9, 0⟩
/-- R325. -/
def INT_FENCE (n : Nat) : Nat := 0xA00500 + 4 * n
def INT_FENCE_VALID (n : Nat) : Fld := ⟨INT_FENCE n, 31, 31⟩
def INT_FENCE_CH (n : Nat) : Fld := ⟨INT_FENCE n, 30, 26⟩
def INT_FENCE_PC (n : Nat) : Fld := ⟨INT_FENCE n, 25, 25⟩
def INT_FENCE_BANK (n : Nat) : Fld := ⟨INT_FENCE n, 24, 21⟩
def INT_FENCE_ROW (n : Nat) : Fld := ⟨INT_FENCE n, 16, 0⟩
/-- R325. -/
def INT_CELOG_A (n : Nat) : Nat := 0xA01000 + 16 * n
def INT_CELOG_A_VALID (n : Nat) : Fld := ⟨INT_CELOG_A n, 31, 31⟩
def INT_CELOG_A_GADDR (n : Nat) : Fld := ⟨INT_CELOG_A n, 30, 0⟩
/-- R325. -/
def INT_CELOG_B (n : Nat) : Nat := 0xA01004 + 16 * n
def INT_CELOG_B_COUNT (n : Nat) : Fld := ⟨INT_CELOG_B n, 31, 24⟩
def INT_CELOG_B_SYM (n : Nat) : Fld := ⟨INT_CELOG_B n, 21, 16⟩
def INT_CELOG_B_SYM2 (n : Nat) : Fld := ⟨INT_CELOG_B n, 15, 10⟩
def INT_CELOG_B_NSYM (n : Nat) : Fld := ⟨INT_CELOG_B n, 9, 8⟩
def INT_CELOG_B_MASTER (n : Nat) : Fld := ⟨INT_CELOG_B n, 7, 5⟩
def INT_CELOG_B_SCRUB (n : Nat) : Fld := ⟨INT_CELOG_B n, 4, 4⟩
def INT_CELOG_B_TESTED (n : Nat) : Fld := ⟨INT_CELOG_B n, 3, 3⟩
/-- R325. -/
def INT_CELOG_F (n : Nat) : Nat := 0xA01008 + 16 * n
def INT_CELOG_F_FIRST_MS (n : Nat) : Fld := ⟨INT_CELOG_F n, 31, 0⟩
/-- R325. -/
def INT_CELOG_L (n : Nat) : Nat := 0xA0100C + 16 * n
def INT_CELOG_L_LAST_MS (n : Nat) : Fld := ⟨INT_CELOG_L n, 31, 0⟩
/-- R342. -/
def THM_CTL : Nat := 0xB00000
def THM_CTL_LOWER : Fld := ⟨THM_CTL, 3, 0⟩
/-- R342. -/
def THM_STAT : Nat := 0xB00004
def THM_STAT_MAXEST : Fld := ⟨THM_STAT, 31, 16⟩
def THM_STAT_MAXPOS : Fld := ⟨THM_STAT, 15, 11⟩
def THM_STAT_MAXSTEP : Fld := ⟨THM_STAT, 10, 9⟩
def THM_STAT_TRIP : Fld := ⟨THM_STAT, 8, 8⟩
def THM_STAT_MODEL : Fld := ⟨THM_STAT, 7, 7⟩
def THM_STAT_LIDDEF : Fld := ⟨THM_STAT, 6, 6⟩
/-- R342. -/
def THM_LID : Nat := 0xB00008
def THM_LID_LID : Fld := ⟨THM_LID, 15, 0⟩
/-- R342. -/
def THM_PWRTOT : Nat := 0xB0000C
def THM_PWRTOT_MW : Fld := ⟨THM_PWRTOT, 16, 0⟩
/-- R342. -/
def THM_ENERGY_LO : Nat := 0xB00010
def THM_ENERGY_LO_MJ : Fld := ⟨THM_ENERGY_LO, 31, 0⟩
/-- R342. -/
def THM_ENERGY_HI : Nat := 0xB00014
def THM_ENERGY_HI_MJ : Fld := ⟨THM_ENERGY_HI, 31, 0⟩
/-- R342. -/
def THM_THRMS : Nat := 0xB00018
def THM_THRMS_MS : Fld := ⟨THM_THRMS, 31, 0⟩
/-- R342. -/
def THM_TRIP : Nat := 0xB0001C
def THM_TRIP_COUNT : Fld := ⟨THM_TRIP, 31, 16⟩
def THM_TRIP_POS : Fld := ⟨THM_TRIP, 15, 11⟩
def THM_TRIP_COMP : Fld := ⟨THM_TRIP, 10, 10⟩
/-- R342. -/
def THM_SENSMASK (n : Nat) : Nat := 0xB00020 + 4 * n
def THM_SENSMASK_MASK (n : Nat) : Fld := ⟨THM_SENSMASK n, 31, 0⟩
/-- R342. -/
def THM_SENSSUSP (n : Nat) : Nat := 0xB00030 + 4 * n
def THM_SENSSUSP_SUSP (n : Nat) : Fld := ⟨THM_SENSSUSP n, 31, 0⟩
/-- R342. -/
def THM_CRS (n : Nat) : Nat := 0xB00100 + 4 * n
def THM_CRS_EST (n : Nat) : Fld := ⟨THM_CRS n, 31, 16⟩
def THM_CRS_WARN (n : Nat) : Fld := ⟨THM_CRS n, 12, 12⟩
def THM_CRS_STEP (n : Nat) : Fld := ⟨THM_CRS n, 11, 10⟩
def THM_CRS_BAND (n : Nat) : Fld := ⟨THM_CRS n, 9, 8⟩
def THM_CRS_SRC (n : Nat) : Fld := ⟨THM_CRS n, 3, 0⟩
/-- R342. -/
def THM_CRSMAX (n : Nat) : Nat := 0xB00180 + 4 * n
def THM_CRSMAX_MAX (n : Nat) : Fld := ⟨THM_CRSMAX n, 15, 0⟩
/-- R342. -/
def THM_QUAD (n k : Nat) : Nat := 0xB00200 + 16 * n + 4 * k
def THM_QUAD_MODEL (n k : Nat) : Fld := ⟨THM_QUAD n k, 31, 16⟩
def THM_QUAD_SENSOR (n k : Nat) : Fld := ⟨THM_QUAD n k, 15, 0⟩
/-- R342. -/
def THM_SENS (n : Nat) : Nat := 0xB00400 + 4 * n
def THM_SENS_READING (n : Nat) : Fld := ⟨THM_SENS n, 15, 0⟩
/-- R342. -/
def THM_PWR (n : Nat) : Nat := 0xB00600 + 4 * n
def THM_PWR_MW (n : Nat) : Fld := ⟨THM_PWR n, 15, 0⟩
/-- R342. -/
def THM_SEG (n : Nat) : Nat := 0xB00700 + 4 * n
def THM_SEG_MV (n : Nat) : Fld := ⟨THM_SEG n, 31, 16⟩
def THM_SEG_MA (n : Nat) : Fld := ⟨THM_SEG n, 15, 0⟩
/-- R360. -/
def CAL_CTL : Nat := 0xC00000
def CAL_CTL_ROLL_MS : Fld := ⟨CAL_CTL, 31, 16⟩
def CAL_CTL_MINEYE : Fld := ⟨CAL_CTL, 15, 8⟩
def CAL_CTL_STRBTRK : Fld := ⟨CAL_CTL, 2, 2⟩
def CAL_CTL_TRACKEN : Fld := ⟨CAL_CTL, 1, 1⟩
def CAL_CTL_ROLLEN : Fld := ⟨CAL_CTL, 0, 0⟩
/-- R360. -/
def CAL_STAT : Nat := 0xC00004
def CAL_STAT_STEP : Fld := ⟨CAL_STAT, 31, 28⟩
def CAL_STAT_SEEDS : Fld := ⟨CAL_STAT, 15, 8⟩
def CAL_STAT_CLKBAD : Fld := ⟨CAL_STAT, 3, 3⟩
def CAL_STAT_REFBAD : Fld := ⟨CAL_STAT, 2, 2⟩
def CAL_STAT_ROLLING : Fld := ⟨CAL_STAT, 1, 1⟩
def CAL_STAT_DONE : Fld := ⟨CAL_STAT, 0, 0⟩
/-- R360. -/
def CAL_COUNT : Nat := 0xC00008
def CAL_COUNT_COUNT : Fld := ⟨CAL_COUNT, 31, 0⟩
/-- R360. -/
def CAL_LAST_TIME_LO : Nat := 0xC0000C
def CAL_LAST_TIME_LO_TIME : Fld := ⟨CAL_LAST_TIME_LO, 31, 0⟩
/-- R360. -/
def CAL_LAST_TIME_HI : Nat := 0xC00010
def CAL_LAST_TIME_HI_TIME : Fld := ⟨CAL_LAST_TIME_HI, 31, 0⟩
/-- R360. -/
def CAL_RESMEAS : Nat := 0xC00014
def CAL_RESMEAS_DOHM : Fld := ⟨CAL_RESMEAS, 15, 0⟩
/-- R360. -/
def CAL_REFCLK : Nat := 0xC00018
def CAL_REFCLK_PPM : Fld := ⟨CAL_REFCLK, 15, 0⟩
/-- R360. -/
def CAL_STEP : Nat := 0xC0001C
def CAL_STEP_FS : Fld := ⟨CAL_STEP, 15, 0⟩
/-- R360. -/
def CAL_ZTSV : Nat := 0xC00020
def CAL_ZTSV_ODT : Fld := ⟨CAL_ZTSV, 21, 16⟩
def CAL_ZTSV_PD : Fld := ⟨CAL_ZTSV, 13, 8⟩
def CAL_ZTSV_PU : Fld := ⟨CAL_ZTSV, 5, 0⟩
/-- R360. -/
def CAL_ZLANE (p : Nat) : Nat := 0xC00030 + 4 * p
def CAL_ZLANE_RXT (p : Nat) : Fld := ⟨CAL_ZLANE p, 13, 8⟩
def CAL_ZLANE_TXZ (p : Nat) : Fld := ⟨CAL_ZLANE p, 5, 0⟩
/-- R360. -/
def CAL_SGAIN (n : Nat) : Nat := 0xC00100 + 4 * n
def CAL_SGAIN_OFFSET (n : Nat) : Fld := ⟨CAL_SGAIN n, 31, 16⟩
def CAL_SGAIN_GAIN (n : Nat) : Fld := ⟨CAL_SGAIN n, 15, 0⟩
/-- R360. -/
def CAL_SOFF (n : Nat) : Nat := 0xC00200 + 4 * n
def CAL_SOFF_OFFSET (n : Nat) : Fld := ⟨CAL_SOFF n, 15, 0⟩
/-- R360. -/
def CAL_REGION (n : Nat) : Nat := 0xC00400 + 4 * n
def CAL_REGION_SHIFT (n : Nat) : Fld := ⟨CAL_REGION n, 23, 16⟩
def CAL_REGION_FS (n : Nat) : Fld := ⟨CAL_REGION n, 15, 0⟩
/-- R360. -/
def CAL_ROLL (c : Nat) : Nat := 0xC01000 + 32 * c
def CAL_ROLL_BUSY (c : Nat) : Fld := ⟨CAL_ROLL c, 31, 31⟩
def CAL_ROLL_PIN (c : Nat) : Fld := ⟨CAL_ROLL c, 30, 24⟩
def CAL_ROLL_INPLACE1 (c : Nat) : Fld := ⟨CAL_ROLL c, 23, 23⟩
def CAL_ROLL_INPLACE0 (c : Nat) : Fld := ⟨CAL_ROLL c, 22, 22⟩
def CAL_ROLL_VISITS (c : Nat) : Fld := ⟨CAL_ROLL c, 15, 0⟩
/-- R360. -/
def CAL_LAST (c : Nat) : Nat := 0xC01004 + 32 * c
def CAL_LAST_RESULT (c : Nat) : Fld := ⟨CAL_LAST c, 31, 28⟩
def CAL_LAST_PIN (c : Nat) : Fld := ⟨CAL_LAST c, 27, 20⟩
def CAL_LAST_WIDTH (c : Nat) : Fld := ⟨CAL_LAST c, 19, 10⟩
def CAL_LAST_CENTRE (c : Nat) : Fld := ⟨CAL_LAST c, 7, 0⟩
/-- R360. -/
def CAL_EYEMIN (c : Nat) : Nat := 0xC01008 + 32 * c
def CAL_EYEMIN_PIN (c : Nat) : Fld := ⟨CAL_EYEMIN c, 31, 25⟩
def CAL_EYEMIN_STEPS (c : Nat) : Fld := ⟨CAL_EYEMIN c, 9, 0⟩
/-- R360. -/
def CAL_FAIL (c : Nat) : Nat := 0xC0100C + 32 * c
def CAL_FAIL_INCOMPLETE (c : Nat) : Fld := ⟨CAL_FAIL c, 31, 16⟩
def CAL_FAIL_NOSET (c : Nat) : Fld := ⟨CAL_FAIL c, 15, 0⟩
/-- R360. -/
def CAL_DSTEP (c : Nat) : Nat := 0xC01010 + 32 * c
def CAL_DSTEP_FS (c : Nat) : Fld := ⟨CAL_DSTEP c, 31, 16⟩
def CAL_DSTEP_TRIM (c : Nat) : Fld := ⟨CAL_DSTEP c, 7, 0⟩
/-- R360. -/
def CAL_KDLY (k n : Nat) : Nat := 0xC02000 + 256 * k + 4 * n
def CAL_KDLY_D3 (k n : Nat) : Fld := ⟨CAL_KDLY k n, 31, 24⟩
def CAL_KDLY_D2 (k n : Nat) : Fld := ⟨CAL_KDLY k n, 23, 16⟩
def CAL_KDLY_D1 (k n : Nat) : Fld := ⟨CAL_KDLY k n, 15, 8⟩
def CAL_KDLY_D0 (k n : Nat) : Fld := ⟨CAL_KDLY k n, 7, 0⟩
/-- R360. -/
def CAL_KAPPLY (k : Nat) : Nat := 0xC020C0 + 256 * k
def CAL_KAPPLY_PEND (k : Nat) : Fld := ⟨CAL_KAPPLY k, 8, 8⟩
def CAL_KAPPLY_APPLY (k : Nat) : Fld := ⟨CAL_KAPPLY k, 0, 0⟩
/-- R360. -/
def CAL_KOVR (k : Nat) : Nat := 0xC020C4 + 256 * k
def CAL_KOVR_HOLD (k : Nat) : Fld := ⟨CAL_KOVR k, 0, 0⟩
/-- R360. -/
def CAL_KROLL (k : Nat) : Nat := 0xC020C8 + 256 * k
def CAL_KROLL_BUSY (k : Nat) : Fld := ⟨CAL_KROLL k, 31, 31⟩
def CAL_KROLL_PIN (k : Nat) : Fld := ⟨CAL_KROLL k, 30, 23⟩
def CAL_KROLL_INPLACE (k : Nat) : Fld := ⟨CAL_KROLL k, 22, 22⟩
def CAL_KROLL_VISITS (k : Nat) : Fld := ⟨CAL_KROLL k, 15, 0⟩
/-- R360. -/
def CAL_KLAST (k : Nat) : Nat := 0xC020CC + 256 * k
def CAL_KLAST_RESULT (k : Nat) : Fld := ⟨CAL_KLAST k, 31, 28⟩
def CAL_KLAST_PIN (k : Nat) : Fld := ⟨CAL_KLAST k, 27, 20⟩
def CAL_KLAST_WIDTH (k : Nat) : Fld := ⟨CAL_KLAST k, 19, 10⟩
def CAL_KLAST_CENTRE (k : Nat) : Fld := ⟨CAL_KLAST k, 7, 0⟩
/-- R378. -/
def BST_CTL : Nat := 0xD00000
def BST_CTL_PERIOD_MS : Fld := ⟨BST_CTL, 31, 16⟩
def BST_CTL_SKIPHOT : Fld := ⟨BST_CTL, 1, 1⟩
def BST_CTL_EN : Fld := ⟨BST_CTL, 0, 0⟩
/-- R378. -/
def BST_STAT : Nat := 0xD00004
def BST_STAT_STATE : Fld := ⟨BST_STAT, 31, 28⟩
def BST_STAT_QUEUED : Fld := ⟨BST_STAT, 20, 16⟩
/-- R378. -/
def BST_TARGET : Nat := 0xD00008
def BST_TARGET_WORD : Fld := ⟨BST_TARGET, 31, 0⟩
/-- R378. -/
def BST_POS_ROW : Nat := 0xD0000C
def BST_POS_ROW_INDEX : Fld := ⟨BST_POS_ROW, 26, 0⟩
/-- R378. -/
def BST_POS_TSV : Nat := 0xD00010
def BST_POS_TSV_INDEX : Fld := ⟨BST_POS_TSV, 12, 0⟩
/-- R378. -/
def BST_PASSES : Nat := 0xD00014
def BST_PASSES_ROW : Fld := ⟨BST_PASSES, 31, 16⟩
def BST_PASSES_TSV : Fld := ⟨BST_PASSES, 15, 0⟩
/-- R378. -/
def BST_CNT_PASS : Nat := 0xD00018
def BST_CNT_PASS_COUNT : Fld := ⟨BST_CNT_PASS, 31, 0⟩
/-- R378. -/
def BST_CNT_FAIL : Nat := 0xD0001C
def BST_CNT_FAIL_COUNT : Fld := ⟨BST_CNT_FAIL, 31, 0⟩
/-- R378. -/
def BST_CNT_INC : Nat := 0xD00020
def BST_CNT_INC_COUNT : Fld := ⟨BST_CNT_INC, 31, 0⟩
/-- R378. -/
def BST_CNT_DEFER : Nat := 0xD00024
def BST_CNT_DEFER_COUNT : Fld := ⟨BST_CNT_DEFER, 31, 0⟩
/-- R378. -/
def BST_POWERUP : Nat := 0xD00028
def BST_POWERUP_VALID : Fld := ⟨BST_POWERUP, 31, 31⟩
def BST_POWERUP_RESULT : Fld := ⟨BST_POWERUP, 30, 28⟩
def BST_POWERUP_RUNS : Fld := ⟨BST_POWERUP, 27, 24⟩
def BST_POWERUP_TEST : Fld := ⟨BST_POWERUP, 23, 16⟩
def BST_POWERUP_MS : Fld := ⟨BST_POWERUP, 15, 0⟩
/-- R378. -/
def BST_SCAN : Nat := 0xD0002C
def BST_SCAN_SESSION : Fld := ⟨BST_SCAN, 1, 1⟩
def BST_SCAN_UNLOCK : Fld := ⟨BST_SCAN, 0, 0⟩
/-- R378. -/
def BST_INC (n : Nat) : Nat := 0xD00100 + 4 * n
def BST_INC_WORD (n : Nat) : Fld := ⟨BST_INC n, 31, 0⟩
/-- R378. -/
def BST_LOGWR : Nat := 0xD00200
def BST_LOGWR_SEQ : Fld := ⟨BST_LOGWR, 31, 0⟩
/-- R378. -/
def BST_LOGRD : Nat := 0xD00204
def BST_LOGRD_SEQ : Fld := ⟨BST_LOGRD, 31, 0⟩
/-- R378. -/
def BST_LOGSTAT : Nat := 0xD00208
def BST_LOGSTAT_VALID : Fld := ⟨BST_LOGSTAT, 0, 0⟩
/-- R378. -/
def BST_LOG (n : Nat) : Nat := 0xD00210 + 4 * n
def BST_LOG_DATA (n : Nat) : Fld := ⟨BST_LOG n, 31, 0⟩
/-- R396. -/
def FUS_STAT : Nat := 0x200000
def FUS_STAT_INVALID : Fld := ⟨FUS_STAT, 31, 16⟩
def FUS_STAT_VPPOK : Fld := ⟨FUS_STAT, 2, 2⟩
def FUS_STAT_LOADING : Fld := ⟨FUS_STAT, 1, 1⟩
def FUS_STAT_LOADED : Fld := ⟨FUS_STAT, 0, 0⟩
/-- R396. -/
def FUS_LIFE : Nat := 0x200004
def FUS_LIFE_SETB : Fld := ⟨FUS_LIFE, 11, 8⟩
def FUS_LIFE_SETA : Fld := ⟨FUS_LIFE, 7, 4⟩
def FUS_LIFE_SPLIT : Fld := ⟨FUS_LIFE, 3, 3⟩
def FUS_LIFE_STATE : Fld := ⟨FUS_LIFE, 2, 0⟩
/-- R396. -/
def FUS_LOCK : Nat := 0x200008
def FUS_LOCK_LOCK : Fld := ⟨FUS_LOCK, 10, 0⟩
/-- R396. -/
def FUS_LOCKF : Nat := 0x20000C
def FUS_LOCKF_BLOWN : Fld := ⟨FUS_LOCKF, 10, 0⟩
/-- R396. -/
def FUS_ID0 : Nat := 0x200010
def FUS_ID0_SERIAL : Fld := ⟨FUS_ID0, 31, 0⟩
/-- R396. -/
def FUS_ID1 : Nat := 0x200014
def FUS_ID1_SERIAL : Fld := ⟨FUS_ID1, 31, 0⟩
/-- R396. -/
def FUS_LOADCNT : Nat := 0x200018
def FUS_LOADCNT_RESTARTS : Fld := ⟨FUS_LOADCNT, 31, 16⟩
def FUS_LOADCNT_LOADS : Fld := ⟨FUS_LOADCNT, 15, 0⟩
/-- R396. -/
def FUS_MARGCNT : Nat := 0x20001C
def FUS_MARGCNT_COUNT : Fld := ⟨FUS_MARGCNT, 11, 0⟩
/-- R396. -/
def FUS_MARG (n : Nat) : Nat := 0x200020 + 4 * n
def FUS_MARG_VALID (n : Nat) : Fld := ⟨FUS_MARG n, 31, 31⟩
def FUS_MARG_ADDR (n : Nat) : Fld := ⟨FUS_MARG n, 10, 0⟩
/-- R396. -/
def FUS_REGSTAT (n : Nat) : Nat := 0x200040 + 4 * n
def FUS_REGSTAT_USED (n : Nat) : Fld := ⟨FUS_REGSTAT n, 26, 16⟩
def FUS_REGSTAT_MARG (n : Nat) : Fld := ⟨FUS_REGSTAT n, 15, 8⟩
def FUS_REGSTAT_COPYB (n : Nat) : Fld := ⟨FUS_REGSTAT n, 6, 6⟩
def FUS_REGSTAT_DUP (n : Nat) : Fld := ⟨FUS_REGSTAT n, 5, 5⟩
def FUS_REGSTAT_LOCKS (n : Nat) : Fld := ⟨FUS_REGSTAT n, 4, 4⟩
def FUS_REGSTAT_LOCKF (n : Nat) : Fld := ⟨FUS_REGSTAT n, 3, 3⟩
def FUS_REGSTAT_STATE (n : Nat) : Fld := ⟨FUS_REGSTAT n, 2, 0⟩
/-- R396. -/
def FUS_PGADDR : Nat := 0x200080
def FUS_PGADDR_ADDR : Fld := ⟨FUS_PGADDR, 10, 0⟩
/-- R396. -/
def FUS_PGDATA : Nat := 0x200084
def FUS_PGDATA_DATA : Fld := ⟨FUS_PGDATA, 31, 0⟩
/-- R396. -/
def FUS_PGCMD : Nat := 0x200088
def FUS_PGCMD_KEY : Fld := ⟨FUS_PGCMD, 31, 16⟩
def FUS_PGCMD_TARGET : Fld := ⟨FUS_PGCMD, 10, 8⟩
def FUS_PGCMD_OP : Fld := ⟨FUS_PGCMD, 1, 0⟩
/-- R396. -/
def FUS_PGSTAT : Nat := 0x20008C
def FUS_PGSTAT_BUSY : Fld := ⟨FUS_PGSTAT, 31, 31⟩
def FUS_PGSTAT_RESULT : Fld := ⟨FUS_PGSTAT, 19, 16⟩
def FUS_PGSTAT_ADDR : Fld := ⟨FUS_PGSTAT, 10, 0⟩
/-- R396. -/
def FUS_RDADDR : Nat := 0x200090
def FUS_RDADDR_ADDR : Fld := ⟨FUS_RDADDR, 10, 0⟩
/-- R396. -/
def FUS_RDNORM : Nat := 0x200094
def FUS_RDNORM_DATA : Fld := ⟨FUS_RDNORM, 31, 0⟩
/-- R396. -/
def FUS_RDTIGHT : Nat := 0x200098
def FUS_RDTIGHT_DATA : Fld := ⟨FUS_RDTIGHT, 31, 0⟩
/-- R396. -/
def FUS_RDINFO : Nat := 0x20009C
def FUS_RDINFO_DONE : Fld := ⟨FUS_RDINFO, 31, 31⟩
def FUS_RDINFO_HIDDEN : Fld := ⟨FUS_RDINFO, 30, 30⟩
def FUS_RDINFO_CHKT : Fld := ⟨FUS_RDINFO, 23, 17⟩
def FUS_RDINFO_OUTT : Fld := ⟨FUS_RDINFO, 16, 15⟩
def FUS_RDINFO_CHKN : Fld := ⟨FUS_RDINFO, 14, 8⟩
def FUS_RDINFO_OUTN : Fld := ⟨FUS_RDINFO, 7, 6⟩
def FUS_RDINFO_BITS : Fld := ⟨FUS_RDINFO, 5, 0⟩
/-- R396. -/
def FUS_RFFREE : Nat := 0x2000A0
def FUS_RFFREE_BANK : Fld := ⟨FUS_RFFREE, 9, 8⟩
def FUS_RFFREE_FREE : Fld := ⟨FUS_RFFREE, 7, 0⟩
/-- R396. -/
def FUS_CFGOPT : Nat := 0x2000A4
def FUS_CFGOPT_OPTIONS : Fld := ⟨FUS_CFGOPT, 31, 0⟩

end Sys2Proof.Machine
end

