-- ==== Sys2Proof/Config.lean ====
section
/-! DEFINITION. Free values: what the manual leaves open. Each is a constant without a body, applied to the counter of State
(`fresh`) or to the operands it depends on, so that no proof can see what it is. -/

namespace Sys2Proof

/-- A value the manual does not fix, one for each value of the counter. (DESIGN CHOICE, log entry 8) -/
opaque Config.freeValue : Nat → Nat

/-- SHA-384 of a byte string (R33, R247): named by the manual and not defined in it. (DESIGN CHOICE, log entry 9) -/
opaque Config.sha384 : List Byte → Nat

/-- Whether an ECDSA P-384 signature verifies: key, message and signature (R33, R376). (DESIGN CHOICE, log entry 9) -/
opaque Config.ecdsaOk : Nat → List Byte → List Byte → Bool

/-- The version number, the digest and the signature that a firmware image carries, read from its bytes: the manual gives no
byte layout of an image (R33). (DESIGN CHOICE, log entry 44) -/
opaque Config.fwVersion : List Byte → Nat
opaque Config.fwDigest : List Byte → Nat
opaque Config.fwSig : List Byte → List Byte

/-- What a page reads as when it is decrypted under a key that did not encrypt it (R266). (DESIGN CHOICE, log entry 9) -/
opaque Config.garble : Nat → Nat → Byte

/-- The floor-plan map that Loesh firmware holds (R327): a quadrant's weight for the base course's rails other than VDDL, from the
rates of the 16 pace meters. (DESIGN CHOICE, log entry 111) -/
opaque Config.floorPlan : List Nat → Nat → Nat

/-- The symbols of the fixed poison pattern P, which lies at distance 8 from every code word (R303): the manual does not give it.
(DESIGN CHOICE, log entry 161) -/
opaque Config.poisonSym : Nat → Nat

/-- The check bits of a fuse word (R379): the matrix of the code is not given. -/
opaque Config.fuseCheck : Nat → Nat

end Sys2Proof
end

