-- ==== Sys2Proof/Machine/Table.lean ====
section
/-! DEFINITION. Sparse tables: a list of (key, value) pairs with rising keys. -/

namespace Sys2Proof.Machine

/-- A sparse table. -/
abbrev Tab (α : Type) := List (Nat × α)

/-- The entry of a key, if there is one. -/
def tget {α : Type} : Tab α → Nat → Option α
  | [], _ => none
  | (a, x) :: t, k => if a = k then some x else tget t k

/-- The entry of a key, or a default. -/
def tgetD {α : Type} (t : Tab α) (k : Nat) (d : α) : α := (tget t k).getD d

/-- The table with a key's entry set, in order of the keys. -/
def tset {α : Type} : Tab α → Nat → α → Tab α
  | [], k, v => [(k, v)]
  | (a, x) :: t, k, v =>
    if k < a then (k, v) :: (a, x) :: t
    else if a = k then (k, v) :: t
    else (a, x) :: tset t k v

/-- The table without a key. -/
def tdel {α : Type} (t : Tab α) (k : Nat) : Tab α := t.filter fun e => e.1 != k

/-- The table with the keys of a range removed. -/
def tdelRange {α : Type} (t : Tab α) (lo n : Nat) : Tab α := t.filter fun e => e.1 < lo || lo + n ≤ e.1

/-- The entries of a range of keys. -/
def trange {α : Type} (t : Tab α) (lo n : Nat) : Tab α := t.filter fun e => lo ≤ e.1 && e.1 < lo + n

/-- The table with a key's entry passed through a function, from a default. -/
def tmod {α : Type} (t : Tab α) (k : Nat) (d : α) (f : α → α) : Tab α := tset t k (f (tgetD t k d))

def tkeys {α : Type} (t : Tab α) : List Nat := t.map (·.1)

/-- The keys rise strictly. (DESIGN CHOICE, log entry 12) -/
def tsorted {α : Type} : Tab α → Bool
  | [] => true
  | [_] => true
  | (a, _) :: (b, y) :: t => a < b && tsorted ((b, y) :: t)

/-- A set of numbers as a rising list. -/
def sins : List Nat → Nat → List Nat
  | [], k => [k]
  | a :: t, k => if k < a then k :: a :: t else if a = k then a :: t else a :: sins t k

def sdel (l : List Nat) (k : Nat) : List Nat := l.filter (· != k)

end Sys2Proof.Machine
end

