-- ==== Sys2Proof/Machine/Program.lean ====
section
/-! DEFINITION. Chisel programs: the program block, fields, terms, IN sets and Bloom filters, products, outputs and groups
(R191-R214). A program is the bytes of its block; rows are read through a function from local addresses to bytes. -/

namespace Sys2Proof.Machine

/-! ### The program block (R193, R194) -/

def pColumnar (g : List Byte) : Bool := bitAt (fieldB g 1 1) 0
def pNFields (g : List Byte) : Nat := fieldB g 2 1
def pNTerms (g : List Byte) : Nat := fieldB g 3 1
def pNProd (g : List Byte) : Nat := fieldB g 4 1
def pBase (g : List Byte) : Nat := fieldB g 8 5
def pStride (g : List Byte) : Nat := if fieldB g 16 4 = 0 then 65536 else fieldB g 16 4
def pRows (g : List Byte) : Nat := if fieldB g 20 4 = 0 then 2 ^ 32 else fieldB g 20 4
def pIdBase (g : List Byte) : Nat := fieldB g 24 8
def pLen (g : List Byte) : Nat := fieldB g 32 4
def pPool (g : List Byte) : Nat := fieldB g 36 4
def pTermOff (g : List Byte) : Nat := 64 + 32 * pNFields g
def pProdOff (g : List Byte) : Nat := pTermOff g + 64 * pNTerms g
def pOutOff (g : List Byte) : Nat := pProdOff g + 16

/-- The granules of the program block (R193). -/
def pGrans (g : List Byte) : Nat := ceilDiv (pLen g) 64

/-! ### Fields (R195-R197) -/

/-- An entry of the field table. -/
structure FieldD where
  type : Nat
  w : Nat
  nullmode : Nat
  nullbit : Nat
  off : Nat
  nulloff : Nat
  colbase : Nat
  nullbase : Nat
deriving DecidableEq, Repr

def fieldD (g : List Byte) (f : Nat) : FieldD :=
  let o := 64 + 32 * f
  let b := fieldB g o 1
  { type := b % 16, w := 2 ^ getBits b 6 4, nullmode := fieldB g (o + 1) 1 % 4, nullbit := fieldB g (o + 2) 1 % 8
    off := fieldB g (o + 4) 2, nulloff := fieldB g (o + 6) 2, colbase := fieldB g (o + 8) 5, nullbase := fieldB g (o + 16) 5 }

/-- The address of field `d` in row `i` (R195). -/
def fieldAddr (g : List Byte) (d : FieldD) (i : Nat) : Nat :=
  if pColumnar g then d.colbase + i * d.w else pBase g + i * pStride g + d.off

/-- The byte that holds the null bit of row `i`, and the bit. -/
def nullAt (g : List Byte) (d : FieldD) (i : Nat) : Nat × Nat :=
  if pColumnar g then (d.nullbase + i / 8, i % 8) else (pBase g + i * pStride g + d.nulloff, d.nullbit)

/-! ### Terms (R198-R205) -/

def tOff (g : List Byte) (t : Nat) : Nat := pTermOff g + 64 * t
def tOp (g : List Byte) (t : Nat) : Nat := fieldB g (tOff g t) 1
def tField (g : List Byte) (t : Nat) : Nat := fieldB g (tOff g t + 1) 1
def tNeg (g : List Byte) (t : Nat) : Bool := bitAt (fieldB g (tOff g t + 2) 1) 0
def tNullVal (g : List Byte) (t : Nat) : Bool := bitAt (fieldB g (tOff g t + 2) 1) 1
def tPlen (g : List Byte) (t : Nat) : Nat := fieldB g (tOff g t + 3) 1

/-- A binary32 or binary64 value as a number that orders as R200 lays down; none for a NaN. Both zeros are 0. -/
def floatKey (w raw : Nat) : Option Int :=
  let sign := bitAt raw (8 * w - 1)
  let mag := raw % 2 ^ (8 * w - 1)
  let inf := if w = 4 then 0x7F800000 else 0x7FF0000000000000
  if inf < mag then none else some (if sign then -(mag : Int) else mag)

/-- The value of a byte string whose lowest address counts most (R200, BYTES). -/
def beKey : Nat → Nat → Nat
  | 0, _ => 0
  | n + 1, raw => raw % 256 * 256 ^ n + beKey n (raw / 256)

/-- A value as a number that orders as R200 lays down for its TYPE; none for a NaN. -/
def cmpKey (type w raw : Nat) : Option Int :=
  if type = 0 then some raw else if type = 1 then some (signed (8 * w) raw)
  else if type = 2 then floatKey w raw else some (beKey w raw)

/-- The mixing step of R203. -/
def mix64 (x : Nat) : Nat :=
  let x := x ^^^ (x / 2 ^ 31)
  let x := x * 0xD6E8FEB86659FD93 % 2 ^ 64
  let x := x ^^^ (x / 2 ^ 29)
  let x := x * 0xA5CB92433F2D71C7 % 2 ^ 64
  x ^^^ (x / 2 ^ 32)

/-- bloom_positions of R203. -/
def bloomPos (key w seed log2m k : Nat) : List Nat :=
  let a := mix64 ((key % 2 ^ 64) ^^^ seed ^^^ (w * 2 ^ 56))
  let b := mix64 ((key / 2 ^ 64) ^^^ a) ||| 1
  (List.range k).map fun i => (a + i * b) % 2 ^ 64 % 2 ^ log2m

/-- Membership of a value in the set of an IN term (R202, R203). -/
def inSet (g : List Byte) (t type w raw : Nat) : Bool :=
  let o := tOff g t
  let set := pPool g + fieldB g (o + 8) 4
  if bitAt (fieldB g (o + 3) 1) 0 then
    let p := fieldB g (o + 4) 4
    let key := if type = 2 ∧ floatKey w raw = some 0 then 0 else raw
    (type != 2 || (floatKey w raw).isSome) &&
      (bloomPos key w (p / 65536) (p % 32) (getBits p 11 8)).all fun j => bitAt (fieldB g (set + j / 8) 1) (j % 8)
  else
    match cmpKey type w raw with
    | none => false
    | some v => (List.range (fieldB g (o + 4) 4)).any fun n =>
        cmpKey type w (fieldB g (set + 16 * n) w) == some v

/-- The truth value of an operator for a field that is not null (R199). `rd` reads bytes from the field's first. -/
def opTrue (g : List Byte) (t : Nat) (d : FieldD) (rd : Nat → List Byte) : Bool :=
  let o := tOff g t
  let raw := leNat (rd d.w)
  let op := tOp g t
  let a := fieldB g (o + 16) d.w
  let b := fieldB g (o + 32) d.w
  if op = 8 then inSet g t d.type d.w raw
  else if op = 9 then rd (tPlen g t) == sliceB g (o + 16) (tPlen g t)
  else if op = 10 then (raw &&& a) == b
  else if op = 11 then false
  else match cmpKey d.type d.w raw, cmpKey d.type d.w a, cmpKey d.type d.w b with
    | some v, some x, y =>
      if op = 1 then v == x else if op = 2 then v != x else if op = 3 then decide (v < x)
      else if op = 4 then decide (v ≤ x) else if op = 5 then decide (x < v) else if op = 6 then decide (x ≤ v)
      else match y with | some y => decide (x ≤ v) && decide (v ≤ y) | none => false
    | _, _, _ => op == 2

/-- A row as a program sees it: the byte at a local address. -/
abbrev RowMem := Nat → Byte

def rdBytes (m : RowMem) (a n : Nat) : List Byte := (List.range n).map fun k => m (a + k)

/-- Whether field `d` of row `i` is null (R197). -/
def isNull (g : List Byte) (m : RowMem) (d : FieldD) (i : Nat) : Bool :=
  let n := nullAt g d i
  let bit := bitAt (m n.1).toNat n.2
  if d.nullmode = 0 then false else if d.nullmode = 1 then bit else !bit

/-- A term's result on a row (R201). -/
def termTrue (g : List Byte) (m : RowMem) (t i : Nat) : Bool :=
  let d := fieldD g (tField g t)
  if tOp g t = 11 then xor (isNull g m d i) (tNeg g t)
  else if isNull g m d i then tNullVal g t
  else xor (opTrue g t d (rdBytes m (fieldAddr g d i))) (tNeg g t)

/-- The predicate on a row (R206). -/
def selected (g : List Byte) (m : RowMem) (i : Nat) : Bool :=
  pNProd g == 0 || (List.range (pNProd g)).any fun k =>
    let mask := fieldB g (pProdOff g + 2 * k) 2
    (List.range 16).all fun t => !bitAt mask t || termTrue g m t i

/-! ### Outputs (R207-R213) -/

def oKind (g : List Byte) : Nat := fieldB g (pOutOff g) 1 % 8
def oFlags (g : List Byte) : Nat := fieldB g (pOutOff g + 1) 1
def oId64 (g : List Byte) : Bool := bitAt (oFlags g) 0
def oWithId (g : List Byte) : Bool := bitAt (oFlags g) 1
def oWithNull (g : List Byte) : Bool := bitAt (oFlags g) 2
def oNProj (g : List Byte) : Nat := fieldB g (pOutOff g + 2) 1
def oNAgg (g : List Byte) : Nat := fieldB g (pOutOff g + 3) 1
def oKey (g : List Byte) : Nat := fieldB g (pOutOff g + 4) 1
def oKeyed (g : List Byte) : Bool := oKey g != 0xFF
def oGlog (g : List Byte) : Nat := fieldB g (pOutOff g + 5) 1
def oProj (g : List Byte) (j : Nat) : Nat := fieldB g (pOutOff g + 8 + j) 1
def oAggF (g : List Byte) (j : Nat) : Nat := fieldB g (pOutOff g + 24 + 2 * j) 1
def oAggOp (g : List Byte) (j : Nat) : Nat := fieldB g (pOutOff g + 25 + 2 * j) 1
def oESize (g : List Byte) : Nat := 32 + 16 * oNAgg g

/-- The job-state SRAM of a program in KiB: its length rounded up to 4 KiB and its groups (R213), rounded up to 4 KiB. -/
def pNeed (g : List Byte) : Nat :=
  let own := ceilDiv (pLen g) 4096 * 4096
  let groups := if oKind g ≠ 3 then 0 else if oKeyed g then 2 ^ oGlog g * oESize g else oESize g
  4 * ceilDiv (own + groups) 4096

/-- The fields a program references, each with the bytes it reads from the field's first (R196, R204). -/
def pRefs (g : List Byte) : List (Nat × Nat) :=
  let one := fun f => (f, (fieldD g f).w)
  ((List.range (pNTerms g)).map fun t =>
    if tOp g t = 9 then (tField g t, tPlen g t) else if tOp g t = 11 then (tField g t, 0) else one (tField g t)) ++
  (if oKind g = 2 then (List.range (oNProj g)).map fun j => one (oProj g j) else []) ++
  (if oKind g = 3 then (if oKeyed g then [one (oKey g)] else []) ++ (List.range (oNAgg g)).map fun j => one (oAggF g j)
   else [])

/-- The byte ranges that row `i` is read from (R195, R196). A referenced field's own bytes are read with it. -/
def rowRanges (g : List Byte) (i : Nat) : List (Nat × Nat) :=
  ((pRefs g).map fun r =>
    let d := fieldD g r.1
    (fieldAddr g d i, max r.2 d.w) :: (if d.nullmode = 0 then [] else [((nullAt g d i).1, 1)])).flatten

/-- The granules of row `i`. -/
def rowGrans (g : List Byte) (i : Nat) : List Nat :=
  (((rowRanges g i).map fun r => (List.range ((r.1 + r.2 - 1) / 64 + 1 - r.1 / 64)).map (r.1 / 64 + ·)).flatten).dedup

/-- Every referenced byte of row `i` lies in the stack's DRAM (R224). -/
def rowFits (g : List Byte) (i : Nat) : Bool := (rowRanges g i).all fun r => r.1 + r.2 ≤ 0x1800000000

/-- The ranges of local addresses that a program's input spans (R196, R214): each referenced field's bytes and null bits from its
first row to its last. -/
def inputSpans (g : List Byte) : List (Nat × Nat) :=
  (rowRanges g 0).zip (rowRanges g (pRows g - 1)) |>.map fun x => (x.1.1, x.2.1 + x.2.2 - x.1.1)

/-- The ID of a row in `n` bytes. -/
def rowId (g : List Byte) (n i : Nat) : List Byte := leBytes n (pIdBase g + i)

/-- A COMPACT record (R208). -/
def compactRec (g : List Byte) (m : RowMem) (i : Nat) : List Byte :=
  let ds := (List.range (oNProj g)).map fun j => fieldD g (oProj g j)
  let nulls := (ds.zipIdx.map fun x => if isNull g m x.1 i then 2 ^ x.2 else 0).sum
  let body := (if oWithId g then rowId g 8 i else []) ++ (if oWithNull g then leBytes 8 nulls else []) ++
    (ds.map fun d => if isNull g m d i then List.replicate d.w 0 else rdBytes m (fieldAddr g d i) d.w).flatten
  padB (8 * ceilDiv body.length 8) body

/-- A group's key: which kind it is (0 a value, 1 NaN, 2 null) and its canonical value (R210). -/
abbrev GKey := Nat × Nat

/-- A group: key, COUNT, and for each aggregate nothing while no row has contributed, else the true sum or the raw least or
greatest value. -/
structure Group where
  key : GKey
  count : Nat
  aggs : List (Option Int)
deriving DecidableEq, Repr

def rowKey (g : List Byte) (m : RowMem) (i : Nat) : GKey :=
  if oKeyed g then
    let d := fieldD g (oKey g)
    let raw := leNat (rdBytes m (fieldAddr g d i) d.w)
    if isNull g m d i then (2, 0)
    else if d.type = 2 then
      match floatKey d.w raw with | none => (1, 0) | some v => if v = 0 then (0, 0) else (0, raw)
    else (0, raw)
  else (0, 0)

/-- The order of R209 for MIN and MAX, in which −0 counts as less than +0. -/
def minKey (d : FieldD) (raw : Nat) : Int :=
  if d.type = 2 then
    let sign := bitAt raw (8 * d.w - 1)
    let mag := raw % 2 ^ (8 * d.w - 1)
    if sign then -(mag : Int) - 1 else mag
  else (cmpKey d.type d.w raw).getD 0

/-- One row's contribution to aggregate `j`; none when it does not contribute (R209). -/
def rowAgg (g : List Byte) (m : RowMem) (i j : Nat) : Option Int :=
  let d := fieldD g (oAggF g j)
  let raw := leNat (rdBytes m (fieldAddr g d i) d.w)
  if isNull g m d i ∨ (d.type = 2 ∧ floatKey d.w raw = none) then none
  else if oAggOp g j = 1 then some (if d.type = 1 then signed (8 * d.w) raw else raw)
  else some raw

/-- Two contributions to aggregate `j` joined. -/
def aggJoin (g : List Byte) (j : Nat) : Option Int → Option Int → Option Int
  | none, y => y
  | x, none => x
  | some x, some y =>
    let d := fieldD g (oAggF g j)
    if oAggOp g j = 1 then some (x + y)
    else
      let lt := decide (minKey d y.toNat < minKey d x.toNat)
      some (if oAggOp g j = 2 then (if lt then y else x) else if lt then x else if minKey d x.toNat < minKey d y.toNat then y else x)

/-- A row as a group of its own. -/
def rowGroup (g : List Byte) (m : RowMem) (i : Nat) : Group :=
  { key := rowKey g m i, count := 1, aggs := (List.range (oNAgg g)).map fun j => rowAgg g m i j }

/-- Two groups of one key joined. -/
def Group.join (p : List Byte) (a b : Group) : Group :=
  { a with count := a.count + b.count
           aggs := (List.range (oNAgg p)).map fun j => aggJoin p j (a.aggs.getD j none) (b.aggs.getD j none) }

/-- The 16 bytes of a slot (R209). -/
def slotBytes (g : List Byte) (j : Nat) (x : Int) : List Byte :=
  let d := fieldD g (oAggF g j)
  if oAggOp g j = 1 then leBytes 16 (twos 128 x)
  else if d.type = 1 then leBytes 16 (twos 128 (signed (8 * d.w) x.toNat))
  else leBytes 16 x.toNat

/-- SUM `j` has wrapped (R209). -/
def sumWrapped (g : List Byte) (j : Nat) (x : Int) : Bool :=
  oAggOp g j == 1 &&
    (if (fieldD g (oAggF g j)).type = 1 then decide (x < -(2 ^ 127 : Nat)) || decide ((2 ^ 127 : Nat) ≤ x)
     else decide (x < 0) || decide ((2 ^ 128 : Nat) ≤ x))

/-- A group entry (R211). -/
def entryBytes (g : List Byte) (e : Group) : List Byte :=
  let n := oNAgg g
  let empty := ((List.range n).map fun j => if (e.aggs.getD j none).isNone then 2 ^ j else 0).sum
  let ovf := ((List.range n).map fun j =>
    match e.aggs.getD j none with | some x => if sumWrapped g j x then 2 ^ (4 + j) else 0 | none => 0).sum
  leBytes 16 e.key.2 ++ leBytes 8 e.count ++
    [BitVec.ofNat 8 (b2n (e.key.1 == 2) + 2 * b2n (e.key.1 == 1)), BitVec.ofNat 8 (empty + ovf)] ++ List.replicate 6 0 ++
    ((List.range n).map fun j => match e.aggs.getD j none with
      | some x => slotBytes g j x | none => List.replicate 16 0).flatten

/-- The order in which groups are written (R210): ascending keys, then NaN, then null. -/
def groupLe (g : List Byte) (a b : Group) : Bool :=
  if a.key.1 ≠ b.key.1 then a.key.1 < b.key.1
  else
    let d := fieldD g (oKey g)
    if oKeyed g then (cmpKey d.type d.w a.key.2).getD 0 ≤ (cmpKey d.type d.w b.key.2).getD 0 else true

/-- The AGG output (R211), padded to 64 B. -/
def aggBytes (g : List Byte) (gs : List Group) (spilled : Bool) (sel scanned spillRows : Nat) : List Byte :=
  let gs := gs.mergeSort (groupLe g)
  let hdr := leBytes 8 gs.length ++ leBytes 2 (oESize g) ++ [BitVec.ofNat 8 (oNAgg g),
    BitVec.ofNat 8 (b2n spilled + 2 * b2n (gs.any fun e => e.key.1 == 2) + 4 * b2n (gs.any fun e => e.key.1 == 1))] ++
    List.replicate 4 0 ++ leBytes 8 sel ++ leBytes 8 scanned ++ leBytes 8 spillRows
  let all := padB 64 hdr ++ (gs.map (entryBytes g)).flatten
  padB (64 * ceilDiv all.length 64) all

/-! ### Host errors (R214) -/

/-- A field that R214 forbids; a WIDTH code of 5 to 7 counts as a reserved value. (DESIGN CHOICE, log entry 150) -/
def fieldBad (g : List Byte) (f : Nat) : Bool :=
  let o := 64 + 32 * f
  let d := fieldD g f
  let b0 := fieldB g o 1
  3 < b0 % 16 || 4 < getBits b0 6 4 || bitAt b0 7 || 2 < fieldB g (o + 1) 1 || 7 < fieldB g (o + 2) 1 ||
  fieldB g (o + 3) 1 != 0 || fieldB g (o + 13) 3 != 0 || fieldB g (o + 21) 3 != 0 || fieldB g (o + 24) 8 != 0 ||
  (d.type == 2 && d.w != 4 && d.w != 8) ||
  (if pColumnar g then d.colbase % d.w != 0
   else pStride g < d.off + d.w || pStride g ≤ d.nulloff)

/-- A term that R214 forbids; a SETOFF that is no multiple of 64 and an IN term of a program without a pool count as sets that lie
outside PROG_LEN. (DESIGN CHOICE, log entry 150) -/
def termBad (g : List Byte) (t : Nat) : Bool :=
  let o := tOff g t
  let op := tOp g t
  let d := fieldD g (tField g t)
  let set := pPool g + fieldB g (o + 8) 4
  let p := fieldB g (o + 4) 4
  let bloom := bitAt (fieldB g (o + 3) 1) 0
  op == 0 || 11 < op || pNFields g ≤ tField g t || 3 < fieldB g (o + 2) 1 || fieldB g (o + 12) 4 != 0 ||
  fieldB g (o + 48) 16 != 0 ||
  (op == 8 && (fieldB g (o + 8) 4 % 64 != 0 || pPool g == 0 || 1 < fieldB g (o + 3) 1 ||
    (if bloom then p % 32 < 10 || 20 < p % 32 || getBits p 7 5 != 0 || getBits p 11 8 == 0 || 8 < getBits p 11 8 ||
        getBits p 15 12 != 0 || pLen g < set + 2 ^ (p % 32) / 8
     else p == 0 || 256 < p || pLen g < set + 16 * p))) ||
  (op == 9 && (tPlen g t == 0 || 32 < tPlen g t ||
    (if pColumnar g then d.w < tPlen g t else pStride g < d.off + tPlen g t))) ||
  (op != 8 && op != 9 && fieldB g (o + 3) 1 != 0) || (op != 8 && fieldB g (o + 4) 8 != 0)

def outBad (g : List Byte) : Bool :=
  let o := pOutOff g
  let nf := pNFields g
  3 < fieldB g o 1 || 7 < oFlags g || fieldB g (o + 6) 2 != 0 || fieldB g (o + 32) 32 != 0 ||
  (oKind g == 2 && (oNProj g == 0 || 16 < oNProj g || (List.range (oNProj g)).any fun j => nf ≤ oProj g j)) ||
  (oKind g == 3 && (4 < oNAgg g || (oKeyed g && (nf ≤ oKey g || oGlog g < 4 || 16 < oGlog g)) ||
    (List.range (oNAgg g)).any fun j => nf ≤ oAggF g j || oAggOp g j == 0 || 3 < oAggOp g j ||
      (oAggOp g j == 1 && 2 ≤ (fieldD g (oAggF g j)).type)))

/-- The program block holds an error of R214: what the job then does is unpredictable. Beside those that R214 names, a STRIDE above
65,536 or a BASE or STRIDE of a columnar table that is not 0 counts as one. (DESIGN CHOICE, log entry 150) -/
def progBad (g : List Byte) : Bool :=
  (pColumnar g && (fieldB g 8 8 != 0 || fieldB g 16 4 != 0)) || fieldB g 0 1 != 1 || 1 < fieldB g 1 1 || pNFields g == 0 || 32 < pNFields g || 16 < pNTerms g || 8 < pNProd g ||
  fieldB g 5 3 != 0 || fieldB g 13 3 != 0 || fieldB g 40 24 != 0 || 65536 < fieldB g 16 4 ||
  pLen g < pOutOff g + 64 || 2162688 < pLen g ||
  (pPool g != 0 && (pPool g % 64 != 0 || pPool g < pOutOff g + 64 || pLen g < pPool g)) ||
  ((List.range (pNFields g)).any (fieldBad g)) || ((List.range (pNTerms g)).any (termBad g)) || outBad g ||
  ((List.range (pNProd g)).any fun k => 2 ^ pNTerms g ≤ fieldB g (pProdOff g + 2 * k) 2)

end Sys2Proof.Machine
end

