-- ==== Sys2Proof/Machine/State.lean ====
section
/-! DEFINITION. The state of the block as plain data: every piece of state the manual gives it, the queue of waiting
commands, the reasons a step can stop, and the state after reset. -/

namespace Sys2Proof.Machine

/-- The reasons a step can fault. (DESIGN CHOICE, log entry 13) -/
inductive Fault where
  /-- No command raises it: the manual gives the block no address that a command of the table can reach and that does not
  exist (an access outside the address map is answered NO_TARGET, R36). Safe. -/
  | absentAddress
deriving DecidableEq, Repr

/-- The reasons a step can refuse. (DESIGN CHOICE, log entry 13) -/
inductive Refusal where
  /-- Raised by the arm of a command that has no meaning yet, under the command's mnemonic. Safe. -/
  | notModelled (mnemonic : String)
deriving DecidableEq, Repr

/-! ### Registers and the Keystone (R32-R48) -/

/-- The device states of R7, in the order of their values 0x0-0x9. -/
inductive Dev where
  | off | aux | bringup | restoring | ready | saving | sealed | recovery | thermalHold | safe
deriving DecidableEq, Repr

/-- The half-value latch of one path (R38): the low register of the pair, the requester, whether a read filled it, and the
half it holds. -/
structure Latch where
  lo : Nat
  requester : Endpoint
  isRead : Bool
  half : Nat
deriving DecidableEq, Repr

/-- One hardware semaphore (R44, R45). `src` is the owner's path: 0 lattice, 1 sideband, 2 Keystone. `expiry` is the clock
at which its lease ends; none when there is no lease. -/
structure Sem where
  held : Bool := false
  broken : Bool := false
  src : Nat := 0
  owner : Nat := 0
  port : Nat := 0
  epoch : Nat := 0
  expiry : Option Nat := none
deriving DecidableEq, Repr

/-- An event log entry (R46) with the sequence it took. -/
structure Ev where
  seq : Nat
  time : Nat
  code : Nat
  sev : Nat
  unit : Nat
  data : Nat
deriving DecidableEq, Repr

/-- What one event message destination holds back (R48): the clock of its last MSG, the events not sent, the newest. -/
structure MsgDest where
  lastSend : Option Nat := none
  unsent : Nat := 0
  newest : Option Ev := none
deriving DecidableEq, Repr

/-- What leaves the block, kept in order as the model's own record: a flit on a port, an in-band interrupt, the bytes the
sideband returns, a CCC not acknowledged, bits at TDO. A flit names, for each of its eight slots, the transmit lanes (16 is
TXS) that carry it (R50, R60); `pass` is what a closed lintel hands on to a transmit lane (R28, R65). (DESIGN CHOICE, log entry 10) -/
inductive Out where
  | flit (p : Nat) (bytes : List Byte) (lanes : List (List Nat))
  | pass (p : Nat) (lane : Nat) (bytes : List Byte)
  | ibi (b : Nat)
  | sideband (bytes : List Byte)
  | nack
  | tdo (bits : Nat) (v : Nat)
deriving DecidableEq, Repr

/-- A firmware image slot of a keep course's reserved area (R33, R125): the image, its version, its digest and signature,
whether the digest is that of the image, and the key that the signature was last found to verify under. -/
structure FwSlot where
  present : Bool := false
  version : Nat := 0
  digestOk : Bool := false
  digest : List Byte := []
  sig : List Byte := []
  key : Option Nat := none
  image : List Byte := []
deriving DecidableEq, Repr

/-- The firmware image a part leaves manufacture with, in slot A of both courses, signed under the key of a CFG region whose
words are 0. (DESIGN CHOICE, log entry 6) -/
def factoryFw : FwSlot := { present := true, version := 0x01000000, digestOk := true, key := some 0 }

/-- The Keystone's own state (R32-R48). -/
structure Ks where
  time : Nat := 0
  latches : List (Option Latch) := List.replicate 6 none
  sems : List Sem := List.replicate 32 {}
  log : Tab Ev := []
  wrSeq : Nat := 0
  alertSeq : Nat := 0xFFFFFFFF
  alertClass : Nat := 0
  dests : List MsgDest := List.replicate 4 {}
  straps : Nat := 0
  compat : Bool := false
  dynAddr : Option Nat := none
  ibi : Bool := true
  result : Option (Nat × Nat) := none
  /-- slots A and B of K0, then of K1 -/
  fw : List FwSlot := [factoryFw, {}, factoryFw, {}]
  fwRun : Nat := 0
deriving DecidableEq, Repr

/-- The pins (R29): the inputs as they are recognised after their filters, and the outputs. `keepSealed` and `thermTrip` are
true while the device drives the open drain low. (DESIGN CHOICE, log entry 7) -/
structure Pins where
  lintelForceN : Bool := true
  resetN : Bool := true
  pwrFailN : Bool := true
  trstN : Bool := true
  refclk : Bool := true
  compat : Bool := false
  sbaddr : Nat := 0
  keepSealed : Bool := true
  thermTrip : Bool := false
deriving DecidableEq, Repr

/-! ### Ports (R49-R108) -/

/-- The port states of R53, in the order of their values. -/
inductive PSt where
  | disabled | bypassed | detect | negotiate | train | align | active
deriving DecidableEq, Repr

/-- The run-time of one receive lane beside its registers (R57-R62): whether its markers have named the lane that it carries (R52),
windows in a row in each class, whether 0x0203 is posted, marker errors in a row, the equaliser setting and FOM before the last
step, and the step of the partner's taps that the lane's markers ask for (TXEQ_REQ). -/
structure Lane where
  named : Bool := false
  margRun : Nat := 0
  failRun : Nat := 0
  goodRun : Nat := 0
  posted : Bool := false
  mkRun : Nat := 0
  stepped : Bool := false
  prevLeq : Nat := 0
  prevFom : Nat := 0
  txeq : Nat := 0
deriving DecidableEq, Repr

/-- A DATA flit of the replay buffer (R76): its number, FIRST, its 240 payload bytes and the packets that begin in it. -/
structure RFlit where
  seq : Nat
  first : Nat
  payload : List Byte
  npk : Nat
deriving DecidableEq, Repr

/-- A packet of an output queue (R98, R102): `src` is the arrival port, 4 for a packet turning in and 5 for local
injection; `since` is the clock at which it was queued. -/
structure OutPkt where
  pkt : Pkt
  src : Nat
  since : Nat
deriving DecidableEq, Repr

/-- What training found at one generation (R55): the group it reached (width 0 for none), the lane carried on LS (16 none),
and the lanes that failed there. -/
structure Tried where
  gen : Nat
  width : Nat
  group : Nat
  ls : Nat
  failed : List Nat
deriving DecidableEq, Repr

/-- One lattice port beside its registers: training (R53-R63) and the link (R73-R102). (DESIGN CHOICE, log entry 131) -/
structure Port where
  st : PSt := .bypassed
  /-- the generations tried in this training -/
  tried : List Tried := []
  gen : Nat := 0
  maxCommon : Nat := 0
  /-- GENMAX as the port offers it, taken at its entry to NEGOTIATE (R71) -/
  genMax : Nat := 3
  slowNeg : Bool := false
  skewTried : Bool := false
  skewLane : Option Nat := none
  partnerLs : Bool := true
  lanes : List Lane := List.replicate 17 {}
  /-- R60, receive direction: the lane being moved onto LS, and its FOM when it failed -/
  rxSwap : Option (Nat × Nat) := none
  /-- R60, transmit direction: the lane the partner asked for and has not yet confirmed, and its FOM there when it asked -/
  txSwap : Option (Nat × Nat) := none
  txLs : Nat := 16
  /-- R61: the width code, the group and the failed lane of a narrowing this end asked for -/
  widthReq : Option (Nat × Nat × Nat) := none
  /-- R50: the slots sent and received since the port entered ACTIVE, modulo 16 -/
  txSlot : Nat := 0
  rxSlot : Nat := 0
  replay : List RFlit := []
  seq : Nat := 0
  rxSeq : Nat := 4095
  haveLink : Bool := false
  heldPartner : Nat := 0
  heldEpoch : Nat := 0
  /-- flits are being discarded (R76), and a NAK for them has not left yet -/
  nakOut : Bool := false
  nakDue : Bool := false
  nakSeq : Nat := 0
  nakRun : Nat := 0
  unacked : Nat := 0
  initRx : Bool := false
  txCred : List Nat := List.replicate 6 0
  ret : List Nat := List.replicate 6 0
  rx : List Pkt := []
  part : List Byte := []
  outq : List OutPkt := []
  rot : List Nat := List.replicate 6 0
  /-- units of REQ and RSP that go before the next MGT packet when both wait (R98) -/
  mgtOwed : Nat := 0
  expired : Nat := 0
  outage : Bool := false
  routeAt : Option Nat := none
  /-- a PORT reset holds the port's master until the link restarts (R188) -/
  rstHold : Bool := false
deriving DecidableEq, Repr

/-- The parts of the device that originate lattice requests (R101). -/
inductive Origin where
  | fetch (q gen : Nat)
  | cqWrite (q gen : Nat)
  | program (slot : Nat)
  | jobRead (slot : Nat)
  | jobWrite (slot : Nat)
  | keystone (q cid gen : Nat)
deriving DecidableEq, Repr

/-- A device-originated request that waits for its response (R101): the packet as it was injected, the clock at which it was
first sent, its master, and the byte of its operation at which it begins. -/
structure Outst where
  tag : Nat
  pkt : Pkt
  since : Nat
  master : Nat
  off : Nat
  origin : Origin
deriving DecidableEq, Repr

/-- The lattice: four ports, the lintels' own conditions, and the transactions in progress. -/
structure Lnk where
  ports : List Port := List.replicate 4 {}
  /-- firmware has opened the ring's lintel (R65) -/
  opened : List Bool := [false, false]
  /-- the lintel is closed -/
  closed : List Bool := [true, true]
  outst : List Outst := []
  nextTag : Nat := 0
  /-- responses that reach this stack without entering a port (R93) -/
  loop : List Pkt := []
  /-- the accepted RST whose reset has not begun (R105): REACH and PSEL -/
  rst : Option (Nat × Nat) := none
  rstSrc : Nat := 0
deriving DecidableEq, Repr
/-- A work-queue operation that has been dispatched and not completed (R127, R130). -/
structure Op where
  q : Nat
  cid : Nat
  opc : Nat
  desc : List Byte
  gen : Nat
deriving DecidableEq, Repr

/-! ### DRAM, channels and mortar (R140-R190) -/

/-- DRAM contents: the bytes that are not 0, by local address, and the granules that are poisoned (R303). -/
structure Dram where
  mem : List Host.Cell := []
  poison : List Nat := []
deriving DecidableEq, Repr

/-- What a transfer of one of the device's own masters belongs to: a slice of a chisel job by slot, channel and first granule, the
reads of a job's program, the writes of a job, the reads of a page for a copy and its way to the keep controller, the reads of a
page's version from the keep controller and its writes into DRAM, pages of the reserved area, the page and the granule of a
recovery, a unit of the repointer, an access of the Keystone to DRAM and to the reserved areas, a register access.
(DEDUCED, log entry 142) -/
inductive Own where
  | slice (n ch first : Nat) | prog (n : Nat) | out (n : Nat) | copy (page : Nat) | page (page : Nat)
  | fetch (page : Nat) | restore (page : Nat) | record | recover (g : Nat) | rewrite (g : Nat)
  | scrub | keystone | reserved | cfg
deriving DecidableEq, Repr

/-- A transfer that goes to the keep controller, T32, rather than to a channel (R167). -/
def Own.keep : Own → Bool
  | .page _ => true | .fetch _ => true | .record => true | .recover _ => true | .reserved => true | _ => false

/-- A request at a channel: one to four granules of one 256 B unit (R142). `op` is 0 read, 1 write, 2 FADD, 3 CAS64,
4 CAS128. -/
structure MUnit where
  xact : Nat
  master : Nat
  addr : Nat
  gran : Nat
  op : Nat
  data : List Byte := []
  masks : List Nat := []
  /-- the page was dirty before the write was admitted (R308) -/
  wasDirty : Bool := false
  issued : Nat := 0
  /-- slot time at acceptance into the ingress buffer -/
  acc : Nat := 0
  /-- order of entry into the ingress buffer -/
  ord : Nat := 0
  /-- column commands issued so far -/
  col : Nat := 0
  missed : Bool := false
  /-- the write data has crossed the data path -/
  dataIn : Bool := false
  /-- a write that has been reported complete (R144) -/
  reported : Bool := false
  /-- index of its first granule in the request -/
  first : Nat := 0
  /-- granules of it that answered POISON -/
  bad : List Nat := []
  /-- what it belongs to where it is one of the device's own, whose effect its own command has -/
  own : Option Own := none
deriving DecidableEq, Repr

/-- One bank (R149-R160). Times are slot times of its pseudo-channel. -/
structure Bank where
  q : List MUnit := []
  row : Option Nat := none
  kept : Bool := false
  apRow : Option Nat := none
  apAt : Nat := 0
  debt : Int := 0
  pred : Nat := 2
  lastAct : Nat := 0
  lastPre : Nat := 0
  lastRd : Nat := 0
  wrEnd : Nat := 0
  refUntil : Nat := 0
  burst : Nat := 0
  restUntil : Nat := 0
  hits : Nat := 0
  hitKey : Nat := 0
  idleSince : Nat := 0
  trr : Option Nat := none
  trrAt : List Nat := []
  refRow : Nat := 0
deriving DecidableEq, Repr

/-- One pseudo-channel (R147-R156). -/
structure Pc where
  now : Nat := 1000
  writeMode : Bool := false
  modeCols : Nat := 0
  ptr : Nat := 0
  acts : List Nat := []
  lastCol : Nat := 0
  lastColBg : Nat := 4
  lastRd : Nat := 0
  lastRef : Nat := 0
  abUntil : Nat := 0
  sref : Bool := false
  pullAb : Bool := false
  dlyPend : Bool := false
  dlyArmed : Bool := false
  banks : List Bank := List.replicate 16 {}
deriving DecidableEq, Repr

/-- The channel states of R163. -/
inductive ChSt where
  | down | training | active | draining | selfref
deriving DecidableEq, Repr

/-- One channel controller. -/
structure Chan where
  st : ChSt := .down
  ingress : List MUnit := []
  ord : Nat := 0
  pcs : List Pc := [{}, {}]
  trr0482 : Option Nat := none
  miss0880 : Option Nat := none
  missNow : List Nat := []
  /-- the delay values a commit has captured (R39, R158) -/
  dlyCap : List Nat := []
  /-- a self-test hold on a bank of it (R158): pseudo-channel and bank -/
  hold : Option (Nat × Nat) := none
deriving DecidableEq, Repr

/-- The channel controllers. `acts` is the activation counter of each row group, keyed by channel, pseudo-channel, bank and
group (R159), and is held by the courses. `bandLow` counts, for each course, the
model updates in a row below 93.0 °C and below 83.0 °C. -/
structure Mc where
  chans : List Chan := List.replicate 32 {}
  acts : Tab Nat := []
  band : List Nat := List.replicate 16 1
  bandLow : List (Nat × Nat) := List.replicate 16 (0, 0)
  /-- activates, column commands and refreshes of the power interval under way, by DRAM course and bank group (R327) -/
  activity : List Nat := List.replicate 64 0
deriving DecidableEq, Repr

/-- A request that waits at a master port (R173): a lattice request with its port, or a unit list of an inner master. -/
structure Parked where
  port : Nat
  pkt : Pkt
deriving DecidableEq, Repr

/-- A lattice request that has been issued into mortar: its units that have not returned, and what has come back. -/
structure Xact where
  id : Nat
  port : Nat
  pkt : Pkt
  master : Nat
  mgt : Bool
  left : Nat
  data : Tab (List Byte) := []
  poisoned : List Nat := []
  status : Nat := 0
deriving DecidableEq, Repr

/-- A transfer on a target's data path (R178): the unit, its beats in all and moved, and whether it moves read data. -/
structure Xfer where
  unit : MUnit
  beats : Nat
  moved : Nat := 0
  out : Bool
  waited : Nat := 0
deriving DecidableEq, Repr

/-- One target of mortar (R175-R180): the headers that wait for it, the header picked one handshake ahead, the header at its
door, ranks and last winner of both arbiters, the transfers, and the grant, which is shielded from class P where R180 gave it.
(DESIGN CHOICE, log entry 57) -/
structure Tgt where
  hdrs : List MUnit := []
  pick : Option Nat := none
  door : Option MUnit := none
  rank : List Nat := List.replicate 8 0
  last : Nat := 7
  xfers : List Xfer := []
  owner : Option Nat := none
  burst : Nat := 0
  since256 : Nat := 0
  shield : Bool := false
  drank : List Nat := List.replicate 8 0
  dlast : Nat := 7
  capLeft : Nat := 53750
deriving DecidableEq, Repr

/-- Transfers that one of the device's own masters has under way (R172): what they belong to, the granules not yet returned,
and when they were issued. -/
structure Work where
  own : Own
  master : Nat
  left : Nat
  issued : Nat
deriving DecidableEq, Repr

/-- An access of one of the device's own masters that waits at its port: what it belongs to, its operation, and its units by
first granule and count (R169, R173). -/
structure Ask where
  own : Own
  op : Nat
  units : List (Nat × Nat)
deriving DecidableEq, Repr

/-- One master port (R172, R173, R181, R182). -/
structure Master where
  req : List Parked := []
  mgt : List Parked := []
  ost : Nat := 0
  mgtOst : Nat := 0
  meter : Int := 0
  winBytes : Nat := 0
  waited : Bool := false
  shortAt : Option Nat := none
  /-- the clocks of the short windows of the last second -/
  short : List Nat := []
  /-- nanoseconds of the microsecond of MTR_HELD_m under way -/
  heldNs : Nat := 0
  /-- the accesses of one of the device's own masters that wait at its port, first in first out (R172, R173) -/
  asks : List Ask := []
deriving DecidableEq, Repr

/-- Mortar. -/
structure Mtr where
  masters : List Master := List.replicate 8 {}
  targets : List Tgt := List.replicate 34 {}
  xacts : List Xact := []
  nextX : Nat := 0
  works : List Work := []
  low : List Nat := List.replicate 16 0
  lowPosted : List Bool := List.replicate 16 false
  good : List Nat := List.replicate 16 0
  scaled : Bool := false
deriving DecidableEq, Repr

/-! ### Integrity and repair (R301-R325) -/

/-- A granule recovery in flight (R309): the granule, the master whose read met it, and whether a repeat was misdirected. -/
structure Recov where
  granule : Nat
  master : Nat
  misdir : Bool
deriving DecidableEq, Repr

/-- A repair in force (R318, R322): its word and where it is recorded. `src` is 0 REPAIR_M, 1 REPAIR_F, 2 pending, 3 not
recorded; `spare` is the spare row of a row repair; `live` says that it is in force, where a pin's switch waits for the next
calibration step boundary (R316). -/
structure Repair where
  word : Nat
  src : Nat
  spare : Nat := 255
  posted : Bool := false
  live : Bool := true
deriving DecidableEq, Repr

/-- Integrity and repair beside the INT registers. -/
structure Intg where
  recov : List Recov := []
  repairs : List Repair := []
  /-- the target words of R361 that firmware has asked for and the slicer's queue has no room for -/
  tests : List Nat := []
  ovfPosted : Bool := false
  recovWin : Tab (Nat × Nat) := []
  /-- the running time of the scrub pass under way, in ns -/
  scrubRun : Nat := 0
  /-- the TSVs suspect now (R320), by target word, and the clock of the last 0x068A of each -/
  suspects : List Nat := []
  suspAt : Tab Nat := []
  /-- repairs that self-test has decided and that are not yet made, by target word -/
  todo : List Nat := []
deriving DecidableEq, Repr

/-! ### Keep (R240-R274) -/

/-- A set of numbers as rising, disjoint ranges of start and length. -/
abbrev Rng := List (Nat × Nat)

/-- A map entry (R241). -/
structure MapEnt where
  slot : Nat
  heat : Nat := 0
  zero : Bool := true
  poison : Bool := false
deriving DecidableEq, Repr

/-- A programmed slot with its metadata (R241). The data is kept as it was before encryption beside the key pair that
encrypted it (R266). -/
structure KSlot where
  index : Nat
  seq : Nat
  epoch : Nat
  count : Nat
  mask : Nat
  key : Nat × Nat
  data : List Host.Cell
deriving DecidableEq, Repr

/-- A seal record (R247). `ok` says that it is present and reads back. -/
structure SealRec where
  seq : Nat
  kind : Nat
  armed : Bool
  policy : Nat
  single : Bool
  deltas : List (Nat × MapEnt)
  time : Nat
  label : Nat
  holdcap : Nat
  cmeas : Nat
  epoch : Nat
  copy : Nat
  snap : Option Rng
  ok : Bool := true
deriving DecidableEq, Repr

/-- The FOLD record with sequence 1 that a format seals (R242). -/
def formatRec : SealRec where
  seq := 1
  kind := 6
  armed := false
  policy := 0
  single := false
  deltas := []
  time := 0
  label := 0
  holdcap := 0
  cmeas := 0
  epoch := 1
  copy := 0
  snap := none

/-- A key epoch of the key-wrap record (R267). -/
structure Epoch where
  num : Nat
  policy : Nat
  chk : Nat
deriving DecidableEq, Repr

/-- One keep course, formatted as it leaves manufacture (R242). Its reserved area holds a copy of the start record, 64 B with
their CRC (none before the first write), and of the key-wrap record with its sequence (R20). (DESIGN CHOICE, log entry 137) -/
structure Course where
  start : List Byte := []
  /-- the key-wrap copy passes its integrity check -/
  wrapOk : Bool := true
  wrap : Nat × List Epoch := (0, [{ num := 1, policy := 0, chk := 0 }])
  slots : Tab KSlot := []
  counts : Tab Nat := []
  wear : Tab Nat := []
  retired : List Nat := []
  nretired : Nat := 0
  /-- map copies A and B; an index without an entry has SLOT = I, ZERO = 1 -/
  maps : List (Tab MapEnt) := [[], []]
  force : Nat := 0
  cur : Tab MapEnt := []
  /-- the map a fold writes -/
  foldMap : Tab MapEnt := []
  journal : List SealRec := [formatRec]
  /-- indexes queued for the next record, those of the record under way, and those swapped since a fold began -/
  deltas : List Nat := []
  deltaS : List Nat := []
  deltaF : List Nat := []
  /-- pool order: the slots of `fresh`, rising, then those freed since, oldest first -/
  fresh : Rng := [(12582912, 1572864)]
  freed : List Nat := []
  /-- pending slots, and those that the seal under way turns free -/
  pend : List Nat := []
  pendS : List Nat := []
  spares : Nat := 436736
  /-- the duration of the last save in ms, and the GiB saved, as the image gives them (R272, R274); the record of R247 has no place
  for them (DESIGN CHOICE, log entry 156) -/
  lastSave : Nat × Nat := (0, 0)
  fenced : Bool := false
  folds : Nat := 0
  jbytes : Nat := 0
  /-- programs of each page of map copies A and B and of the wear table, and the pages programmed in the journal's ring (R270) -/
  mapProg : List Nat := [0, 0]
  wearProg : Nat := 0
  jprog : Nat := 0
  /-- programming stopped above 115 °C in a save, and since when (R258, R260) -/
  hold : Option Nat := none
  hotPosted : Bool := false
deriving DecidableEq, Repr

/-- A copy in flight (R245): the page, the course and slot it is programmed into, and the version. -/
structure Copy where
  page : Nat
  course : Nat
  slot : Nat
  ver : KSlot
  /-- it began after the checkpoint under way was dispatched, or no write has followed it -/
  cover : Bool
deriving DecidableEq, Repr

/-- The keep states of R253. -/
inductive Arm where
  | disarmed | arming | armed | suspended
deriving DecidableEq, Repr

/-- What a seal that is under way goes on to when it is sealed. -/
inductive SealFor where
  | none
  | checkpoint1 (o : Op) (pages : Rng)
  | checkpoint2 (o : Op)
  | saveOpen
  | saveFinal
  | saveEnd (course : Nat)
  | fold
  | epoch
deriving DecidableEq, Repr

/-- A characterisation under way (R252). -/
structure Charac where
  op : Op
  uv1 : Nat
  pj1 : Nat
  /-- the next clean page of the measurement -/
  ptr : Nat := 0
deriving DecidableEq, Repr

/-- The paths of R261, with none before the first keep step. -/
inductive KPath where
  | none | fresh | restore | resume
deriving DecidableEq, Repr

/-- The keep controller, the mover, the energy budget and the keys. (DESIGN CHOICE, log entry 157) -/
structure Keep where
  courses : List Course := [{}, {}]
  dirty : Rng := []
  copies : List Copy := []
  copied : Rng := []
  ptr : Nat := 0
  winPages : Nat := 0
  winStart : Nat := 0
  seq : Nat := 1
  /-- the seal under way: the record of each course -/
  sealing : Option (SealRec × SealRec × SealFor) := none
  sealQ : List (Nat × Nat × SealFor) := []
  /-- a fold is under way; true when it runs ahead of every copy -/
  folding : Option Bool := none
  copiedS : Rng := []
  copiesSince : Nat := 0
  /-- label of the last CHECKPOINT -/
  ckptLabel : Nat := 0
  arm : Arm := .disarmed
  armOps : List Op := []
  ckpt : Option (Op × Rng) := none
  samples : List Nat := []
  lastUv : Nat := 0
  vmv : Nat := 0
  eavail : Int := 0
  ceff : Nat := 0
  dmax : Nat := 0
  below : Bool := false
  charac : Option Charac := none
  /-- the key-wrap record, newest first -/
  epochs : List Epoch := [{ num := 1, policy := 0, chk := 0 }]
  shares : List (Nat × Nat) := []
  pendShare : Option Nat := none
  secret : Option Nat := none
  oldLeft : Nat := 0
  /-- an epoch change that has not ended -/
  epochChange : Bool := false
  path : KPath := .none
  phase : Nat := 0
  chosen : Nat := 0
  poisonPg : Rng := []
  lost : Nat := 0
  incomplete : Bool := false
  restored : Rng := []
  touch : List (Nat × Nat) := []
  restTouch : Nat := 0
  restArmed : Bool := false
  restMap : Bool := false
  /-- when step 1 of the last restore began (R273) -/
  restAt : Nat := 0
  /-- the SRAM of the dirty map passes its check (R261) -/
  sramOk : Bool := true
  /-- the save under way: its step, whether it has a key, its start, pages copied, pages since the last SAVE record, and
  the dirty pages at its start -/
  saveStep : Nat := 0
  saveKey : Bool := true
  saveStart : Nat := 0
  savePages : Nat := 0
  saveSince : Nat := 0
  saveDirty : Nat := 0
  /-- the duration of the last save in ms (R272) -/
  saveMs : Nat := 0
deriving DecidableEq, Repr
/-! ### Thermal (R326-R342) -/

/-- One sensor (R330-R332): its last conversions, newest first, in 0.01 °C; conversions of 110 °C or more in a row; and its
dwells in model updates. -/
structure Sensor where
  conv : List Int := []
  hot : Nat := 0
  failed : Bool := false
  suspect : Bool := false
  diverge : Nat := 0
  agree : Nat := 0
deriving DecidableEq, Repr

/-- One course position (R333-R336): the estimate in 0.01 °C, WARN, the throttle step, and the updates in a row at or above
and below WARN, T1, T2 and T3. -/
structure Crs where
  est : Option Int := none
  warn : Bool := false
  step : Nat := 0
  hi : List Nat := [0, 0, 0, 0]
  lo : List Nat := [0, 0, 0, 0]
  src : Nat := 0
deriving DecidableEq, Repr

/-- The thermal model and its inputs. `segs` holds current in mA and voltage in mV of the 40 segments, `sums` the power of
the readings since the last update in µW and `acc` their currents, `pj` the energy in pJ, `shut` that the SHUTDOWN now standing
has been acted on, `stepUpd` the updates with a throttle step not yet counted in THM_THRMS. (DESIGN CHOICE, log entry 7) -/
structure Thm where
  sensors : List Sensor := List.replicate 88 {}
  nodes : List Int := List.replicate 80 0
  lid : Option Int := none
  lidDef : Bool := false
  lidHot : Bool := false
  model : Bool := false
  crs : List Crs := List.replicate 20 {}
  segs : List (Nat × Nat) := List.replicate 40 (0, 0)
  sums : List Nat := List.replicate 20 0
  nread : Nat := 0
  pwr : List Nat := List.replicate 20 0
  /-- the power of VDDL in the readings since the last update, and the power of each quadrant at it, in µW (R327) -/
  vddl : Nat := 0
  quads : List Nat := List.replicate 80 0
  pj : Nat := 0
  tripDwell : Nat := 0
  holdDwell : Nat := 0
  acc : List Nat := List.replicate 40 0
  shut : Bool := false
  stepUpd : Nat := 0
deriving DecidableEq, Repr

/-! ### Work queues (R109-R139) -/

/-- The queue states of R134. -/
inductive QSt where
  | disabled | active | draining | error
deriving DecidableEq, Repr

/-- One queue pair beside its registers: the submission head, the completion tail and phase, the descriptors fetched and not
dispatched, reservations, the descriptors asked for in the fetch under way, operations dispatched and not completed, and
what the next completion message reports. `gen` rises at each enable and disable, so that an operation of an earlier life
completes to nothing. -/
structure Queue where
  st : QSt := .disabled
  head : Nat := 0
  cqTail : Nat := 0
  phase : Bool := true
  err : Nat := 0
  fetched : List (List Byte) := []
  resv : Nat := 0
  fetching : Nat := 0
  inflight : Nat := 0
  gen : Nat := 0
  closing : Bool := false
  msgN : Nat := 0
  msgAt : Option Nat := none
  msgEntry : List Byte := []
  msgTail : Nat := 0
deriving DecidableEq, Repr

/-- The image of an FW_STAGE as far as it is read (R125): its granules in order, those still to be read from this stack, and
whether one could not be read. -/
structure FwRead where
  got : List (Option (List Byte))
  wait : List Nat
  bad : Bool := false
deriving DecidableEq, Repr

/-- A Keystone operation whose transfers are not all done (R412): its status and result when they are, the remote writes not
answered, the local granules that wait for the restore of their unit (R264) with their offsets, the first byte that may not have landed, the
bytes of header and of each record of its result, and the image that an FW_STAGE reads. -/
structure KsWait where
  op : Op
  status : Nat
  result : Nat
  left : Nat
  todo : List (Nat × Nat × List Byte) := []
  fail : Option Nat := none
  hdr : Nat := 0
  each : Nat := 0
  fw : Option FwRead := none
deriving DecidableEq, Repr

/-- The work queues: the last queue served in rotation, the operations that wait for the Keystone, the one it performs, and
transfers it waits for. -/
structure Wq where
  queues : List Queue := List.replicate 64 {}
  rot : Nat := 63
  ksq : List Op := []
  ksCur : Option Op := none
  waits : List KsWait := []
deriving DecidableEq, Repr

/-! ### The chisel (R191-R239) -/

/-- The slot states of R215. -/
inductive JSt where
  | free | loading | waiting | running | emitting | completing
deriving DecidableEq, Repr

/-- One job slot. `kind` is 0 CHISEL_RUN, 1 COPY, 2 FILL. Rows count from `next` (the next to evaluate); of a COPY or FILL they are
granules. `eaten` counts granules of the next row that the array has consumed (R220). `have_` holds the granules staged, with none
for a poisoned one; `asked` the granules read or being read; `flight` the slices in flight by channel. `out` and `sp` hold stream
bytes that have not left staging, from stream offsets `outAt` and `spAt`, and `pend` and `spPend` the row and end offset of each
record in them. `fencedDst` says that a granule of a COPY's or FILL's destination is fenced (R317). While the job is LOADING `prog`
holds what it has read of its program. -/
structure Job where
  op : Op := { q := 0, cid := 0, opc := 0, desc := [], gen := 0 }
  st : JSt := .free
  kind : Nat := 0
  prog : List Byte := []
  need : Nat := 0
  ord : Nat := 0
  start : Nat := 0
  next : Nat := 0
  eaten : Nat := 0
  total : Nat := 0
  sel : Nat := 0
  scanned : Nat := 0
  residual : Nat := 0
  spillRows : Nat := 0
  poison : Nat := 0
  first : Option Nat := none
  have_ : Tab (Option (List Byte)) := []
  asked : Rng := []
  flight : List (Nat × List Nat) := []
  done : Rng := []
  groups : List Group := []
  out : List Byte := []
  outAt : Nat := 0
  pend : List (Nat × Nat) := []
  sp : List Byte := []
  spAt : Nat := 0
  spPend : List (Nat × Nat) := []
  stop : Option Nat := none
  spStop : Bool := false
  endStack : Bool := false
  fail : Option (Nat × Bool) := none
  sorted : Bool := false
  fencedDst : Bool := false
  /-- the local granule of a write that has left its place in the job and may not go yet (R173) -/
  held : Option Nat := none
  /-- the bytes of a local program block, that are not 0, as the chisel begins to read it (R214) -/
  snap : Option (List Host.Cell) := none
  status : Nat := 0
  result : Nat := 0
  seq : Nat := 0
  cause : Nat := 0
  doneAt : Nat := 0
deriving DecidableEq, Repr

/-- The chisel: the slots, the credits and the job last served of each channel (R218), the order of entry into WAITING, the
next summary sequence and the summaries by sequence modulo 256 (R231), and the pace meter's dwells (R220). -/
structure Chs where
  jobs : List Job := List.replicate 16 {}
  credit : List Int := List.replicate 32 0
  last : List Nat := List.replicate 32 15
  ord : Nat := 0
  seq : Nat := 0
  log : Tab (Nat × List Byte) := []
  low : Nat := 0
  lowPosted : Bool := false
  good : Nat := 0
deriving DecidableEq, Repr

/-! ### Power, reset and bring-up (R275-R300) -/

/-- The start record (R296). -/
structure StartRec where
  seq : Nat := 0
  starts : Nat := 0
  fails : Nat := 0
  inprog : Bool := false
  cause : Nat := 0
  time : Nat := 0
deriving DecidableEq, Repr

/-- A reset source that a save has deferred (R287): source, reach and endpoint. -/
structure Deferred where
  source : Nat
  reach : Nat
  endpoint : Nat
  /-- the port of a PORT reach -/
  port : Nat := 0
deriving DecidableEq, Repr

/-- A BLOCK reset under way (R286): its target, whether host software asked for it, and the path and requester to record. -/
structure BlkReset where
  target : Nat
  byFw : Bool
deriving DecidableEq, Repr

/-- Power, reset and bring-up beside the RST registers. (DESIGN CHOICE, log entry 4) -/
structure Pwr where
  /-- rails good, as RST_RAIL, and those that were good too early (R277) -/
  good : Nat := 0x3F
  early : Nat := 0
  /-- the reset interval (R284): open, the widest reach, the source that first asserted it, every source that acted, the
  sources still asserted, whether keep programs are awaited and whether step 5 is done -/
  interval : Bool := false
  reach : Nat := 0
  source : Nat := 0
  endpoint : Nat := 0
  mask : Nat := 0
  pulses : List Deferred := []
  levels : List Nat := []
  waiting : Bool := false
  taken : Bool := false
  restartKs : Bool := false
  deferred : List Deferred := []
  /-- a thermal shutdown's COLD reset: THERMAL_HOLD follows -/
  toHold : Bool := false
  /-- a bring-up that waits for the rails or for PWR_FAIL_N: 3 warm, 4 cold, 0 none -/
  boot : Nat := 0
  record : StartRec := {}
  /-- bring-up: the step under way, warm, the pause of R279, the end of the paused step -/
  step : Nat := 1
  warm : Bool := false
  paused : Bool := false
  stepDone : Bool := false
  stepAt : Nat := 0
  /-- the start of bring-up, and the time that does not count toward R297 -/
  startAt : Nat := 0
  uncounted : Nat := 0
  waitAt : Option Nat := none
  /-- bring-up is on the RESUME path (R261), and the last reset allows it -/
  resume : Bool := false
  mayResume : Bool := false
  /-- no keep step has loaded the image fields of KEEP since the last FULL (R274) -/
  full : Bool := true
  wdogLast : Option Nat := none
  readyAt : Option Nat := none
  blk : Option BlkReset := none
  holdAt : Nat := 0
  /-- every course has stayed below 95 °C for 1 ms, and PWR_FAIL_N has been high for 10 ms -/
  cool : Bool := false
  highFor10 : Bool := true
  /-- PWR_FAIL_N has fallen during BRINGUP and has not been high for 10 ms since (R279) -/
  fell : Bool := false
  /-- the Keystone restarts, for an FW_ACTIVATE or a BLOCK reset -/
  ksDown : Bool := false
  ksOp : Option Op := none
deriving DecidableEq, Repr

/-! ### Fuses (R379-R396) -/

/-- One read of a fuse word: its 32 raw data bits and 7 check bits (none: those that the code gives the data), the outcome
(0 clean, 1 corrected, 2 uncorrectable) and the data after SEC-DED. -/
structure FRead where
  raw : Nat
  chk : Option Nat
  out : Nat
  data : Nat
deriving DecidableEq, Repr

/-- A programmed fuse word as it reads at the normal and at the tight reference. -/
structure FuseWord where
  norm : FRead
  tight : FRead
deriving DecidableEq, Repr

/-- A fuse command under way: 1 program word, 2 a lifecycle word in copy A, 3 in copy B; its address, data, the state it
leads to, and whether the Keystone asked for it. -/
structure FuseCmd where
  kind : Nat
  addr : Nat
  data : Nat
  state : Nat
  byKs : Bool
deriving DecidableEq, Repr

/-- A word that reads clean at both references. -/
def cleanWord (d : Nat) : FuseWord :=
  let r : FRead := { raw := d, chk := none, out := 0, data := d }
  { norm := r, tight := r }

/-- The words of TRIM as manufacture leaves them: every trim at its default of R383. (DESIGN CHOICE, log entry 6) -/
def factoryTrim (base : Nat) : Tab FuseWord :=
  [(base, cleanWord 0x202020)] ++ ((List.range 4).map fun i => (base + 1 + i, cleanWord 0x2020)) ++
  ((List.range 40).map fun i => (base + 5 + i, cleanWord 0x4000)) ++
  ((List.range 34).map fun i => (base + 133 + i, cleanWord 0x80)) ++ [(base + 255, cleanWord 0x5E418FB5)]

/-- The fuse array of a FIELD part (R389-R391): the regions that FIELD calls for sealed and locked, their data words 0 but
for the trims, and the transitions to WAFER, STACKED and FIELD programmed in both copies of LIFE. (DESIGN CHOICE, log entry 6) -/
def factoryFuses : Tab FuseWord :=
  [(0x00F, cleanWord 0xCC6BD671)] ++ factoryTrim 0x010 ++ factoryTrim 0x110 ++ [(0x60F, cleanWord 0x0692D41C)] ++
  [(0x71F, cleanWord 0xCC6BD671), (0x72F, cleanWord 0xCC6BD671)] ++
  ([0x730, 0x731, 0x732, 0x738, 0x739, 0x73A].map fun a => (a, cleanWord 0xFFFFFFFF)) ++
  [(0x7DF, cleanWord 0x28EFAF0D)] ++
  ([0x7E0, 0x7E1, 0x7E2, 0x7E7, 0x7E9, 0x7F0, 0x7F1, 0x7F2, 0x7F7, 0x7F9].map fun a => (a, cleanWord 0xFFFFFFFF))

/-- The fuse array and what the last load committed (R386). `states` holds the region states of FUS_REGSTAT; `keyBad` says that the
KEY region was invalid (R392). -/
structure Fus where
  words : Tab FuseWord := factoryFuses
  life : Nat := 0
  loaded : Bool := false
  loading : Bool := false
  states : List Nat := List.replicate 11 0
  keyBad : Bool := false
  blown : Nat := 0
  opts : Nat := 0
  fwKey : Nat := 0
  unlockKey : Nat := 0
  ident : Nat := 0
  cmd : Option FuseCmd := none
deriving DecidableEq, Repr

/-! ### Self-test and the test access port (R361-R378) -/

/-- The slice under way. `origin` is 0 rotation, 1 Loesh firmware, 2 BIST_REQUEST; `n` its step count; `t0` the device time
of step 1. -/
structure Slice where
  target : Nat
  origin : Nat
  op : Option Op := none
  started : Bool := false
  n : Nat := 0
  t0 : Nat := 0
deriving DecidableEq, Repr

/-- The slicer and the test access port beside the BST registers. -/
structure Bst where
  queue : List (Nat × Nat × Option Op) := []
  cur : Option Slice := none
  rot : Nat := 0
  inc : List Nat := []
  seq : Nat := 0
  log : Tab (Nat × List Byte) := []
  passRow : Nat := 0
  passTsv : Nat := 0
  ir : Nat := 0x01
  boundary : List Bool := []
  nonce : Nat := 0
  unlock : Option Nat := none
  scan : Bool := false
deriving DecidableEq, Repr

/-! ### Calibration (R343-R360) -/

/-- A visit of rolling recalibration under way (R352): its unit and pin, the standby pin it borrows (none in place), whether
the second sweep runs, and whether it is a self-test slice. -/
structure Visit where
  unit : CalUnit
  pin : Nat
  stby : Option Nat
  second : Bool := false
  /-- the sweep is repeated after strobe tracking (R348) -/
  again : Bool := false
  slice : Bool := false
deriving DecidableEq, Repr

/-- Calibration beside the CAL registers: visits under way, the next pin of each unit, the pin whose last visit ended
INCOMPLETE, the pins visited since CAL_COUNT rose, the captured keep-bus delays, and tracked trims that wait for a commit
boundary. -/
structure Cal where
  visits : List Visit := []
  next : Tab Nat := []
  inc : Tab Nat := []
  seen : Tab Rng := []
  kcap : List (List Nat) := [[], []]
  kpend : List Bool := [false, false]
  pend : Tab Nat := []
  ktrim : List Nat := [0x80, 0x80]
  started : Bool := false
deriving DecidableEq, Repr
/-! ### The whole -/

/-- The state of the block. -/
structure State where
  /-- the commands that wait, first in first out -/
  pending : List Instr
  /-- the model's clock in ns (a tick on an empty queue) -/
  clock : Nat
  /-- the counter that free values are taken at; the model's own -/
  fresh : Nat
  dev : Dev
  prev : Dev
  /-- registers that have been written since they last took their reset value, by address -/
  regs : Tab Nat
  /-- active copies of shadowed registers (R37, R39) that differ from their reset value, by address -/
  act : Tab Nat
  out : List Out
  pins : Pins
  ks : Ks
  lnk : Lnk
  dram : Dram
  mc : Mc
  mtr : Mtr
  wq : Wq
  chs : Chs
  intg : Intg
  keep : Keep
  thm : Thm
  pwr : Pwr
  fus : Fus
  bst : Bst
  cal : Cal
deriving DecidableEq, Repr

/-- The machine right after reset (a FULL reset, R281): the registers at their reset values, bring-up at step 1, both
lintels closed, every table empty. (DESIGN CHOICE, log entry 4; DESIGN CHOICE, log entry 7) -/
def State.reset : State where
  pending := []
  clock := 0
  fresh := 0
  dev := .bringup
  prev := .aux
  regs := []
  act := []
  out := []
  pins := {}
  ks := {}
  lnk := {}
  dram := {}
  mc := {}
  mtr := {}
  wq := {}
  chs := {}
  intg := {}
  keep := {}
  thm := {}
  pwr := {}
  fus := {}
  bst := {}
  cal := {}

end Sys2Proof.Machine
end

