-- ==== Sys2Proof/Machine/Ops.lean ====
section
/-! DEFINITION. The named operations over the register file, the shadow copies, 64-bit counters, free values and the event
log. -/

namespace Sys2Proof.Machine

/-- The place of an address in a register table: the indices, if the table has a register there. -/
def matchDims : List (Nat × Nat) → Nat → Bool
  | [], off => off == 0
  | (st, n) :: ds, off => off / st < n && matchDims ds (off % st)

/-- The register table that holds an address. -/
def rowOf (addr : Nat) : Option RegRow :=
  (catalogue (addr / 0x100000)).find? fun r => r.base ≤ addr && matchDims r.dims (addr - r.base)

/-- The reset value of a register (R37). (DESIGN CHOICE, log entry 133) -/
def resetOf (addr : Nat) : Nat :=
  match rowOf addr with
  | none => 0
  | some r => r.flds.foldl (fun x f => x + f.rst * 2 ^ f.lo) 0

/-- The stored value of a register. -/
def State.reg (s : State) (addr : Nat) : Nat := tgetD s.regs addr (resetOf addr)

def State.setReg (s : State) (addr v : Nat) : State := { s with regs := tset s.regs addr (v % 2 ^ 32) }

/-- A field of a stored register. -/
def State.fld (s : State) (f : Fld) : Nat := getBits (s.reg f.addr) f.hi f.lo

def State.flag (s : State) (f : Fld) : Bool := s.fld f == 1

def State.setFld (s : State) (f : Fld) (v : Nat) : State := s.setReg f.addr (setBits (s.reg f.addr) f.hi f.lo v)

/-- A counter field that stops at its largest value. -/
def State.incFld (s : State) (f : Fld) (d : Nat) : State :=
  s.setFld f (satAdd (f.hi + 1 - f.lo) (s.fld f) d)

/-- A field held at its largest value so far. -/
def State.maxFld (s : State) (f : Fld) (v : Nat) : State :=
  s.setFld f (max (s.fld f) (min v (2 ^ (f.hi + 1 - f.lo) - 1)))

/-- A field held at its smallest value so far. -/
def State.minFld (s : State) (f : Fld) (v : Nat) : State := s.setFld f (min (s.fld f) v)

/-- The value of a _LO/_HI pair, by the address of its low half. -/
def State.reg64 (s : State) (lo : Nat) : Nat := s.reg lo + 2 ^ 32 * s.reg (lo + 4)

def State.setReg64 (s : State) (lo v : Nat) : State := (s.setReg lo v).setReg (lo + 4) (v / 2 ^ 32)

/-- A 64-bit counter that wraps. -/
def State.add64 (s : State) (lo d : Nat) : State := s.setReg64 lo (s.reg64 lo + d)

/-- The active copy of a shadowed register (R37). -/
def State.actReg (s : State) (addr : Nat) : Nat := tgetD s.act addr (resetOf addr)

def State.actFld (s : State) (f : Fld) : Nat := getBits (s.actReg f.addr) f.hi f.lo

/-- One shadow register copied to its active copy (R39). -/
def State.commitReg (s : State) (addr : Nat) : State := { s with act := tset s.act addr (s.reg addr) }

/-- A register back at its reset value. -/
def State.clearReg (s : State) (addr : Nat) : State := { s with regs := tdel s.regs addr }

/-- A range of registers back at their reset values. -/
def State.clearRange (s : State) (lo n : Nat) : State := { s with regs := tdelRange s.regs lo n }

/-- The write of one field by its access type (R37). A write of 1 bits to a RW1C field clears them; the fields that keep an
extreme since they were cleared have a reset value that is not 0, and clearing sets that value. -/
def writeField (v old : Nat) (f : FldRow) : Nat :=
  let x := getBits v f.hi f.lo
  let o := getBits old f.hi f.lo
  match f.acc with
  | .rw | .rws | .rsh => setBits old f.hi f.lo x
  | .rw1c =>
    if f.rst = 0 then setBits old f.hi f.lo (o &&& (2 ^ (f.hi + 1 - f.lo) - 1 - x))
    else if x = 0 then old else setBits old f.hi f.lo f.rst
  | .ro | .wo => old

/-- A 32-bit write to a register without behaviour of its own (R36, R37): every field by its access type; an offset that
holds no register ignores it. -/
def State.writeAcc (s : State) (addr v : Nat) : State :=
  match rowOf addr with
  | none => s
  | some r => s.setReg addr (r.flds.foldl (fun old f => writeField v old f) (s.reg addr))

/-- What a read of a stored register returns: its fields that are not write only. -/
def State.readAcc (s : State) (addr : Nat) : Nat :=
  match rowOf addr with
  | none => 0
  | some r => r.flds.foldl (fun x f => if f.acc = .wo then setBits x f.hi f.lo 0 else x) (s.reg addr)

/-- The registers of a range that a reset below FULL clears: an RWS field keeps its value (R37). (DEDUCED, log entry 16) -/
def keepRws (addr v : Nat) : Nat :=
  match rowOf addr with
  | none => 0
  | some r => r.flds.foldl (fun x f =>
      setBits x f.hi f.lo (if f.acc = .rws then getBits v f.hi f.lo else f.rst)) 0

/-- The registers of a range take their reset values, RWS fields kept (R37). `skip` names registers that the owning chapter
exempts. -/
def State.resetRange (s : State) (lo n : Nat) (skip : Nat → Bool) : State :=
  { s with
    regs := s.regs.map fun e => if lo ≤ e.1 ∧ e.1 < lo + n ∧ skip e.1 = false then (e.1, keepRws e.1 e.2) else e
    act := tdelRange s.act lo n }

/-- A free value: what the manual does not fix. (DESIGN CHOICE, log entry 8) -/
def State.free (s : State) : Nat := Config.freeValue s.fresh

def State.bump (s : State) : State := { s with fresh := s.fresh + 1 }

/-- The value of a device state (R7). -/
def Dev.val : Dev → Nat
  | .off => 0 | .aux => 1 | .bringup => 2 | .restoring => 3 | .ready => 4
  | .saving => 5 | .sealed => 6 | .recovery => 7 | .thermalHold => 8 | .safe => 9

/-- A change of the device state; KS_STATE.PREV takes the state left (R42). A change to the same state is none.
(DEDUCED, log entry 130) -/
def State.setDev (s : State) (d : Dev) : State :=
  if s.dev = d then s else { s with dev := d, prev := s.dev }

/-- Memory accesses by host software (R7). -/
def State.inService (s : State) : Bool := s.dev == .restoring || s.dev == .ready

/-- `a` is after `b` among 32-bit sequences (R46). (DEDUCED, log entry 129) -/
def seqAfter (a b : Nat) : Bool :=
  let d := (a + 2 ^ 32 - b) % 2 ^ 32
  1 ≤ d && d ≤ 2 ^ 31

/-- ALERT_N is asserted (R47). -/
def State.alert (s : State) : Bool := seqAfter s.ks.alertSeq (s.reg EVT_ACK_SEQ)

/-- The IBI of R42: raised when ALERT_N goes from released to asserted with IBI enabled. (DEDUCED, log entry 129) -/
def State.ibiEdge (was : Bool) (s : State) : State :=
  if !was && s.alert && s.ks.ibi then { s with out := s.out ++ [.ibi s.ks.alertClass] } else s

/-- An event is logged (R46) and may raise the alert (R47). (DEDUCED, log entry 129) -/
def State.logEvent (s : State) (code sev unit data : Nat) : State :=
  let was := s.alert
  let q := s.ks.wrSeq
  let e : Ev := ⟨q, s.ks.time, code, sev, unit, data % 2 ^ 32⟩
  let up := s.fld EVT_ALERT_SEV_SEV ≤ sev
  State.ibiEdge was { s with ks := { s.ks with
    log := tset s.ks.log (q % 4096) e
    wrSeq := (q + 1) % 2 ^ 32
    alertSeq := if up then q else s.ks.alertSeq
    alertClass := if up then code / 256 else s.ks.alertClass } }

/-- The 16 bytes of an entry (R46). -/
def Ev.bytes (e : Ev) : List Byte :=
  leBytes 8 e.time ++ leBytes 2 e.code ++ leBytes 1 e.sev ++ leBytes 1 e.unit ++ leBytes 4 e.data

def State.emit (s : State) (o : Out) : State := { s with out := s.out ++ [o] }

def State.port (s : State) (p : Nat) : Port := s.lnk.ports.getD p {}

def State.modPort (s : State) (p : Nat) (f : Port → Port) : State :=
  { s with lnk := { s.lnk with ports := modAt s.lnk.ports p f } }

/-- A BLOCK reset of a unit is under way: the unit accepts no new work (R286). -/
def State.blocked (s : State) (target : Nat) : Bool := s.pwr.blk.any fun b => b.target == target

/-- The repointer runs (R310). -/
def State.scrubbing (s : State) : Bool := s.inService && s.flag INT_CTL_SCRUBEN

/-- The local granules to which writes of jobs wait at M4's port. -/
def State.m4Waits (s : State) : List Nat := s.chs.jobs.filterMap fun j => j.held

end Sys2Proof.Machine
end

