-- ==== Sys2Proof/Machine/Lattice.lean ====
section
/-! DEFINITION. Packets and flits, the route of a packet, the output queues, and the event messages that leave by them
(R48, R73-R103). -/

namespace Sys2Proof.Machine

/-! ### Packets -/

def epX (e : Nat) : Nat := e / 128 % 128
def epY (e : Nat) : Nat := e % 128

/-- The class of a virtual channel (R95): 0 REQ, 1 RSP, 2 MGT. -/
def vcClass (vc : Nat) : Nat := vc / 2

/-- The 8-byte common header of R81 and bytes 8-15 of R83. -/
def pktHeader (k : Pkt) : List Byte :=
  [BitVec.ofNat 8 (k.opc.toNat + 32 * k.vc.toNat), BitVec.ofNat 8 (k.hops.toNat + 128 * b2n k.dir)] ++
  leBytes 2 (k.dest.toNat + 16384 * b2n k.leg + 32768 * b2n k.nbr) ++ leBytes 2 k.src.toNat ++
  leBytes 2 k.tag.toNat ++ leBytes 5 k.addr.toNat ++ [k.len, k.b14, k.b15]

def pktBytes (k : Pkt) : List Byte := pktHeader k ++ k.payload

/-- A packet read from its bytes (R81, R83). -/
def pktOfBytes (bs : List Byte) : Pkt where
  opc := BitVec.ofNat 5 (fieldB bs 0 1)
  vc := BitVec.ofNat 3 (fieldB bs 0 1 / 32)
  hops := BitVec.ofNat 7 (fieldB bs 1 1)
  dir := bitAt (fieldB bs 1 1) 7
  dest := BitVec.ofNat 14 (fieldB bs 2 2)
  leg := bitAt (fieldB bs 2 2) 14
  nbr := bitAt (fieldB bs 2 2) 15
  src := BitVec.ofNat 14 (fieldB bs 4 2)
  tag := BitVec.ofNat 16 (fieldB bs 6 2)
  addr := BitVec.ofNat 40 (fieldB bs 8 5)
  len := byteB bs 13
  b14 := byteB bs 14
  b15 := byteB bs 15
  payload := bs.drop 16

/-- The mask block of a masked WR: one 64-bit mask per granule, padded to 16 B (R84). -/
def maskBlock (k : Pkt) : Nat := if k.b14.getLsbD 0 then 16 * ceilDiv (8 * (k.len.toNat + 1)) 16 else 0

/-- The length of a packet in bytes, from its 16-byte header (R82, R86, R87). A reserved opcode is its header alone. -/
def pktLen (k : Pkt) : Nat :=
  let opc := k.opc.toNat
  let rstat := k.addr.toNat % 16
  let ropc := k.addr.toNat / 256 % 256
  let rlen := k.addr.toNat / 65536 % 256
  if opc = 0x02 then 16 + maskBlock k + 64 * (k.len.toNat + 1)
  else if opc = 0x03 ∨ opc = 0x04 ∨ opc = 0x09 then 32
  else if opc = 0x05 ∨ opc = 0x0C then 48
  else if opc = 0x10 then
    if ropc = 0x01 ∧ rstat = 0 then 16 + 64 * (rlen + 1)
    else if ropc = 0x01 ∧ rstat = 1 then 32 + 64 * (rlen + 1)
    else if (ropc = 0x03 ∨ ropc = 0x04 ∨ ropc = 0x05) ∧ rstat = 0 then 32
    else 16
  else 16

/-- The opcodes of R82 that are requests with a response. -/
def isRequest (opc : Nat) : Bool :=
  opc == 1 || opc == 2 || opc == 3 || opc == 4 || opc == 5 || opc == 8 || opc == 9 || opc == 0x0D

def reservedOpc (opc : Nat) : Bool := !(isRequest opc || opc == 0 || opc == 0x0C || opc == 0x10)

/-- The slots of credit a packet of L bytes uses (R80). -/
def pktSlots (k : Pkt) : Nat := ceilDiv (16 + k.payload.length) 32

/-- The response to a request (R86), from the endpoint `me`, in the request's class. `data` is the RD or atomic data with
the poison map before it where there is one, `word` the CFG_RD value. A hop-addressed request has a hop-addressed answer
with HOPS from byte 15 (R91), on the MGT copy that the request came by. (DESIGN CHOICE, log entry 135) -/
def mkRsp (me : Nat) (k : Pkt) (status : Nat) (word : Nat) (data : List Byte) : Pkt where
  opc := 0x10
  vc := if vcClass k.vc.toNat = 2 then k.vc else BitVec.ofNat 3 2
  hops := if k.nbr then BitVec.ofNat 7 k.b15.toNat else 0
  dir := if k.nbr then !k.dir else false
  dest := k.src
  leg := if k.nbr then k.leg else false
  nbr := k.nbr
  src := BitVec.ofNat 14 me
  tag := k.tag
  addr := BitVec.ofNat 40 (status + 256 * k.opc.toNat + 65536 * k.len.toNat + 2 ^ 32 * (word % 256))
  len := BitVec.ofNat 8 (word / 256)
  b14 := BitVec.ofNat 8 (word / 65536)
  b15 := BitVec.ofNat 8 (word / 2 ^ 24)
  payload := data

/-! ### Routing (R89-R94) -/

/-- The stack's own endpoint. -/
def State.me (s : State) : Nat := s.fld LTC_COORD_X * 128 + s.fld LTC_COORD_Y

def State.hasCoord (s : State) : Bool := s.flag LTC_COORD_VALID

/-- The positions of a ring (R108): 0 and values above 128 are 128. -/
def State.ringSize (s : State) (leg : Bool) : Nat :=
  let n := s.fld (if leg then LTC_RINGSIZE_YSIZE else LTC_RINGSIZE_XSIZE)
  if n = 0 ∨ 128 < n then 128 else n

/-- The coordinate of an endpoint on a ring. -/
def ringPos (leg : Bool) (e : Nat) : Nat := if leg then epY e else epX e

/-- choose() of R93: true is down. -/
def chooseDown (d s n : Nat) : Bool := decide (n < 2 * ((d + n - s % n) % n))

/-- The output port of a leg and direction (R89). -/
def outPort (leg down : Bool) : Nat := 2 * b2n leg + b2n (!down)

/-- The route of a packet from this stack: delivered here, out of a port, or dropped for a cause of 0x020F. -/
inductive Route where
  | here
  | out (p : Nat) (k : Pkt)
  | drop (cause : Nat)
deriving DecidableEq, Repr

/-- `d` lies strictly between `m` and `w`, going up or down a ring from `m` (R93): where the partner is not ahead the way
wraps. A partner that is this stack itself leaves every other position between. -/
def strictlyBetween (down : Bool) (m w d : Nat) : Bool :=
  if down then (if w < m then w < d && d < m else d < m || w < d)
  else if m < w then m < d && d < w else m < d || d < w

/-- send() of R93: the destination is absent when it lies strictly between this stack and the output port's partner; the
packet moves to the post-dateline copy where the link wraps. A partner whose coordinate is not known makes neither test.
(DEDUCED, log entry 28) -/
def routeSend (s : State) (k : Pkt) : Route :=
  let p := outPort k.leg k.dir
  let m := ringPos k.leg s.me
  let d := ringPos k.leg k.dest.toNat
  if s.flag (LTC_NBR_CVALID p) then
    let w := ringPos k.leg (s.fld (LTC_NBR_ENDPOINT p))
    if d ≠ m ∧ strictlyBetween k.dir m w d then .drop 2
    else if (!k.dir && decide (w ≤ m)) || (k.dir && decide (m ≤ w)) then
      .out p { k with vc := BitVec.ofNat 3 (2 * vcClass k.vc.toNat + 1) }
    else .out p k
  else .out p k

/-- enter_ring() of R93, then send(). -/
def routeEnter (s : State) (k : Pkt) (leg : Bool) : Route :=
  routeSend s { k with
    leg := leg, hops := 0, vc := BitVec.ofNat 3 (2 * vcClass k.vc.toNat)
    dir := chooseDown (ringPos leg k.dest.toNat) (ringPos leg s.me) (s.ringSize leg) }

/-- inject() of R93. -/
def routeInject (s : State) (k : Pkt) : Route :=
  if k.dest.toNat = s.me then .here
  else if epX k.dest.toNat ≠ epX s.me then routeEnter s k false
  else routeEnter s k true

/-- receive() of R93 at a stack with its coordinate set. -/
def routeReceive (s : State) (k : Pkt) : Route :=
  if 127 < k.hops.toNat + 1 then .drop 1
  else
    let k := { k with hops := k.hops + 1 }
    if k.dest.toNat = s.me then .here
    else if k.leg = false ∧ epX k.dest.toNat = epX s.me then routeEnter s k true
    else if k.leg = true ∧ epY k.dest.toNat ≠ epY s.me then routeSend s k
    else if k.leg = false then routeSend s k
    else .drop 3

/-! ### Flits (R73-R80) -/

/-- A flit on the wire: the header, 15 units of payload and the CRC-32 (R73, R74). -/
def flitBytes (ftype first seq ack ackType : Nat) (cred : List Nat) (payload : List Byte) : List Byte :=
  let body := [BitVec.ofNat 8 (ftype + 16 * first)] ++ leBytes 3 (seq % 4096 + 4096 * (ack % 4096)) ++
    [BitVec.ofNat 8 ackType] ++ (cred.map (BitVec.ofNat 8)) ++ [0] ++ sliceB payload 0 240
  body ++ leBytes 4 (crc32 body).toNat

/-- The slots of a receive buffer (R95). -/
def bufSlots (vc : Nat) : Nat := if vc < 4 then 512 else 64

/-- The virtual channel and the slots of the packet that has begun to arrive and is not whole. -/
def Port.partSlots (t : Port) : Nat × Nat :=
  let h := pktOfBytes (t.part.take 16)
  (h.vc.toNat, if t.part.length < 16 then 0 else ceilDiv (pktLen h) 32)

/-- The free slots of port `p`'s receive buffer for a virtual channel. -/
def Port.rxFree (t : Port) (vc : Nat) : Nat :=
  bufSlots vc - (t.rx.filter (fun k => k.vc.toNat == vc)).foldl (fun n k => n + pktSlots k) 0 -
    (if t.partSlots.1 = vc then t.partSlots.2 else 0)

/-- The lanes of a port's group (R61): its width and its first lane. -/
def State.laneGroup (s : State) (p : Nat) : Nat × Nat :=
  let w := match s.fld (LNK_STAT_WIDTH p) with | 1 => 8 | 2 => 4 | _ => 16
  (w, w * s.fld (LNK_STAT_GROUP p))

/-- The transmit lanes that carry the slot `i` of the stream (R50): logical lane `i` mod W of the group; while a lane moves
onto TXS both carry it, and then TXS alone (R60). -/
def State.txLanes (s : State) (p i : Nat) : List Nat :=
  let l := (s.laneGroup p).2 + i % (s.laneGroup p).1
  if (s.port p).txLs = l then (if (s.port p).txSwap.isSome then [l, 16] else [16]) else [l]

/-- A flit leaves port `p` with the current ACK or NAK and credits, in eight slots (R50, R73, R75, R76). Sending them settles
them. (DESIGN CHOICE, log entry 24) -/
def State.txFlit (s : State) (p ftype first seq : Nat) (payload : List Byte) : State :=
  let t := s.port p
  let cred := t.ret.map (min 255)
  let f := flitBytes ftype first seq t.rxSeq (if t.nakDue then 2 else 1) cred payload
  (s.modPort p fun t => { t with
    unacked := 0, nakDue := false, ret := List.zipWith (· - ·) t.ret cred, txSlot := (t.txSlot + 8) % 16 }).emit
      (.flit p f ((List.range 8).map fun i => s.txLanes p (t.txSlot + i)))

/-- An IDLE flit, which carries the number of the next DATA flit (R75). (DESIGN CHOICE, log entry 24) -/
def State.txIdle (s : State) (p : Nat) : State := s.txFlit p 0 15 (s.port p).seq []

/-- The INIT payload of R78. -/
def State.initPayload (s : State) (p : Nat) : List Byte :=
  let t := s.port p
  leBytes 2 (s.me + 16384 * b2n s.hasCoord + 32768 * b2n t.haveLink) ++
  leBytes 2 (s.fld (LTC_PEPOCH_OWN p)) ++ leBytes 2 t.heldPartner ++ leBytes 2 t.heldEpoch ++
  leBytes 2 (t.rxSeq % 4096) ++ [BitVec.ofNat 8 (1 + 16 * 2), 0] ++
  ((List.range 6).map fun v => leBytes 2 (t.rxFree v)).flatten

/-- The sequence of pieces of packets in one flit's payload: FIRST is the unit at which the first packet that begins in it
starts. `starts` are the byte offsets at which packets begin in the whole string. -/
def framePayload : Nat → List Byte → List Nat → List (Nat × Nat × List Byte)
  | 0, _, _ => []
  | fuel + 1, bs, starts =>
    if bs.isEmpty then []
    else
      let mine := starts.filter (· < 240)
      let rest := (starts.filter (240 ≤ ·)).map (· - 240)
      (match mine with | [] => 15 | a :: _ => a / 16, mine.length, padB 240 (bs.take 240)) ::
        framePayload fuel (bs.drop 240) rest

/-- The order in which the sources of one virtual channel are tried: rotation from the one after the last (R98). -/
def rotate (last : Nat) : List Nat := (List.range 6).map fun i => (last + 1 + i) % 6

/-- The next packet of one virtual channel by rotation among its sources, for which there is credit (R96, R98). -/
def Port.pickVc (t : Port) (vc : Nat) : Option OutPkt :=
  (rotate (t.rot.getD vc 0)).findSome? fun src =>
    match t.outq.find? fun o => o.pkt.vc.toNat == vc && o.src == src with
    | none => none
    | some o => if pktSlots o.pkt ≤ t.txCred.getD vc 0 then some o else none

/-- The next packet of a port (R98): MGT first, but at most one flit in 16 while others wait: after an MGT packet of one flit the
next may share the sixteenth flit that others begin; RSP before REQ; the post-dateline copy before the pre-dateline copy.
(DEDUCED, log entry 56) -/
def Port.pick (t : Port) : Option OutPkt :=
  let mgt := (t.pickVc 5).orElse fun _ => t.pickVc 4
  let other := ((t.pickVc 3).orElse fun _ => t.pickVc 2).orElse fun _ => (t.pickVc 1).orElse fun _ => t.pickVc 0
  match mgt, other with
  | some m, some o => if t.mgtOwed = 0 then some m else some o
  | some m, none => some m
  | none, o => o

/-- The packets that leave a port now, and the port after: each takes its credit as it begins, and the replay buffer of 256
flits has room for what it fills (R76, R96). -/
def Port.drain : Nat → Nat → Port → List Pkt × Port
  | 0, _, t => ([], t)
  | fuel + 1, used, t =>
    match t.pick with
    | none => ([], t)
    | some o =>
      let n := 16 + o.pkt.payload.length
      let vc := o.pkt.vc.toNat
      if 256 < t.replay.length + ceilDiv (used + n) 240 then ([], t)
      else
        let t' := { t with
          outq := t.outq.erase o
          rot := setAt t.rot vc o.src
          txCred := modAt t.txCred vc (· - pktSlots o.pkt)
          mgtOwed := if vcClass vc ≠ 2 then t.mgtOwed - (ceilDiv (used + n) 240 - ceilDiv used 240)
            else if t.outq.any fun x => vcClass x.pkt.vc.toNat ≠ 2 then
              15 * ((used + n - 1) / 240 - used / 240 + 1) + 1
            else t.mgtOwed }
        let r := t'.drain fuel (used + n)
        (o.pkt :: r.1, r.2)

/-- The DATA flits of some packets leave port `p` and stay in its replay buffer (R76). -/
def State.txData (s : State) (p : Nat) : List (Nat × Nat × List Byte) → State
  | [] => s
  | (first, npk, pay) :: fs =>
    let q := (s.port p).seq
    let s := s.modPort p fun t =>
      { t with seq := (q + 1) % 4096, replay := t.replay ++ [{ seq := q, first := first, payload := pay, npk := npk }] }
    (s.txFlit p 1 first q pay).txData p fs

/-- The start offsets of packets laid end to end. -/
def startsOf : Nat → List (List Byte) → List Nat
  | _, [] => []
  | at_, b :: bs => at_ :: startsOf (at_ + b.length) bs

/-- A port that is ACTIVE and has met its partner's INIT sends what it may (R78, R96, R98). (DESIGN CHOICE, log entry 24) -/
def State.pump (s : State) (p : Nat) : State :=
  let t := s.port p
  if t.st = .active ∧ t.initRx then
    let (ks, t') := t.drain t.outq.length 0
    let bs := ks.map pktBytes
    let all := bs.flatten
    let s := s.modPort p fun _ => t'
    if ks.isEmpty then s
    else (s.txData p (framePayload (all.length + 1) all (startsOf 0 bs))).add64 (LTC_TXBYTES_LO p) all.length
  else s

/-- A packet joins port `p`'s output queue (R102) and leaves if it may. -/
def State.enqueue (s : State) (p : Nat) (k : Pkt) (src : Nat) : State :=
  (s.modPort p fun t => { t with outq := t.outq ++ [{ pkt := k, src := src, since := s.clock }] }).pump p

/-! ### Event messages (R48) -/

/-- The MSG that carries an event to a destination: the entry, its sequence, the count of events not sent, zeros. -/
def eventMsg (me dest : Nat) (e : Ev) (unsent : Nat) : Pkt where
  opc := 0x0C
  vc := 4
  hops := 0
  dir := false
  dest := BitVec.ofNat 14 dest
  leg := false
  nbr := false
  src := BitVec.ofNat 14 me
  tag := 0
  addr := 1
  len := 0
  b14 := 0
  b15 := 0
  payload := e.bytes ++ leBytes 4 e.seq ++ leBytes 4 unsent ++ leBytes 8 0

/-- The destination's MSG rate allows one now: at most one each microsecond. (DESIGN CHOICE, log entry 19) -/
def MsgDest.due (d : MsgDest) (clock : Nat) : Bool :=
  match d.lastSend with | none => true | some t => t + 1000 ≤ clock

/-- Destination `n` asks for an event of this severity (R48). -/
def State.wantsEvent (s : State) (n : Nat) (e : Ev) : Bool :=
  s.flag (EVT_MSGDEST_EN n) && s.fld (EVT_MSGDEST_MIN_SEV n) ≤ e.sev

/-- An event is held for a destination's next MSG, in place of the one held before. -/
def State.holdEvent (s : State) (n : Nat) (e : Ev) : State :=
  if s.wantsEvent n e then
    { s with ks := { s.ks with dests := modAt s.ks.dests n fun d =>
        { d with unsent := d.unsent + (if d.newest = none then 0 else 1), newest := some e } } }
  else s

/-- The event that the next logging makes. -/
def State.nextEvent (s : State) (code sev unit data : Nat) : Ev :=
  ⟨s.ks.wrSeq, s.ks.time, code, sev, unit, data % 2 ^ 32⟩

/-- An event is logged, and each destination that asks for it gets it with its next MSG. (DESIGN CHOICE, log entry 19) -/
def State.postHeld (s : State) (code sev unit data : Nat) : State :=
  (List.range 4).foldl (fun t n => t.holdEvent n (s.nextEvent code sev unit data)) (s.logEvent code sev unit data)

/-- 0x020F is due for a port: at most once a second (R107). (DESIGN CHOICE, log entry 20) -/
def State.dropDue (s : State) (unit : Nat) : Bool :=
  match (s.port (min unit 3)).routeAt with | none => true | some t => t + 10 ^ 9 ≤ s.clock

/-- A packet dropped in routing is counted in LTC_DROP.ROUTE (R93); `say` posts its 0x020F when one is due. -/
def State.dropCount (s : State) (unit : Nat) (k : Pkt) (cause : Nat) (say : State → Nat → Nat → Nat → Nat → State) : State :=
  let s := s.incFld LTC_DROP_ROUTE 1
  if s.dropDue unit then
    say (s.modPort (min unit 3) fun t => { t with routeAt := some s.clock }) 0x020F 1 unit
      (k.dest.toNat + 65536 * k.opc.toNat + 2 ^ 24 * cause)
  else s

/-- The port that 0x020F names for a packet dropped at local injection: the output port whose partner was tested (R93).
(DESIGN CHOICE, log entry 20) -/
def State.injectPort (s : State) (k : Pkt) : Nat :=
  let leg := decide (epX k.dest.toNat = epX s.me)
  outPort leg (chooseDown (ringPos leg k.dest.toNat) (ringPos leg s.me) (s.ringSize leg))

/-- A MSG is injected (R93): one to this stack itself is discarded and counted (R88). The 0x020F of one that is dropped goes
out with the next MSG of each destination. (DEDUCED, log entry 29; DESIGN CHOICE, log entry 19) -/
def State.injectMsg (s : State) (k : Pkt) : State :=
  if s.hasCoord then
    match routeInject s k with
    | .here => s.incFld LTC_DROP_LOCAL 1
    | .out p k' => s.enqueue p k' 5
    | .drop c => s.dropCount (s.injectPort k) k c State.postHeld
  else s

/-- Destination `n` gets a MSG of an event at once: it asked for it, no other is held for it and none went to it within the
last microsecond (R48). -/
def State.msgNow (s : State) (e : Ev) (n : Nat) : Bool :=
  let d := s.ks.dests.getD n {}
  s.wantsEvent n e && d.due s.clock && d.newest.isNone

/-- Destination `n` takes note of an event: a MSG goes now, or it is held for the next. (DESIGN CHOICE, log entry 19) -/
def State.noteEvent (s : State) (e : Ev) (n : Nat) : State :=
  if s.msgNow e n then
    { s with ks := { s.ks with dests := setAt s.ks.dests n { lastSend := some s.clock, unsent := 0, newest := none } } }
  else s.holdEvent n e

/-- The MSG of an event to destination `n`. (DESIGN CHOICE, log entry 19) -/
def State.sendEvent (s : State) (e : Ev) (n : Nat) : State := s.injectMsg (eventMsg s.me (s.fld (EVT_MSGDEST_DEST n)) e 0)

/-- An event happens: it is logged, may raise the alert, and goes to each destination that asked for it (R46-R48).
(DESIGN CHOICE, log entry 19) -/
def State.post (s : State) (code sev unit data : Nat) : State :=
  let e := s.nextEvent code sev unit data
  let l := s.logEvent code sev unit data
  ((List.range 4).filter (l.msgNow e)).foldl (fun t n => t.sendEvent e n) ((List.range 4).foldl (fun t n => t.noteEvent e n) l)

/-! ### Dropping and injecting -/

/-- A packet dropped in routing (R93): counted in LTC_DROP.ROUTE and posted as 0x020F, at most once a second for the port
it came by or would have left by. (DESIGN CHOICE, log entry 20) -/
def State.dropRoute (s : State) (unit : Nat) (k : Pkt) (cause : Nat) : State := s.dropCount unit k cause State.post

/-- A packet injected by this stack that expects no answer of its own: a response or a MSG (R93). A stack without a
coordinate originates nothing but hop-addressed responses (R90). A response to this stack's own request reaches it without
entering a port, and a MSG to itself is discarded and counted (R88). (DEDUCED, log entry 29) -/
def State.injectRaw (s : State) (k : Pkt) : State :=
  if s.hasCoord then
    match routeInject s k with
    | .here =>
      if k.opc = 0x10 then { s with lnk := { s.lnk with loop := s.lnk.loop ++ [k] } } else s.incFld LTC_DROP_LOCAL 1
    | .out p k' => s.enqueue p k' 5
    | .drop c => s.dropRoute (s.injectPort k) k c
  else s

/-! ### Sending and answering -/

/-- A response leaves towards its requester (R86, R91, R93): hop-addressed ones go back out of the arrival port. -/
def State.sendRsp (s : State) (p : Nat) (r : Pkt) : State :=
  if r.nbr then s.enqueue p r 5 else s.injectRaw r

/-- An earlier packet of the same virtual channel is ahead of this one in port `p`'s receive buffer: a request that is held
there holds what comes behind it (R96). -/
def State.behind (s : State) (p : Nat) (k : Pkt) : Bool :=
  match (s.port p).rx.find? fun x => x.vc == k.vc with
  | some x => decide (x ≠ k)
  | none => false

/-- A packet that may not leave yet waits in the receive buffer. -/
def State.waitRx (s : State) (p : Nat) (k : Pkt) : State :=
  if (s.port p).rx.contains k then s else s.modPort p fun t => { t with rx := t.rx ++ [k] }

/-- A request that arrived on port `p` is answered (R86). -/
def State.answer (s : State) (p : Nat) (k : Pkt) (status word : Nat) (data : List Byte) : State :=
  s.sendRsp p (mkRsp s.me k status word data)

/-- discard_or_refuse() of R93: a request is answered NO_TARGET from this stack, any other packet is discarded; both are
counted and posted. -/
def State.discardOrRefuse (s : State) (p : Nat) (k : Pkt) (cause : Nat) : State :=
  let s := if isRequest k.opc.toNat then s.answer p k 4 0 [] else s
  s.dropRoute p k cause

/-- A packet leaves port `p`'s receive buffer, and its credit is returned (R96): one that the device takes leaves it though a
request is held ahead of it. A packet that is not there leaves the buffer as it is: the command is then its arrival as well.
(DESIGN CHOICE, log entry 27) -/
def State.takeRx (s : State) (p : Nat) (k : Pkt) : State :=
  if (s.port p).rx.contains k then
    s.modPort p fun t => { t with rx := t.rx.erase k, ret := modAt t.ret k.vc.toNat (· + pktSlots k) }
  else s

end Sys2Proof.Machine
end

