-- ==== Sys2Proof/Machine/Access.lean ====
section
/-! DEFINITION. Register accesses: which block is reachable by which path, and the answer of an access (R34-R38, R42, R86,
R103). -/

namespace Sys2Proof.Machine

/-- The window of R34: a local address as the low 24 bits of the map, if it lies in a block and is aligned. -/
def winAddr (addr : Nat) : Option Nat :=
  if 0xFF00000000 ≤ addr ∧ addr < 0xFF00F00000 ∧ addr % 4 = 0 then some (addr - 0xFF00000000) else none

/-- The blocks reachable by a path in the present state (R34, R35). The Keystone reaches every block it keeps (R32).
(DEDUCED, log entry 132) -/
def State.reachable (s : State) (path : Path) (blk : Nat) : Bool :=
  match path with
  | .keystone => s.dev != .off && blk < 15
  | .sideband =>
    if s.dev = .off ∨ 15 ≤ blk then false
    else if blk = 0 ∨ blk = 1 ∨ blk = 2 ∨ blk = 11 ∨ blk = 14 then true
    else !(s.dev == .aux || s.dev == .recovery || s.dev == .safe)
  | .port p =>
    if 15 ≤ blk then false
    else match s.dev with
    | .bringup | .restoring | .ready => true
    | .recovery => p == 0 && !(blk == 6 || blk == 7 || blk == 8)
    | _ => false

/-- A reset interval of reach WARM or wider is open: no port accepts packets (R104). -/
def State.lineShut (s : State) : Bool := s.pwr.interval && 3 ≤ s.pwr.reach

/-- The states in which packets reach the base course (R103): by any port, or in RECOVERY by P0. A save answers what it finds
and closes the lintels at its start, so nothing arrives in SAVING. (DEDUCED, log entry 132) -/
def State.packetsReach (s : State) (p : Nat) : Bool :=
  !s.lineShut &&
  match s.dev with
  | .bringup | .restoring | .ready => true
  | .recovery => p == 0
  | _ => false

/-- The request packet an access stands for, as far as its answer needs it. -/
def accessPkt (a : Access) (p opc : Nat) : Pkt where
  opc := BitVec.ofNat 5 opc
  vc := a.vc
  hops := 0
  dir := p % 2 == 1
  dest := 0
  leg := p / 2 == 1
  nbr := a.hop.isSome
  src := a.requester
  tag := a.tag
  addr := 0
  len := 0
  b14 := 0
  b15 := a.hop.getD 0
  payload := []

/-- The status of R42 for a status of R86. -/
def sbStatus (st : Nat) : Nat := if st = 0 then 0 else if st = 5 then 2 else 1

/-- An access is answered on its path: a response packet, the sideband's result, or nothing for the Keystone. -/
def State.respond (s : State) (a : Access) (opc status word : Nat) : State :=
  match a.path with
  | .port p => s.answer p (accessPkt a p opc) status word []
  | .sideband => { s with ks := { s.ks with result := some (if status = 0 then word else 0, sbStatus status) } }
  | .keystone => s

/-- The packet that carried an access leaves its receive buffer, where it lies at the head of its channel (R96). -/
def State.takeAccess (s : State) (p : Nat) (a : Access) (opc : Nat) : State :=
  match (s.port p).rx.find? fun x => x.vc == a.vc with
  | some x =>
    if x.opc.toNat = opc ∧ x.src = a.requester ∧ x.tag = a.tag ∧ x.nbr = a.hop.isSome then s.takeRx p x else s
  | none => s

/-! ### The way through mortar (R167) -/

def State.tgt (s : State) (t : Nat) : Tgt := s.mtr.targets.getD t {}

def State.modTgt (s : State) (t : Nat) (f : Tgt → Tgt) : State :=
  { s with mtr := { s.mtr with targets := modAt s.mtr.targets t f } }

/-- A unit is the register access of master `m` (R167). -/
def MUnit.isCfg (u : MUnit) (m : Nat) : Bool := u.own == some .cfg && u.master == m

/-- The register access of master `m` that target T33 still carries has ended: its header and its 4 B beat leave.
(DEDUCED, log entry 142) -/
def State.cfgEnds (s : State) (m : Nat) : State :=
  let t := s.tgt 33
  if t.hdrs.any (·.isCfg m) || t.xfers.any fun x => x.unit.isCfg m then
    (s.modTgt 33 fun t => { t with
      hdrs := t.hdrs.filter fun u => !u.isCfg m, xfers := t.xfers.filter fun x => !x.unit.isCfg m }).add64 (MTR_BYTES_LO m) 4
  else s

/-- A register access passes to the register switch, T33 (R167): M0-M3 for a port's, M7 for the Keystone's and the sideband's.
It waits for no limit and counts no granule (R172). (DEDUCED, log entry 142) -/
def State.cfgBeat (s : State) (m : Nat) : State :=
  (s.cfgEnds m).modTgt 33 fun t => { t with
    hdrs := t.hdrs ++ [{ xact := 0, master := m, addr := 0, gran := 0, op := 0, own := some .cfg }] }

/-- What a port does with an access before it reaches the register switch: it does not arrive in the states whose lintels are
closed (R103), nor, unless it is hop-addressed, at a stack without a coordinate (R90); after a PORT reset the port's master issues
nothing before the link restarts (R188); outside MGT an access is not performed (R82). -/
def State.portGate (s : State) (a : Access) (opc : Nat) (go : State → State) : State :=
  match a.path with
  | .port p =>
    if s.packetsReach p = false ∨ (a.hop.isNone ∧ s.hasCoord = false) ∨ (s.port p).rstHold then s
    else
      let s := s.takeAccess p a opc
      if vcClass a.vc.toNat ≠ 2 then s.respond a opc 4 0
      else go (s.cfgBeat p)
  | _ => if s.dev = .off then s else go (s.cfgBeat 7)

/-- A CFG_WR to a register of a block: refused NO_TARGET where the block is not reachable, else its effect and the answer
that the effect leaves (R36). -/
def State.cfgWriteSt (s : State) (a : Access) (addr : Nat) (eff : State → State × Nat) : State :=
  s.portGate a 9 fun s =>
    if s.reachable a.path (addr / 0x100000) then
      let r := eff s
      r.1.respond a 9 r.2 0
    else s.respond a 9 4 0

/-- A CFG_WR whose effect always completes. -/
def State.cfgWrite (s : State) (a : Access) (addr : Nat) (eff : State → State) : State :=
  s.cfgWriteSt a addr fun s => (eff s, 0)

/-- The index of a path's latch (R38). -/
def pathIdx : Path → Nat
  | .port p => p.val
  | .sideband => 4
  | .keystone => 5

end Sys2Proof.Machine
end

