-- ==== Sys2Proof/Machine/Lanes.lean ====
section
/-! DEFINITION. Lattice lanes and the lintel: training, the figure of merit, the standby lane, the markers and the bypass
(R53-R70). -/

namespace Sys2Proof.Machine

/-! ### The lintel (R65, R66) -/

/-- The state condition of LNK_LINTEL_n (bit 14). -/
def State.lintelState (s : State) (ring : Nat) : Bool :=
  match s.dev with
  | .aux | .saving | .sealed | .thermalHold => true
  | .recovery => ring == 1
  | _ => false

/-- The reset condition (bit 12). -/
def State.lintelReset (s : State) : Bool := (s.pwr.interval && 4 ≤ s.pwr.reach) || s.dev == .safe || s.dev == .off

/-- The cause bits of LNK_LINTEL_n[15:8], CLOSED apart. -/
def State.lintelCauses (s : State) (ring : Nat) : Nat :=
  128 * b2n (!s.pins.lintelForceN) + 64 * b2n (s.lintelState ring) +
  32 * b2n (!s.lnk.opened.getD ring false) + 16 * b2n s.lintelReset

/-- A lintel is closed whenever any condition of R65 holds. -/
def State.lintelMustClose (s : State) (ring : Nat) : Bool :=
  !s.pins.lintelForceN || s.lintelState ring || s.lintelReset ||
  (s.dev == .bringup && !s.lnk.opened.getD ring false) || s.flag (LNK_LINTEL_CLOSE ring)

/-- The state a port takes when its lintel opens or it is enabled (R53, R69). (DEDUCED, log entry 21) -/
def State.portIdleState (s : State) (p : Nat) : PSt :=
  if s.dev = .recovery ∧ p = 1 then .disabled
  else if s.flag (LNK_CTL_ENABLE p) then .detect else .disabled

/-- A port's training starts over: the lanes' failures are forgotten (R71: FAILED lasts until retraining). -/
def State.startOver (s : State) (p : Nat) (st : PSt) : State :=
  let s := s.modPort p fun t => { t with
    st := st, tried := [], gen := 0, slowNeg := false, skewTried := false, skewLane := none
    lanes := List.replicate 17 {}, rxSwap := none, txSwap := none, txLs := 16, widthReq := none
    txSlot := 0, rxSlot := 0, initRx := false }
  let s := (List.range 17).foldl (fun s n =>
    (s.setFld (LNK_LSTAT_FAILED p n) 0).setFld (LNK_LSTAT_INUSE p n) 0) s
  let s := ((s.setFld (LNK_STAT_GEN p) 0).setFld (LNK_STAT_WIDTH p) 0).setFld (LNK_STAT_GROUP p) 0
  (s.setFld (LNK_STAT_LS_USE p) 16).setFld (LNK_STAT_LIMIT p) 0

/-- A lintel closes: the ring's ports go BYPASSED, their links will start fresh (R79), 0x0208. DATA holds the cause byte in
[7:0]. (DEDUCED, log entry 21; DEDUCED, log entry 62) -/
def State.closeLintel (s : State) (ring : Nat) : State :=
  let s := { s with lnk := { s.lnk with closed := setAt s.lnk.closed ring true } }
  let s := (s.startOver (2 * ring) .bypassed).startOver (2 * ring + 1) .bypassed
  let s := (s.modPort (2 * ring) fun t => { t with haveLink := false }).modPort (2 * ring + 1)
    fun t => { t with haveLink := false }
  if s.dev = .off then s else s.post 0x0208 0 ring (s.lintelCauses ring + 1)

/-- A lintel opens: the ring's ports go to DETECT, or DISABLED where they are not enabled; 0x0209. -/
def State.openLintel (s : State) (ring : Nat) : State :=
  let s := { s with lnk := { s.lnk with closed := setAt s.lnk.closed ring false } }
  let s := s.startOver (2 * ring) (s.portIdleState (2 * ring))
  let s := s.startOver (2 * ring + 1) (s.portIdleState (2 * ring + 1))
  s.post 0x0209 0 ring 0

def State.updateLintel (s : State) (ring : Nat) : State :=
  let c := s.lnk.closed.getD ring true
  if s.lintelMustClose ring ∧ c = false then s.closeLintel ring
  else if s.lintelMustClose ring = false ∧ c then s.openLintel ring
  else s

/-- Both lintels follow their conditions (R65). (DEDUCED, log entry 21) -/
def State.updateLintels (s : State) : State := (s.updateLintel 0).updateLintel 1

/-- The pin LINTEL_FORCE_N changes its level (R31). -/
def execLintelForceNChange (low : Bool) (s : State) : Host.Outcome State Fault Refusal :=
  .next { s with pins := { s.pins with lintelForceN := !low } }.updateLintels

/-- A write of LNK_LINTEL_n (R65). -/
def execLnkLintelCloseWrite (a : Access) (ring : Fin 2) (v : Word) (s : State) : Host.Outcome State Fault Refusal :=
  .next (s.cfgWrite a (LNK_LINTEL ring) fun s => (s.writeAcc (LNK_LINTEL ring) v.toNat).updateLintels)

/-- A closed lintel joins each receive lane of one port to the transmit lane of the other (R28, R65): what arrives leaves
again. -/
def State.bypass (s : State) (p lane : Nat) (bs : List Byte) : State :=
  if lane < 17 then s.emit (.pass (p ^^^ 1) lane bs) else s

/-! ### Port states (R53) -/

/-- A port leaves ACTIVE for DETECT, with the cause of 0x0202. -/
def State.leaveActive (s : State) (p cause : Nat) : State :=
  (s.startOver p .detect).post 0x0202 2 p cause

/-- A write of LNK_CTL_p: GENMAX and ENABLE, then what ENABLE and RETRAIN do (R53). -/
def State.lnkCtlWrite (s : State) (p v : Nat) : State :=
  let s := s.writeAcc (LNK_CTL p) v
  let t := s.port p
  if t.st = .bypassed then s
  else if bitAt v 2 = false then s.startOver p .disabled
  else if t.st = .disabled then s.startOver p (s.portIdleState p)
  else if bitAt v 3 then
    if t.st = .active then s.leaveActive p 4 else s.startOver p .detect
  else s

/-- LNK_CTL_p written with RETRAIN = 1 (R53). (DEDUCED, log entry 61) -/
def execLnkRetrain (a : Access) (p : Fin 4) (v : Word) (s : State) : Host.Outcome State Fault Refusal :=
  .next (s.cfgWrite a (LNK_CTL p) fun s => s.lnkCtlWrite p v.toNat)

/-- LNK_CTL_p written with ENABLE = 0 (R53). (DEDUCED, log entry 61) -/
def execLnkDisable (a : Access) (p : Fin 4) (v : Word) (s : State) : Host.Outcome State Fault Refusal :=
  .next (s.cfgWrite a (LNK_CTL p) fun s => s.lnkCtlWrite p v.toNat)

/-- LNK_CTL_p written with ENABLE = 1 (R53). (DEDUCED, log entry 61) -/
def execLnkEnable (a : Access) (p : Fin 4) (v : Word) (s : State) : Host.Outcome State Fault Refusal :=
  .next (s.cfgWrite a (LNK_CTL p) fun s => s.lnkCtlWrite p v.toNat)

/-- GENMAX as it is offered: 0 is treated as 1 (R71). -/
def State.genMax (s : State) (p : Nat) : Nat := max 1 (s.fld (LNK_CTL_GENMAX p))

/-- Signal on 4 or more lanes, held 100 µs: DETECT goes to NEGOTIATE, at YXL-1 when COMPAT is strapped (R53, R54) or in
RECOVERY (R69). GENMAX is taken now (R71). -/
def execSignalDetect (p : Fin 4) (s : State) : Host.Outcome State Fault Refusal :=
  .next (if (s.port p).st = .detect then
    s.modPort p fun t =>
      { t with st := .negotiate, slowNeg := s.ks.compat || s.dev == .recovery, genMax := s.genMax p }
  else s)

/-- 2 ms of YXL-3 negotiation without a valid marker: the port falls back to YXL-1 (R54). -/
def execNegotiateTimeout (p : Fin 4) (s : State) : Host.Outcome State Fault Refusal :=
  .next (if (s.port p).st = .negotiate then s.modPort p fun t => { t with slowNeg := true } else s)

/-! ### Markers (R62) -/

/-- CRC-8 with polynomial 0x07 and initial value 0. -/
def crc8 (bs : List Byte) : Byte :=
  bs.foldl (fun c b => (List.range 8).foldl (fun c _ =>
    if c.getLsbD 7 then (c <<< 1) ^^^ 0x07#8 else c <<< 1) (c ^^^ b)) 0

/-- A marker is 8 bytes with its SYNC and a good CRC (R62). -/
def markerOk (m : List Byte) : Bool := m.length == 8 && byteB m 0 == 0xA5#8 && crc8 (m.take 7) == byteB m 7

/-- Tracked lane codes apply at the port's entry to TRAIN (R356). -/
def State.laneCal (s : State) (p : Nat) : State :=
  match tget s.cal.pend (200 + p) with
  | some v => { s.setReg (CAL_ZLANE p) v with cal := { s.cal with pend := tdel s.cal.pend (200 + p) } }
  | none => s

/-- The lanes of a port that starts to train have not been measured yet (R71: CLASS 3). (DEDUCED, log entry 136) -/
def State.unmeasured (s : State) (p : Nat) : State :=
  (List.range 17).foldl (fun s n => s.setFld (LNK_LSTAT_CLASS p n) 3) s

/-! ### Training (R55) -/

/-- The lanes of a group: width 16, 8 or 4 (R61). -/
def groupLanes (w g : Nat) : List Nat := (List.range w).map (w * g + ·)

/-- The groups in the order they are tried: width and group (R61). -/
def groupOrder : List (Nat × Nat) := [(16, 0), (8, 0), (8, 1), (4, 0), (4, 1), (4, 2), (4, 3)]

/-- A group is workable when it has no failed lane, or one that LS can carry; the second part is that lane. -/
def groupWorks (good : Nat → Bool) (ls : Bool) (w g : Nat) : Option Nat :=
  match (groupLanes w g).filter fun l => !good l with
  | [] => some 16
  | [l] => if ls then some l else none
  | _ => none

/-- The widest workable group of a list: width, group, lane on LS. -/
def bestGroup (good : Nat → Bool) (ls : Bool) : List (Nat × Nat) → Option (Nat × Nat × Nat)
  | [] => none
  | (w, g) :: rest =>
    match groupWorks good ls w g with
    | some l => some (w, g, l)
    | none => bestGroup good ls rest

/-- The line payload of a lane in Gbit/s (R49). -/
def laneRate (g : Nat) : Nat := if g = 3 then 100 else if g = 2 then 50 else 25

/-- The tried generation with the highest payload; of two with equal payload the lower (R55). -/
def bestTried : List Tried → Option Tried
  | [] => none
  | x :: xs =>
    match bestTried xs with
    | none => some x
    | some y =>
      if laneRate y.gen * y.width < laneRate x.gen * x.width then some x
      else if laneRate x.gen * x.width = laneRate y.gen * y.width ∧ x.gen < y.gen then some x else some y

def widthCode (w : Nat) : Nat := if w = 16 then 0 else if w = 8 then 1 else if w = 4 then 2 else 3

/-- The logical lane that a receive lane carries. -/
def State.logicalOf (s : State) (p n : Nat) : Nat := s.fld (LNK_LSTAT_LOGICAL p n)

/-- The receive lane whose markers named a logical lane (R52, R62). -/
def State.namedAs (s : State) (p l : Nat) : Option Nat :=
  (List.range 16).find? fun n => ((s.port p).lanes.getD n {}).named && s.logicalOf p n == l

/-- The receive lane that carries a logical lane on its own balls (R52): the one whose markers named it; the logical lanes that
no marker has named take, in order, the receive lanes that have named none. (DEDUCED, log entry 23) -/
def State.physOf (s : State) (p l : Nat) : Nat :=
  match s.namedAs p l with
  | some n => n
  | none =>
    let open_ := (List.range 16).filter fun l => (s.namedAs p l).isNone
    let taken := (List.range 16).filterMap (s.namedAs p)
    ((List.range 16).filter fun n => !taken.contains n).getD (open_.idxOf l) l

/-- A receive lane reached a FOM of 96 in training; a lane taken out by LNK_LCTL.OUT or by the skew attempt counts as failed. -/
def State.trainedOk (s : State) (p : Nat) (good : BitVec 17) (n : Nat) : Bool :=
  good.getLsbD n && !s.flag (LNK_LCTL_OUT p n) && (s.port p).skewLane != some n

/-- Training finds each lane's polarity and corrects it (R52). How MAP counts more inverted lanes than its four bits hold, and
that LS counts, is the model's choice. (DESIGN CHOICE, log entry 144) -/
def State.setPolarity (s : State) (p : Nat) (inv : BitVec 17) : State :=
  let s := (List.range 17).foldl (fun s n => s.setFld (LNK_LSTAT_INV p n) (b2n (inv.getLsbD n))) s
  s.setFld (LNK_PARTNER_MAP p) (s.fld (LNK_PARTNER_MAP p) / 16 * 16 + min 15 (popcount 17 inv.toNat))

/-- The groups that a port may run on: in RECOVERY L0-L3 alone (R69). -/
def State.groups (s : State) : List (Nat × Nat) := if s.dev = .recovery then [(4, 0)] else groupOrder

/-- Training finds no group at any generation (R53): 0x0202, with the cause skew in the attempt that a skew over 40 ns led
to. (DEDUCED, log entry 62) -/
def State.noGroup (s : State) (p : Nat) : State :=
  (s.startOver p .detect).post 0x0202 2 p (if (s.port p).skewTried then 5 else 2)

/-- Training at one generation ends (R53, R55): bit `n` of what is good says that receive lane `n` reached a FOM of 96, bit 16
that LS did. In RECOVERY the port wants width 4 on L0-L3 (R69). (DEDUCED, log entry 23) -/
def execTrainGenerationDone (p : Fin 4) (found : TrainFound) (s : State) : Host.Outcome State Fault Refusal :=
  .next (
    let t := s.port p
    if t.st ≠ .train then s
    else
      let s := s.setPolarity p found.inv
      let ok := s.trainedOk p found.good
      let want := if s.dev = .recovery then 4 else 16
      let r := (bestGroup (fun l => ok (s.physOf p l)) (t.partnerLs && ok 16) s.groups).getD (0, 0, 16)
      let x : Tried := ⟨t.gen, r.1, r.2.1, r.2.2, (List.range 17).filter fun n => !ok n⟩
      let tried := t.tried ++ [x]
      let accept := fun (x : Tried) (s : State) =>
        let s := s.modPort p fun t => { t with st := .align, tried := tried, gen := x.gen }
        let s := (s.setFld (LNK_STAT_WIDTH p) (widthCode x.width)).setFld (LNK_STAT_GROUP p) x.group
        let s := (s.setFld (LNK_STAT_LS_USE p) x.ls).setFld (LNK_STAT_GEN p) x.gen
        (List.range 17).foldl (fun s l => s.setFld (LNK_LSTAT_FAILED p l) (b2n (x.failed.contains l))) s
      if r.1 = want then accept x s
      else if 1 < t.gen then s.modPort p fun t => { t with tried := tried, gen := t.gen - 1 }
      else match bestTried tried with
        | some y => if y.width = 0 then s.noGroup p else accept y s
        | none => s.noGroup p)

/-- Why the generation is what it is (LNK_STAT_p.LIMIT). Where several causes hold the lane rule is named first, then the
partner, then the local GENMAX; in RECOVERY, where YXL-1 is the rule, it reads as a partner's limit.
(DESIGN CHOICE, log entry 135) -/
def State.genLimit (s : State) (p : Nat) : Nat :=
  let t := s.port p
  if t.gen < t.maxCommon then 1
  else if t.maxCommon < t.genMax then 3
  else if t.genMax < 3 then 2 else 0

/-- The receive lanes' logical numbers are those their markers gave (R52, R62); a lane whose markers named none shows the one
that is left to it. (DEDUCED, log entry 23) -/
def State.settleMap (s : State) (p : Nat) : State :=
  (List.range 16).foldl (fun t l => t.setFld (LNK_LSTAT_LOGICAL p (s.physOf p l)) l) s

/-- The lanes in use of a port: the group's lanes, with LS in place of the lane it carries. -/
def State.markInUse (s : State) (p : Nat) : State :=
  let w := match s.fld (LNK_STAT_WIDTH p) with | 0 => 16 | 1 => 8 | 2 => 4 | _ => 0
  let ls := s.fld (LNK_STAT_LS_USE p)
  let use := groupLanes w (s.fld (LNK_STAT_GROUP p))
  let s := s.settleMap p
  let s := (List.range 16).foldl (fun s n =>
    let l := s.fld (LNK_LSTAT_LOGICAL p n)
    s.setFld (LNK_LSTAT_INUSE p n) (b2n (use.contains l && l != ls))) s
  (s.setFld (LNK_LSTAT_INUSE p 16) (b2n (ls < 16))).setFld (LNK_LSTAT_LOGICAL p 16) ls

/-! ### Figure of merit (R57-R59) -/

/-- The pseudocode of R57 from bin `j` with `c` samples counted. -/
def fomFrom : Nat → Nat → List Nat → Nat
  | _, _, [] => 255
  | j, c, h :: hs =>
    if 16 ≤ c + h then 8 * j + min 7 (8 * (16 - c) / h) else fomFrom (j + 1) (c + h) hs

/-- The figure of merit of a window (R57), capped at 255. -/
def fomOf (hist : List Nat) : Nat := min 255 (fomFrom 0 0 (hist.take 32))

/-- The class of a FOM (R58): 0 good, 1 marginal, 2 failing. -/
def fomClass (f : Nat) : Nat := if 96 ≤ f then 0 else if 64 ≤ f then 1 else 2

/-- A new equaliser setting is at most one step of one tap away (R59). -/
def oneStep (a b : Nat) : Bool :=
  let d := (List.range 8).map fun i =>
    let x := a / 16 ^ i % 16
    let y := b / 16 ^ i % 16
    max x y - min x y
  d.sum == 1

/-- A logical lane works: it is not failed, seen at the receive lane that carries it. -/
def State.laneGood (s : State) (p l : Nat) : Bool :=
  !(List.range 16).any fun n => s.logicalOf p n == l && s.flag (LNK_LSTAT_FAILED p n)

/-- The width of a port changes (R61): its registers, SWAPS and 0x0205. LS keeps the lane it carries, in the group or not.
(DESIGN CHOICE, log entry 135) -/
def State.narrow (s : State) (p code group lane : Nat) : State :=
  let s := (s.setFld (LNK_STAT_WIDTH p) code).setFld (LNK_STAT_GROUP p) group
  let s := (s.modPort p fun t => { t with widthReq := none }).markInUse p
  (s.incFld (LNK_TRAINCNT_SWAPS p) 1).post 0x0205 (if code = 2 then 3 else 2) p
    (code + 4 * group + 256 * (lane % 32))

/-- LS may take a failed lane's place (R60): the partner has one, it works, and it carries nothing and moves to nothing. -/
def State.lsFree (s : State) (p : Nat) : Bool :=
  (s.port p).partnerLs && s.fld (LNK_STAT_LS_USE p) == 16 && (s.port p).rxSwap.isNone && !s.flag (LNK_LSTAT_FAILED p 16)

/-- The lane that LS carries or is taking over; 16 for none. -/
def State.lsLane (s : State) (p : Nat) : Nat :=
  match (s.port p).rxSwap with | some (x, _) => x | none => s.fld (LNK_STAT_LS_USE p)

/-- A port whose lane `l` has failed with LS in use asks for the widest other group that is fully workable, or leaves ACTIVE
(R61). `lsWorks` says that LS itself still works. -/
def State.askNarrow (s : State) (p l : Nat) (lsWorks : Bool) : State :=
  let good := fun x => s.laneGood p x || (x == s.lsLane p && lsWorks)
  let w := s.fld (LNK_STAT_WIDTH p)
  let order := s.groups.filter fun g => w < widthCode g.1 ||
    (widthCode g.1 == w && w != 0 && g.2 != s.fld (LNK_STAT_GROUP p))
  match bestGroup good false order with
  | some (w, g, _) =>
    s.modPort p fun t => { t with widthReq := some (widthCode w, g, l), rxSwap := if lsWorks then t.rxSwap else none }
  | none => s.leaveActive p 2

/-- A receive lane of an ACTIVE port is treated as failed (R58, R60, R61): LS takes its place when it is free; otherwise
the port narrows. A lane whose move is under way, and one that carries nothing, has failed already. -/
def State.laneFailed (s : State) (p n : Nat) : State :=
  let s := s.setFld (LNK_LSTAT_FAILED p n) 1
  let l := s.logicalOf p n
  if (s.port p).st ≠ .active then s
  else if n < 16 then
    if s.flag (LNK_LSTAT_INUSE p n) = false ∨ s.lsLane p = l then s
    else if s.lsFree p then s.modPort p fun t => { t with rxSwap := some (l, s.fld (LNK_LFOM_FOM p n)) }
    else s.askNarrow p l true
  else if s.lsLane p = 16 then s
  else s.askNarrow p (s.lsLane p) false

/-- Lanes that failed while the port aligned are treated so once it is ACTIVE (R58, R60). (DEDUCED, log entry 136) -/
def State.failedInAlign (s : State) (p : Nat) : State :=
  (List.range 17).foldl (fun s n =>
    if s.flag (LNK_LSTAT_FAILED p n) ∧ s.flag (LNK_LSTAT_INUSE p n) then s.laneFailed p n else s) s

/-- Deskew ends (R53, R63): skew of up to 40 ns is removed and the port goes ACTIVE, which ends an outage (R102); above that
the worst lane counts as failed and training is tried once more, from the highest common generation with nothing tried,
then DETECT. The credits not returned before are part of the free space that INIT gives (R78). (DEDUCED, log entry 23;
DESIGN CHOICE, log entry 135) -/
def execAlignDone (p : Fin 4) (skewPs lane : Nat) (s : State) : Host.Outcome State Fault Refusal :=
  .next (
    let t := s.port p
    if t.st ≠ .align then s
    else
      let s := (s.setFld (LNK_SKEW_SKEW_PS p) (min skewPs 0xFFFF)).setFld (LNK_SKEW_LANE p) lane
      if skewPs ≤ 40000 then
        let s := (s.modPort p fun t =>
          { t with st := .active, initRx := false, expired := 0, outage := false, txSlot := 0, rxSlot := 0,
                   ret := List.replicate 6 0 }).incFld
            (LNK_TRAINCNT_TRAINS p) 1
        let s := (s.setFld (LNK_STAT_LIMIT p) (s.genLimit p)).markInUse p
        let s := (s.setFld (LTC_NBR_VALID p) 0).post 0x0201 0 p
          (t.gen + 4 * s.fld (LNK_STAT_WIDTH p) + 16 * s.fld (LNK_STAT_GROUP p) + 256 * t.tried.length)
        (if t.gen < t.maxCommon then s.post 0x0206 1 p (t.gen + 4 * t.maxCommon) else s).failedInAlign p
      else if t.skewTried then
        (s.startOver p .detect).post 0x0207 2 p (skewPs / 1000 % 65536 + 65536 * (lane % 32))
      else
        ((s.laneCal p).unmeasured p).modPort p fun t => { t with
          st := .train, skewTried := true, skewLane := some lane, tried := [], gen := t.maxCommon })

/-- What a window says of a lane (R58): the runs of windows in each class, 0x0203 after 16 marginal ones, failure after 4
failing ones and at each further one of a lane that is not marked failed. -/
def State.laneWindow (s : State) (p n fom : Nat) : State :=
  let c := fomClass fom
  let ln := (s.port p).lanes.getD n {}
  let marg := if c = 1 then ln.margRun + 1 else 0
  let good := if c = 0 then ln.goodRun + 1 else 0
  let fail := if c = 2 then ln.failRun + 1 else 0
  let postNow := marg = 16 ∧ ln.posted = false
  let ln' := { ln with
    margRun := min marg 16, goodRun := min good 16, failRun := min fail 4
    posted := if postNow then true else if good = 16 then false else ln.posted }
  let s := s.modPort p fun t => { t with lanes := setAt t.lanes n ln' }
  let s := s.setFld (LNK_LSTAT_CLASS p n) c
  let s := if postNow then s.post 0x0203 1 p (n + 256 * fom) else s
  if 4 ≤ fail ∧ s.flag (LNK_LSTAT_FAILED p n) = false then s.laneFailed p n else s

/-- TXEQ_REQ that takes a tap step back: an increase for a decrease, of either tap. -/
def undoTap (r : Nat) : Nat := let f := fun x => if x = 1 then 2 else if x = 2 then 1 else 0; f (r % 4) + 4 * f (r / 4 % 4)

/-- One step of one of the partner's two taps (R59, R62). -/
def oneTap (r : Nat) : Bool := r == 1 || r == 2 || r == 4 || r == 8

/-- One adaptation step of a lane (R59): a step that lowered the FOM over its window is undone, whether it was of the
receiver's equaliser or of the partner's taps; else at most one step of either is taken. (DEDUCED, log entry 136) -/
def State.adapt (s : State) (p n fom leq txeq : Nat) : State :=
  let ln := (s.port p).lanes.getD n {}
  let now := s.reg (LNK_LEQ p n)
  let put := fun (s : State) (stepped : Bool) (prev tx : Nat) => s.modPort p fun t =>
    { t with lanes := modAt t.lanes n fun ln => { ln with stepped := stepped, prevLeq := prev, prevFom := fom, txeq := tx } }
  if ln.stepped ∧ fom < ln.prevFom then put (s.setReg (LNK_LEQ p n) ln.prevLeq) false ln.prevLeq (undoTap ln.txeq)
  else if oneStep now leq then put (s.setReg (LNK_LEQ p n) leq) true now 0
  else if oneTap txeq then put s true now txeq
  else put s false now 0

/-- The end of a window (R57-R59): the histogram, the FOM with its extremes, one adaptation step, and the class. A port that
neither trains nor is ACTIVE measures nothing. (DEDUCED, log entry 62) -/
def execFomWindowEnd (p : Fin 4) (lane : Nat) (hist : List Nat) (step : EqStep) (s : State) :
    Host.Outcome State Fault Refusal :=
  .next (
    let st := (s.port p).st
    if 17 ≤ lane ∨ (st ≠ .train ∧ st ≠ .align ∧ st ≠ .active) then s
    else
      let fom := fomOf hist
      let s := ((s.setFld (LNK_LFOM_FOM p lane) fom).maxFld (LNK_LFOM_MAXFOM p lane) fom).minFld
        (LNK_LFOM_MINFOM p lane) fom
      let s := if s.flag (LNK_LCTL_HFREEZE p lane) then s
        else (List.range 16).foldl (fun s k => s.setReg (LNK_HIST p lane k)
          (min 0xFFFF (hist.getD (2 * k) 0) + 65536 * min 0xFFFF (hist.getD (2 * k + 1) 0))) s
      (s.adapt p lane fom step.leq.toNat step.txeq.toNat).laneWindow p lane fom)

/-- A lane loses lock: it is treated as failed at once (R58). -/
def execLaneLossOfLock (p : Fin 4) (lane : Nat) (s : State) : Host.Outcome State Fault Refusal :=
  .next (if lane < 17 then s.laneFailed p lane else s)

/-- Signal lost on all lanes for 10 µs (R53). -/
def execSignalLossTimeout (p : Fin 4) (s : State) : Host.Outcome State Fault Refusal :=
  .next (if (s.port p).st = .active then s.leaveActive p 1 else s)

/-- One tap step of a transmitter (R62, byte 6): 1 increases, 2 decreases, within the 6 bits of the field. -/
def tapStep (x req : Nat) : Nat := if req = 1 then min 63 (x + 1) else if req = 2 then x - 1 else x

/-- The swap and width fields of a good marker (R60, R61). In RECOVERY the port stays on L0-L3 (R69). A partner's WIDTH_REQ that
comes while the port's own waits for its WIDTH_ACK is ignored. (DESIGN CHOICE, log entries 22 and 145) -/
def State.markerFields (s : State) (p n : Nat) (m : List Byte) : State :=
  let b1 := fieldB m 1 1
  let b3 := fieldB m 3 1
  let b4 := fieldB m 4 1
  let l := b1 % 32
  -- the transmit direction: the partner asks for a lane on LS, then confirms it
  let s := if bitAt b3 5 ∧ (s.port p).txSwap = none ∧ (s.port p).txLs = 16 then
      s.modPort p fun t => { t with txSwap := some (b3 % 32, s.fld (LNK_LFOM_PFOM p (b3 % 32))), txLs := b3 % 32 }
    else s
  let s := match (s.port p).txSwap with
    | some (x, fom) =>
      if bitAt b3 6 then
        ((s.modPort p fun t => { t with txSwap := none }).incFld (LNK_TRAINCNT_SWAPS p) 1).post 0x0204 2 p
          (x + 256 + 65536 * fom)
      else s
    | none => s
  -- the receive direction: the first RXS marker that carries the lane completes the move
  let s := match (s.port p).rxSwap with
    | some (x, fom) =>
      if n = 16 ∧ l = x ∧ l < 16 then
        let s := ((s.modPort p fun t => { t with rxSwap := none }).setFld (LNK_STAT_LS_USE p) x).markInUse p
        (s.incFld (LNK_TRAINCNT_SWAPS p) 1).post 0x0204 2 p (x + 65536 * fom)
      else s
    | none => s
  -- the width
  match (s.port p).widthReq with
  | some (c, g, x) => if bitAt b4 5 then s.narrow p c g x else s
  | none =>
    let w := s.fld (LNK_STAT_WIDTH p)
    if b4 % 4 ≤ 2 ∧ (s.dev = .recovery → b4 % 32 = 2) ∧ (w < b4 % 4 ∨ (w = b4 % 4 ∧ w ≠ 0 ∧ s.fld (LNK_STAT_GROUP p) ≠ b4 / 4 % 8 ∧
        bitAt b4 5 = false)) then
      s.bump.narrow p (b4 % 4) (b4 / 4 % 8) (s.free % 32)
    else s

/-- What a marker error counts (R62), and how many have come in a row on the lane. -/
def State.countMarker (s : State) (p n : Nat) : State × Nat :=
  let run := ((s.port p).lanes.getD n {}).mkRun + 1
  ((s.incFld (LNK_LMKERR_COUNT p n) 1).modPort p fun t =>
    { t with lanes := modAt t.lanes n fun ln => { ln with mkRun := min run 2 } }, run)

/-- A marker error (R58, R62): counted, and the second in a row fails the lane, as does each further one of a lane that is not
marked failed. A port that negotiates has no lanes in use yet. (DEDUCED, log entry 136) -/
def State.markerError (s : State) (p n : Nat) : State :=
  let r := s.countMarker p n
  if 2 ≤ r.2 ∧ (s.port p).st ≠ .negotiate ∧ s.flag (LNK_LSTAT_FAILED p n) = false then r.1.laneFailed p n else r.1

/-- The states in which a port takes markers. -/
def Port.receives (t : Port) : Bool := t.st == .negotiate || t.st == .train || t.st == .align || t.st == .active

/-- A good marker ends a lane's run of marker errors (R58). -/
def State.markerGood (s : State) (p n : Nat) : State :=
  s.modPort p fun t => { t with lanes := modAt t.lanes n fun ln => { ln with mkRun := 0 } }

/-- A capability marker in NEGOTIATE fixes the generation and starts TRAIN (R54, R51, R69, R106). A marker with a bad CRC is a
marker error in every state in which the port receives (R62). A partner's MAXGEN of 0 is taken as 1.
(DESIGN CHOICE, log entry 135) -/
def execCapabilityMarkerReceived (p : Fin 4) (marker : LaneMarker) (s : State) : Host.Outcome State Fault Refusal :=
  .next (
    let lane := marker.lane
    let m := marker.bytes
    let t := s.port p
    let b1 := fieldB m 1 1
    if t.st = .bypassed then s.bypass p lane m
    else if 17 ≤ lane ∨ t.receives = false then s
    else if markerOk m = false then s.markerError p lane
    else
    let s := s.markerGood p lane
    if t.st = .negotiate ∧ bitAt b1 7 ∧ (b1 / 32 % 4 = if t.slowNeg then 1 else 3) then
      let cap := fieldB m 3 1
      let kind := cap / 4 % 4
      let pgen := max 1 (cap % 4)
      let common := min t.genMax (min pgen (if kind = 2 then 2 else 3))
      let g := if s.dev = .recovery then 1 else common
      let s := s.modPort p fun t =>
        { t with st := .train, gen := g, maxCommon := g, tried := [], partnerLs := kind != 2 && bitAt cap 4 }
      let s := (((s.laneCal p).unmeasured p).setFld (LNK_STAT_PARTNER p) kind).setFld (LNK_STAT_PGEN p) (cap % 4)
      let s := s.setFld (LNK_PARTNER_CAP p) cap
      if kind = 2 then s.post 0x020A 0 p 0 else s
    else s)

/-- An alignment marker arrives (R62): a bad one is a marker error; a good one's fields act. A closed lintel passes it on
(R65). -/
def execAlignmentMarkerReceived (p : Fin 4) (lane : Nat) (m : List Byte) (s : State) :
    Host.Outcome State Fault Refusal :=
  .next (
    let st := (s.port p).st
    if st = .bypassed then s.bypass p lane m
    else if 17 ≤ lane ∨ (s.port p).receives = false then s
    else if markerOk m = false then s.markerError p lane
    else
      let s := s.markerGood p lane
      let l := fieldB m 1 1 % 32
      if st = .negotiate ∨ bitAt (fieldB m 1 1) 7 ∨ 17 ≤ l then s
      else
        let s := if lane < 16 ∧ l < 16 then (s.setFld (LNK_LSTAT_LOGICAL p lane) l).modPort p fun t =>
            { t with lanes := modAt t.lanes lane fun ln => { ln with named := true } }
          else s
        let s := if lane < 16 ∧ l = 0 then s.setFld (LNK_PARTNER_MAP p) (s.fld (LNK_PARTNER_MAP p) % 16 + 16 * lane) else s
        let s := s.setFld (LNK_LFOM_PFOM p l) (fieldB m 5 1)
        let req := fieldB m 6 1
        let s := (s.setFld (LNK_LTXEQ_PRE p l) (tapStep (s.fld (LNK_LTXEQ_PRE p l)) (req % 4))).setFld
          (LNK_LTXEQ_POST p l) (tapStep (s.fld (LNK_LTXEQ_POST p l)) (req / 4 % 4))
        if st = .active then s.markerFields p lane m else s)

/-- A marker is due on a lane (R62): on every data lane while the port negotiates and trains, on the lanes in use once it is
ACTIVE, and on LS while it is powered: in TRAIN, ALIGN or ACTIVE with a partner that has one (R51). -/
def State.markerDue (s : State) (p n : Nat) : Bool :=
  match (s.port p).st with
  | .negotiate => n < 16
  | .train | .align => n < 16 || (n == 16 && (s.port p).partnerLs)
  | .active => (n == 16 && (s.port p).partnerLs) || (n < 16 && s.flag (LNK_LSTAT_INUSE p n))
  | _ => false

/-- A marker is due and none arrives (R62). -/
def execMarkerMissing (p : Fin 4) (lane : Nat) (s : State) : Host.Outcome State Fault Refusal :=
  .next (if s.markerDue p lane then s.markerError p lane else s)

end Sys2Proof.Machine
end

