-- ==== Sys2Proof/Machine/Link.lean ====
section
/-! DEFINITION. The link protocol: slots gathered from the lanes (R50), flits received, acknowledgement and replay, INIT and the start of a link (R73-R80). -/

namespace Sys2Proof.Machine

/-! ### From lanes to flits (R49, R50, R63) -/

/-- The receive lane that carries slot `i` of the stream (R50, R60): logical lane `i` mod W of the group, on RXS where LS
carries it. -/
def State.rxLane (s : State) (p i : Nat) : Nat :=
  let l := (s.laneGroup p).2 + i % (s.laneGroup p).1
  if s.fld (LNK_STAT_LS_USE p) = l then 16 else s.physOf p l

/-- What a receive lane has delivered in this flit's time. -/
def laneSlots (ls : List LaneIn) (n : Nat) : List (List Byte) := ((ls.find? fun x => x.lane == n).map (·.slots)).getD []

/-- The codewords of a receive lane that could not be corrected in this flit's time. -/
def laneBad (fs : List LaneFec) (n : Nat) : Nat := ((fs.find? fun x => x.lane == n).map (·.bad)).getD 0

/-- The eight slots of a flit, gathered by logical lane number (R50, R63): the slot `j` is the next one of its lane. -/
def State.gatherFlit (s : State) (p : Nat) (ls : List LaneIn) : List Byte :=
  ((List.range 8).map fun j =>
    sliceB ((laneSlots ls (s.rxLane p ((s.port p).rxSlot + j))).getD (j / (s.laneGroup p).1) []) 0 32).flatten

/-- No codeword that carried part of the flit was uncorrectable (R74). -/
def State.fecOk (s : State) (p : Nat) (fs : List LaneFec) : Bool :=
  (List.range 8).all fun j => laneBad fs (s.rxLane p ((s.port p).rxSlot + j)) == 0

/-- The forward error correction of each lane counts what it corrected and what it could not (R49, R71); YXL-1 has none, and
counts its block errors alone. Eight slots have gone by. (DESIGN CHOICE, log entry 128) -/
def State.countFec (s : State) (p : Nat) (fs : List LaneFec) : State :=
  let s := (fs.filter fun x => x.lane < 17).foldl (fun s x =>
    (s.incFld (LNK_LFECC_COUNT p x.lane) (if (s.port p).gen ≤ 1 then 0 else x.fixed)).incFld (LNK_LFECU_COUNT p x.lane) x.bad) s
  s.modPort p fun t => { t with rxSlot := (t.rxSlot + 8) % 16 }

/-- What a closed lintel does with a flit's slots (R28, R65): each leaves by the transmit lane that its receive lane is
joined to. -/
def State.bypassLanes (s : State) (p : Nat) (ls : List LaneIn) : State :=
  ls.foldl (fun s x => s.bypass p x.lane x.slots.flatten) s

/-- A flit's slots arrive on port `p`: passed on by a closed lintel, lost where the port is not ACTIVE (R79), else gathered
into a flit, which `go` takes with whether its codewords were whole. -/
def State.onFlit (s : State) (p : Nat) (ls : List LaneIn) (fs : List LaneFec) (go : State → List Byte → Bool → State) : State :=
  match (s.port p).st with
  | .bypassed => s.bypassLanes p ls
  | .active => go (s.countFec p fs) (s.gatherFlit p ls) (s.fecOk p fs)
  | _ => s

/-! ### Flits -/

/-- A received flit is intact (R74): its length, its CRC, no uncorrectable codeword, no reserved FTYPE. -/
def flitOk (f : List Byte) (fecOk : Bool) : Bool :=
  f.length == 256 && fecOk && fieldB f 0 1 % 16 ≤ 2 && (crc32 (f.take 252)).toNat == fieldB f 252 4

/-- A failed flit is discarded whole and counted (R74). (DESIGN CHOICE, log entry 128) -/
def State.flitFailed (s : State) (p : Nat) : State := s.incFld (LTC_RETRY_FLITERR p) 1

/-- The flits of the replay buffer that ACK = n leaves: those after n, when n is one of them or stands before the first
(R75). -/
def ackReplay (r : List RFlit) (n : Nat) : List RFlit :=
  match r with
  | [] => []
  | f :: _ =>
    let d := (n + 4096 - f.seq) % 4096
    if d < r.length then r.drop (d + 1) else r

/-- The replay buffer is sent again, in order (R76). -/
def State.replayFrom (s : State) (p : Nat) : State :=
  (s.port p).replay.foldl (fun s f => s.txFlit p 1 f.first f.seq f.payload) s

/-- A port retrains because its retry is exhausted (R77): 0x0212 before 0x0202. -/
def State.retryExhausted (s : State) (p seq : Nat) (timeout : Bool) : State :=
  (s.post 0x0212 2 p (seq % 4096 + 4096 * b2n timeout)).leaveActive p 4

/-- A NAK asks for every flit from n + 1 (R76, R77). -/
def State.nakReceived (s : State) (p n : Nat) : State :=
  let t := s.port p
  let run := if t.nakSeq = n then t.nakRun + 1 else 1
  let s := (s.modPort p fun t => { t with nakSeq := n, nakRun := min run 16 }).incFld (LTC_RETRY_REPLAYS p) 1
  if run = 16 then s.retryExhausted p (n + 1) false else s.replayFrom p

/-- The ACK, NAK and credit fields of an intact flit (R73, R75). NAKs for one SEQ stay in a row until an ACK or a NAK names
another (R77). (DESIGN CHOICE, log entry 24) -/
def State.flitNews (s : State) (p : Nat) (f : List Byte) : State :=
  let n := fieldB f 1 3 / 4096
  let ty := fieldB f 4 1 % 4
  let cred := (List.range 6).map fun v => fieldB f (5 + v) 1
  let s := s.modPort p fun t => { t with
    txCred := List.zipWith (· + ·) t.txCred cred
    replay := if ty = 1 ∨ ty = 2 then ackReplay t.replay n else t.replay
    nakRun := if ty = 1 ∧ n ≠ t.nakSeq then 0 else t.nakRun }
  let s := if ty = 2 then s.nakReceived p n else s
  s.pump p

/-- The packets at the front of a byte stream that are whole (R80): a unit whose byte 0 is 0x00 at the start of a packet is
padding to the end of the flit. (DESIGN CHOICE, log entry 27) -/
def cutPackets : Nat → List Byte → List Pkt × List Byte
  | 0, bs => ([], bs)
  | fuel + 1, bs =>
    if bs.length < 16 then ([], bs)
    else if byteB bs 0 = 0#8 then ([], [])
    else
      let h := pktOfBytes (bs.take 16)
      let n := pktLen h
      let m := 16 * ceilDiv n 16
      if bs.length < m then ([], bs)
      else
        let r := cutPackets fuel (bs.drop m)
        (pktOfBytes (bs.take n) :: r.1, r.2)

/-- The payload of an accepted DATA flit enters the receive buffers (R80, R95). A port in the middle of no packet starts at
the unit FIRST names. (DESIGN CHOICE, log entry 27) -/
def State.takePayload (s : State) (p : Nat) (f : List Byte) : State :=
  let t := s.port p
  let first := fieldB f 0 1 / 16
  let pay := sliceB f 12 240
  let body := if t.part.isEmpty then (if first = 15 then [] else pay.drop (16 * first)) else t.part ++ pay
  let r := cutPackets 300 body
  let n := (r.1.map fun k => 16 + k.payload.length).sum
  (s.modPort p fun t => { t with rx := t.rx ++ r.1, part := r.2 }).add64 (LTC_RXBYTES_LO p) n

/-- A NAK leaves in an IDLE flit (R76). -/
def State.sendNak (s : State) (p : Nat) : State := (s.modPort p fun t => { t with nakDue := true }).txIdle p

/-- A DATA flit is discarded; the first discard sends one NAK (R76). -/
def State.discardData (s : State) (p : Nat) : State :=
  if (s.port p).nakOut then s else (s.modPort p fun t => { t with nakOut := true }).sendNak p

/-- A DATA flit (R76): accepted when intact, next in sequence and on a started link. (DESIGN CHOICE, log entry 128) -/
def State.dataFlit (s : State) (p : Nat) (flit : List Byte) (fecOk : Bool) : State :=
  let t := s.port p
  if flitOk flit fecOk = false then
    let s := s.flitFailed p
    if t.initRx then s.discardData p else s
  else if t.initRx = false then s
  else if fieldB flit 0 1 % 16 ≠ 1 then s.flitNews p flit
  else if fieldB flit 1 3 % 4096 = (t.rxSeq + 1) % 4096 then
    let s := s.modPort p fun t =>
      { t with rxSeq := (t.rxSeq + 1) % 4096, nakOut := false, nakDue := false, unacked := t.unacked + 1 }
    let s := (s.takePayload p flit).flitNews p flit
    if 32 ≤ (s.port p).unacked then s.txIdle p else s
  else (s.discardData p).flitNews p flit

/-- An IDLE flit: its ACK and credit fields apply (R75). -/
def State.idleFlitIn (s : State) (p : Nat) (flit : List Byte) (fecOk : Bool) : State :=
  if flitOk flit fecOk = false then s.flitFailed p
  else if (s.port p).initRx = false then s
  else s.flitNews p flit

/-- The slots of a DATA flit arrive (R50, R76). -/
def execDataFlitReceived (p : Fin 4) (lanes : List LaneIn) (fec : List LaneFec) (s : State) : Host.Outcome State Fault Refusal :=
  .next (s.onFlit p lanes fec fun s f ok => s.dataFlit p f ok)

/-- The slots of an IDLE flit arrive (R50, R75). -/
def execIdleFlitReceived (p : Fin 4) (lanes : List LaneIn) (fec : List LaneFec) (s : State) : Host.Outcome State Fault Refusal :=
  .next (s.onFlit p lanes fec fun s f ok => s.idleFlitIn p f ok)

/-- The expected flit has not arrived 2 µs after a NAK: it is repeated (R76). -/
def execNakRepeatTimer (p : Fin 4) (s : State) : Host.Outcome State Fault Refusal :=
  .next (
    let t := s.port p
    if t.st = .active ∧ t.nakOut then s.sendNak p else s)

/-- Accepted flits wait for an ACK: one is sent (R76). -/
def execAckTimer (p : Fin 4) (s : State) : Host.Outcome State Fault Refusal :=
  .next (
    let t := s.port p
    if t.st = .active ∧ 0 < t.unacked then s.txIdle p else s)

/-- An INIT flit leaves (R78); SEQ is the number of the next DATA flit, as in IDLE. (DESIGN CHOICE, log entry 135) -/
def State.sendInit (s : State) (p : Nat) : State := s.txFlit p 2 15 (s.port p).seq (s.initPayload p)

/-- An ACTIVE port sends an INIT flit each microsecond (R78). -/
def execInitTimer (p : Fin 4) (s : State) : Host.Outcome State Fault Refusal :=
  .next (if (s.port p).st = .active then s.sendInit p else s)

/-- A flit has waited 100 µs for its ACK (R77). -/
def execReplayTimeout (p : Fin 4) (s : State) : Host.Outcome State Fault Refusal :=
  .next (
    let t := s.port p
    match t.st, t.replay with
    | .active, f :: _ => s.retryExhausted p f.seq true
    | _, _ => s)

/-- The link may resume (R79), by the partner's INIT and this port's own state. (DEDUCED, log entry 25) -/
def State.mayResume (s : State) (p : Nat) (f : List Byte) : Bool :=
  let t := s.port p
  let ep := fieldB f 12 2
  let rx := fieldB f 20 2 % 4096
  t.haveLink && bitAt ep 15 && ep % 16384 == t.heldPartner && fieldB f 14 2 == t.heldEpoch &&
  fieldB f 16 2 % 16384 == s.me && fieldB f 18 2 == s.fld (LTC_PEPOCH_OWN p) &&
  (match t.replay with
   | [] => rx == (t.seq + 4095) % 4096
   | g :: _ => (rx + 1 + 4096 - g.seq) % 4096 ≤ t.replay.length)

/-- The packets of which a replay buffer holds a part (R79): those that begin in it, and the one that its first flit goes on
with. -/
def replayPackets (r : List RFlit) : Nat :=
  (r.map (·.npk)).sum + match r with | [] => 0 | f :: _ => b2n (f.first != 0)

/-- A fresh start (R79): the replay buffer is discarded and its packets counted, the epoch rises, SEQ is 0. The space of a
packet that had come in part is free again (R96). (DEDUCED, log entry 25) -/
def State.freshStart (s : State) (p : Nat) (f : List Byte) : State :=
  let lost := replayPackets (s.port p).replay
  let epoch := (s.fld (LTC_PEPOCH_OWN p) + 1) % 65536
  let s := s.modPort p fun t => { t with
    replay := [], seq := 0, rxSeq := 4095, part := [], nakOut := false, nakDue := false, nakRun := 0, unacked := 0
    ret := modAt t.ret t.partSlots.1 (· + t.partSlots.2)
    haveLink := true, heldPartner := fieldB f 12 2 % 16384, heldEpoch := (fieldB f 14 2 + 1) % 65536 }
  let s := ((s.setFld (LTC_PEPOCH_OWN p) epoch).setFld (LTC_NBR_RESUMED p) 0).incFld (LTC_LOST_DISCARD p) lost
  if lost = 0 then s else s.post 0x020B 2 p (min lost 65535 + 65536 * epoch)

/-- A resumption (R79): what the partner has not received is sent again. The credit is the partner's CRED as it stands, and
the flits sent again use none of it. (DESIGN CHOICE, log entry 135) -/
def State.resumeLink (s : State) (p : Nat) (f : List Byte) : State :=
  let s := (s.modPort p fun t => { t with replay := ackReplay t.replay (fieldB f 20 2 % 4096), nakRun := 0, nakOut := false, nakDue := false }).setFld
    (LTC_NBR_RESUMED p) 1
  s.replayFrom p

/-- What an INIT flit says of the partner: LTC_NBR_p, LTC_PEPOCH_p, and 0x020A and 0x020C where they hold (R78, R106,
R107). (DEDUCED, log entry 26) -/
def State.noteInit (s : State) (p : Nat) (f : List Byte) : State :=
  let ep := fieldB f 12 2
  let e := ep % 16384
  let cv := bitAt ep 14
  let kind := fieldB f 22 1 % 4
  let was := s.fld (LNK_STAT_PARTNER p)
  let onRing := if p < 2 then epY e == epY s.me else epX e == epX s.me
  let mis := cv && s.hasCoord && (!onRing || e == s.me)
  let old := s.flag (LTC_NBR_MISCONN p)
  let s := ((s.setFld (LTC_NBR_VALID p) 1).setFld (LTC_NBR_CVALID p) (b2n cv)).setFld (LTC_NBR_MISCONN p) (b2n mis)
  let s := ((s.setFld (LTC_NBR_PROTO p) (fieldB f 22 1 / 16)).setFld (LTC_NBR_KIND p) kind).setFld (LTC_NBR_ENDPOINT p) e
  let s := s.setFld (LTC_PEPOCH_PARTNER p) (fieldB f 14 2)
  let s := if kind = 2 ∧ was ≠ 2 then (s.setFld (LNK_STAT_PARTNER p) 2).post 0x020A 0 p 0 else s
  if mis && !old then s.post 0x020C 2 p e else s

/-- A later INIT of a partner that holds link state with this port gives the epoch that state belongs to (R78).
(DEDUCED, log entry 25) -/
def State.noteHeld (s : State) (p : Nat) (f : List Byte) : State :=
  if bitAt (fieldB f 12 2) 15 ∧ fieldB f 16 2 % 16384 = s.me ∧ fieldB f 18 2 = s.fld (LTC_PEPOCH_OWN p) then
    s.modPort p fun t => { t with heldPartner := fieldB f 12 2 % 16384, heldEpoch := fieldB f 14 2 }
  else s

/-- An INIT that a partner sends after it has reset (R79): it names no link state that this port shares, and its epoch is
neither the one held nor the one from before this start. (DEDUCED, log entry 26) -/
def State.partnerReset (s : State) (p : Nat) (f : List Byte) : Bool :=
  let ours := bitAt (fieldB f 12 2) 15 && fieldB f 16 2 % 16384 == s.me && fieldB f 18 2 == s.fld (LTC_PEPOCH_OWN p)
  !ours && fieldB f 14 2 != (s.port p).heldEpoch && (fieldB f 14 2 + 1) % 65536 != (s.port p).heldEpoch

/-- The link starts on the partner's INIT (R79): it resumes or is fresh, and the credits are the partner's. -/
def State.startLink (s : State) (p : Nat) (f : List Byte) : State :=
  let s := if !(s.port p).initRx && s.mayResume p f then s.resumeLink p f else s.freshStart p f
  let cred := (List.range 6).map fun v => fieldB f (24 + 2 * v) 2
  (s.modPort p fun t => { t with initRx := true, rstHold := false, txCred := cred }).pump p

/-- The partner's INIT (R79): the first since the port entered ACTIVE decides whether the link resumes; a later one that the
partner sends after a reset starts it afresh. (DEDUCED, log entry 26) -/
def State.initFlit (s : State) (p : Nat) (flit : List Byte) (fecOk : Bool) : State :=
  let t := s.port p
  if flitOk flit fecOk = false then s.flitFailed p
  else if fieldB flit 0 1 % 16 ≠ 2 then (if t.initRx then s.flitNews p flit else s)
  else
    let s := s.noteInit p flit
    if t.initRx && !s.partnerReset p flit then (s.noteHeld p flit).flitNews p flit
    else s.startLink p flit

/-- The slots of an INIT flit arrive (R50, R79). -/
def execInitFlitReceived (p : Fin 4) (lanes : List LaneIn) (fec : List LaneFec) (s : State) : Host.Outcome State Fault Refusal :=
  .next (s.onFlit p lanes fec fun s f ok => s.initFlit p f ok)

end Sys2Proof.Machine
end

