-- ==== Sys2Proof/Machine/Ranges.lean ====
section
/-! DEFINITION. Sets of page and unit numbers as rising, disjoint ranges of start and length. -/

namespace Sys2Proof.Machine

def rmem : Rng → Nat → Bool
  | [], _ => false
  | (a, n) :: t, k => (a ≤ k && k < a + n) || rmem t k

/-- The count of the numbers in a set. -/
def rcount : Rng → Nat
  | [] => 0
  | (_, n) :: t => n + rcount t

/-- A set without the numbers of a range. -/
def rdelRange : Rng → Nat → Nat → Rng
  | [], _, _ => []
  | (a, n) :: t, lo, m =>
    let left := if a < lo then [(a, min n (lo - a))] else []
    let right := if lo + m < a + n then [(max a (lo + m), a + n - max a (lo + m))] else []
    (if a + n ≤ lo ∨ lo + m ≤ a then [(a, n)] else left ++ right) ++ rdelRange t lo m

/-- A range put into a set that holds none of it, in order, joined to its neighbours. -/
def rputRange : Rng → Nat → Nat → Rng
  | [], lo, m => [(lo, m)]
  | (a, n) :: t, lo, m =>
    if lo + m < a then (lo, m) :: (a, n) :: t
    else if lo + m = a then (lo, m + n) :: t
    else if a + n = lo then rputRange t a (n + m)
    else (a, n) :: rputRange t lo m

def raddRange (r : Rng) (lo m : Nat) : Rng := if m = 0 then r else rputRange (rdelRange r lo m) lo m

def radd (r : Rng) (k : Nat) : Rng := if rmem r k then r else rputRange r k 1

def rdel (r : Rng) (k : Nat) : Rng := rdelRange r k 1

/-- The first number of a set from `k` up that satisfies a test; at most `fuel` numbers are tried. -/
def rnextFrom : Nat → Rng → Nat → (Nat → Bool) → Option Nat
  | 0, _, _, _ => none
  | _, [], _, _ => none
  | fuel + 1, (a, n) :: t, k, p =>
    if a + n ≤ k then rnextFrom fuel t k p
    else
      let x := max a k
      if p x then some x else rnextFrom fuel ((a, n) :: t) (x + 1) p

/-- The union of two sets. -/
def runion (a b : Rng) : Rng := b.foldl (fun r x => raddRange r x.1 x.2) a

/-- The numbers of a set that another does not hold. -/
def rdiff (a b : Rng) : Rng := b.foldl (fun r x => rdelRange r x.1 x.2) a

/-- The numbers of a set below a bound on their count. -/
def rlist : Nat → Rng → List Nat
  | 0, _ => []
  | _, [] => []
  | fuel + 1, (a, n) :: t => if n = 0 then rlist fuel t else a :: rlist fuel ((a + 1, n - 1) :: t)

end Sys2Proof.Machine
end

