-- ==== Sys2Proof/Machine/Memory.lean ====
section
/-! DEFINITION. DRAM: the decode of a local address (R140), bytes and granules, poison, and the keep version of a granule
(R241, R266, R307). -/

namespace Sys2Proof.Machine

/-! ### Address decode (R140) -/

/-- The fold of the upper address bits that enters the channel number. -/
def addrFold (a : Nat) : Nat :=
  getBits a 17 13 ^^^ getBits a 22 18 ^^^ getBits a 27 23 ^^^ getBits a 32 28 ^^^ getBits a 36 33

/-- A location in DRAM. -/
structure Loc where
  ch : Nat
  pc : Nat
  bank : Nat
  row : Nat
  gran : Nat
  byte : Nat
deriving DecidableEq, Repr

/-- decode() of R140. -/
def decodeAddr (a : Nat) : Loc where
  ch := getBits a 12 8 ^^^ addrFold a
  pc := getBits a 13 13
  bank := 4 * (getBits a 17 16 ^^^ getBits a 21 20) + (getBits a 19 18 ^^^ getBits a 23 22)
  row := getBits a 36 20
  gran := 4 * getBits a 15 14 + getBits a 7 6
  byte := getBits a 5 0

/-- encode() of R140. -/
def encodeAddr (l : Loc) : Nat :=
  let w := l.row * 128 + (getBits l.bank 1 0 ^^^ getBits l.row 3 2) * 32 +
    (getBits l.bank 3 2 ^^^ getBits l.row 1 0) * 8 + getBits l.gran 3 2 * 2 + l.pc
  let h := getBits w 4 0 ^^^ getBits w 9 5 ^^^ getBits w 14 10 ^^^ getBits w 19 15 ^^^ getBits w 23 20
  w * 8192 + (l.ch ^^^ h) * 256 + getBits l.gran 1 0 * 64 + l.byte

/-- The DRAM addresses: 96 GiB (R10). -/
def dramEnd : Nat := 0x1800000000

/-! ### Bytes and granules -/

/-- A byte of memory: an address without an entry reads 0. (DESIGN CHOICE, log entry 5) -/
def mget (m : List Host.Cell) (a : Nat) : Byte := tgetD m a 0

/-- A byte written: an entry that reads as an unlisted address does is removed. (DESIGN CHOICE, log entry 5) -/
def mset (m : List Host.Cell) (a : Nat) (b : Byte) : List Host.Cell := if b = 0 then tdel m a else tset m a b

/-- The canonical form of memory: addresses rise strictly and no entry is 0.
(DESIGN CHOICE, log entry 5; DESIGN CHOICE, log entry 12) -/
def Memory.wf (m : List Host.Cell) : Bool := tsorted m && m.all fun c => c.2 != 0

/-- Bytes written from an address up. -/
def mput : List Host.Cell → Nat → List Byte → List Host.Cell
  | m, _, [] => m
  | m, a, b :: bs => mput (mset m a b) (a + 1) bs

/-- Bytes written where a mask bit is set; bit 0 belongs to the first. -/
def mputMask : List Host.Cell → Nat → Nat → List Byte → List Host.Cell
  | m, _, _, [] => m
  | m, a, k, b :: bs => mputMask (if k % 2 = 1 then mset m a b else m) (a + 1) (k / 2) bs

/-- The `n` bytes at an address. -/
def mread (m : List Host.Cell) (a n : Nat) : List Byte := (List.range n).map fun i => mget m (a + i)

/-- The entries of a range, as offsets from its start. -/
def mcut (m : List Host.Cell) (a n : Nat) : List Host.Cell := (trange m a n).map fun c => (c.1 - a, c.2)

/-- A range replaced by entries given as offsets from its start. -/
def mpaste (m : List Host.Cell) (a n : Nat) (cs : List Host.Cell) : List Host.Cell :=
  cs.foldl (fun m c => mset m (a + c.1) c.2) (tdelRange m a n)

/-- The 64 bytes of a granule. -/
def State.granData (s : State) (g : Nat) : List Byte := mread s.dram.mem (64 * g) 64

def State.poisoned (s : State) (g : Nat) : Bool := s.dram.poison.contains g

/-- A granule poisoned: its data symbols are written as zeros (R303). -/
def State.poisonGran (s : State) (g : Nat) : State :=
  { s with dram := { mem := mput s.dram.mem (64 * g) (List.replicate 64 0), poison := sins s.dram.poison g } }

/-- A whole granule written: its poison is cleared (R87). -/
def State.putGran (s : State) (g : Nat) (bs : List Byte) : State :=
  { s with dram := { mem := mput s.dram.mem (64 * g) (sliceB bs 0 64), poison := sdel s.dram.poison g } }

/-- Some bytes of a granule that is not poisoned written. -/
def State.putMasked (s : State) (g mask : Nat) (bs : List Byte) : State :=
  { s with dram := { s.dram with mem := mputMask s.dram.mem (64 * g) mask (sliceB bs 0 64) } }

def fullMask : Nat := 2 ^ 64 - 1

def pageOf (a : Nat) : Nat := a / 4096

/-- The keep course that homes a page (R18) and its index there (R240). -/
def homeOf (page : Nat) : Nat := page % 2
def indexOf (page : Nat) : Nat := page / 2

/-- The restore unit of a page (R264). -/
def unitOfPage (page : Nat) : Nat := page / 16

def allPages : Nat := 25165824
def allUnits : Nat := 1572864

/-! ### Keys (R266-R268) -/

def ascii (s : List Nat) : List Byte := s.map (BitVec.ofNat 8)

/-- derive() of R267: the data key, the tweak key and the check value. -/
def derive (secret share epoch policy : Nat) : Nat × Nat × Nat :=
  let sh := if policy = 0 then 0 else share
  let m := leBytes 32 secret ++ leBytes 32 sh ++ leBytes 4 epoch
  let k1 := Config.sha384 (m ++ ascii [0x58, 0x54, 0x53, 0x2D, 0x4B, 0x31]) % 2 ^ 256
  let k2 := Config.sha384 (m ++ ascii [0x58, 0x54, 0x53, 0x2D, 0x4B, 0x32]) % 2 ^ 256
  let chk := Config.sha384 (leBytes 32 k1 ++ leBytes 32 k2 ++ ascii [0x43, 0x48, 0x45, 0x43, 0x4B]) % 2 ^ 64
  (k1, k2, chk)

/-- The current epoch: the newest of the key-wrap record. -/
def Keep.epoch (k : Keep) : Epoch := k.epochs.headD { num := 0, policy := 0, chk := 0 }

/-- The key pair of an epoch, if it can be derived: the device secret, and under POLICY 1 its share. -/
def Keep.keyOf (k : Keep) (e : Epoch) : Option (Nat × Nat) :=
  match k.secret with
  | none => none
  | some sec =>
    if e.policy = 0 then some ((derive sec 0 e.num 0).1, (derive sec 0 e.num 0).2.1)
    else match tget k.shares e.num with
      | none => none
      | some sh => some ((derive sec sh e.num 1).1, (derive sec sh e.num 1).2.1)

/-- A key is held for the current epoch. -/
def Keep.keyHeld (k : Keep) : Bool := (k.keyOf k.epoch).isSome

/-- The key pair of the epoch with a number. -/
def Keep.keyNum (k : Keep) (n : Nat) : Option (Nat × Nat) :=
  match k.epochs.find? fun e => e.num == n with
  | none => none
  | some e => k.keyOf e

/-! ### The keep version of a page -/

def Keep.course (k : Keep) (c : Nat) : Course := k.courses.getD c {}

def State.modCourse (s : State) (c : Nat) (f : Course → Course) : State :=
  { s with keep := { s.keep with courses := modAt s.keep.courses c f } }

def State.modKeep (s : State) (f : Keep → Keep) : State := { s with keep := f s.keep }

/-! ### Records of the reserved area (R20) -/

/-- Of the copies that pass their check, the one with the higher sequence (R20); K0's of two that are equal. -/
def pickCopy {α : Type} (seq : α → Nat) (a b : Option α) : Option α :=
  match a, b with
  | some x, some y => if seq x < seq y then some y else some x
  | some x, none => some x
  | none, b => b

/-- What a course's reserved area reads as: nothing where the course is fenced. -/
def State.courseCopy {α : Type} (s : State) (k : Nat) (read : Course → Option α) : Option α :=
  if (s.keep.course k).fenced then none else read (s.keep.course k)

/-- A record is written into the reserved area of K0 and then of K1 (R20); a fenced course takes no copy. -/
def State.writeCopies (s : State) (f : Course → Course) : State :=
  (List.range 2).foldl (fun s k => if (s.keep.course k).fenced then s else s.modCourse k f) s

/-- The key-wrap record chosen under R20. (DESIGN CHOICE, log entry 137) -/
def State.wrapChosen (s : State) : List Epoch :=
  let read := fun (c : Course) => if c.wrapOk then some c.wrap else none
  ((pickCopy Prod.fst (s.courseCopy 0 read) (s.courseCopy 1 read)).getD (0, [])).2

/-! ### Maps -/

/-- Map entry I of a map: an index without an entry has SLOT = I, ZERO = 1 (R242). -/
def mapAt (m : Tab MapEnt) (i : Nat) : MapEnt := tgetD m i { slot := i }

/-- What the keep version in force holds of a page: none where its slot does not name the page. The bytes are the page's
entries that are not 0, the mask its poisoned granules. -/
def Keep.version (k : Keep) (page : Nat) : Option (List Host.Cell × Nat) :=
  let c := k.course (homeOf page)
  let e := mapAt c.cur (indexOf page)
  if e.zero then some ([], if e.poison then fullMask else 0)
  else match tget c.slots e.slot with
    | none => none
    | some v =>
      if v.index ≠ indexOf page then none
      else if k.keyNum v.epoch = some v.key then some (v.data, v.mask)
      else some ((List.range 4096).filterMap (fun i =>
        let b := Config.garble (v.key.1 + v.key.2 + page) i
        if b = 0 then none else some (i, b)), v.mask)

/-- A page is dirty under R3: its bit is set, or a copy of it is in flight (R243). -/
def Keep.isDirty (k : Keep) (page : Nat) : Bool := rmem k.dirty page || k.copies.any fun c => c.page == page

/-- The keep can give a page's version back: its course is in service and a key is held. -/
def Keep.covers (k : Keep) (page : Nat) : Bool := !(k.course (homeOf page)).fenced && k.keyHeld

/-- A page is recoverable (before R307). -/
def Keep.recoverable (k : Keep) (page : Nat) : Bool := !k.isDirty page && k.covers page

/-- A granule's page is not dirty under R3. -/
def State.clean (s : State) (g : Nat) : Bool := !s.keep.isDirty (g / 64)

/-- The dirty pages under R243. -/
def Keep.dirtyCount (k : Keep) : Nat :=
  rcount k.dirty + (k.copies.filter fun c => !rmem k.dirty c.page).length

/-- A page's bit is set (R243). -/
def State.markDirty (s : State) (page : Nat) : State := s.modKeep fun k => { k with dirty := radd k.dirty page }

/-- A restore is under way that has not restored a page's unit: requests to it are held (R264). -/
def State.unrestored (s : State) (page : Nat) : Bool :=
  s.dev == .restoring && !rmem s.keep.restored (unitOfPage page)

end Sys2Proof.Machine
end

