-- ==== Sys2Proof/Machine/Code.lean ====
section
/-! DEFINITION. The codes that the stack stores: the Reed-Solomon code of a granule (R301, R303) and the keep-bus code (R319). A
command gives the symbols that a read meets in error (R302) or says that a keep access failed; these definitions say what the code
words are. -/

namespace Sys2Proof.Machine

/-! ### GF(2^16) (R301) -/

/-- A field element times α, with x^16 + x^12 + x^3 + x + 1. -/
def gfStep (a : Nat) : Nat := if 32768 ≤ a then (2 * a) ^^^ 0x1100B else 2 * a

/-- The product of two field elements. -/
def gfMul (a b : Nat) : Nat :=
  (List.range 16).foldl (fun r i => if b.testBit (15 - i) then gfStep r ^^^ a else gfStep r) 0

/-- A power of α. -/
def gfPow : Nat → Nat
  | 0 => 1
  | n + 1 => gfStep (gfPow n)

/-- The generator, with the roots α^0 to α^7: its coefficients from x^8 down to x^0. -/
def rsGen : List Nat :=
  (List.range 8).foldl (fun g i => List.zipWith (· ^^^ ·) (g ++ [0]) (0 :: g.map (gfMul (gfPow i)))) [1]

/-- The eight check symbols of a message: the remainder of its division by the generator. -/
def rsCheck (msg : List Nat) : List Nat :=
  msg.foldl (fun r m =>
    let f := m ^^^ r.headD 0
    List.zipWith (· ^^^ ·) (r.tail ++ [0]) ((rsGen.drop 1).map (gfMul f))) (List.replicate 8 0)

/-- The value of a word at α^j: the code words are those with the value 0 at the eight roots. -/
def rsSyndrome (word : List Nat) (j : Nat) : Nat := word.foldl (fun a c => gfMul a (gfPow j) ^^^ c) 0

/-! ### The symbols of a granule (R301, R303) -/

/-- Symbols 0 to 31: symbol `k` is what data pin `k` carries in beats 0 to 15. A beat carries four bytes in address order.
(DESIGN CHOICE, log entry 161) -/
def dataSyms (bs : List Byte) : List Nat :=
  (List.range 32).map fun k => ((List.range 16).map fun j => 2 ^ j * b2n ((bs.getD (4 * j + k / 8) 0).getLsbD (k % 8))).sum

/-- Symbols 40 and 41, which are never stored: the granule's address. -/
def addrSyms (g : Nat) : List Nat := [g % 65536, g / 65536 % 32768]

/-- Symbols 32 to 39. (DESIGN CHOICE, log entry 161) -/
def checkSyms (g : Nat) (bs : List Byte) : List Nat := rsCheck (dataSyms bs ++ addrSyms g)

/-- The code word of a granule's data, its symbols in the order data, address, check. (DESIGN CHOICE, log entry 161) -/
def rsWord (g : Nat) (bs : List Byte) : List Nat := dataSyms bs ++ addrSyms g ++ checkSyms g bs

/-- The 40 symbols that the cells of a granule hold (R301): of a poisoned granule those of zeros exclusive-ORed with the fixed
pattern (R303). -/
def State.storedSyms (s : State) (g : Nat) : List Nat :=
  let bs := s.granData g
  let ws := dataSyms bs ++ checkSyms g bs
  if s.poisoned g then ws.zipIdx.map fun x => x.1 ^^^ Config.poisonSym x.2 % 65536 else ws

/-! ### The keep-bus code (R319) -/

/-- What the keep-bus code makes of a beat of 128 data bits and 16 check bits: it delivers the data, or finds the beat
uncorrectable. -/
inductive KeepBeat where
  | good | bad
deriving DecidableEq, Repr

/-- The keep-bus code corrects one failed TSV and detects two: of the failed TSVs of a beat, those that repair left carried by the
code count (R319). Beyond two the manual states no bound: such a beat is taken as detected. (DESIGN CHOICE, log entry 162) -/
def keepBeat (coded failed : Nat) : KeepBeat := if coded + failed ≤ 1 then .good else .bad

end Sys2Proof.Machine
end

