-- ==== Sys2Proof/Machine/Integrity.lean ====
section
/-! DEFINITION. The granule code, the correctable log, uncorrectable granules and the repairs in force (R301-R322). -/

namespace Sys2Proof.Machine

/-! ### Repairs in force (R314-R318) -/

def wKind (w : Nat) : Nat := w / 2 ^ 29
def wChan (w : Nat) : Nat := getBits w 28 24
def wPin (w : Nat) : Nat := getBits w 23 17
def wStby (w : Nat) : Nat := getBits w 16 10

/-- The words of one kind that are in force. -/
def State.words (s : State) (kind : Nat) : List Nat :=
  ((s.intg.repairs.filter (·.live)).map (·.word)).filter fun w => wKind w == kind

/-- The words of one kind, those whose switch waits for a boundary among them (R316). -/
def State.allWords (s : State) (kind : Nat) : List Nat := (s.intg.repairs.map (·.word)).filter fun w => wKind w == kind

/-- A data or check pin's pseudo-channel (R166). -/
def pinPc (pin : Nat) : Nat := pin / 40

/-- The pins of a pseudo-channel that the code carries (R302, R314). -/
def State.erasedPins (s : State) (c pc : Nat) : List Nat :=
  ((s.words 2).filter fun w => wChan w == c && wPin w < 80 && pinPc (wPin w) == pc && wStby w == 0x7F).map wPin

/-- The erased pins of a pseudo-channel, *e* (R302). (DEDUCED, log entry 106) -/
def State.erasures (s : State) (c pc : Nat) : Nat := (s.erasedPins c pc).length

/-- A standby pin of a channel is taken: it carries a pin, or it has failed itself (R368). -/
def State.stbyTaken (s : State) (c x : Nat) : Bool :=
  (s.allWords 2).any fun w => wChan w == c && (wStby w == x || (wPin w == x && wStby w == 0x7F))

/-- The standby pins of a pseudo-channel in use. -/
def State.stbyUsed (s : State) (c pc : Nat) : Nat :=
  ([80 + 2 * pc, 81 + 2 * pc].filter fun x => s.stbyTaken c x).length

/-- The command and clock standby TSVs in use. -/
def State.cmdStby (s : State) (c : Nat) : Nat := ([108, 109, 110, 111].filter fun x => s.stbyTaken c x).length

/-- A command, address, clock or strobe TSV without a standby fences its channel (R314). -/
def State.chanFenced (s : State) (c : Nat) : Bool :=
  (s.words 2).any fun w => wChan w == c && 84 ≤ wPin w && !(108 ≤ wPin w && wPin w ≤ 111) && wStby w == 0x7F

/-- A fifth erasure fences a pseudo-channel (R318). (DEDUCED, log entry 106) -/
def State.pcFenced (s : State) (c pc : Nat) : Bool := s.chanFenced c || 5 ≤ s.erasures c pc

/-- Degraded: two to four erasures (R316). (DEDUCED, log entry 106) -/
def State.degraded (s : State) (c pc : Nat) : Bool := 2 ≤ s.erasures c pc

/-- The row repair word of a row (R318). -/
def rowWord (kind c pc bank row : Nat) : Nat := kind * 2 ^ 29 + c * 2 ^ 24 + pc * 2 ^ 23 + bank * 2 ^ 19 + row * 4

def State.rowFenced (s : State) (l : Loc) : Bool :=
  s.intg.repairs.any fun r => r.word == rowWord 4 l.ch l.pc l.bank l.row

/-- A granule lies in a fenced unit (R317). -/
def State.fencedGran (s : State) (g : Nat) : Bool :=
  let l := decodeAddr (64 * g)
  s.pcFenced l.ch l.pc || s.rowFenced l

/-! ### Tests that firmware asks for (R313) -/

/-- A target word of R361 for a row and for a pin. -/
def rowTarget (l : Loc) : Nat := 2 ^ 28 + l.ch * 2 ^ 23 + l.pc * 2 ^ 22 + l.bank * 2 ^ 18 + l.row
def pinTarget (c pin : Nat) : Nat := 2 * 2 ^ 28 + c * 2 ^ 23 + pin

/-- A log entry that a test of a target covers (R313): an entry of the row, or one with the pin's symbol in its
pseudo-channel. -/
def State.celogCovered (s : State) (target n : Nat) : Bool :=
  let l := decodeAddr (64 * s.fld (INT_CELOG_A_GADDR n))
  let pin := target % 128
  s.flag (INT_CELOG_A_VALID n) &&
  (if target / 2 ^ 28 = 1 then rowTarget l == target
   else target / 2 ^ 28 == 2 && pin < 80 && l.ch == getBits target 27 23 && l.pc == pin / 40 &&
    (s.fld (INT_CELOG_B_SYM n) == pin % 40 || s.fld (INT_CELOG_B_SYM2 n) == pin % 40))

/-- Targets that wait join the slicer's queue of 16 as it has room (R370). -/
def State.fillTests (s : State) : State :=
  let n := 16 - s.bst.queue.length
  { s with
    bst := { s.bst with queue := s.bst.queue ++ (s.intg.tests.take n).map fun (t : Nat) => (t, 1, none) }
    intg := { s.intg with tests := s.intg.tests.drop n } }

/-- A target is queued, waits to be, or is being tested at firmware's request. -/
def State.testQueued (s : State) (target : Nat) : Bool :=
  s.intg.tests.contains target || s.bst.queue.any fun x => x.1 == target

/-- Loesh firmware asks for a targeted self-test and posts 0x0680 (R313). A target already queued is not queued twice
(R370). UNIT holds the channel, or 0x20 + k for a keep-bus TSV. -/
def State.requestTest (s : State) (kind target : Nat) : State :=
  let s := (List.range 64).foldl (fun s n => if s.celogCovered target n then s.setFld (INT_CELOG_B_TESTED n) 1 else s) s
  if s.testQueued target then s
  else
    let unit := if target / 2 ^ 28 = 3 then 0x20 + target / 256 % 2 else getBits target 27 23
    ({ s with intg := { s.intg with tests := s.intg.tests ++ [target] } }.fillTests).post 0x0680 0 unit
      (kind + 256 * (target % 2 ^ 24))

/-! ### The correctable log (R306) -/

/-- The log entry of a granule address. -/
def State.celogOf (s : State) (g : Nat) : Option Nat :=
  (List.range 64).find? fun n => s.flag (INT_CELOG_A_VALID n) && s.fld (INT_CELOG_A_GADDR n) == g

def State.celogFree (s : State) : Option Nat := (List.range 64).find? fun n => !s.flag (INT_CELOG_A_VALID n)

def State.msNow (s : State) : Nat := s.ks.time / 1000000 % 2 ^ 32

/-- A CORRECTED outcome (R305, R306, R313): counted, logged, and tests asked for. `scrub` says the repointer met it.
(DEDUCED, log entry 102) -/
def State.corrected (s : State) (g master : Nat) (syms : List Nat) (scrub : Bool) : State :=
  let l := decodeAddr (64 * g)
  let s := (s.add64 INT_CECNT_LO 1).incFld (INT_CH_CE_COUNT l.ch) 1
  let s := match s.celogOf g with
    | some n =>
      ((s.incFld (INT_CELOG_B_COUNT n) 1).setFld (INT_CELOG_B_NSYM n) (max (s.fld (INT_CELOG_B_NSYM n)) syms.length)).setFld
        (INT_CELOG_L_LAST_MS n) s.msNow
    | none =>
      match s.celogFree with
      | some n =>
        let s := s.setReg (INT_CELOG_A n) (2 ^ 31 + g)
        let s := ((s.setFld (INT_CELOG_B_COUNT n) 1).setFld (INT_CELOG_B_SYM n) (syms.getD 0 0)).setFld
          (INT_CELOG_B_SYM2 n) (syms.getD 1 0x3F)
        let s := ((s.setFld (INT_CELOG_B_NSYM n) syms.length).setFld (INT_CELOG_B_MASTER n) master).setFld
          (INT_CELOG_B_SCRUB n) (b2n scrub)
        ((s.setFld (INT_CELOG_B_TESTED n) 0).setReg (INT_CELOG_F n) s.msNow).setReg (INT_CELOG_L n) s.msNow
      | none =>
        let s := s.incFld INT_CELOG_OVF_COUNT 1
        if s.intg.ovfPosted then s
        else ({ s with intg := { s.intg with ovfPosted := true } }).post 0x0301 1 0xFF (s.fld INT_CELOG_OVF_COUNT)
  -- the tests of R313
  let s := match s.celogOf g with
    | some n =>
      if max 1 (s.fld INT_CTL_CETHRESH) ≤ s.fld (INT_CELOG_B_COUNT n) then s.requestTest 0 (rowTarget l) else s
    | none => s
  let s := if 2 ≤ syms.length then
      (syms.take 2).foldl (fun s k => if k < 40 then s.requestTest 1 (pinTarget l.ch (40 * l.pc + k)) else s)
        (s.requestTest 1 (rowTarget l))
    else s
  let share := fun (k : Nat) => ((List.range 64).filter fun n =>
    let m := decodeAddr (64 * s.fld (INT_CELOG_A_GADDR n))
    s.flag (INT_CELOG_A_VALID n) && m.ch == l.ch && m.pc == l.pc &&
      (s.fld (INT_CELOG_B_SYM n) == k || s.fld (INT_CELOG_B_SYM2 n) == k)).length
  syms.foldl (fun s k =>
    if k < 40 ∧ max 1 (s.fld INT_CTL_PINTHRESH) ≤ share k then s.requestTest 2 (pinTarget l.ch (40 * l.pc + k)) else s) s

/-! ### Decoding (R302-R304) -/

/-- The outcomes of a decode; `wild` is a pattern beyond R302 that the decoder miscorrects. -/
inductive Decoded where
  | clean | corrected (syms : List Nat) | uncorrectable (named : List Nat) | wild
deriving DecidableEq, Repr

/-- What the code guarantees for `n` symbols in error beside `e` erased pins (R302): the corrected and the detected
counts. (DEDUCED, log entry 101) -/
def codeBounds (e : Nat) : Nat × Nat := if e = 0 then (2, 6) else if e = 1 then (2, 5) else (0, 8 - e)

/-- The decode of a granule whose read met `syms` in error; what an erased pin carries is none. Beyond the guarantees the manual
states no bound: a free value says whether it is detected. (DEDUCED, log entry 101) -/
def State.decodeSyms (s : State) (l : Loc) (syms : List Nat) : Decoded :=
  let e := s.erasures l.ch l.pc
  let syms := syms.filter fun k => !(s.erasedPins l.ch l.pc).contains (40 * l.pc + k)
  let n := syms.dedup.length
  if n = 0 then .clean
  else if n ≤ (codeBounds e).1 then .corrected syms.dedup
  else if n ≤ (codeBounds e).2 ∨ s.free % 2 = 0 then .uncorrectable (if e + n ≤ 8 then syms.dedup else [])
  else .wild

/-- What a read of a granule gives. -/
inductive GranRead where
  | data (bs : List Byte)
  | poison
  | wait
deriving DecidableEq, Repr

/-- What a command says a granule's read meets in the cells. (DEDUCED, log entry 101) -/
def obsOf (obs : List CellObs) (g : Nat) : CellObs :=
  (obs.find? fun o => o.granule == g).getD { granule := g, syms := [], addrErr := false, repeatOk := true }

/-- INT_UELAST and INT_UEINFO of an UNCORRECTABLE outcome. -/
def State.noteUe (s : State) (g master : Nat) (misdir poisoned recovered : Bool) : State :=
  (s.setReg INT_UELAST (2 ^ 31 + g)).setReg INT_UEINFO
    (master % 8 + 8 * b2n recovered + 16 * b2n poisoned + 32 * b2n misdir)

/-- A granule poisoned because it cannot be recovered (R307); the page whose contents that changes is dirty (R3, R243). -/
def State.poisonUe (s : State) (g : Nat) : State :=
  (((if s.poisoned g then s else s.markDirty (g / 64)).poisonGran g).incFld INT_POISCNT_COUNT 1).post 0x0303 2 (decodeAddr (64 * g)).ch g

/-- 0x0302, at most 100 per channel in a second: the second runs from the first of them after the last one ended.
(DESIGN CHOICE, log entry 153) -/
def State.postRecovered (s : State) (g : Nat) : State :=
  let ch := (decodeAddr (64 * g)).ch
  let w := tgetD s.intg.recovWin ch (s.clock, 0)
  let w := if w.1 + 10 ^ 9 ≤ s.clock then (s.clock, 0) else w
  let s := { s with intg := { s.intg with recovWin := tset s.intg.recovWin ch (w.1, w.2 + 1) } }
  if w.2 < 100 then s.post 0x0302 0 ch g else s

/-- The granule of a keep version: its bytes, or poison. -/
def verGran (v : List Host.Cell × Nat) (k : Nat) : GranRead :=
  if bitAt v.2 k then .poison else .data (mread v.1 (64 * k) 64)

/-- A granule of a fenced unit is resolved each time as if it had been UNCORRECTABLE, and nothing is written (R317); a save
recovers nothing (R309). -/
def State.readFenced (s : State) (g : Nat) : GranRead :=
  let page := g / 64
  if s.dev ≠ .saving ∧ s.keep.recoverable page then
    match s.keep.version page with
    | some v => verGran v (g % 64)
    | none => .poison
  else .poison

/-- An UNCORRECTABLE outcome is counted, and tests are asked for (R305, R313). (DEDUCED, log entry 102) -/
def State.ueCounted (s : State) (g : Nat) (named : List Nat) : State :=
  let l := decodeAddr (64 * g)
  let s := (s.incFld INT_UECNT_COUNT 1).incFld (INT_CH_UE_COUNT l.ch) 1
  named.foldl (fun s k => if k < 40 then s.requestTest 4 (pinTarget l.ch (40 * l.pc + k)) else s)
    (s.requestTest 4 (rowTarget l))

/-- The UNCORRECTABLE outcome of a read (R307, R309): counted, and resolved: a recovery begins when the page is recoverable,
otherwise the granule is poisoned. In SAVING nothing is written and the reader sees poison. `clean` says that the page is not
dirty, of a write that it was not when the write was admitted (R308). (DEDUCED, log entry 102) -/
def State.uncorrectable (s : State) (g master : Nat) (named : List Nat) (misdir clean : Bool) : State × GranRead :=
  let s := s.ueCounted g named
  if s.dev = .saving then (s.noteUe g master misdir false false, .poison)
  else if clean ∧ s.keep.covers (g / 64) then
    ((if s.intg.recov.any (fun r => r.granule == g) then s
      else { s with intg := { s.intg with recov := s.intg.recov ++ [Recov.mk g master misdir] } }).noteUe g master misdir false false,
      .wait)
  else ((s.poisonUe g).noteUe g master misdir true false, .poison)

/-- A read of one granule by a master (R301-R309). A MISDIRECTED outcome stands only where its repeat is CLEAN or CORRECTED, and
a POISONED one is no CORRECTED one (R304). `clean` says that the page is not dirty, of a write that it was not when the write was
admitted (R308). -/
def State.readGran (s : State) (obs : List CellObs) (g master : Nat) (scrub clean : Bool) : State × GranRead :=
  let l := decodeAddr (64 * g)
  let o := obsOf obs g
  if s.fencedGran g then
    let r := s.readFenced g
    let s := (s.incFld INT_UECNT_COUNT 1).incFld (INT_CH_UE_COUNT l.ch) 1
    (match r with
      | .data _ => ((s.incFld INT_RECOVCNT_COUNT 1).postRecovered g).noteUe g master false false true
      | _ => ((s.incFld INT_POISCNT_COUNT 1).post 0x0303 2 l.ch g).noteUe g master false true false, r)
  else
    let s := if o.addrErr then (s.incFld INT_MISDIR_COUNT 1).post 0x0304 3 l.ch g else s
    if o.addrErr ∧ (o.repeatOk = false ∨ s.poisoned g) then s.uncorrectable g master [] true clean
    else
      let good := if s.poisoned g then GranRead.poison else .data (s.granData g)
      match s.decodeSyms l o.syms with
      | .clean => (s, good)
      | .corrected ks => (if s.poisoned g then s else s.corrected g master ks scrub, good)
      | .uncorrectable ks => s.bump.uncorrectable g master ks o.addrErr clean
      | .wild => ((s.bump).bump, .data (leBytes 64 (Config.freeValue (s.fresh + 1))))

/-- The recovery of a granule ends (R309): what the keep version says is written, or poison. -/
def State.finishRecovery (s : State) (r : Recov) (slotOk : Bool) : State :=
  let g := r.granule
  let s := { s with intg := { s.intg with recov := s.intg.recov.erase r } }
  let v := if slotOk then s.keep.version (g / 64) else none
  match v with
  | none => (s.poisonUe g).noteUe g r.master r.misdir true false
  | some v =>
    let s := ((s.incFld INT_RECOVCNT_COUNT 1).postRecovered g).noteUe g r.master r.misdir false true
    match verGran v (g % 64) with
    | .data bs => s.putGran g bs
    | _ => s.poisonGran g

/-- The 256 B unit of a granule is held by a recovery (R309). -/
def State.unitHeld (s : State) (g : Nat) : Bool := s.intg.recov.any fun r => r.granule / 4 == g / 4

end Sys2Proof.Machine
end

