-- ==== Sys2Proof/Machine/Mortar.lean ====
section
/-! DEFINITION. Mortar's service levels: floors, guarantees and their commit, holding at the master port, arbitration and
meters (R167-R189). -/

namespace Sys2Proof.Machine

def State.master (s : State) (m : Nat) : Master := s.mtr.masters.getD m {}

/-- A master has a request waiting at its port, or issued and not complete. -/
def Master.busy (x : Master) : Bool := !x.req.isEmpty || !x.mgt.isEmpty || !x.asks.isEmpty || 0 < x.ost || 0 < x.mgtOst

/-- A master has something to move (R182): at its port or issued; of M4 also a job's write that waits. -/
def State.masterBusy (s : State) (m : Nat) (x : Master) : Bool := x.busy || (m == 4 && !s.m4Waits.isEmpty)

/-- A master's port changes; one that is left without a request has not waited throughout the window under way (R182). -/
def State.modMaster (s : State) (m : Nat) (f : Master → Master) : State :=
  { s with mtr := { s.mtr with masters := modAt s.mtr.masters m fun x =>
    let y := f x
    { y with waited := y.waited && s.masterBusy m y } } }

/-! ### Floors and guarantees (R183-R185) -/

/-- The throttle step applied to a channel (R337). -/
def State.thrStep (s : State) (c : Nat) : Nat :=
  max ((s.thm.crs.getD (c / 2 + 3) {}).step) ((s.thm.crs.getD 0 {}).step)

/-- θ_c of R183 in quarters. -/
def State.theta4 (s : State) (c : Nat) : Nat := 4 - min 3 (s.thrStep c)

/-- The current band of the stack: the highest of any DRAM course (R152). -/
def State.stackBand (s : State) : Nat := s.mc.band.foldl max 1

/-- The floor of R10 for a band, GB/s. -/
def floorOf (band : Nat) : Nat := if band ≤ 1 then 1720 else if band = 2 then 1640 else 1480

def State.fBand (s : State) : Nat := floorOf s.stackBand

/-- The part of a channel that serves, in halves: a fenced pseudo-channel takes one (R317). -/
def State.chanHalves (s : State) (c : Nat) : Nat := b2n (!s.pcFenced c 0) + b2n (!s.pcFenced c 1)

/-- F_now of R183: θ_c counts in quarters and halves of a channel, so the sum is in eighths. -/
def State.fNow (s : State) : Nat :=
  s.fBand * ((List.range 32).map fun c => s.theta4 c * s.chanHalves c).sum / 256

/-- The committed guarantee g_m. -/
def State.gAct (s : State) (m : Nat) : Nat := s.actFld (MTR_MINBW_GBPS m)

/-- G of R185. -/
def State.gSum (s : State) : Nat := ((List.range 8).map s.gAct).sum

/-- The effective guarantee g'_m (R185). -/
def State.gEff (s : State) (m : Nat) : Nat :=
  if s.gSum ≤ s.fNow then s.gAct m else s.gAct m * s.fNow / s.gSum

/-- A master whose effective guarantee has become 0 has its meter at 0 and is not owed (R181). -/
def State.zeroMeters (s : State) : State :=
  (List.range 8).foldl (fun s m => if s.gEff m = 0 then s.modMaster m fun x => { x with meter := 0 } else s) s

/-- The effective guarantees are computed anew; scaling begins or ends (R185): 0x0802 and 0x0803. -/
def State.updateScale (s : State) : State :=
  let s := s.zeroMeters
  let now := decide (s.fNow < s.gSum)
  if now = s.mtr.scaled then s
  else
    let s := { s with mtr := { s.mtr with scaled := now } }
    if now then s.post 0x0802 2 0xFF (s.gSum + 65536 * s.fNow) else s.post 0x0803 0 0xFF (65536 * s.fNow)

/-- The value of a shadow limited to its field's range (R184, R190). (DEDUCED, log entry 58) -/
def State.limited (s : State) (f : Fld) (lo hi : Nat) : Nat := max lo (min hi (s.fld f))

/-- A shadow takes its limited value. -/
def State.limitShadow (s : State) (f : Fld) (lo hi : Nat) : State := s.setFld f (s.limited f lo hi)

/-- The shadow group is limited to its fields' ranges and becomes active (R184 step 5). -/
def State.mtrApply (s : State) : State :=
  (List.range 8).foldl (fun s m =>
    let s := ((s.limitShadow (MTR_OSTD_GRAN m) 1 4096).limitShadow (MTR_MINBW_GBPS m) 0 2048).limitShadow (MTR_BURST_GRAN m) 1 64
    ((s.commitReg (MTR_OSTD m)).commitReg (MTR_MINBW m)).commitReg (MTR_BURST m)) (s.commitReg MTR_CTL)

/-- MTR_COMMIT (R184): a refused commit leaves the shadows their written values (R39). (DEDUCED, log entry 58) -/
def State.mtrCommit (s : State) : State :=
  let sum := ((List.range 8).map fun m => s.limited (MTR_MINBW_GBPS m) 0 2048).sum
  let fa := if s.flag MTR_CTL_ADMIT_STRICT then 1480 else s.fBand
  let s := (s.setFld MTR_COMMIT_STAT_SUM sum).setFld MTR_COMMIT_STAT_FLOOR fa
  if fa < sum then (s.setFld MTR_COMMIT_STAT_RESULT 2).post 0x0801 1 0xFF (sum + 65536 * fa)
  else (s.setFld MTR_COMMIT_STAT_RESULT 1).mtrApply.updateScale

/-- A write of MTR_COMMIT (R184). -/
def execMtrCommit (a : Access) (v : Word) (s : State) : Host.Outcome State Fault Refusal :=
  .next (s.cfgWrite a MTR_COMMIT fun s => if bitAt v.toNat 0 then s.mtrCommit else s)

/-! ### Meters (R181-R187) -/

/-- M5 and M7 are class P (R145). -/
def privileged (m : Nat) : Bool := m == 5 || m == 7

/-- The rank of a master's class: P, H, C, S (R145). -/
def classRank (m : Nat) : Nat := if privileged m then 3 else if m < 4 then 2 else if m = 4 then 1 else 0

/-- Class H, C and S meters hold at 0 in SAVING and SEALED (R188). -/
def State.meterHolds (s : State) (m : Nat) : Bool := !privileged m && (s.dev == .saving || s.dev == .sealed)

/-- Bytes moved for a master lower its meter, down to −65,536 (R181), and are counted. -/
def State.moved (s : State) (m bytes : Nat) : State :=
  let g := s.gEff m
  (s.modMaster m fun x => { x with
    meter := if g = 0 ∨ s.meterHolds m then 0 else max (-65536) (x.meter - bytes)
    winBytes := x.winBytes + bytes }).add64 (MTR_BYTES_LO m) bytes

/-- One 100 ns tick of the guarantee meters (R181). -/
def execGuaranteeMeterTick (s : State) : Host.Outcome State Fault Refusal :=
  .next ((List.range 8).foldl (fun s m =>
    let g := s.gEff m
    s.modMaster m fun x => { x with
      meter := if g = 0 ∨ s.meterHolds m then 0 else min (1000 * g) (x.meter + (100 * g : Nat)) }) s)

/-- The end of a 10 µs window (R182): short when a master that had something to move throughout fell more than 16 KiB below
its guarantee; 0x0804 at most once a second for each master. Its DATA counts the short windows of the second that ends with this
one, which is among them. (DESIGN CHOICE, log entry 149) -/
def execGuaranteeWindowEnd (s : State) : Host.Outcome State Fault Refusal :=
  .next ((List.range 8).foldl (fun s m =>
    let x := s.master m
    let short := x.waited && s.masterBusy m x && decide (x.winBytes + 16384 < s.gEff m * 10000)
    let due := match x.shortAt with | none => true | some t => t + 10 ^ 9 ≤ s.clock
    let ts := (x.short.filter fun t => s.clock < t + 10 ^ 9) ++ (if short then [s.clock] else [])
    let s := s.modMaster m fun x => { x with
      winBytes := 0, waited := s.masterBusy m x, short := ts, shortAt := if short && due then some s.clock else x.shortAt }
    if short then
      let s := s.incFld (MTR_GSHORT_COUNT m) 1
      if due then s.post 0x0804 1 m ts.length else s
    else s) s)

/-- A 1 µs window renews the cap of class H, C and S data at each channel target (R183): θ_c × F_band / 32 × 1 µs.
(DESIGN CHOICE, log entry 57) -/
def execThrottleCapWindow (s : State) : Host.Outcome State Fault Refusal :=
  .next ((List.range 32).foldl (fun s c =>
    s.modTgt c fun t => { t with capLeft := s.theta4 c * s.fBand * 1000 / 128 }) s)

/-- A pace meter's 1 µs window (R187): 0x0805 once for two low windows in a row, until 1 ms of good ones. -/
def execPaceMeterWindow (n : Fin 16) (count : Nat) (s : State) : Host.Outcome State Fault Refusal :=
  .next (
    let c := min count 4095
    let s := (s.setFld (MTR_PACE_RATE n) c).minFld (MTR_PACE_MIN n) c
    let low := decide (c < 1111)
    let run := if low then min 2 (s.mtr.low.getD n 0 + 1) else 0
    let good := if low then 0 else min 1000 (s.mtr.good.getD n 0 + 1)
    let was := s.mtr.lowPosted.getD n false
    let fire := run == 2 && !was
    let posted := if fire then true else if good = 1000 then false else was
    let s := { s with mtr := { s.mtr with
      low := setAt s.mtr.low n run, good := setAt s.mtr.good n good, lowPosted := setAt s.mtr.lowPosted n posted } }
    if fire then s.post 0x0805 2 0xFF (n + 65536 * c) else s)

/-! ### Holding at the master port (R172, R173, R254) -/

/-- The outstanding limit in force (R172, R190). -/
def State.ostd (s : State) (m : Nat) : Nat := max 1 (min 4096 (s.actFld (MTR_OSTD_GRAN m)))

/-- Energy-budgeted write admission admits a write to a page (R254); a BLOCK reset of the keep controller holds writes to
clean pages (R271). -/
def State.admits (s : State) (page : Nat) : Bool :=
  s.keep.isDirty page ||
    (!s.blocked 0x22 && (s.keep.arm == .disarmed || s.keep.dirtyCount + 1 ≤ s.keep.dmax))

/-- The granules of a lattice request: RD and WR by LEN, an atomic one. -/
def pktGrans (k : Pkt) : Nat := if k.opc.toNat = 1 ∨ k.opc.toNat = 2 then k.len.toNat + 1 else 1

/-- The mask of a WR's granule `i` (R84). -/
def wrMask (k : Pkt) (i : Nat) : Nat := if k.b14.getLsbD 0 then fieldB k.payload (8 * i) 8 else fullMask

/-- The data of a WR's granule `i`. -/
def wrData (k : Pkt) (i : Nat) : List Byte := sliceB k.payload (maskBlock k + 64 * i) 64

/-- A request that can change DRAM (R254): a WR with any byte enabled, or an atomic. -/
def canWrite (k : Pkt) : Bool :=
  if k.opc.toNat = 2 then (List.range (k.len.toNat + 1)).any fun i => wrMask k i != 0
  else k.opc.toNat == 3 || k.opc.toNat == 4 || k.opc.toNat == 5

/-- The first cause of R173 that holds a lattice request at its master port; 0 none. -/
def State.holdCause (s : State) (m : Nat) (k : Pkt) : Nat :=
  let x := s.master m
  if (s.dev = .saving ∨ s.dev = .sealed) ∧ (m ≤ 4 ∨ m = 6) then 1
  else if canWrite k && !s.admits (pageOf k.addr.toNat) then 2
  else if vcClass k.vc.toNat = 2 then (if 16 < x.mgtOst + pktGrans k then 3 else 0)
  else if 0 < x.ost ∧ s.ostd m < x.ost + pktGrans k then 3 else 0

/-- The first cause of R173 that holds a write of M4 to a granule; 0 none. -/
def State.m4Cause (s : State) (g : Nat) : Nat :=
  if s.dev = .saving ∨ s.dev = .sealed then 1
  else if s.admits (g / 64) = false then 2
  else if 0 < (s.master 4).ost ∧ s.ostd 4 < (s.master 4).ost + 1 then 3 else 0

/-- The outstanding limit holds an access of `n` granules of one of the device's own masters: one that goes to a master with
nothing outstanding goes however long it is (R172). -/
def State.overOstd (s : State) (m n : Nat) : Bool := 0 < (s.master m).ost && decide (s.ostd m < (s.master m).ost + n)

/-- The first cause of R173 that holds an access of `n` granules of one of M4 to M7; 0 none. -/
def State.ownCause (s : State) (m n : Nat) : Nat :=
  if (s.dev = .saving ∨ s.dev = .sealed) ∧ (m = 4 ∨ m = 6) then 1 else if s.overOstd m n then 3 else 0

/-- A write of M4 is held at its port: later requests of M4 wait behind it (R173, R254). -/
def State.m4Stuck (s : State) : Bool := s.m4Waits.any fun g => s.m4Cause g != 0

/-- The granules of an access. -/
def Ask.grans (a : Ask) : Nat := (a.units.map Prod.snd).sum

/-- The cause that MTR_STAT_m shows (R173, R190): of M0 to M3 that of the head of the REQ queue where one holds it, else that of
the MGT queue's head; of the others that of the head of their one queue. (DESIGN CHOICE, log entry 147) -/
def State.portCause (s : State) (m : Nat) : Nat :=
  let x := s.master m
  let head := fun (l : List Parked) => match l with | [] => 0 | k :: _ => s.holdCause m k.pkt
  let own := ((s.m4Waits.map s.m4Cause).find? (· != 0)).getD 0
  if head x.req ≠ 0 then head x.req
  else if head x.mgt ≠ 0 then head x.mgt
  else if m = 4 ∧ own ≠ 0 then own
  else match x.asks with
    | [] => 0
    | a :: _ => s.ownCause m a.grans

/-- A write waits at a master port under admission (R244, R254). -/
def State.admHold (s : State) : Bool :=
  ((List.range 8).any fun m =>
    let waits := fun (l : List Parked) => match l with
      | [] => false
      | x :: _ => canWrite x.pkt && !s.admits (pageOf x.pkt.addr.toNat)
    waits (s.master m).req || waits (s.master m).mgt) ||
  s.m4Waits.any fun g => s.m4Cause g == 2

/-! ### Arbitration (R175, R176) -/

/-- Levels 1 to 3 of the key of R175. -/
def State.arbKey (s : State) (m : Nat) : Nat :=
  (if privileged m then 100 else 0) + (if 0 < (s.master m).meter then 10 else 0) + classRank m

/-- The cyclic distance of a master after the last winner. -/
def cycDist (last m : Nat) : Nat := (m + 8 - last - 1) % 8

/-- The winner among requesting masters: key, then rank, then cyclic order after the last winner. -/
def State.arbWin (s : State) (rank : List Nat) (last : Nat) : List Nat → Option Nat
  | [] => none
  | m :: ms =>
    match s.arbWin rank last ms with
    | none => some m
    | some w =>
      let a := (s.arbKey m * 8 + rank.getD m 0) * 8 + (7 - cycDist last m)
      let b := (s.arbKey w * 8 + rank.getD w 0) * 8 + (7 - cycDist last w)
      if b < a then some m else some w

/-- The ranks after a decision: the winner's becomes 0, every loser's rises by one up to 7 (R176). -/
def rerank (rank : List Nat) (reqs : List Nat) (w : Nat) : List Nat :=
  (List.range 8).map fun m =>
    if m = w then 0 else if reqs.contains m then min 7 (rank.getD m 0 + 1) else rank.getD m 0

end Sys2Proof.Machine
end

