-- ==== Sys2Proof/Machine/Rows.lean ====
section
/-! DEFINITION. The rows of the banks as activates and precharges leave them (R149, R150, R159, R160), and how requests enter
mortar: a lattice request's units (R169), and the transfers of the device's own masters (R167, R172). -/

namespace Sys2Proof.Machine

/-! ### Channels and banks -/

def State.chan (s : State) (c : Nat) : Chan := s.mc.chans.getD c {}

def State.modChan (s : State) (c : Nat) (f : Chan → Chan) : State :=
  { s with mc := { s.mc with chans := modAt s.mc.chans c f } }

def Chan.pc (h : Chan) (i : Nat) : Pc := h.pcs.getD i {}

def Pc.bank (p : Pc) (b : Nat) : Bank := p.banks.getD b {}

def State.modPc (s : State) (c i : Nat) (f : Pc → Pc) : State :=
  s.modChan c fun h => { h with pcs := modAt h.pcs i f }

def State.modBank (s : State) (c i b : Nat) (f : Bank → Bank) : State :=
  s.modPc c i fun p => { p with banks := modAt p.banks b f }

def State.bank (s : State) (c i b : Nat) : Bank := ((s.chan c).pc i).bank b

/-! ### Rows (R149, R150, R159, R160) -/

def bgOf (bank : Nat) : Nat := bank / 4

/-- The key of a bank's row group in the activation counters (R159). -/
def actKey (c pc bank row : Nat) : Nat := ((c * 2 + pc) * 16 + bank) * 24576 + row / 4

/-- A row closes (R159): its group's counter rises, and at THRESH a targeted refresh is pending. -/
def State.closeRow (s : State) (c pc i at_ : Nat) : State :=
  match (s.bank c pc i).row with
  | none => s
  | some row =>
    let key := actKey c pc i row
    let n := min 65535 (tgetD s.mc.acts key 0 + 1)
    let fire := decide (max 256 (s.fld (MC_TRRCTL_THRESH c)) ≤ n)
    let s := { s with mc := { s.mc with acts := tset s.mc.acts key n } }
    s.modBank c pc i fun b => { b with
      row := none, kept := false, hits := 0, lastPre := at_
      trr := if fire then some (row / 4 * 4) else b.trr }

/-- More than 16 targeted refreshes of a bank in 32 ms: 0x0482, at most once a second for the channel (R160). -/
def State.noteTrr (s : State) (c pc i row : Nat) : State :=
  let due : Bool := match (s.chan c).trr0482 with | none => true | some t => decide (t + 10 ^ 9 ≤ s.clock)
  if due = true ∧ 16 < (s.bank c pc i).trrAt.length then
    (s.modChan c fun h => { h with trr0482 := some s.clock }).post 0x0482 1 c (pc + 2 * i + 32 * row)
  else s

/-- Commands to a bank group count toward its quadrant's share of its course's power (R327). -/
def State.busyBg (s : State) (c g n : Nat) : State :=
  { s with mc := { s.mc with activity := modAt s.mc.activity (4 * (c / 2) + g) (· + n) } }

/-- A refresh of every bank, `n` times. -/
def State.busyAll (s : State) (c n : Nat) : State := (List.range 4).foldl (fun s g => s.busyBg c g n) s

/-- A targeted refresh of the pending group (R159, R160): its counter is cleared; more than 16 in 32 ms post 0x0482. -/
def State.issueTrr (s : State) (c pc i row : Nat) : State :=
  let now := ((s.chan c).pc pc).now
  let s := { s with mc := { s.mc with acts := tdel s.mc.acts (actKey c pc i row) } }
  let s := s.modBank c pc i fun b => { b with
    trr := none, refUntil := now + 160
    trrAt := (now :: b.trrAt.filter fun t => now < t + 32000000).take 17 }
  let s := (s.modPc c pc fun p => { p with lastRef := now }).busyBg c (bgOf i) 1
  let s := (s.incFld (MC_TRRSTAT_COUNT c) 1).setReg (MC_TRRLAST c) (2 ^ 31 + pc * 2 ^ 30 + i * 2 ^ 26 + row)
  s.noteTrr c pc i row

/-- An activate (R150): the rotation pointer moves to the bank after it. -/
def State.issueAct (s : State) (c pc i row : Nat) : State :=
  let now := ((s.chan c).pc pc).now
  let s := s.modBank c pc i fun b => { b with row := some row, lastAct := now, kept := false, apRow := none }
  (s.modPc c pc fun p => { p with ptr := (i + 1) % 16, acts := (now :: p.acts).take 4 }).busyBg c (bgOf i) 1 |>.add64 (MC_ACT_LO c) 1

/-- A column command to a granule: its channel's count of granules read or written, and its bank group's activity. -/
def State.countGran (s : State) (write : Bool) (g : Nat) : State :=
  let l := decodeAddr (64 * g)
  (s.busyBg l.ch (bgOf l.bank) 1).add64 (if write then MC_WR_LO l.ch else MC_RD_LO l.ch) 1

/-- Bytes of class H, C and S data lower a channel target's cap (R183). -/
def State.spend (s : State) (m c bytes : Nat) : State :=
  if privileged m then s else s.modTgt c fun t => { t with capLeft := t.capLeft - bytes }

/-- The cap of R183 leaves room for data of a master at a channel target. -/
def State.capOk (s : State) (m c bytes : Nat) : Bool := privileged m || bytes ≤ (s.tgt c).capLeft

/-! ### Requests into mortar (R169, R172) -/

/-- The units a request is cut into at 256 B boundaries (R169): first granule index and count. -/
def cutUnits : Nat → Nat → Nat → Nat → List (Nat × Nat)
  | 0, _, _, _ => []
  | fuel + 1, g0, i, n =>
    if i < n then
      let m := min (n - i) (4 - (g0 + i) % 4)
      (i, m) :: cutUnits fuel g0 (i + m) n
    else []

/-- A request is issued into mortar: its units go to their targets in order (R169, R172). -/
def State.issue (s : State) (p : Nat) (k : Pkt) (wasDirty : Bool) : State :=
  let id := s.mtr.nextX
  let mgt := vcClass k.vc.toNat == 2
  let n := pktGrans k
  let us := cutUnits (n + 1) (k.addr.toNat / 64) 0 n
  let s := { s with mtr := { s.mtr with
    nextX := id + 1
    xacts := s.mtr.xacts ++ [Xact.mk id p k p mgt us.length [] [] 0] } }
  let s := s.modMaster p fun x => if mgt then { x with mgtOst := x.mgtOst + n } else { x with ost := x.ost + n }
  us.foldl (fun s u =>
    let a := if k.opc.toNat = 1 ∨ k.opc.toNat = 2 then k.addr.toNat + 64 * u.1 else k.addr.toNat
    let w : MUnit := {
      xact := id, master := p, addr := a, gran := u.2, first := u.1, issued := s.clock, wasDirty := wasDirty
      op := k.opc.toNat - 1
      data := if k.opc.toNat = 2 then ((List.range u.2).map fun i => wrData k (u.1 + i)).flatten else k.payload
      masks := if k.opc.toNat = 2 then (List.range u.2).map fun i => wrMask k (u.1 + i) else [] }
    s.modTgt (decodeAddr a).ch fun t => { t with hdrs := t.hdrs ++ [w] }) s

/-- The 256 B units of `n` granules from granule `g` up (R169): first granule and count. -/
def unitsOf (g n : Nat) : List (Nat × Nat) := (cutUnits (n + 1) g 0 n).map fun u => (g + u.1, u.2)

/-- The units of a page (R169). -/
def pageUnits (page : Nat) : List (Nat × Nat) := unitsOf (64 * page) 64

/-- The target of a unit of one of the device's own masters (R167). -/
def Own.target (w : Own) (g : Nat) : Nat := if w.keep then 32 else (decodeAddr (64 * g)).ch

/-- An access of one of the device's own masters is issued: the headers of its units go to their targets and its granules are
outstanding (R169, R172). (DEDUCED, log entry 142) -/
def State.follow (s : State) (m : Nat) (a : Ask) : State :=
  let w := a.own
  let n := a.grans
  let works := match s.mtr.works.find? fun x => x.own == w with
    | some _ => s.mtr.works.map fun x => if x.own = w then { x with left := x.left + n } else x
    | none => s.mtr.works ++ [{ own := w, master := m, left := n, issued := s.clock }]
  let s := ({ s with mtr := { s.mtr with works := works } }).modMaster m fun x => { x with ost := x.ost + n }
  a.units.foldl (fun s u => s.modTgt (w.target u.1) fun t => { t with
    hdrs := t.hdrs ++ [{ xact := 0, master := m, addr := 64 * u.1, gran := u.2, op := a.op, masks := List.replicate u.2 fullMask
                         issued := s.clock, own := some w }] }) s

/-- The accesses that wait at the port of one of M4 to M7 go, first in first out, as far as no cause of R173 holds them.
(DEDUCED, log entry 142) -/
def State.serve (s : State) (m : Nat) : Nat → State
  | 0 => s
  | n + 1 =>
    match (s.master m).asks with
    | [] => s
    | a :: rest =>
      if s.ownCause m a.grans ≠ 0 then s
      else ((s.modMaster m fun x => { x with asks := rest }).follow m a).serve m n

/-- The accesses at a port that may go do. -/
def State.serveAll (s : State) (m : Nat) : State := s.serve m (s.master m).asks.length

/-- One of the device's own masters makes an access: it joins the one queue of its port (R173). (DEDUCED, log entry 142) -/
def State.ask (s : State) (m op : Nat) (w : Own) (us : List (Nat × Nat)) : State :=
  (s.modMaster m fun x => { x with asks := x.asks ++ [{ own := w, op := op, units := us }] }).serveAll m

/-- Bytes that the Keystone writes into a keep course's reserved area cross mortar to the keep controller (R20, R167). -/
def State.reservedMoves (s : State) (bytes : Nat) : State :=
  (cutUnits (ceilDiv bytes 64 + 1) 0 0 (ceilDiv bytes 64)).foldl (fun s u => s.ask 7 1 .reserved [u]) s

/-- A record is written into the reserved areas of K0 and K1 by the Keystone (R20): it takes one granule at most.
(DEDUCED, log entry 142) -/
def State.writeReserved (s : State) (f : Course → Course) : State :=
  (List.range 2).foldl (fun s k => if (s.keep.course k).fenced then s else s.reservedMoves 64) (s.writeCopies f)

/-- The key-wrap record is written, with the next sequence (R20, R267). -/
def State.writeWrap (s : State) : State :=
  let n := max (s.keep.course 0).wrap.1 (s.keep.course 1).wrap.1 + 1
  s.writeReserved fun c => { c with wrap := (n, s.keep.epochs), wrapOk := true }

/-- Granules of a work have returned to its master (R172, R190), and what waits at its port may go. The last granule of a copy sends
its page on to the keep controller, that of a version or of a recovery what it gave to the channels (R167). -/
def State.workBack (s : State) (w : Own) (n : Nat) : State :=
  match s.mtr.works.find? fun x => x.own == w with
  | none => s
  | some x =>
    let s := (s.modMaster x.master fun t => { t with ost := t.ost - min n x.left }).maxFld (MTR_MAXLAT_NS x.master)
      (s.clock - x.issued)
    let s := if n < x.left then
        { s with mtr := { s.mtr with works := s.mtr.works.map fun y => if y.own = w then { y with left := x.left - n } else y } }
      else
        let s := { s with mtr := { s.mtr with works := s.mtr.works.filter fun y => y.own != w } }
        match w with
        | .copy p => s.ask 5 1 (.page p) (pageUnits p)
        | .fetch p => s.ask 5 1 (.restore p) (pageUnits p)
        | .recover g => s.ask 5 1 (.rewrite g) [(g, 1)]
        | _ => s
    s.serveAll x.master

/-- Transfers of a work are at their master's port or have been issued and are not complete. -/
def State.onWay (s : State) (w : Own) : Bool :=
  (s.mtr.works.any fun x => x.own == w) || s.mtr.masters.any fun x => x.asks.any fun a => a.own == w

/-- The units that a channel controller holds. -/
def Chan.units (h : Chan) : List MUnit := h.ingress ++ (h.pcs.map fun p => (p.banks.map fun b => b.q).flatten).flatten

/-! ### Writes that wait in the bank queues (R144) -/

/-- The bank queue of a granule. -/
def State.bankQ (s : State) (g : Nat) : List MUnit :=
  let l := decodeAddr (64 * g)
  (s.bank l.ch l.pc l.bank).q

/-- The unit of a reported write replaces a granule. A reported write has whole granules alone (R144). -/
def MUnit.covers (u : MUnit) (g : Nat) : Bool :=
  u.reported && u.own.isNone && u.addr / 64 ≤ g && g < u.addr / 64 + u.gran && u.masks.getD (g - u.addr / 64) 0 != 0

/-- The data of the newest reported write to a granule that waits in its bank queue: a later read meets it (R143, R144). -/
def State.queuedData (s : State) (g : Nat) : Option (List Byte) :=
  (((s.bankQ g).filter fun u => u.covers g).foldl (fun (b : Option MUnit) u =>
    match b with
    | none => some u
    | some v => if v.ord < u.ord then some u else some v) none).map fun u => sliceB u.data (64 * (g - u.addr / 64)) 64

/-- A write of one of the device's own masters to a granule comes after the reported writes that wait in its bank queue: the data
that it overwrites there gives way to it (R143). (DEDUCED, log entry 53) -/
def State.overtake (s : State) (g mask : Nat) (bs : List Byte) : State :=
  let l := decodeAddr (64 * g)
  let give := fun (u : MUnit) =>
    let i := g - u.addr / 64
    if u.covers g then
      { u with data := u.data.zipIdx.map fun d =>
          if 64 * i ≤ d.2 && d.2 < 64 * i + 64 && mask.testBit (d.2 - 64 * i) then bs.getD (d.2 - 64 * i) 0 else d.1 }
    else u
  s.modBank l.ch l.pc l.bank fun b => { b with q := b.q.map give }

end Sys2Proof.Machine
end

