-- ==== Sys2Proof/Machine/Requests.lean ====
section
/-! DEFINITION. Lattice requests to memory, and the packets that pass: the checks of RD, WR and the atomics and what they do
to memory (R82-R88), transit (R90, R93) and the waits of R102. -/

namespace Sys2Proof.Machine

/-! ### Transit -/

/-- The source of R98 for a packet that arrived on port `p` and leaves by `p'`. -/
def srcOf (p p' : Nat) : Nat := if p / 2 = p' / 2 then p else 4

/-- A packet not addressed to this stack (R90, R93, R103). One behind a request that is held on its virtual channel waits
(R96). -/
def State.transit (s : State) (p : Nat) (k : Pkt) : State :=
  if s.packetsReach p = false then s
  else if s.behind p k then s.waitRx p k
  else if s.dev = .recovery then (s.takeRx p k).discardOrRefuse p k 2
  else if s.hasCoord = false then
    let s := s.takeRx p k
    if 127 < k.hops.toNat + 1 then s.dropRoute p k 1
    else s.enqueue (p ^^^ 1) { k with hops := k.hops + 1 } p
  else
    match routeReceive s k with
    | .here => s
    | .out p' k' => (s.takeRx p k).enqueue p' k' (srcOf p p')
    | .drop c => (s.takeRx p k).discardOrRefuse p k c

/-- PACKET_TRANSIT (R93). -/
def execPacketTransit (p : Fin 4) (k : Pkt) (s : State) : Host.Outcome State Fault Refusal :=
  .next (if k.nbr then s else s.transit p k)

/-- A packet of an output queue has waited LTC_LINKWAIT (R102): a request is answered NO_TARGET from this stack, any other
packet is discarded; counted, and 0x0211 once in the outage. -/
def execLinkwaitExpiry (p : Fin 4) (i : Nat) (s : State) : Host.Outcome State Fault Refusal :=
  .next (
    let t := s.port p
    match t.outq[i]? with
    | none => s
    | some o =>
      if t.st = .active then s
      else
        let n := t.expired + 1
        let s := s.modPort p fun t => { t with outq := t.outq.eraseIdx i, expired := n, outage := true }
        let s := s.incFld (LTC_LOST_EXPIRED p) 1
        let s := if isRequest o.pkt.opc.toNat then
            (if o.pkt.nbr then s.enqueue (p.val ^^^ 1)
                { mkRsp s.me o.pkt 4 0 [] with hops := BitVec.ofNat 7 (o.pkt.b15.toNat - o.pkt.hops.toNat) } 5
              else s.injectRaw (mkRsp s.me o.pkt 4 0 []))
          else s
        if t.outage then s else s.post 0x0211 2 p n)

/-- A hop-addressed packet that does not end here (R91): HOPS falls by one and it goes on. In RECOVERY it counts as for an
absent destination (R103), and its answer has as many hops to go as the packet has come. (DEDUCED, log entry 32) -/
def State.hopOn (s : State) (p : Nat) (k : Pkt) : State :=
  if s.behind p k then s.waitRx p k
  else
  let s := s.takeRx p k
  if s.dev = .recovery then
    let back := BitVec.ofNat 7 (k.b15.toNat + 1 - k.hops.toNat)
    let s := if isRequest k.opc.toNat then s.sendRsp p { mkRsp s.me k 4 0 [] with hops := back } else s
    s.dropRoute p k 2
  else s.enqueue (p ^^^ 1) { k with hops := k.hops - 1 } p

/-- A hop-addressed packet whose HOPS does not reach 0 here (R91). (DEDUCED, log entry 32) -/
def hopsOn (k : Pkt) : Bool := k.nbr && decide (1 < k.hops.toNat)

/-! ### Packets discarded here -/

/-- A packet discarded at its destination is counted in LTC_DROP.LOCAL. (DEDUCED, log entry 30) -/
def State.dropLocal (s : State) (p : Nat) (k : Pkt) : State := (s.takeRx p k).incFld LTC_DROP_LOCAL 1

/-- A packet that its destination discards (R82, R88, R92): counted here, or passed on (R93). (DEDUCED, log entry 30) -/
def State.discardHere (s : State) (p : Nat) (k : Pkt) : State :=
  if s.packetsReach p = false then s
  else if hopsOn k then s.hopOn p k
  else if k.nbr = false ∧ (s.hasCoord = false ∨ k.dest.toNat ≠ s.me) then s.transit p k
  else s.dropLocal p k

/-- MSG_RECEIVED (R88). (DEDUCED, log entry 30) -/
def execMsgReceived (p : Fin 4) (k : Pkt) (s : State) : Host.Outcome State Fault Refusal := .next (s.discardHere p k)

/-- RESERVED_OPC_PACKET (R82). -/
def execReservedOpcPacket (p : Fin 4) (k : Pkt) (s : State) : Host.Outcome State Fault Refusal := .next (s.discardHere p k)

/-! ### Memory requests -/

/-- The checks of R82 and R83 and the range of R36: none when the request may be performed. (DEDUCED, log entry 31) -/
def reqBad (k : Pkt) : Bool :=
  let opc := k.opc.toNat
  let a := k.addr.toNat
  let cls := vcClass k.vc.toNat
  let n := 64 * (k.len.toNat + 1)
  if opc = 1 ∨ opc = 2 then
    (cls != 0 && cls != 2) || a % 64 != 0 || 4096 < a % 4096 + n || (cls == 2 && 256 < n) || dramEnd ≤ a
  else if opc = 5 then cls != 0 || a % 16 != 0 || dramEnd ≤ a
  else cls != 0 || a % 8 != 0 || dramEnd ≤ a

/-- The granules a request touches. -/
def pktGranList (k : Pkt) : List Nat := (List.range (pktGrans k)).map (k.addr.toNat / 64 + ·)

/-- A touch fetch of a page's unit starts (R264). -/
def State.touchStart (s : State) (page : Nat) : State :=
  let u := unitOfPage page
  if s.keep.touch.any fun t => t.1 == u then s
  else (s.modKeep fun k => { k with touch := k.touch ++ [(u, s.clock)] }).incFld KEEP_TOUCH_COUNT 1

/-- What a request that has been performed answers: the status and the data; none while it waits at the channel. -/
abbrev Done := Option (Nat × List Byte)

/-- The granules of a RD, in order (R87): their data, the poison map, and whether one waits for a recovery. -/
def State.readGrans (s : State) (m : Nat) (obs : List CellObs) : List Nat → State × List (Option (List Byte)) × Bool
  | [] => (s, [], false)
  | g :: gs =>
    let r := (s.countGran false g).readGran obs g m false (s.clean g)
    let rest := r.1.readGrans m obs gs
    match r.2 with
    | .data bs => (rest.1, some bs :: rest.2.1, rest.2.2)
    | .poison => (rest.1, none :: rest.2.1, rest.2.2)
    | .wait => (rest.1, none :: rest.2.1, true)

/-- The 64-bit map of R87. -/
def poisonMap (ds : List (Option (List Byte))) : Nat :=
  (ds.zipIdx.map fun d => if d.1.isNone then 2 ^ d.2 else 0).sum

/-- The data of a RD's response, a marked granule as zeros. -/
def rdData (ds : List (Option (List Byte))) : List Byte := (ds.map fun d => d.getD (List.replicate 64 0)).flatten

/-- A RD is performed (R83, R86, R87). -/
def State.doRead (s : State) (m : Nat) (k : Pkt) (obs : List CellObs) : State × Done :=
  let r := s.readGrans m obs (pktGranList k)
  if r.2.2 then (r.1, none)
  else if r.2.1.all Option.isSome then (r.1, some (0, rdData r.2.1))
  else (r.1, some (1, leBytes 8 (poisonMap r.2.1) ++ leBytes 8 0 ++ rdData r.2.1))

/-- One granule of a WR (R84, R87, R308, R317): the second part is false where it was not performed, the third says that it
waits for a recovery. -/
def State.writeGran (s : State) (m : Nat) (obs : List CellObs) (wasDirty : Bool) (g mask : Nat) (bs : List Byte) :
    State × Bool × Bool :=
  if mask = 0 then (s, true, false)
  else if s.fencedGran g then (s, false, false)
  else if mask = fullMask then ((s.putGran g bs).countGran true g, true, false)
  else
    let r := (s.countGran false g).readGran obs g m false (!wasDirty)
    match r.2 with
    | .data _ => ((r.1.putMasked g mask bs).countGran true g, true, false)
    | .poison => (r.1, false, false)
    | .wait => (r.1, false, true)

/-- The granules of a WR from index `i` on. -/
def State.writeGrans (s : State) (m : Nat) (k : Pkt) (obs : List CellObs) (wasDirty : Bool) :
    List (Nat × Nat) → State × Bool × Bool
  | [] => (s, true, false)
  | (i, g) :: gs =>
    let r := s.writeGran m obs wasDirty g (wrMask k i) (wrData k i)
    let rest := r.1.writeGrans m k obs wasDirty gs
    (rest.1, r.2.1 && rest.2.1, r.2.2 || rest.2.2)

/-- A WR is performed: OK only when every granule was written, else POISON (R87). -/
def State.doWrite (s : State) (m : Nat) (k : Pkt) (obs : List CellObs) (wasDirty : Bool) : State × Done :=
  let r := s.writeGrans m k obs wasDirty ((pktGranList k).zipIdx.map fun x => (x.2, x.1))
  if r.2.2 then (r.1, none) else (r.1, some (if r.2.1 then 0 else 1, []))

/-- The new value of an atomic's operand (R85): the old value and the payload give it. -/
def atomicNew (opc old : Nat) (pay : List Byte) : Nat :=
  if opc = 3 then (old + fieldB pay 0 8) % 2 ^ 64
  else if opc = 4 then (if old = fieldB pay 0 8 then fieldB pay 8 8 else old)
  else if old = fieldB pay 0 16 then fieldB pay 16 16 else old

/-- An atomic's operand size (R85). -/
def atomicSize (opc : Nat) : Nat := if opc = 5 then 16 else 8

/-- An atomic is performed as one read-modify-write (R85, R87). -/
def State.doAtomic (s : State) (m : Nat) (k : Pkt) (obs : List CellObs) (wasDirty : Bool) : State × Done :=
  let opc := k.opc.toNat
  let a := k.addr.toNat
  let g := a / 64
  let n := atomicSize opc
  let r := (s.countGran false g).readGran obs g m false (!wasDirty)
  match r.2 with
  | .wait => (r.1, none)
  | .poison => (r.1, some (1, []))
  | .data bs =>
    if r.1.fencedGran g then (r.1, some (1, []))
    else
      let old := fieldB bs (a % 64) n
      let new := atomicNew opc old k.payload
      let s := r.1.putMasked g ((2 ^ n - 1) * 2 ^ (a % 64)) (putB (List.replicate 64 0) (a % 64) (leBytes n new))
      ((if new = old then s else s.countGran true g), some (0, padB 16 (leBytes n old)))

/-- A request is performed by opcode. -/
def State.doReq (s : State) (m : Nat) (k : Pkt) (obs : List CellObs) (wasDirty : Bool) : State × Done :=
  if k.opc.toNat = 1 then s.doRead m k obs
  else if k.opc.toNat = 2 then s.doWrite m k obs wasDirty
  else s.doAtomic m k obs wasDirty

/-! ### The correctable log (R306) -/

/-- A write of INT_CELOG_n_A: writing 1 to VALID frees the entry (R306). (DEDUCED, log entry 103) -/
def State.writeCelog (s : State) (n v : Nat) : State :=
  let s := s.writeAcc (INT_CELOG_A n) v
  if bitAt v 31 then { s with intg := { s.intg with ovfPosted := false } } else s

/-- CELOG_ENTRY_FREE (R306). (DEDUCED, log entry 103) -/
def execCelogEntryFree (a : Access) (n : Fin 64) (v : Word) (s : State) : Host.Outcome State Fault Refusal :=
  .next (s.cfgWrite a (INT_CELOG_A n) fun s => s.writeCelog n v.toNat)

end Sys2Proof.Machine
end

