-- ==== Sys2Proof/Machine/Channel.lean ====
section
/-! DEFINITION. The channel controllers: queues, the pick of the next DRAM command, timing, refresh and its bands, targeted
refresh, idle and self-refresh (R142-R164). -/

namespace Sys2Proof.Machine

/-! ### Units and their return -/

/-- Whether a write's old contents play no part in it: every granule is replaced whole or left (R308). -/
def MUnit.whole (u : MUnit) : Bool := u.op == 1 && u.masks.all fun m => m == fullMask || m == 0

/-- A unit has returned to its master port (R169, R172): the outstanding count falls, and the last one answers. -/
def State.unitReturn (s : State) (u : MUnit) (data : List (Nat × List Byte)) : State :=
  match u.own with
  | some w => s.workBack w u.gran
  | none =>
  match s.mtr.xacts.find? fun x => x.id == u.xact with
  | none => s
  | some x =>
    let s := s.modMaster x.master fun t => if x.mgt then { t with mgtOst := t.mgtOst - u.gran } else { t with ost := t.ost - u.gran }
    let s := s.maxFld (MTR_MAXLAT_NS x.master) (s.clock - u.issued)
    let x' := { x with
      left := x.left - 1, poisoned := x.poisoned ++ u.bad
      data := data.foldl (fun t d => tset t d.1 d.2) x.data }
    if 1 < x.left then
      { s with mtr := { s.mtr with xacts := s.mtr.xacts.map fun y => if y.id = x.id then x' else y } }
    else
      let s := { s with mtr := { s.mtr with xacts := s.mtr.xacts.filter fun y => y.id != x.id } }
      let opc := x.pkt.opc.toNat
      if x.status ≠ 0 then s.answer x.port x.pkt x.status 0 []
      else if opc = 1 then
        let ds := (List.range (pktGrans x.pkt)).map fun i =>
          if x'.poisoned.contains i then none else tget x'.data i
        if ds.all Option.isSome then s.answer x.port x.pkt 0 0 (rdData ds)
        else s.answer x.port x.pkt 1 0 (leBytes 8 (poisonMap ds) ++ leBytes 8 0 ++ rdData ds)
      else if x'.poisoned.isEmpty then
        s.answer x.port x.pkt 0 0 (if opc = 2 then [] else padB 16 (tgetD x'.data 0 []))
      else s.answer x.port x.pkt 1 0 []

/-! ### Ingress and bank queues (R142-R144) -/

def overlapU (u v : MUnit) : Bool := u.addr / 64 < v.addr / 64 + v.gran && v.addr / 64 < u.addr / 64 + u.gran

/-- A unit waits in the ingress buffer for a recovery or a restore (R264, R309). -/
def State.unitWaits (s : State) (u : MUnit) : Bool :=
  s.unrestored (pageOf u.addr) || (List.range u.gran).any fun i => s.unitHeld (u.addr / 64 + i)

/-- The adaptive page policy is in force (R149). -/
def State.adaptive (s : State) (c : Nat) : Bool := s.fld (MC_CTL_POLICY c) % 3 == 0

/-- The predictor takes note of an arrival (R149). (DEDUCED, log entry 49) -/
def Bank.arrive (b : Bank) (row now idle : Nat) : Bank :=
  if b.kept ∧ b.row = some row then { b with pred := min 3 (b.pred + 1), kept := false }
  else if b.apRow = some row ∧ now ≤ b.apAt + idle then { b with pred := min 3 (b.pred + 1), apRow := none }
  else b

/-- One unit of the ingress buffer moves to its bank queue if it may (R143), which it never does once the channel is to go idle
(R161 step 1). A write is then complete and is reported (R144), but for one that must merge with old contents: whether that
one is acknowledged depends on what it reads (R87, R308). (DEDUCED, log entry 53) -/
def State.toBank (s : State) (c : Nat) (u : MUnit) : State :=
  let l := decodeAddr u.addr
  let h := s.chan c
  let p := h.pc l.pc
  let b := p.bank l.bank
  let earlier := h.ingress.any fun v =>
    v.ord < u.ord && (decodeAddr v.addr).pc == l.pc && (decodeAddr v.addr).bank == l.bank
  if h.st ≠ .active ∨ 16 ≤ b.q.length ∨ earlier ∨ s.unitWaits u ∨ (u.op ≠ 0 ∧ u.dataIn = false) then s
  else
    let bad := (List.range u.gran).filter fun i => s.fencedGran (u.addr / 64 + i)
    let now := u.whole && (bad.isEmpty || u.own.isSome)
    let u' := { u with reported := now }
    let s := s.modChan c fun h => { h with ingress := h.ingress.filter fun v => v.ord != u.ord }
    let s := s.modBank c l.pc l.bank fun b =>
      let b' : Bank := if s.adaptive c then b.arrive l.row p.now (s.fld (MC_PAGE_IDLE_NS c)) else b
      { b' with q := b.q ++ [u'] }
    if now then s.unitReturn u' [] else s

/-- The ingress buffer empties into the bank queues as far as it can, oldest first. (DEDUCED, log entry 49) -/
def State.fillBanks (s : State) (c : Nat) : State := (s.chan c).ingress.foldl (fun s u => s.toBank c u) s

/-- The ingress buffer, with the units that are on their way into it, has a place for a request of master `m`: 8 of the 64 places
are kept for class P (R142, R170). -/
def Chan.room (h : Chan) (coming : List MUnit) (m : Nat) : Bool :=
  let us := h.ingress ++ coming
  decide (us.length < 64) && (privileged m || decide ((us.filter fun v => !privileged v.master).length < 56))

/-- CHANNEL_REQUEST_ACCEPT (R142, R170): the header at the channel's door enters the ingress buffer while it has a place;
8 of the 64 places are kept for class P. A write's data then crosses the data path. (DEDUCED, log entry 49) -/
def execChannelRequestAccept (c : Fin 32) (s : State) : Host.Outcome State Fault Refusal :=
  .next (
    let h := s.chan c
    match (s.tgt c).door with
    | none => s
    | some u =>
      if h.st ≠ .active ∨ h.room [] u.master = false then s
      else
        let u' := { u with ord := h.ord, acc := (h.pc (decodeAddr u.addr).pc).now }
        let s := s.modTgt c fun t => { t with
          door := none
          xfers := if u.op = 0 then t.xfers else t.xfers ++ [{ unit := u', beats := u.gran, out := false }] }
        let s := s.modChan c fun h => { h with ingress := h.ingress ++ [u'], ord := h.ord + 1 }
        let s := s.maxFld (MC_INGRESS_PEAK c) (h.ingress.length + 1)
        let s := if s.unrestored (pageOf u.addr) then s.touchStart (pageOf u.addr) else s
        s.fillBanks c)

/-! ### Mortar's handshakes (R173, R175-R180) -/

/-- The masters with a header that waits at a target and that the target has a place for, beside the header at its door
(R170). -/
def State.askers (s : State) (t : Nat) : List Nat := (List.range 8).filter fun m =>
  ((s.tgt t).hdrs.any fun u => u.master == m) && (32 ≤ t || (s.chan t).room (s.tgt t).door.toList m)

/-- The beats of a unit at a target and the bytes of one beat (R167): a granule at a channel, 256 B at the keep controller, 4 B at
the register switch. -/
def beatsAt (t : Nat) (u : MUnit) : Nat := if t < 32 then u.gran else if t = 32 then ceilDiv u.gran 4 else 1
def beatBytes (t : Nat) : Nat := if t < 32 then 64 else if t = 32 then 256 else 4

/-- A header enters a target: a channel's at its door, T32's and T33's at once (R142, R167). -/
def Tgt.enter (g : Tgt) (t : Nat) (hdr : Option MUnit) : Tgt :=
  match hdr with
  | none => g
  | some u =>
    let g := { g with hdrs := g.hdrs.erase u }
    if t < 32 then { g with door := some u }
    else { g with xfers := g.xfers ++ [{ unit := u, beats := beatsAt t u, out := false }] }

/-- The request arbiter picks the master of the next header from the requests present (R176, R177). -/
def State.pickNext (s : State) (t : Nat) : State :=
  let g := s.tgt t
  let reqs := s.askers t
  match s.arbWin g.rank g.last reqs with
  | none => s.modTgt t fun g => { g with pick := none }
  | some w => s.modTgt t fun g => { g with pick := some w, rank := rerank g.rank reqs w, last := w }

/-- MORTAR_HEADER_HANDSHAKE (R177): the header picked one handshake ahead enters, and the master of the next is picked from
the requests then present. (DEDUCED, log entry 56) -/
def execMortarHeaderHandshake (t : Fin 34) (s : State) : Host.Outcome State Fault Refusal :=
  .next (
    let g := s.tgt t
    if g.door.isSome then s
    else
      let reqs := s.askers t
      let first := match g.pick with | some m => some m | none => s.arbWin g.rank g.last reqs
      match first with
      | none => s
      | some m =>
        let s := if g.pick.isSome then s
          else s.modTgt t fun g => { g with rank := rerank g.rank reqs m, last := m }
        let hdr := g.hdrs.find? fun u => u.master == m
        (s.modTgt t fun g => g.enter t hdr).pickNext t)

/-- The masters with a transfer at a target that may move now: class H, C and S within the cap of R183. -/
def Tgt.movers (g : Tgt) (t : Nat) : List Nat := (List.range 8).filter fun m =>
  (g.xfers.any fun x => x.unit.master == m) && (privileged m || 32 ≤ t || 64 ≤ g.capLeft)

/-- The first transfer of a master at a target. -/
def Tgt.xferOf (g : Tgt) (m : Nat) : Option Xfer := g.xfers.find? fun x => x.unit.master == m

/-- The first transfer of a master passed through a function. -/
def modFirst (f : Xfer → Xfer) (m : Nat) : List Xfer → List Xfer
  | [] => []
  | x :: xs => if x.unit.master = m then f x :: xs else x :: modFirst f m xs

def delFirst (m : Nat) : List Xfer → List Xfer
  | [] => []
  | x :: xs => if x.unit.master = m then xs else x :: delFirst m xs

/-- The data path passes to a master (R178). A grant that R180 gives is shielded from class P until it ends.
(DEDUCED, log entry 56) -/
def State.grant (s : State) (t : Nat) (reqs : List Nat) (w : Nat) (shield : Bool) : State :=
  s.modTgt t fun g => { g with
    owner := some w, burst := 0, since256 := 0, shield := shield, drank := rerank g.drank reqs w, dlast := w
    xfers := modFirst (fun x => { x with waited := 0 }) w g.xfers }

/-- The data path passes to the winner among masters, or to nobody. -/
def State.grantTo (s : State) (t : Nat) (reqs among : List Nat) : State :=
  let g := s.tgt t
  match s.arbWin g.drank g.dlast among with
  | some w => s.grant t reqs w false
  | none => s.modTgt t fun g => { g with owner := none }

/-- A transfer has moved its last beat: write data waits in the ingress buffer, read data is back at its master, and T32 and T33
have what they were sent. -/
def State.xferDone (s : State) (t : Nat) (x : Xfer) : State :=
  if 32 ≤ t then s.unitReturn x.unit []
  else if x.out then
    s.unitReturn x.unit ((List.range x.unit.gran).map fun i => (x.unit.first + i, sliceB x.unit.data (64 * i) 64))
  else
    (s.modChan t fun h => { h with
      ingress := h.ingress.map fun u => if u.ord = x.unit.ord then { u with dataIn := true } else u }).fillBanks t

/-- Who owns the beat that comes (R178, R179): a master that leads the owner at a level before rank preempts it, but for an owner
of class P, and but for a class P master under a shielded grant; the transfer that it cuts restarts from its first granule. -/
def State.beatOwner (s : State) (t : Nat) : State :=
  let g := s.tgt t
  let reqs := g.movers t
  match g.owner with
  | none => s.grantTo t reqs reqs
  | some o =>
    let lead := reqs.filter fun m => s.arbKey o < s.arbKey m && !(g.shield && privileged m)
    if privileged o = false ∧ lead.isEmpty = false ∧ (g.xferOf o).isSome then
      ((s.modTgt t fun g => { g with xfers := modFirst (fun x => { x with moved := 0 }) o g.xfers }).incFld
        (MTR_PREEMPT_COUNT o) 1).grantTo t reqs lead
    else if (g.xferOf o).isSome then s
    else s.grantTo t reqs reqs

/-- One beat of the owner's transfer (R167, R181, R183): what the others wait grows by it, the cap and the meter fall by it. -/
def State.beatMoves (s : State) (t o : Nat) (x : Xfer) : State :=
  let n := beatBytes t
  let s := s.modTgt t fun g => { g with
    burst := g.burst + max 1 (n / 64), since256 := g.since256 + n
    xfers := (modFirst (fun x => { x with moved := x.moved + 1 }) o g.xfers).map fun y =>
      if y.unit.master = o then y else { y with waited := y.waited + n } }
  let s := if t = 33 then s.add64 (MTR_BYTES_LO o) n else (if t < 32 then s.spend o t n else s).moved o n
  if x.moved + 1 < x.beats then s
  else (s.modTgt t fun g => { g with xfers := delFirst o g.xfers }).xferDone t x

/-- The end of a beat (R178, R180): at a 256 B boundary of a class P transfer the path passes to a request that has waited through
it; a grant ends when its owner has nothing more to move or has moved its burst, which a class P owner does at a boundary. -/
def State.beatEnds (s : State) (t o : Nat) : State :=
  let g := s.tgt t
  let reqs := g.movers t
  let edge := decide (256 ≤ g.since256)
  let waited := reqs.filter fun m => m != o && (g.xferOf m).any fun y => 256 ≤ y.waited
  match (if privileged o && edge then s.arbWin g.drank g.dlast waited else none) with
  | some w => s.grant t reqs w true
  | none =>
    let s := if edge then s.modTgt t fun g => { g with since256 := 0 } else s
    let spent := decide (max 1 (min 64 (s.actFld (MTR_BURST_GRAN o))) ≤ g.burst) && (!privileged o || edge)
    if (g.xferOf o).isNone || spent then
      (if (g.xferOf o).isSome then s.modTgt t fun g => { g with drank := setAt g.drank o 0 } else s).grantTo t reqs reqs
    else s

/-- MORTAR_DATA_BEAT (R178-R180): preemption at the beat boundary, one beat of the owner's transfer, and the end of the
grant. An owner whose data the cap of R183 holds moves nothing. -/
def execMortarDataBeat (t : Fin 34) (s : State) : Host.Outcome State Fault Refusal :=
  .next (
    let s := s.beatOwner t
    let g := s.tgt t
    match g.owner with
    | none => s
    | some o =>
      match g.xferOf o with
      | none => s.modTgt t fun g => { g with owner := none }
      | some x => if (g.movers t).contains o = false then s else (s.beatMoves t o x).beatEnds t o)

/-! ### Refresh bands and debts (R153-R157) -/

/-- The band of a channel's course. -/
def State.chanBand (s : State) (c : Nat) : Nat := s.mc.band.getD (c / 2) 1

/-- CAP of a channel in its band (R153). -/
def State.refCap (s : State) (c : Nat) : Nat :=
  let k := min 8 (s.fld (MC_REFCTL_CAP1X c))
  match s.chanBand c with | 0 => k | 1 => k | 2 => k / 2 | _ => k / 4

/-- The debt after a change of band (R157). -/
def debtShift (old new : Nat) (d : Int) : Int :=
  if old < new then (if 0 < d then d * ((2 ^ (new - old) : Nat) : Int) else 0)
  else -((-d) / ((2 ^ (old - new) : Nat) : Int))

/-- A course changes its band (R157): every bank's debt is converted, 0x0480 is posted, and 0x0481 where refreshes are
then forced. -/
def State.setBand (s : State) (d new : Nat) (est : Int) : State :=
  let old := s.mc.band.getD d 1
  if new = old then s
  else
    let s := { s with mc := { s.mc with band := setAt s.mc.band d new } }
    let s := [2 * d, 2 * d + 1].foldl (fun s c => s.modChan c fun h => { h with
      pcs := h.pcs.map fun p => { p with banks := p.banks.map fun b => { b with debt := debtShift old new b.debt } } }) s
    let s := s.post 0x0480 0 (d + 3) (new + 4 * old + 256 * twos 8 (est / 100))
    [2 * d, 2 * d + 1].foldl (fun s c =>
      let due := ((s.chan c).pcs.map fun p => p.banks.map fun (b : Bank) => (b.debt - (s.refCap c : Int)).toNat).flatten.filter (0 < ·)
      if due.isEmpty then s else s.post 0x0481 1 c (min 65535 due.sum + 65536 * due.length)) s

/-- REFRESH_DUE (R153, R156): the bank's debt rises by 1. In self-refresh and while the channel is down the course refreshes
itself. -/
def execRefreshDue (c : Fin 32) (pc : Fin 2) (bank : Fin 16) (s : State) : Host.Outcome State Fault Refusal :=
  .next (
    let h := s.chan c
    if h.st ≠ .active ∧ h.st ≠ .draining then s
    else
      let b := s.bank c pc bank
      let s := s.modBank c pc bank fun b => { b with debt := b.debt + 1 }
      if b.q.isEmpty ∨ b.debt + 1 ≤ 0 ∨ (s.refCap c : Int) < b.debt + 1 then s else s.incFld (MC_POSTPONE_COUNT c) 1)

/-! ### Timing (R151) -/

/-- The first slot in which a bank may be precharged: tRAS, tRTP, tWR, and no refresh under way. -/
def preAt (p : Pc) (b : Bank) : Nat :=
  [b.lastAct + 28, b.lastRd + 4, b.wrEnd + 16, p.abUntil, b.refUntil].foldl max 0

def canPre (p : Pc) (b : Bank) : Bool := decide (preAt p b ≤ p.now)

/-- The first slot in which a bank may be activated: tRC, tRP, tRRD, tFAW, and no refresh under way. -/
def actAt (p : Pc) (i : Nat) : Nat :=
  let b := p.bank i
  ([b.lastAct + 42, b.lastPre + 14, b.refUntil, p.abUntil, if p.acts.length < 4 then 0 else p.acts.getD 3 0 + 12] ++
    p.banks.zipIdx.map fun (x : Bank × Nat) => if x.2 = i then 0 else x.1.lastAct + (if bgOf x.2 = bgOf i then 4 else 2)).foldl max 0

/-- An activate is allowed; none while a targeted refresh is pending (R160). -/
def canAct (p : Pc) (i : Nat) : Bool := (p.bank i).trr.isNone && decide (actAt p i ≤ p.now)

/-- The first slot for a column command: tRCD, tCCD, and the turn of the data bus after the last write of each bank or after the
last read. -/
def colAt (p : Pc) (i : Nat) (write : Bool) : Nat :=
  let b := p.bank i
  ([b.lastAct + 14, p.abUntil, p.lastCol + (if p.lastColBg = bgOf i then 4 else 2)] ++
    (if write then [p.lastRd + 6]
     else p.banks.zipIdx.map fun (x : Bank × Nat) => x.1.wrEnd + (if bgOf x.2 = bgOf i then 8 else 4))).foldl max 0

def canCol (p : Pc) (i : Nat) (write : Bool) : Bool := decide (colAt p i write ≤ p.now)

/-- The first slot for a per-bank refresh of a bank whose row is closed: tRP, tRREFD, one bank of a group at a time (R155). -/
def refAt (p : Pc) (i : Nat) : Nat :=
  let b := p.bank i
  ([b.lastPre + 14, b.refUntil, p.abUntil, p.lastRef + 8] ++
    p.banks.zipIdx.map fun (x : Bank × Nat) => if x.2 = i ∨ bgOf x.2 ≠ bgOf i then 0 else x.1.refUntil).foldl max 0

def canRef (p : Pc) (i : Nat) : Bool := (p.bank i).row.isNone && decide (refAt p i ≤ p.now)

/-- The first slot for an all-bank refresh where every row is closed: tRP, and no bank refreshing. -/
def refAbAt (p : Pc) : Nat :=
  ([p.abUntil, p.lastRef + 8] ++ p.banks.map fun b => max (b.lastPre + 14) b.refUntil).foldl max 0

def canRefAb (p : Pc) : Bool := (p.banks.all fun b => b.row.isNone) && decide (refAbAt p ≤ p.now)

/-! ### Rank of a request (R145-R147) -/

/-- The urgency of R146: age against the latency target. -/
def urgency (age t : Nat) : Nat :=
  if t = 0 then 0
  else if t ≤ age then 4 else if 9 * t ≤ 10 * age then 3 else if 3 * t ≤ 4 * age then 2 else if t ≤ 2 * age then 1 else 0

def State.urgOf (s : State) (c : Nat) (p : Pc) (u : MUnit) : Nat := urgency (p.now - u.acc) (s.fld (MC_LTGT_NS c u.master))

/-- Class and urgency, with a class C or S request at U4 as class H at U0 (R145). -/
def State.classKey (s : State) (c : Nat) (p : Pc) (u : MUnit) : Nat :=
  let g := s.urgOf c p u
  if classRank u.master < 2 ∧ g = 4 then 20 else 10 * classRank u.master + g

/-- The full rank of a request in its bank: class, urgency, then row hit, which HITMAX hits in a row turn over to a waiting
miss of the same class and urgency (R149). -/
def State.unitKey (s : State) (c : Nat) (p : Pc) (b : Bank) (u : MUnit) : Nat :=
  let key := s.classKey c p u
  let hit := b.row == some (decodeAddr u.addr).row
  let spent := max 1 (s.fld (MC_PAGE_HITMAX c)) ≤ b.hits && b.hitKey == key &&
    b.q.any fun v => s.classKey c p v == key && b.row != some (decodeAddr v.addr).row
  2 * key + (if spent then b2n (!hit) else b2n hit)

/-- A request may go: no earlier overlapping request of its bank remains (R143), and its unit is not held. -/
def State.unitFree (s : State) (b : Bank) (u : MUnit) : Bool :=
  !(b.q.any fun v => v.ord < u.ord && overlapU u v) && !s.unitWaits u

/-- The highest-ranked request of a bank among those a test allows; the first of equals. -/
def State.bestOf (s : State) (c : Nat) (p : Pc) (b : Bank) (ok : MUnit → Bool) : Option MUnit :=
  (b.q.filter fun u => ok u && s.unitFree b u).foldl (fun best u =>
    match best with
    | none => some u
    | some v => if s.unitKey c p b v < s.unitKey c p b u then some u else some v) none

/-- A DRAM command. -/
inductive Cmd where
  | pre | act (row : Nat) | col (u : MUnit) | ref | refAb
deriving DecidableEq, Repr

/-- The command a bank's request needs next, and whether it is ready in this slot (R147). -/
def nextCmd (p : Pc) (i : Nat) (u : MUnit) : Cmd × Bool :=
  let b := p.bank i
  let row := (decodeAddr u.addr).row
  match b.row with
  | none => (.act row, canAct p i)
  | some r => if r = row then (.col u, canCol p i (u.op != 0)) else (.pre, canPre p b)

/-- The candidates of the slot: bank, command and rank of each bank's next command that is ready (R147 steps 2, 3): class, urgency,
then a column command to the open row. A bank that waits for a forced or targeted refresh has none. -/
def State.cands (s : State) (c : Nat) (p : Pc) (ok : MUnit → Bool) (held : Option Nat) : List (Nat × Cmd × Nat) :=
  (List.range 16).filterMap fun i =>
    let b := p.bank i
    if 0 < b.burst ∨ b.trr.isSome ∨ held = some i then none
    else match s.bestOf c p b ok with
      | none => none
      | some u =>
        let r := nextCmd p i u
        let hit := match r.1 with | .col _ => true | _ => false
        if r.2 then some (i, r.1, 2 * s.classKey c p u + b2n hit) else none

/-- The best candidate: the highest rank, and of equals the bank first at or after the rotation pointer (R150). -/
def bestCand (ptr : Nat) (cs : List (Nat × Cmd × Nat)) : Option (Nat × Cmd) :=
  (cs.foldl (fun best x =>
    match best with
    | none => some x
    | some y =>
      if y.2.2 < x.2.2 ∨ (y.2.2 = x.2.2 ∧ (x.1 + 16 - ptr) % 16 < (y.1 + 16 - ptr) % 16) then some x else some y)
    (none : Option (Nat × Cmd × Nat))).map fun x => (x.1, x.2.1)

/-! ### Read and write mode (R148) -/

def Pc.writes (p : Pc) : Nat := ((p.banks.map fun b => (b.q.filter fun u => u.op != 0).length)).sum
def Pc.reads (p : Pc) : Nat := ((p.banks.map fun b => (b.q.filter fun u => u.op == 0).length)).sum

/-- A request of a direction has reached U2. -/
def State.anyU2 (s : State) (c : Nat) (p : Pc) (write : Bool) : Bool :=
  p.banks.any fun b => b.q.any fun u => (u.op != 0) == write && 2 ≤ s.urgOf c p u

/-- The mode of a pseudo-channel after R148's table; true is write mode. (DEDUCED, log entry 50) -/
def State.modeNext (s : State) (c : Nat) (p : Pc) : Bool :=
  let whi := max 1 (s.fld (MC_BATCH_WHI c))
  let wlo := min (s.fld (MC_BATCH_WLO c)) (whi - 1)
  let bmax := max 1 (s.fld (MC_BATCH_BMAX c))
  let w := p.writes
  let r := p.reads
  if s.flag (MC_CTL_BATCHOFF c) then false
  else if p.writeMode then
    !(w ≤ wlo || (s.anyU2 c p false && !s.anyU2 c p true) || (bmax ≤ p.modeCols && 0 < r))
  else whi ≤ w || (r == 0 && 0 < w) || (s.anyU2 c p true && !s.anyU2 c p false)

/-! ### Issuing -/

/-- The counters of the row groups that one per-bank refresh covers are cleared (R153, R159). -/
def State.coverRows (s : State) (c pc i : Nat) : State :=
  let r := (s.bank c pc i).refRow
  let s := (List.range 3).foldl (fun s k =>
    { s with mc := { s.mc with acts := tdel s.mc.acts (actKey c pc i (12 * r + 4 * k)) } }) s
  s.modBank c pc i fun b => { b with refRow := (r + 1) % 8192, debt := b.debt - 1 }

/-- A per-bank refresh (R153). -/
def State.issueRef (s : State) (c pc i : Nat) (forced pulled : Bool) : State :=
  let now := ((s.chan c).pc pc).now
  let s := (s.coverRows c pc i).modBank c pc i fun b => { b with
    refUntil := now + 160, burst := b.burst - b2n forced
    restUntil := if forced ∧ b.burst = 1 ∧ (s.refCap c : Int) < b.debt then now + 160 + 200 else b.restUntil }
  let s := (s.modPc c pc fun p => { p with lastRef := now }).busyBg c (bgOf i) 1 |>.add64 (MC_REFPB_LO c) 1
  let s := if forced then s.incFld (MC_FORCED_COUNT c) 1 else s
  if pulled then s.incFld (MC_PULLIN_COUNT c) 1 else s

/-- The switch of a pin repair waits for the calibration step boundary of a pseudo-channel (R316); that of a shared TSV for the
first of either. (DEDUCED, log entry 158) -/
def Repair.waits (r : Repair) (c pc : Nat) : Bool :=
  !r.live && wKind r.word == 2 && wChan r.word == c && (80 ≤ wPin r.word || pinPc (wPin r.word) == pc)

def State.switchWaits (s : State) (c pc : Nat) : Bool := s.intg.repairs.any fun r => r.waits c pc

/-- A pin repair comes into force (R316): its event, and what a second and a fifth erasure and a lost shared TSV make of the
channel (R314). -/
def State.switchLands (s : State) (r : Repair) : State :=
  let c := wChan r.word
  let pin := wPin r.word
  let s := { s with intg := { s.intg with repairs := s.intg.repairs.map fun x => if x = r then { x with live := true } else x } }
  if wStby r.word ≠ 0x7F then s.post 0x0682 1 c (pin + 256 * wStby r.word)
  else if pin < 80 then
    let pc := pin / 40
    let s := s.post 0x0683 2 c pin
    let e := s.erasures c pc
    let s := if e = 2 then s.post 0x0684 3 c (pc + 2 * e) else s
    if e = 5 then (s.post 0x0685 3 c pc).updateScale else s
  else (s.post 0x0685 3 c 2).updateScale

/-- An all-bank refresh (R153); a committed delay change takes effect at its end (R158). -/
def State.issueRefAb (s : State) (c pc : Nat) : State :=
  let now := ((s.chan c).pc pc).now
  let s := ((List.range 16).foldl (fun s i => s.coverRows c pc i) s).busyAll c 1
  (s.modPc c pc fun p => { p with
    abUntil := now + 350, lastRef := now, pullAb := false, dlyArmed := p.dlyPend || s.switchWaits c pc }).incFld
      (MC_REFAB_COUNT c) 1

/-- The granules of a unit read by its master. -/
def State.readUnit (s : State) (u : MUnit) (obs : List CellObs) : State × MUnit × Bool :=
  let r := s.readGrans u.master obs ((List.range u.gran).map (u.addr / 64 + ·))
  (r.1, { u with data := rdData r.2.1, bad := (r.2.1.zipIdx.filter fun d => d.1.isNone).map fun d => u.first + d.2 }, r.2.2)

/-- The granules of a write unit written; `bad` are those not performed. -/
def State.writeUnit (s : State) (u : MUnit) (obs : List CellObs) : State × MUnit × Bool :=
  (List.range u.gran).foldl (fun (r : State × MUnit × Bool) i =>
    let w := r.1.writeGran u.master obs u.wasDirty (u.addr / 64 + i) (u.masks.getD i 0) (sliceB u.data (64 * i) 64)
    (w.1, (if w.2.1 then r.2.1 else { r.2.1 with bad := r.2.1.bad ++ [u.first + i] }), r.2.2 || w.2.2)) (s, u, false)

/-- An atomic unit performed (R85). -/
def State.atomicUnit (s : State) (u : MUnit) (obs : List CellObs) : State × MUnit × Bool :=
  match s.mtr.xacts.find? fun x => x.id == u.xact with
  | none => (s, u, false)
  | some x =>
    let r := s.doAtomic u.master x.pkt obs u.wasDirty
    match r.2 with
    | none => (r.1, u, true)
    | some (0, d) => (r.1, { u with data := d }, false)
    | some _ => (r.1, { u with bad := [0] }, false)

/-- A unit of the device's own masters has its effect with its own command; here its granules are counted. -/
def State.ownUnit (s : State) (u : MUnit) : State :=
  (List.range u.gran).foldl (fun s i => s.countGran (u.op != 0) (u.addr / 64 + i)) s

/-- A unit whose last column command has issued is performed: read data goes to the data path, an unreported write returns
(R144). One that must wait for a recovery keeps its place. -/
def State.finishUnit (s : State) (c pc i : Nat) (u : MUnit) (obs : List CellObs) : State :=
  let r := if u.own.isSome then (s.ownUnit u, u, false)
    else if u.op = 0 then s.readUnit u obs else if u.op = 1 then s.writeUnit u obs else s.atomicUnit u obs
  if r.2.2 then r.1.modBank c pc i fun b => { b with q := b.q.map fun v => if v.ord = u.ord then { v with col := 0 } else v }
  else
    let u' := r.2.1
    let s := r.1.modBank c pc i fun b =>
      let q := b.q.filter fun v => v.ord != u.ord
      { b with q := q, idleSince := if q.isEmpty then ((s.chan c).pc pc).now else b.idleSince }
    if u.op = 0 then s.modTgt c fun t => { t with xfers := t.xfers ++ [{ unit := u', beats := u.gran, out := true }] }
    else if u.reported then s
    else s.unitReturn u' (if u.op = 1 then [] else [(0, u'.data)])

/-- Page policy after the last queued column command to a row (R149). -/
def State.pagePolicy (s : State) (c pc i : Nat) : State :=
  let p := (s.chan c).pc pc
  let b := p.bank i
  let more := b.q.any fun u => b.row == some (decodeAddr u.addr).row
  let pol := s.fld (MC_CTL_POLICY c)
  if more ∨ b.row.isNone ∨ pol = 1 then s
  else if pol ≠ 2 ∧ 2 ≤ b.pred then s.modBank c pc i fun b => { b with kept := true }
  else
    let at_ := max (b.lastAct + 28) (max (b.lastRd + 4) (b.wrEnd + 16))
    (s.closeRow c pc i at_).modBank c pc i fun b' => { b' with apRow := b.row, apAt := p.now }

/-- What a column command to an open row does to its bank and to the data bus (R149, R151, R166); `key` is the class and urgency
of its request. -/
def State.colMoves (s : State) (c pc i : Nat) (w : Bool) (key : Nat) : State :=
  let p := (s.chan c).pc pc
  let b := p.bank i
  let miss := b.q.any fun v => b.row != some (decodeAddr v.addr).row
  let s := (s.add64 (MC_HIT_LO c) 1).modBank c pc i fun b => { b with
    kept := false
    hits := if miss then (if b.hitKey = key then b.hits + 1 else 1) else 0, hitKey := key
    lastRd := if w then b.lastRd else p.now, wrEnd := if w then p.now + 10 else b.wrEnd }
  s.modPc c pc fun p => { p with
    lastCol := p.now, lastColBg := bgOf i, modeCols := p.modeCols + 1
    lastRd := if w then p.lastRd else p.now }

/-- A column command of a unit (R146, R149, R151). -/
def State.issueCol (s : State) (c pc i : Nat) (u : MUnit) (obs : List CellObs) : State :=
  let u' := { u with col := u.col + 1 }
  let s := (s.colMoves c pc i (u.op != 0) (s.classKey c ((s.chan c).pc pc) u)).modBank c pc i fun b => { b with
    q := b.q.map fun v => if v.ord = u.ord then u' else v }
  if u'.col < u.gran then s else (s.finishUnit c pc i u' obs).pagePolicy c pc i

/-- Tracked codes that wait for a commit boundary apply (R356): the step trim of the channel (key c) and the TSV impedance
(key 100). -/
def State.applyTracked (s : State) (c : Nat) : State :=
  let s := match tget s.cal.pend c with
    | some v => s.setFld (CAL_DSTEP_TRIM c) v
    | none => s
  let s := match tget s.cal.pend 100 with
    | some v => s.setReg CAL_ZTSV v
    | none => s
  { s with cal := { s.cal with pend := tdel (tdel s.cal.pend c) 100 } }

/-- A pseudo-channel's calibration step boundary (R158, R316): the delay values that a commit captured take effect, of its own pins
and with the second pseudo-channel of the shared ones, and so do the pin switches that wait. (DEDUCED, log entry 51) -/
def State.applyDly (s : State) (c pc : Nat) : State :=
  let s := (s.intg.repairs.filter fun r => r.waits c pc).foldl State.switchLands s
  if ((s.chan c).pc pc).dlyPend = false then s.modPc c pc fun p => { p with dlyArmed := false }
  else
  let cap := (s.chan c).dlyCap
  let other := ((s.chan c).pc (1 - pc)).dlyPend
  let mine := fun (pin : Nat) =>
    if pin < 80 then pin / 40 == pc else if pin < 84 then (pin - 80) / 2 == pc else !other
  let s := (List.range 120).foldl (fun s pin =>
    if mine pin then
      let a := MC_DLY c (pin / 4)
      let lo := 8 * (pin % 4)
      { s with act := tset s.act a (setBits (s.actReg a) (lo + 7) lo (getBits (cap.getD (pin / 4) 0) (lo + 7) lo)) }
    else s) s
  (s.modPc c pc fun p => { p with dlyPend := false, dlyArmed := false }).applyTracked c

/-- Requests of the masters given have reached U4 at a channel: they are counted, and 0x0880 is posted at most once a second for
the channel (R146). -/
def State.noteMisses (s : State) (c : Nat) (ms : List Nat) : State :=
  let s := ms.foldl (fun s m => s.incFld (MC_MISS_COUNT c m) 1) s
  let h := s.chan c
  let ts := (h.missNow.filter fun t => s.clock < t + 10 ^ 9) ++ List.replicate ms.length s.clock
  let due := match h.miss0880 with | none => true | some t => t + 10 ^ 9 ≤ s.clock
  let s := s.modChan c fun h => { h with missNow := ts }
  if due then
    (s.modChan c fun h => { h with miss0880 := some s.clock }).post 0x0880 1 c (ms.headD 0 + 65536 * min 65535 ts.length)
  else s

/-- Requests of the ingress buffer and the bank queues that reach U4 are counted (R146). -/
def State.countMisses (s : State) (c pc : Nat) : State :=
  let p := (s.chan c).pc pc
  let isLate := fun (u : MUnit) => !u.missed && s.urgOf c p u == 4
  let late := (s.chan c).ingress.filter (fun u => (decodeAddr u.addr).pc == pc && isLate u) ++
    (p.banks.map fun b => b.q.filter isLate).flatten
  match late with
  | [] => s
  | _ =>
    let note := fun (v : MUnit) => if late.any fun w => w.ord == v.ord then { v with missed := true } else v
    let s := s.modChan c fun h => { h with ingress := h.ingress.map note }
    let s := s.modPc c pc fun p => { p with banks := p.banks.map fun b => { b with q := b.q.map note } }
    s.noteMisses c (late.map fun u => u.master)

/-- A forced burst begins where the debt is over the cap, in one bank of a group at a time (R155, R156). -/
def State.startBursts (s : State) (c pc : Nat) : State :=
  let cap := s.refCap c
  (List.range 16).foldl (fun s i =>
    let p := (s.chan c).pc pc
    let b := p.bank i
    let free := p.banks.zipIdx.all fun x => x.2 == i || bgOf x.2 != bgOf i || (x.1.refUntil ≤ p.now && x.1.burst == 0)
    if b.burst = 0 ∧ (cap : Int) < b.debt ∧ b.restUntil ≤ p.now ∧ free then
      s.modBank c pc i fun b => { b with burst := min (b.debt - cap).toNat 8 }
    else s) s

/-- The refresh the slot issues before any request (R147 step 1, R154): targeted ones, so that none waits behind a burst of its
group (R159), forced ones, an all-bank refresh pulled in for R158, then a due refresh of a bank without a queued request.
(DEDUCED, log entry 51) -/
def State.pickRefresh (s : State) (c pc : Nat) : Option (Nat × Cmd × Bool) :=
  let h := s.chan c
  let p := h.pc pc
  let heldBank := match h.hold with | some (q, b) => if q = pc then some b else none | none => none
  let urgent := fun (which : Bank → Bool) => (List.range 16).findSome? fun i =>
    let b := p.bank i
    if which b then
      if b.row.isSome then (if canPre p b then some (i, Cmd.pre, true) else none)
      else if canRef p i then some (i, Cmd.ref, true) else none
    else none
  let quiet := p.banks.all fun b => b.q.isEmpty && 1 ≤ b.debt
  let ab := (p.pullAb || quiet) && heldBank.isNone
  let allBank := if ab then
      if canRefAb p then some (0, Cmd.refAb, false)
      else (List.range 16).findSome? fun i =>
        if (p.bank i).row.isSome ∧ canPre p (p.bank i) then some (i, Cmd.pre, false) else none
    else none
  let due := (List.range 16).findSome? fun i =>
    let b := p.bank i
    if b.q.isEmpty ∧ 0 < b.debt ∧ heldBank ≠ some i then
      if b.row.isSome then (if canPre p b then some (i, Cmd.pre, false) else none)
      else if canRef p i then some (i, Cmd.ref, false) else none
    else none
  (((urgent fun b => b.trr.isSome).orElse fun _ => urgent fun b => 0 < b.burst).orElse fun _ => allBank).orElse fun _ =>
    if ab then none else due

/-- A refresh pulled in where nothing else is ready (R154). (DEDUCED, log entry 51) -/
def State.pickPullIn (s : State) (c pc : Nat) : Option (Nat × Cmd × Bool) :=
  let p := (s.chan c).pc pc
  let idle := s.fld (MC_PAGE_IDLE_NS c)
  let held := match (s.chan c).hold with | some (q, b) => if q = pc then some b else none | none => none
  if s.flag (MC_CTL_PULLINOFF c) then none
  else (List.range 16).findSome? fun i =>
    let b := p.bank i
    if b.q.isEmpty ∧ held ≠ some i ∧ b.debt ≤ 0 ∧ -(s.refCap c : Int) < b.debt ∧ b.idleSince + idle ≤ p.now ∧ canRef p i then
      some (i, Cmd.ref, false) else none

/-- A command issues. -/
def State.issueCmd (s : State) (c pc : Nat) (obs : List CellObs) (forced pulled : Bool) (i : Nat) (cmd : Cmd) : State :=
  let b := s.bank c pc i
  let now := ((s.chan c).pc pc).now
  match cmd with
  | .pre =>
    let lower := b.kept && s.adaptive c && !b.q.isEmpty
    (s.closeRow c pc i now).modBank c pc i fun b => { b with pred := if lower then b.pred - 1 else b.pred }
  | .act row => s.issueAct c pc i row
  | .col u => s.issueCol c pc i u obs
  | .ref => match b.trr with
    | some row => s.issueTrr c pc i row
    | none => s.issueRef c pc i forced pulled
  | .refAb => s.issueRefAb c pc

/-- The pick of the slot among requests (R147 steps 2 and 3). (DEDUCED, log entry 50) -/
def State.pickRequest (s : State) (c pc : Nat) : Option (Nat × Cmd) :=
  let h := s.chan c
  let p := h.pc pc
  let held := match h.hold with | some (q, b) => if q = pc then some b else none | none => none
  let dir := fun (u : MUnit) => ((u.op != 0) == p.writeMode) || privileged u.master || 3 ≤ s.urgOf c p u
  let near := if s.flag (MC_CTL_BATCHOFF c) then [] else s.cands c p dir held
  if p.pullAb ∧ held.isNone then none
  else if near.isEmpty then bestCand p.ptr (s.cands c p (fun _ => true) held) else bestCand p.ptr near

/-- A pseudo-channel's mode (R148): a change is counted. -/
def State.setMode (s : State) (c pc : Nat) (mode : Bool) : State :=
  if mode = ((s.chan c).pc pc).writeMode then s
  else
    let s := s.modPc c pc fun p => { p with writeMode := mode, modeCols := 0 }
    if s.flag (MC_CTL_BATCHOFF c) then s else s.incFld (MC_BATCHSW_COUNT c) 1

/-- What a slot begins with: a delay change due takes effect (R158), the bank queues fill (R144), misses are counted (R146), the
direction is settled (R148) and forced bursts begin (R156). (DEDUCED, log entry 50) -/
def State.slotOpens (s : State) (c pc : Nat) : State :=
  let p0 := (s.chan c).pc pc
  let s := if p0.dlyArmed ∧ p0.abUntil ≤ p0.now then s.applyDly c pc else s
  let s := (s.fillBanks c).countMisses c pc
  let p := (s.chan c).pc pc
  (s.setMode c pc (s.modeNext c p)).startBursts c pc

/-- The command of a slot issues (R147, R154): a refresh that goes first, else a request's, else a refresh pulled in. -/
def State.slotIssues (s : State) (c pc : Nat) (obs : List CellObs) : State :=
  match s.pickRefresh c pc with
  | some (i, cmd, forced) => s.issueCmd c pc obs forced false i cmd
  | none =>
    match s.pickRequest c pc with
    | some (i, cmd) => s.issueCmd c pc obs false false i cmd
    | none =>
      match s.pickPullIn c pc with
      | some (i, cmd, _) => s.issueCmd c pc obs false true i cmd
      | none => s

/-- OPEN_ROW_IDLE_TIMEOUT (R149): under the adaptive policy a kept-open row closes, and the predictor falls. -/
def execOpenRowIdleTimeout (c : Fin 32) (pc : Fin 2) (bank : Fin 16) (s : State) : Host.Outcome State Fault Refusal :=
  .next (
    let p := (s.chan c).pc pc
    let b := p.bank bank
    if b.kept ∧ b.row.isSome ∧ b.q.isEmpty ∧ s.adaptive c then
      (s.closeRow c pc bank (max p.now (max (b.lastAct + 28) (max (b.lastRd + 4) (b.wrEnd + 16))))).modBank c pc bank
        fun b => { b with pred := b.pred - 1 }
    else s)

/-! ### Idle and self-refresh (R161-R164) -/

/-- The slots of a pseudo-channel pass until a time. -/
def State.slotAt (s : State) (c pc t : Nat) : State := s.modPc c pc fun p => { p with now := max p.now t }

/-- A slot has passed with its command. -/
def State.slotEnds (s : State) (c pc : Nat) : State := s.modPc c pc fun p => { p with now := p.now + 1 }

/-- A bank's open row is precharged in the first slot that R151 allows. -/
def State.preGo (s : State) (c pc i : Nat) : State :=
  if (s.bank c pc i).row.isNone then s
  else
    let s := s.slotAt c pc (preAt ((s.chan c).pc pc) (s.bank c pc i))
    (s.closeRow c pc i ((s.chan c).pc pc).now).slotEnds c pc

/-- A targeted refresh that is due issues in the first slot that R155 allows (R159). -/
def State.trrGo (s : State) (c pc i : Nat) : State :=
  match (s.bank c pc i).trr with
  | none => s
  | some row => ((s.slotAt c pc (refAt ((s.chan c).pc pc) i)).issueTrr c pc i row).slotEnds c pc

/-- A per-bank refresh pulled in, in the first slot that R155 allows. -/
def State.refGo (s : State) (c pc i : Nat) : State :=
  ((s.slotAt c pc (refAt ((s.chan c).pc pc) i)).issueRef c pc i false true).slotEnds c pc

/-- An all-bank refresh in the first slot that R151 allows; a delay change that waits for it takes effect at its end (R158). -/
def State.refAbGo (s : State) (c pc : Nat) : State :=
  let s := ((s.slotAt c pc (refAbAt ((s.chan c).pc pc))).issueRefAb c pc).slotEnds c pc
  let p := (s.chan c).pc pc
  if p.dlyArmed then (s.slotAt c pc p.abUntil).applyDly c pc else s

/-- The row groups that `n` all-bank refreshes of each pseudo-channel cover have their activation counters cleared (R153,
R159). -/
def State.coverAll (s : State) (c : Nat) (n : List Nat) : State :=
  let covered := fun (key : Nat) =>
    let i := key / 24576
    let from_ := 3 * (s.bank c (i / 16 % 2) (i % 16)).refRow
    i / 32 == c && (key % 24576 + 24576 - from_ % 24576) % 24576 < 3 * n.getD (i / 16 % 2) 0
  State.busyAll { s with mc := { s.mc with acts := s.mc.acts.filter fun e => !covered e.1 } } c n.sum

/-- Every row of a channel closes, and a targeted refresh that is due issues directly after (R159). -/
def State.closeAll (s : State) (c : Nat) : State :=
  (List.range 2).foldl (fun s i => (List.range 16).foldl (fun s b => (s.preGo c i b).trrGo c i b) s) s

/-- The channel enters self-refresh: rows closed, all-bank refreshes until no debt is left (R161 steps 3-5). Reads that were not
abandoned stay queued. -/
def State.enterSref (s : State) (c : Nat) : State :=
  let s := s.closeAll c
  let s := (List.range 2).foldl (fun s i =>
    let n := (((s.chan c).pc i).banks.foldl (fun (m : Int) (b : Bank) => max m b.debt) 0).toNat
    (List.range n).foldl (fun s _ => s.refAbGo c i) s) s
  let s := s.modChan c fun h => { h with
    st := .selfref
    pcs := h.pcs.map fun p => { p with
      sref := true, pullAb := false, banks := p.banks.map fun b => { b with burst := 0, kept := false } } }
  s.incFld (MC_SRCNT_COUNT c) 1

/-- Writes of the lattice sit in a channel's bank queues: complete under R144, and not yet in DRAM (R161 step 2). -/
def Chan.undrained (h : Chan) : Bool := h.pcs.any fun p => p.banks.any fun b => b.q.any fun u => u.op == 1 && u.own.isNone

/-- A DRAINING channel whose queued writes are written, and whose bank no self-test slice holds, enters self-refresh (R161, R363). -/
def State.drained (s : State) (c : Nat) : State :=
  let h := s.chan c
  if h.st = .draining ∧ h.hold.isNone ∧ h.undrained = false then s.enterSref c else s

/-- An idle request (R161): an ACTIVE channel is DRAINING until its queued writes are written in its command slots, and a
self-test slice that holds its bank has ended (R363); then it enters self-refresh. (DEDUCED, log entry 53) -/
def State.idleChannel (s : State) (c : Nat) : State :=
  if (s.chan c).st = .active then (s.modChan c fun h => { h with st := .draining }).drained c else s

/-- Every row of a channel is precharged by its course, which keeps the activation counters (R159). -/
def State.rowsClose (s : State) (c : Nat) : State :=
  (List.range 2).foldl (fun s i => (List.range 16).foldl (fun s b => s.closeRow c i b ((s.chan c).pc i).now) s) s

/-- Completed writes of the lattice that a channel holds unwritten, by pseudo-channel (R161 step 6). -/
def Chan.unwritten (h : Chan) : List Nat :=
  h.pcs.map fun p => ((p.banks.map fun b => (b.q.filter fun u => u.reported && u.own.isNone).length)).sum

/-- What a channel's queues hold of the units that a test picks; a bank whose queue this empties has no request from now on
(R154). -/
def Chan.only (h : Chan) (p : MUnit → Bool) : Chan :=
  { h with
    ingress := h.ingress.filter p
    pcs := h.pcs.map fun q => { q with banks := q.banks.map fun b => { b with
      q := b.q.filter p, idleSince := if b.q.isEmpty || b.q.any p then b.idleSince else q.now } } }

/-- A write that is complete under R144 and not yet in DRAM: what an idle request writes first (R161). -/
def MUnit.owed (u : MUnit) : Bool := u.reported && u.own.isNone

/-- Self-refresh is not reached within 10 µs (R161 step 6, R163): the clock stops, the course refreshes itself, and completed
writes that were not written are lost and counted by 0x0881. -/
def State.idleFails (s : State) (c : Nat) : State :=
  let lost := (s.chan c).unwritten
  let s := (s.rowsClose c).modChan c fun h =>
    let h := h.only fun u => !u.owed
    { h with
      st := .down, hold := none
      pcs := h.pcs.map fun p => { p with sref := true, banks := p.banks.map fun b => { b with burst := 0 } } }
  s.post 0x0881 3 c (min 65535 lost.sum + 65536 * b2n (0 < lost.getD 1 0))

/-- One slot of a pseudo-channel (R147), and what a drained channel goes on to (R161). -/
def State.slot (s : State) (c pc : Nat) (obs : List CellObs) : State :=
  if (s.chan c).st ≠ .active ∧ (s.chan c).st ≠ .draining then s
  else (((s.slotOpens c pc).slotIssues c pc obs).slotEnds c pc).drained c

/-- A bank is held for a self-test slice or a row repair (R158): its row closes, with a targeted refresh that this makes due;
refreshes are pulled in until DEBT ≤ CAP - 3, so that none is forced inside the hold; and the hold stands.
(DEDUCED, log entry 51) -/
def State.takeHold (s : State) (c pc bank : Nat) : State :=
  let s := (s.preGo c pc bank).trrGo c pc bank
  let n := ((s.bank c pc bank).debt - ((s.refCap c : Int) - 3)).toNat
  let s := (List.range n).foldl (fun s _ => s.refGo c pc bank) s
  let s := s.modBank c pc bank fun b => { b with burst := 0 }
  s.modChan c fun h => { h with hold := some (pc, bank) }

/-- A channel leaves self-refresh (R162): one all-bank refresh to each pseudo-channel, every debt 0. -/
def State.exitSref (s : State) (c : Nat) : State :=
  ((s.coverAll c [1, 1]).modChan c fun h => { h with
    st := .active
    pcs := h.pcs.zipIdx.map fun x => { x.1 with
      sref := false, abUntil := x.1.now + 360 + 350, lastRef := x.1.now + 360, dlyArmed := x.1.dlyPend || s.switchWaits c x.2
      banks := x.1.banks.map fun b => { b with debt := 0, refRow := (b.refRow + 1) % 8192, burst := 0, row := none } } }).incFld (MC_REFAB_COUNT c) 2

/-- Training of a channel is complete (R163): ACTIVE, with rotation pointers and predictors at their reset values. -/
def State.trained (s : State) (c : Nat) : State :=
  (s.exitSref c).modChan c fun h => { h with
    pcs := h.pcs.map fun p => { p with ptr := 0, banks := p.banks.map fun b => { b with pred := 2 } } }

/-- SELF_REFRESH_EXIT (R162, R163). -/
def execSelfRefreshExit (c : Fin 32) (s : State) : Host.Outcome State Fault Refusal :=
  .next (if (s.chan c).st = .selfref then s.exitSref c else s)

/-! ### Delay commits (R158) -/

/-- MC_DLYAPPLY_c (R39, R158): APPLY commits the shadow group as it stands, for the next all-bank refresh. -/
def State.dlyCommit (s : State) (c : Nat) : State :=
  s.modChan c fun h => { h with
    dlyCap := (List.range 30).map fun n => s.reg (MC_DLY c n)
    pcs := h.pcs.map fun p => { p with dlyPend := true, dlyArmed := false } }

def execMcDlyapply (a : Access) (c : Fin 32) (v : Word) (s : State) : Host.Outcome State Fault Refusal :=
  .next (s.cfgWrite a (MC_DLYAPPLY c) fun s => if bitAt v.toNat 0 then s.dlyCommit c else s)

/-- DLY_APPLY_PULLIN_TIMEOUT (R158): no all-bank refresh for 100 µs after a commit; the pseudo-channel pulls one in. -/
def execDlyApplyPullinTimeout (c : Fin 32) (pc : Fin 2) (s : State) : Host.Outcome State Fault Refusal :=
  .next (if ((s.chan c).pc pc).dlyPend || s.switchWaits c pc then s.modPc c pc fun p => { p with pullAb := true } else s)

/-! ### A request on an idle way -/

/-- A bank's row is opened in the first slots that R151 allows (R149, R150, R159). -/
def State.openRow (s : State) (c pc i row : Nat) : State :=
  let b := s.bank c pc i
  if b.row = some row then s
  else
    let s := if b.kept ∧ s.adaptive c then s.modBank c pc i fun b => { b with pred := b.pred - 1 } else s
    let s := (s.preGo c pc i).trrGo c pc i
    ((s.slotAt c pc (actAt ((s.chan c).pc pc) i)).issueAct c pc i row).slotEnds c pc

/-- A column command in the first slot that R151 allows. -/
def State.colGo (s : State) (c pc i : Nat) (w : Bool) (key : Nat) : State :=
  ((s.slotAt c pc (colAt ((s.chan c).pc pc) i w)).colMoves c pc i w key).slotEnds c pc

/-- Both arbiters of a target decide for the one master that asks (R176). -/
def Tgt.serves (t : Tgt) (m : Nat) : Tgt :=
  { t with rank := rerank t.rank [m] m, last := m, drank := rerank t.drank [m] m, dlast := m, shield := false }

/-- One unit of a request passes through an idle target and an idle channel: what its header, its place in the queues, its DRAM
commands in their slots and its beats leave (R142, R146, R148-R151, R166, R176, R183). -/
def State.unitPasses (s : State) (m : Nat) (w : Bool) (g n : Nat) : State :=
  let l := decodeAddr (64 * g)
  let c := l.ch
  let now := ((s.chan c).pc l.pc).now
  let s := ((s.modTgt c fun t => t.serves m).modChan c fun h => { h with ord := h.ord + 1 }).maxFld (MC_INGRESS_PEAK c) 1
  let s := if s.adaptive c then s.modBank c l.pc l.bank fun b => b.arrive l.row now (s.fld (MC_PAGE_IDLE_NS c)) else s
  let s := (s.setMode c l.pc (w && !s.flag (MC_CTL_BATCHOFF c))).openRow c l.pc l.bank l.row
  let s := (List.range n).foldl (fun s _ => s.colGo c l.pc l.bank w (10 * classRank m)) s
  let last := ((s.chan c).pc l.pc).lastCol
  let s := if urgency (last - now) (s.fld (MC_LTGT_NS c m)) = 4 then s.noteMisses c [m] else s
  ((s.pagePolicy c l.pc l.bank).modBank c l.pc l.bank fun b => { b with idleSince := last }).spend m c (64 * n)

/-- A target and its channel have nothing to do: no header, transfer or grant, an ACTIVE channel without a request or a hold. -/
def State.wayIdle (s : State) (c : Nat) : Bool :=
  let t := s.tgt c
  let h := s.chan c
  t.hdrs.isEmpty && t.pick.isNone && t.door.isNone && t.xfers.isEmpty && t.owner.isNone &&
  h.st == .active && h.units.isEmpty && h.hold.isNone

/-- No refresh and no delay change goes before a request of a pseudo-channel (R154, R156, R158, R159). -/
def Pc.settled (p : Pc) : Bool :=
  !p.pullAb && !p.dlyArmed && p.banks.all fun b => b.burst == 0 && b.trr.isNone && decide (b.debt ≤ 0)

end Sys2Proof.Machine
end

