-- ==== Sys2Proof/Machine/Admission.lean ====
section
/-! DEFINITION. Memory requests at their master ports: refused, held, issued into mortar, or performed and answered where their
way is idle (R82, R83, R103, R169, R172, R173, R188, R254). -/

namespace Sys2Proof.Machine

/-! ### A request whose way is idle -/

/-- A granule of a request waits at the channel: for a recovery of its unit, or for the restore of its page (R264, R309). -/
def State.mustHold (s : State) (k : Pkt) : Bool :=
  s.unrestored (pageOf k.addr.toNat) || (pktGranList k).any s.unitHeld

/-- The way of a request of master `p` through mortar and its channels is idle, none of its granules waits at its channel, and the
caps of R183 leave room for its data: nothing stands before it, and it meets no decision but its own. (DEDUCED, log entry 55) -/
def State.clearWay (s : State) (p : Nat) (k : Pkt) : Bool :=
  !s.mustHold k && (unitsOf (k.addr.toNat / 64) (pktGrans k)).all fun u =>
    let l := decodeAddr (64 * u.1)
    s.wayIdle l.ch && ((s.chan l.ch).pc l.pc).settled && s.capOk p l.ch (64 * u.2)

/-- A request passes through an idle way: what each of its units leaves there, and the bytes that it moves for its master
(R166, R169, R181). -/
def State.passes (s : State) (p : Nat) (k : Pkt) : State :=
  ((unitsOf (k.addr.toNat / 64) (pktGrans k)).foldl (fun s u => s.unitPasses p (k.opc.toNat != 1) u.1 u.2) s).moved p
    (64 * pktGrans k)

/-- A write admitted at its master port sets its page's dirty bit before it is performed (R243); the second part is the
dirty state the write carries (R308). -/
def State.admitWrite (s : State) (k : Pkt) : State × Bool :=
  let page := pageOf k.addr.toNat
  (if canWrite k then s.markDirty page else s, s.keep.isDirty page)

/-- A request that no cause of R173 holds leaves its master port: where its way is idle it is performed and answered, and where a
granule of it then waits for a recovery, or its way is not idle, it is issued into mortar. (DEDUCED, log entry 55) -/
def State.admitReq (s : State) (p : Nat) (k : Pkt) (obs : List CellObs) : State :=
  let r := s.admitWrite k
  if s.clearWay p k then
    let x := r.1.doReq p k obs r.2
    match x.2 with
    | none => x.1.issue p k r.2
    | some (st, data) => (x.1.passes p k).answer p k st 0 data
  else r.1.issue p k r.2

/-! ### Requests at a master port -/

/-- A request parked at its master port (R173); it stays in the port's receive buffer until it is admitted (R96). -/
def State.park (s : State) (p : Nat) (k : Pkt) : State :=
  s.modMaster p fun x => if vcClass k.vc.toNat = 2 then { x with mgt := x.mgt ++ [Parked.mk p k] }
    else { x with req := x.req ++ [Parked.mk p k] }

/-- A request waits at its master port: for a cause of R173, or behind an earlier request of its queue.
(DEDUCED, log entry 55) -/
def State.mustPark (s : State) (p : Nat) (k : Pkt) : Bool :=
  (if vcClass k.vc.toNat = 2 then !(s.master p).mgt.isEmpty else !(s.master p).req.isEmpty) || s.holdCause p k != 0

/-- MASTER_PORT_ADMIT (R172, R173): the request at the head of a queue of M0-M3 is admitted once no cause holds it, leaves
the port's receive buffer, and is issued into mortar; after a PORT reset not before the link restarts (R188). Of M4-M7 the accesses
that wait in their one queue go as far as they may, and requests to this stack by its own coordinate as those of M0-M3 do.
(DEDUCED, log entry 55; DEDUCED, log entry 142) -/
def execMasterPortAdmit (m : Fin 8) (mgt : Bool) (s : State) : Host.Outcome State Fault Refusal :=
  .next (
    let x := s.master m
    match (if mgt then x.mgt else x.req) with
    | [] => s.serveAll m
    | h :: _ =>
      if s.inService = false ∨ s.holdCause m h.pkt ≠ 0 ∨ (m.val < 4 ∧ (s.port m).rstHold) then s
      else
        let s := s.modMaster m fun x => if mgt then { x with mgt := x.mgt.drop 1 } else { x with req := x.req.drop 1 }
        let r := (s.takeRx h.port h.pkt).admitWrite h.pkt
        r.1.issue h.port h.pkt r.2)

/-- A memory request arrives at this stack (R82, R83, R103): refused, or admitted, or held at its master port where R173 holds it,
an earlier request waits, or its port was reset and its link has not restarted (R188). (DEDUCED, log entry 31) -/
def State.memReq (s : State) (p : Nat) (k : Pkt) (obs : List CellObs) : State :=
  if s.packetsReach p = false then s
  else if hopsOn k then s.hopOn p k
  else if k.nbr then (s.takeRx p k).answer p k (if s.dev = .saving then 3 else 4) 0 []
  else if s.hasCoord = false ∨ k.dest.toNat ≠ s.me then s.transit p k
  else
    let t := s.takeRx p k
    if s.dev = .saving then t.answer p k 3 0 []
    else if reqBad k then t.answer p k 4 0 []
    else if s.dev = .bringup then t.answer p k 5 0 []
    else if s.dev = .recovery then t.answer p k 4 0 []
    else if s.mustPark p k || (s.port p).rstHold then s.park p k
    else t.admitReq p k obs

/-- RD (R83). -/
def execRd (p : Fin 4) (k : Pkt) (obs : List CellObs) (s : State) : Host.Outcome State Fault Refusal :=
  .next (s.memReq p k obs)

/-- WR (R84). -/
def execWr (p : Fin 4) (k : Pkt) (obs : List CellObs) (s : State) : Host.Outcome State Fault Refusal :=
  .next (s.memReq p k obs)

/-- FADD (R85). -/
def execFadd (p : Fin 4) (k : Pkt) (obs : List CellObs) (s : State) : Host.Outcome State Fault Refusal :=
  .next (s.memReq p k obs)

/-- CAS64 (R85). -/
def execCas64 (p : Fin 4) (k : Pkt) (obs : List CellObs) (s : State) : Host.Outcome State Fault Refusal :=
  .next (s.memReq p k obs)

/-- CAS128 (R85). -/
def execCas128 (p : Fin 4) (k : Pkt) (obs : List CellObs) (s : State) : Host.Outcome State Fault Refusal :=
  .next (s.memReq p k obs)

end Sys2Proof.Machine
end

