-- ==== Sys2Proof/Machine/Queues.lean ====
section
/-! DEFINITION. Device-originated requests (R101), and the work queues: their states, doorbells, fetches, completion entries
and completion messages (R109-R139). -/

namespace Sys2Proof.Machine

/-! ### Device-originated requests (R93, R97, R101) -/

/-- A request that the device originates for `master`. Masked writes carry their masks before the data (R84). -/
def reqPkt (me opc dest addr len : Nat) (mgt masked : Bool) (tag : Nat) (payload : List Byte) : Pkt where
  opc := BitVec.ofNat 5 opc
  vc := if mgt then 4 else 0
  hops := 0
  dir := false
  dest := BitVec.ofNat 14 dest
  leg := false
  nbr := false
  src := BitVec.ofNat 14 me
  tag := BitVec.ofNat 16 tag
  addr := BitVec.ofNat 40 addr
  len := BitVec.ofNat 8 len
  b14 := BitVec.ofNat 8 (b2n masked)
  b15 := 0
  payload := payload

/-- A TAG that no request outstanding bears (R101). -/
def State.newTag (s : State) : Nat :=
  (findFrom 65536 s.lnk.nextTag fun t => !s.lnk.outst.any fun o => o.tag == t).getD 0

/-- A request addressed to this stack itself is a local access through its master (R93), admitted as the requests of a port are
(R173, R254), and answered. -/
def State.selfReq (s : State) (m : Nat) (k : Pkt) : State :=
  if s.dev = .saving then s.answer m k 3 0 []
  else if reqBad k then s.answer m k 4 0 []
  else if s.dev = .bringup then s.answer m k 5 0 []
  else if s.inService = false then s.answer m k 4 0 []
  else if s.mustPark m k then s.park m k
  else s.admitReq m k []

/-- A request is injected (R93): it goes out, or is performed here, or is refused as absent. -/
def State.injectReq (s : State) (m : Nat) (k : Pkt) : State :=
  if s.hasCoord then
    match routeInject s k with
    | .here => s.selfReq m k
    | .out p k' => s.enqueue p k' 5
    | .drop c => (s.injectRaw (mkRsp s.me k 4 0 [])).dropRoute (s.injectPort k) k c
  else s

/-- A request with its TAG reserved is recorded and sent. -/
def State.sendReq (s : State) (m opc dest addr len : Nat) (mgt masked : Bool) (payload : List Byte) (off : Nat)
    (o : Origin) : State :=
  let tag := s.newTag
  let k := reqPkt s.me opc dest addr len mgt masked tag payload
  let s := { s with lnk := { s.lnk with
    nextTag := (tag + 1) % 65536
    outst := s.lnk.outst ++ [Outst.mk tag k s.clock m off o] } }
  s.injectReq m k

/-- A request answered RETRY is repeated under a new TAG; it keeps the time of its first sending (R226, R412).
(DESIGN CHOICE, log entry 38) -/
def State.resend (s : State) (o : Outst) : State :=
  let tag := s.newTag
  let k := { o.pkt with tag := BitVec.ofNat 16 tag }
  let s := { s with lnk := { s.lnk with
    nextTag := (tag + 1) % 65536, outst := s.lnk.outst ++ [{ o with tag := tag, pkt := k }] } }
  s.injectReq o.master k

/-- LTC_CPL_TMO has run out since a request was first sent. (DESIGN CHOICE, log entry 38) -/
def State.tmoOver (s : State) (o : Outst) : Bool := o.since + max 1 (s.fld LTC_CPL_TMO_MS) * 1000000 ≤ s.clock

/-- The pieces of a range that one RD or WR can carry: at most `n` bytes, within one page (R83). Each is an offset and a
length. -/
def pieces : Nat → Nat → Nat → Nat → Nat → List (Nat × Nat)
  | 0, _, _, _, _ => []
  | fuel + 1, addr, off, len, n =>
    if off < len then
      let m := min (min (len - off) n) (4096 - (addr + off) % 4096)
      (off, m) :: pieces fuel addr (off + m) len n
    else []

/-! ### Buffer addresses (R117) -/

def baAddr (b : Nat) : Nat := b % 2 ^ 40
def baEndpoint (b : Nat) : Nat := getBits b 53 40
def baRemote (b : Nat) : Bool := bitAt b 63

/-- A buffer address or length that R117 forbids (R138). -/
def baBad (b : Nat) : Bool := b % 64 != 0 || getBits b 62 54 != 0 || (!baRemote b && baEndpoint b != 0)

/-! ### Queues -/

def State.queue (s : State) (q : Nat) : Queue := s.wq.queues.getD q {}

def State.modQueue (s : State) (q : Nat) (f : Queue → Queue) : State :=
  { s with wq := { s.wq with queues := modAt s.wq.queues q f } }

/-- The number of entries of a ring (R139). -/
def ringLen (log : Nat) : Nat := 2 ^ max 4 (min 16 log)
def State.sqLen (s : State) (q : Nat) : Nat := ringLen (s.fld (WQ_CFG_SQLOG q))
def State.cqLen (s : State) (q : Nat) : Nat := ringLen (s.fld (WQ_CFG_CQLOG q))
def State.depth (s : State) (q : Nat) : Nat := s.fld (WQ_CFG_DEPTH q) + 1
def State.qHost (s : State) (q : Nat) : Nat := s.fld (WQ_CFG_HOST q)

/-- The end of DRAINING, and of ERROR once EN is written 0: DISABLED when no operation is in flight (R134).
(DEDUCED, log entry 41) -/
def State.settle (s : State) (q : Nat) : State :=
  let t := s.queue q
  if (t.st = .draining ∨ (t.st = .error ∧ t.closing)) ∧ t.inflight = 0 then
    s.modQueue q fun t => { t with st := .disabled, closing := false, gen := t.gen + 1, fetching := 0, resv := 0 }
  else s

/-- A queue becomes ACTIVE (R134): heads, tails, doorbells and ERR 0, phase 1. -/
def State.activateQ (s : State) (q : Nat) : State :=
  (((s.modQueue q fun t => { st := .active, gen := t.gen + 1 }).setReg (WQ_SQDB q) 0).setReg (WQ_CQDB q) 0)

/-- A write of WQ_CFG_q (R134): outside DISABLED only DEPTH and the fall of EN have effect. (DEDUCED, log entry 41) -/
def State.writeCfg (s : State) (q v : Nat) : State :=
  let a := WQ_CFG q
  let t := s.queue q
  let en := bitAt v 31
  let depth := getBits v 30 27
  match t.st with
  | .disabled =>
    let s := s.writeAcc a v
    if en then s.activateQ q else s
  | .active =>
    let s := s.setFld (WQ_CFG_DEPTH q) depth
    if en then s
    else
      ((s.setFld (WQ_CFG_EN q) 0).modQueue q fun t =>
        { t with st := .draining, fetched := [], resv := t.resv - t.fetched.length }).settle q
  | .draining => s.setFld (WQ_CFG_DEPTH q) depth
  | .error =>
    let s := s.setFld (WQ_CFG_DEPTH q) depth
    if en then s else ((s.setFld (WQ_CFG_EN q) 0).modQueue q fun t => { t with closing := true }).settle q

/-- WQ_ENABLE (R134): a write of WQ_CFG_q with EN 1. -/
def execWqEnable (a : Access) (q : Fin 64) (v : Word) (s : State) : Host.Outcome State Fault Refusal :=
  .next (s.cfgWrite a (WQ_CFG q) fun s => s.writeCfg q v.toNat)

/-- WQ_DISABLE (R134): a write of WQ_CFG_q with EN 0. -/
def execWqDisable (a : Access) (q : Fin 64) (v : Word) (s : State) : Host.Outcome State Fault Refusal :=
  .next (s.cfgWrite a (WQ_CFG q) fun s => s.writeCfg q v.toNat)

/-- A write of SQBASE or CQBASE is ignored unless the queue is DISABLED (R134). -/
def State.writeBase (s : State) (q a v : Nat) : State := if (s.queue q).st = .disabled then s.writeAcc a v else s

/-- The entries of a ring of `n` from `a` up to before `b`. -/
def ringSpan (n a b : Nat) : Nat := (b + n - a % n) % n

/-- A doorbell write arrives from the endpoint HOST on a port; any other is counted and ignored (R135). Ignored while EN is
0 (R134); bits above the ring's size are 0 (R139). An index that `ok` says R110 or R111 forbids leaves a free one, which stays
within the queue (R138). (DESIGN CHOICE, log entry 43) -/
def State.doorbell (s : State) (a : Access) (q : Nat) (f : Fld) (n v : Nat) (ok : Bool) : State :=
  let own := match a.path with | .port _ => a.hop.isNone && a.requester.toNat == s.qHost q | _ => false
  if own = false then s.incFld (WQ_PROG_IGNDB q) 1
  else if s.flag (WQ_CFG_EN q) = false then s
  else if ok then s.setFld f (v % n)
  else (s.setFld f (s.free % n)).bump

/-- A tail that R110 allows: the pending range neither shrinks nor passes the head. -/
def State.tailOk (s : State) (q v : Nat) : Bool :=
  let n := s.sqLen q
  let h := (s.queue q).head
  ringSpan n h (s.fld (WQ_SQDB_TAIL q)) ≤ ringSpan n h v

/-- A head that R111 allows: it moves up to the tail at most, over entries that were written. -/
def State.headOk (s : State) (q v : Nat) : Bool :=
  let n := s.cqLen q
  let t := (s.queue q).cqTail
  ringSpan n v t ≤ ringSpan n (s.fld (WQ_CQDB_HEAD q)) t

/-- A write of WQ_SQDB_q and of WQ_CQDB_q. -/
def State.sqBell (s : State) (a : Access) (q v : Nat) : State :=
  s.doorbell a q (WQ_SQDB_TAIL q) (s.sqLen q) (v % 65536) (s.tailOk q (v % 65536 % s.sqLen q))
def State.cqBell (s : State) (a : Access) (q v : Nat) : State :=
  s.doorbell a q (WQ_CQDB_HEAD q) (s.cqLen q) (v % 65536) (s.headOk q (v % 65536 % s.cqLen q))

/-- SQ_DOORBELL (R110). -/
def execSqDoorbell (a : Access) (q : Fin 64) (v : Word) (s : State) : Host.Outcome State Fault Refusal :=
  .next (s.cfgWrite a (WQ_SQDB q) fun s => s.sqBell a q v.toNat)

/-- CQ_DOORBELL (R111). -/
def execCqDoorbell (a : Access) (q : Fin 64) (v : Word) (s : State) : Host.Outcome State Fault Refusal :=
  .next (s.cfgWrite a (WQ_CQDB q) fun s => s.cqBell a q v.toNat)

/-! ### Fetches (R112, R113) -/

/-- Completion entries that are neither awaiting release nor reserved (R111, R112). -/
def State.cqFree (s : State) (q : Nat) : Nat :=
  let n := s.cqLen q
  let t := s.queue q
  n - 1 - (t.cqTail + n - s.fld (WQ_CQDB_HEAD q) % n) % n - t.resv

/-- The descriptors a fetch would carry now: pending, inside one 256 B block, each with a completion entry and an in-flight
place. (DEDUCED, log entry 39) -/
def State.fetchable (s : State) (q : Nat) : Nat :=
  let n := s.sqLen q
  let t := s.queue q
  let pend := (s.fld (WQ_SQDB_TAIL q) + n - t.head % n) % n
  if t.st = .active ∧ t.fetching = 0 ∧ s.flag WQ_GCTL_PAUSE = false ∧ s.blocked 0x20 = false then
    min (min pend (4 - t.head % 4)) (min (s.cqFree q) (s.depth q - t.inflight - t.fetched.length))
  else 0

/-- DESCRIPTOR_FETCH_START (R113). (DEDUCED, log entry 39) -/
def execDescriptorFetchStart (q : Fin 64) (s : State) : Host.Outcome State Fault Refusal :=
  .next (
    let n := s.fetchable q
    if n = 0 then s
    else
      let t := s.queue q
      (s.modQueue q fun t => { t with fetching := n, resv := t.resv + n }).sendReq 7 1 (s.qHost q)
        (s.fld (WQ_SQBASE_ADDR q) * 4096 + 64 * t.head) (n - 1) true false [] 0 (.fetch q t.gen))

/-- A queue goes to ERROR, where EN reads 1 (R134). -/
def State.queueError (s : State) (q code : Nat) : State :=
  ((s.setFld (WQ_CFG_EN q) 1).modQueue q fun t => { t with
    st := .error, err := code, fetched := [], resv := t.resv - t.fetched.length - t.fetching, fetching := 0, msgN := 0
    msgAt := none }).settle q

/-- The 64 B descriptors of a fetch's data. -/
def descriptorsOf : Nat → List Byte → List (List Byte)
  | 0, _ => []
  | n + 1, bs => sliceB bs 0 64 :: descriptorsOf n (bs.drop 64)

/-- The end of a descriptor fetch (R110, R134). (DEDUCED, log entry 39) -/
def State.fetchDone (s : State) (q gen status : Nat) (data : List Byte) : State :=
  let t := s.queue q
  if t.gen ≠ gen ∨ t.fetching = 0 then s
  else if t.st ≠ .active ∧ t.st ≠ .draining then s
  else if status ≠ 0 then s.queueError q (if status = 1 then 3 else 1)
  else if t.st = .draining then s.modQueue q fun t => { t with resv := t.resv - t.fetching, fetching := 0 }
  else s.modQueue q fun t => { t with
    fetched := t.fetched ++ descriptorsOf t.fetching data, fetching := 0, head := (t.head + t.fetching) % s.sqLen q }

/-! ### Completion entries and messages (R130, R133) -/

/-- A completion entry (R130). -/
def entryOf (result head cid status opc : Nat) (phase : Bool) : List Byte :=
  leBytes 8 result ++ leBytes 2 head ++ leBytes 2 cid ++
    [BitVec.ofNat 8 status, BitVec.ofNat 8 opc, 0, if phase then 0x80 else 0]

/-- The MSG of R133. (DEDUCED, log entry 40) -/
def State.sendCplMsg (s : State) (q : Nat) : State :=
  let t := s.queue q
  let pay := [BitVec.ofNat 8 q, 0] ++ leBytes 2 t.msgN ++ leBytes 2 t.msgTail ++
    [BitVec.ofNat 8 ((byteB t.msgEntry 15).toNat / 128), 0] ++ t.msgEntry ++ leBytes 8 s.ks.time
  (s.modQueue q fun t => { t with msgN := 0, msgAt := none }).injectRaw
    { reqPkt s.me 0x0C (s.qHost q) 2 0 true false 0 pay with tag := 0 }

/-- A completion entry is written into the next ring position (R111, R113, R114) and counts toward a message (R133).
(DEDUCED, log entry 40) -/
def State.writeEntry (s : State) (q cid status opc result : Nat) (now : Bool) : State :=
  let t := s.queue q
  let n := s.cqLen q
  let e := entryOf result t.head cid status opc t.phase
  let addr := s.fld (WQ_CQBASE_ADDR q) * 4096 + 16 * t.cqTail
  let at_ := addr % 64
  let pay := leBytes 8 (0xFFFF * 2 ^ at_) ++ leBytes 8 0 ++ putB (List.replicate 64 0) at_ e
  let tail := (t.cqTail + 1) % n
  let msg := s.flag (WQ_COAL_MSGEN q)
  let s := s.modQueue q fun t => { t with cqTail := tail, phase := if tail = 0 then !t.phase else t.phase }
  let s := s.sendReq 7 2 (s.qHost q) (addr - at_) 0 true true pay 0 (.cqWrite q t.gen)
  if msg then
    let s := s.modQueue q fun t => { t with
      msgN := t.msgN + 1, msgEntry := e, msgTail := tail, msgAt := if t.msgN = 0 then some s.clock else t.msgAt }
    if now ∨ max 1 (s.fld (WQ_COAL_COUNT q)) ≤ (s.queue q).msgN then s.sendCplMsg q else s
  else s

/-- An operation ends (R127, R130, R134): its entry is written unless its queue is in ERROR or has begun another life. -/
def State.complete (s : State) (o : Op) (status result : Nat) : State :=
  let t := s.queue o.q
  if t.gen ≠ o.gen then s
  else
    let s := s.modQueue o.q fun t => { t with inflight := t.inflight - 1, resv := t.resv - 1 }
    let s := if t.st = .active ∨ t.st = .draining then
        s.writeEntry o.q o.cid status o.opc result (bitAt (fieldB o.desc 1 1) 0)
      else s
    s.settle o.q

/-- COMPLETION_MSG_TIMER (R133): TIME_US after the first entry not reported. -/
def execCompletionMsgTimer (q : Fin 64) (s : State) : Host.Outcome State Fault Refusal :=
  .next (
    let t := s.queue q
    if 0 < t.msgN ∧ t.st ≠ .error ∧ s.flag (WQ_COAL_MSGEN q) ∧ 0 < s.fld (WQ_COAL_TIME_US q) then s.sendCplMsg q else s)

/-- Every queue goes to DISABLED and the WQ registers to their reset values (R134, R139). -/
def State.resetQueues (s : State) : State :=
  { s.resetRange 0x500000 0x100000 fun _ => false with
    wq := { s.wq with queues := s.wq.queues.map fun t => { gen := t.gen + 1 } } }

/-- A write of WQ_GCTL: PAUSE. -/
def State.writeGctl (s : State) (v : Nat) : State := s.writeAcc WQ_GCTL v

end Sys2Proof.Machine
end

