-- ==== Sys2Proof/Machine/Chisel.lean ====
section
/-! DEFINITION. The chisel: job slots, slices, evaluation, outputs, limits, completion and summaries (R215-R238). -/

namespace Sys2Proof.Machine

def State.job (s : State) (n : Nat) : Job := s.chs.jobs.getD n {}

def State.modJob (s : State) (n : Nat) (f : Job → Job) : State :=
  { s with chs := { s.chs with jobs := modAt s.chs.jobs n f } }

/-! ### Operands of the descriptors (R118-R120) -/

def Op.prog (o : Op) : Nat := fieldB o.desc 8 8
def Op.outB (o : Op) : Nat := fieldB o.desc 16 8
def Op.spill (o : Op) : Nat := fieldB o.desc 24 8
def Op.outLen (o : Op) : Nat := fieldB o.desc 32 8
def Op.spillLen (o : Op) : Nat := fieldB o.desc 40 8
def Op.resume (o : Op) : Nat := fieldB o.desc 48 8 % 2 ^ 33
def Op.src (o : Op) : Nat := fieldB o.desc 8 8
/-- DST of a COPY, and of a FILL. -/
def Op.dst (o : Op) : Nat := if o.opc = 0x11 then fieldB o.desc 16 8 else fieldB o.desc 8 8
def Op.len (o : Op) : Nat := if o.opc = 0x11 then fieldB o.desc 24 8 else fieldB o.desc 16 8
/-- The 64 B that a FILL writes to each granule (R120). -/
def Op.pattern (o : Op) : List Byte := sliceB o.desc 24 32 ++ sliceB o.desc 24 32

/-- The granules a COPY or FILL covers: a local range that runs past the end of the stack stops there (R119, R120). -/
def Op.grans (o : Op) : Nat :=
  let room := fun b => if baRemote b then o.len else dramEnd - baAddr b
  (if o.opc = 0x11 then min o.len (min (room o.src) (room o.dst)) else min o.len (room o.dst)) / 64

/-! ### Host errors (R138) -/

/-- Nothing waits at M4's port: what waits there holds every later request of M4 (R172, R173, R254). -/
def State.m4Free (s : State) : Bool := !s.m4Stuck && (s.master 4).asks.isEmpty

/-- A write of M4 to a local granule may go now: nothing of M4 waits before it, no cause of R173 holds it, its page is restored and
no recovery holds its unit (R264, R309). -/
def State.m4May (s : State) (g : Nat) : Bool :=
  s.inService && s.m4Free && s.m4Cause g == 0 && !s.unrestored (g / 64) && !s.unitHeld g

/-- The mask of the bytes of granule `g` that lie from address `lo` up to before `hi`. -/
def rangeMask (g lo hi : Nat) : Nat := 2 ^ (min hi (64 * g + 64) - 64 * g) - 2 ^ (max lo (64 * g) - 64 * g)

/-- The bytes of a granule that a range names take free values, where a write of M4 may go and there is memory to take it: what
is unpredictable leaves the keep, integrity and every other byte alone (R6). (DESIGN CHOICE, log entry 43) -/
def State.scrambleGran (s : State) (lo hi g : Nat) : State :=
  let m := rangeMask g lo hi
  if dramEnd / 64 ≤ g ∨ s.m4May g = false ∨ s.fencedGran g ∨ (m ≠ fullMask ∧ s.poisoned g) then s
  else
    let s := (s.overtake g m (leBytes 64 s.free)).markDirty (g / 64)
    (if m = fullMask then s.putGran g (leBytes 64 s.free) else s.putMasked g m (leBytes 64 s.free)).bump

/-- A range of this stack's DRAM takes free values, granule by granule. -/
def State.scramble (s : State) (lo hi : Nat) : State :=
  (List.range (ceilDiv hi 64 - lo / 64)).foldl (fun s i => s.scrambleGran lo hi (lo / 64 + i)) s

/-- A host error of R138: unpredictable in the ranges the descriptor names; the operation ends with a status of R131 and a
result that are free values. (DESIGN CHOICE, log entry 43) -/
def State.hostError (s : State) (o : Op) (ranges : List (Nat × Nat)) : State :=
  let s := ranges.foldl (fun s r => if baRemote r.1 then s else s.scramble (baAddr r.1) (baAddr r.1 + r.2)) s
  let st := [0, 1, 2, 3, 4, 5, 6, 7, 8, 9, 0xA, 0xF].getD (s.free % 12) 0
  s.bump.bump.complete o st (Config.freeValue (s.fresh + 1))

/-- A COPY or FILL that R138 forbids. (DESIGN CHOICE, log entry 43) -/
def copyBad (o : Op) : Bool :=
  if o.opc = 0x11 then
    baBad o.src || baBad o.dst || o.len % 64 != 0 || (baRemote o.src && baRemote o.dst) ||
    (baRemote o.src == baRemote o.dst && decide (baAddr o.src < baAddr o.dst + o.len) &&
      decide (baAddr o.dst < baAddr o.src + o.len) && 0 < o.len)
  else baBad o.dst || o.len % 64 != 0 || baRemote o.dst

/-- A CHISEL_RUN whose buffer addresses or lengths R117 forbids. (DESIGN CHOICE, log entry 43) -/
def runBad (o : Op) : Bool :=
  baBad o.prog || baBad o.outB || baBad o.spill || o.outLen % 64 != 0 || o.spillLen % 64 != 0

/-! ### Slots (R215, R216) -/

/-- The free slot that a job takes: the lowest. (DESIGN CHOICE, log entry 63) -/
def State.freeSlot (s : State) : Option Nat := (List.range 16).find? fun n => (s.job n).st == .free

/-- Job-state SRAM in use, KiB. -/
def State.sramUsed (s : State) : Nat :=
  ((s.chs.jobs.filter fun j => j.st == .running || j.st == .emitting || j.st == .completing).map (·.need)).sum

/-- A job enters COMPLETING and takes the next summary sequence (R215, R231). One that had not been admitted holds no SRAM. -/
def State.finishJob (s : State) (n status result cause : Nat) : State :=
  let q := s.chs.seq
  let s := { s with chs := { s.chs with seq := (q + 1) % 2 ^ 32 } }
  s.modJob n fun j => { j with
    st := .completing, status := status, result := result, cause := cause, seq := q, doneAt := s.ks.time, flight := []
    held := none, need := if j.st = .loading ∨ j.st = .waiting then 0 else j.need }

/-- The transfers of a slice in mortar. -/
def sliceOwn (n : Nat) (f : Nat × List Nat) : Own := .slice n f.1 (f.2.headD 0)

/-- The slices of a job that are in flight bring it nothing more; their transfers end on their own. -/
def State.dropFlight (s : State) (n : Nat) : State := s.modJob n fun j => { j with flight := [] }

/-- The position a job reports (R223-R226, R237): the lowest row whose output has not left staging. (DEDUCED, log entry 59) -/
def Job.pos (j : Job) : Nat :=
  if j.kind ≠ 0 then
    (match j.done with | (0, n) :: _ => n | _ => 0)
  else
    let k := oKind j.prog
    if k = 3 then j.next
    else if k = 0 then min j.next (j.start + 8 * j.outAt)
    else match j.pend.find? fun p => j.outAt < p.2 with | some p => p.1 | none => j.next

/-- The position of a job whose write failed at a granule (R226): the lowest row whose output has not landed. The entries of an
AGG job that have not all been written hold every row of the run. (DEDUCED, log entry 59) -/
def Job.failPos (j : Job) (gran : Nat) (spill : Bool) : Nat :=
  if oKind j.prog = 3 then
    if spill ∧ j.sorted ∧ j.out.isEmpty then
      match j.spPend.find? fun p => 64 * gran < p.2 with | some p => p.1 | none => j.next
    else j.start
  else if oKind j.prog = 0 then j.start + 512 * gran
  else match j.pend.find? fun p => 64 * gran < p.2 with | some p => p.1 | none => j.next

/-- RESULT of a CHISEL_RUN (R230). -/
def runResult (j : Job) (seq status value : Nat) : Nat :=
  2 ^ 63 * b2n (0 < j.poison) + 2 ^ 62 * b2n (0 < j.spillRows || j.spStop) + 2 ^ 61 * b2n j.endStack +
  2 ^ 60 * b2n (j.fail.isSome && status == 2) + 2 ^ 33 * (seq % 65536) + value % 2 ^ 33

/-- A CHISEL_RUN whose writes are settled completes (R229, R230). -/
def State.finishRun (s : State) (n : Nat) : State :=
  let j := s.job n
  let seq := s.chs.seq
  match j.fail with
  | some (g, sp) => s.finishJob n 2 (runResult j seq 2 (j.failPos g sp)) 0
  | none =>
    match j.stop with
    | some p => s.finishJob n 2 (runResult j seq 2 p) 0
    | none =>
      if j.endStack then s.finishJob n 1 (runResult j seq 1 j.residual) 0
      else
        let st := if 0 < j.spillRows then 3 else if 0 < j.poison then 4 else 0
        s.finishJob n st (runResult j seq st j.sel) 0

/-- A COPY or FILL whose transfers are settled completes (R119, R120, R227, R229). RESULT counts the granules it has handled, a
poisoned one and one of a fenced unit among them. A FILL does not end DONE_POISON_SEEN: its row of R132 does not mark it.
(DESIGN CHOICE, log entry 152) -/
def State.finishCopy (s : State) (n : Nat) : State :=
  let j := s.job n
  let all := decide (64 * j.total < j.op.len)
  let st := if j.fail.isSome then 2 else if all then 1 else if j.kind = 1 ∧ (0 < j.poison ∨ j.fencedDst) then 4 else 0
  s.finishJob n st (64 * j.pos) 0

/-- What a local program block holds as the chisel begins to read it: its granules, unless one of its pages waits for its restore. -/
def State.progSnap (s : State) (o : Op) : Option (List Host.Cell) :=
  let a := baAddr o.prog
  let n := min 33792 (pGrans (mread s.dram.mem a 64))
  if (List.range (ceilDiv n 64 + 1)).any fun i => s.unrestored (pageOf a + i) then none else some (mcut s.dram.mem a (64 * n))

/-- A CHISEL_RUN takes a slot (R215): the program block is asked for, the header first. (DESIGN CHOICE, log entry 63) -/
def State.startRun (s : State) (n : Nat) (o : Op) : State :=
  if runBad o then s.hostError o [(o.outB, o.outLen), (o.spill, o.spillLen)]
  else
    let s := s.modJob n fun _ => { op := o, st := .loading, kind := 0, start := o.resume, next := o.resume }
    if baRemote o.prog then s.sendReq 4 1 (baEndpoint o.prog) (baAddr o.prog) 0 false false [] 0 (.program n)
    else
      let s := s.modJob n fun j => { j with snap := s.progSnap o }
      if dramEnd ≤ baAddr o.prog then s else s.ask 4 0 (.prog n) [(baAddr o.prog / 64, 1)]

/-- A COPY or FILL takes a slot (R119, R120, R215). LEN 0 completes at once. -/
def State.startCopy (s : State) (n : Nat) (o : Op) : State :=
  if copyBad o then s.hostError o [(o.dst, o.len)]
  else
    let j : Job := { op := o, st := .running, kind := if o.opc = 0x11 then 1 else 2, total := o.grans }
    let s := s.modJob n fun _ => j
    if j.total = 0 then s.finishCopy n else s

/-- The rest of a remote program block is asked for when its header has arrived (R193, R215). -/
def State.programHeader (s : State) (n : Nat) (data : List Byte) : State :=
  let o := (s.job n).op
  let len := min (64 * pGrans data) 2162688
  (pieces (len + 1) (baAddr o.prog) 64 len 4096).foldl (fun s p =>
    s.sendReq 4 1 (baEndpoint o.prog) (baAddr o.prog + p.1) (p.2 / 64 - 1) false false [] p.1 (.program n)) s

/-- How reading a local range ends: all of it is read, a granule is poisoned or not there, or a granule waits for the restore of
its unit or for a recovery (R264, R309). -/
inductive RangeRead where
  | done | bad | wait
deriving DecidableEq, Repr

/-- The granules of a local range as M4 reads them (R232, R235): the bytes before the granule at which the reading ends. -/
def State.readRange (s : State) (obs : List CellObs) : Nat → Nat → State × List Byte × RangeRead
  | 0, _ => (s, [], .done)
  | n + 1, g =>
    if dramEnd / 64 ≤ g then (s, [], .bad)
    else if s.unrestored (g / 64) then (s.touchStart (g / 64), [], .wait)
    else if s.unitHeld g then (s, [], .wait)
    else
      let r := s.readGran obs g 4 false (s.clean g)
      match r.2 with
      | .data bs =>
        let rest := r.1.readRange obs n (g + 1)
        (rest.1, bs ++ rest.2.1, rest.2.2)
      | .poison => (r.1, [], .bad)
      | .wait => (r.1, [], .wait)

/-- Two ranges of local addresses share a byte. -/
def spansMeet (a b : Nat × Nat) : Bool := decide (a.1 < b.1 + b.2) && decide (b.1 < a.1 + a.2)

/-- A buffer as a range of this stack, where it lies here and is not empty. -/
def localSpan (b n : Nat) : List (Nat × Nat) := if baRemote b ∨ n = 0 then [] else [(baAddr b, n)]

/-- The local ranges that a job writes. -/
def Job.outSpans (j : Job) : List (Nat × Nat) :=
  if j.kind = 0 then localSpan j.op.outB j.op.outLen ++ localSpan j.op.spill j.op.spillLen else localSpan j.op.dst (64 * j.total)

/-- The output or spill range of a job overlaps its input, its program block or another job's output (R138). -/
def State.outClash (s : State) (n : Nat) (g : List Byte) : Bool :=
  let j := s.job n
  let taken := inputSpans g ++ localSpan j.op.prog (64 * pGrans g) ++
    (((List.range 16).filter fun m => m != n && (s.job m).st != .free).map fun m => (s.job m).outSpans).flatten
  j.outSpans.any fun a => taken.any fun b => spansMeet a b

/-- A local program block is no longer what it was when the chisel began to read it. -/
def State.progChanged (s : State) (n : Nat) (g : List Byte) : Bool :=
  (s.job n).snap.any fun cs => cs != mcut s.dram.mem (baAddr (s.job n).op.prog) (64 * pGrans g)

/-- The program block is copied: NEED is known (R215). A program that R214 forbids, one that has been changed while it was read, or
one whose outputs overlap what R138 names, is unpredictable. (DESIGN CHOICE, log entry 43) -/
def State.programLoaded (s : State) (n : Nat) (g : List Byte) : State :=
  let j := s.job n
  if progBad g || s.progChanged n g || s.outClash n g then
    let s := s.hostError j.op [(j.op.outB, j.op.outLen), (j.op.spill, j.op.spillLen)]
    s.modJob n fun _ => {}
  else
    let ord := s.chs.ord
    let s := { s with chs := { s.chs with ord := ord + 1 } }
    s.modJob n fun j => { j with
      st := .waiting, prog := g, snap := none, need := pNeed g, ord := ord, total := pRows g
      groups := if oKind g = 3 ∧ oKeyed g = false then
        [{ key := (0, 0), count := 0, aggs := List.replicate (oNAgg g) none }] else [] }

/-- Granules of a local program block have been read: the header first, then the rest (R191, R215). What waits for its restore or
for a recovery is asked for again, from where the reading stands (R235, R309). -/
def State.programRead (s : State) (n : Nat) (obs : List CellObs) : State :=
  let j := s.job n
  let g0 := baAddr j.op.prog / 64
  let have_ := j.prog.length / 64
  let want := if have_ = 0 then 1 else pGrans j.prog
  let r := s.readRange obs (want - have_) (g0 + have_)
  let got := j.prog ++ r.2.1
  match r.2.2 with
  | .bad => (r.1.modJob n fun j => { j with prog := got }).finishJob n 0xA 1 1
  | .wait => (r.1.modJob n fun j => { j with prog := got }).ask 4 0 (.prog n) [(g0 + got.length / 64, 1)]
  | .done =>
    if got.length < 64 * pGrans got then
      (r.1.modJob n fun j => { j with prog := got }).ask 4 0 (.prog n)
        (unitsOf (g0 + got.length / 64) (pGrans got - got.length / 64))
    else r.1.programLoaded n (got.take (64 * pGrans got))

/-- PROGRAM_READ_DONE (R215): granules of a local PROG that have been asked for are what DRAM holds when their transfers have
returned; a read that fails, or a poisoned granule (R232), refuses the job. (DESIGN CHOICE, log entry 38) -/
def execProgramReadDone (n : Fin 16) (remote : List Byte) (ok : Bool) (obs : List CellObs) (s : State) :
    Host.Outcome State Fault Refusal :=
  .next (
    let j := s.job n
    if j.st ≠ .loading then s
    else if ok = false then s.finishJob n 0xA 1 1
    else if baRemote j.op.prog then
      (if remote.length < 64 * pGrans remote then s.finishJob n 0xA 1 1
       else s.programLoaded n (remote.take (64 * pGrans remote)))
    else if s.onWay (.prog n) then s
    else s.programRead n obs)

/-- The OUT_LEN an AGG job needs before it reads a row (R225). -/
def aggRoom (g : List Byte) : Nat := 64 + (if oKeyed g then 2 ^ oGlog g + 2 else 1) * oESize g

/-- JOB_ADMIT (R215, R216): the first job to have entered WAITING starts when its NEED fits. -/
def execJobAdmit (s : State) : Host.Outcome State Fault Refusal :=
  .next (
    let ws := (List.range 16).filter fun n => (s.job n).st == .waiting
    match ws.find? fun n => ws.all fun m => (s.job n).ord ≤ (s.job m).ord with
    | none => s
    | some n =>
      let j := s.job n
      if 12288 < s.sramUsed + j.need then s
      else
        let s := s.modJob n fun j => { j with st := .running }
        let s := s.maxFld CHS_SRAM_PEAK s.sramUsed
        if oKind j.prog = 3 ∧ j.op.outLen < aggRoom j.prog then
          (s.modJob n fun j => { j with stop := some j.start }).finishRun n
        else s)

/-! ### Writes of the chisel (R121, R219, R222) -/

/-- M4 writes a whole granule, or poison, for the job of a slot: its page is dirty from the admission on (R121, R235), and its
transfer follows through mortar. The second part is false where the granule is not there or is fenced. -/
def State.m4Write (s : State) (n g : Nat) (bs : Option (List Byte)) : State × Bool :=
  if dramEnd / 64 ≤ g then (s, false)
  else
    let s := s.markDirty (g / 64)
    if s.fencedGran g then (s, false)
    else
      let s := ((s.overtake g fullMask (bs.getD [])).ask 4 1 (.out n) [(g, 1)]).add64 CHS_WRBYTES_LO 64
      match bs with
      | some bs => (s.putGran g bs, true)
      | none => (s.poisonGran g, true)

/-- A write of a job waits (R173); one that waits for the restore of its page starts its touch fetch (R235, R264). -/
def State.m4Hold (s : State) (n g : Nat) : State :=
  (if s.inService && s.unrestored (g / 64) then s.touchStart (g / 64) else s).modJob n fun j => { j with held := some g }

/-- A write of a job has been refused at a granule of OUT or SPILL; the one with the lowest position counts. -/
def State.jobFail (s : State) (n gran : Nat) (spill : Bool) : State :=
  s.modJob n fun j => { j with fail := match j.fail with
    | some (g, sp) => if (if j.kind = 0 then j.failPos gran spill < j.failPos g sp else gran < g) then some (gran, spill) else some (g, sp)
    | none => some (gran, spill) }

/-- The whole granules of a stream leave staging, to the buffer at `b` from stream offset `at_`, as far as admission lets
them (R219, R222). The result gives what is left. -/
def State.flushTo (s : State) (n b : Nat) (spill : Bool) : Nat → Nat → List Byte → State × Nat × List Byte
  | 0, at_, bs => (s, at_, bs)
  | fuel + 1, at_, bs =>
    if bs.length < 64 then (s, at_, bs)
    else if baRemote b then
      let s := (s.sendReq 4 2 (baEndpoint b) (baAddr b + at_) 0 false false (bs.take 64)
        (2 * at_ + b2n spill) (.jobWrite n)).add64 CHS_WRBYTES_LO 64
      s.flushTo n b spill fuel (at_ + 64) (bs.drop 64)
    else
      let g := (baAddr b + at_) / 64
      if s.m4May g then
        let r := s.m4Write n g (some (bs.take 64))
        let s := if r.2 then r.1 else r.1.jobFail n (at_ / 64) spill
        s.flushTo n b spill fuel (at_ + 64) (bs.drop 64)
      else (s.m4Hold n g, at_, bs)

/-- The bytes of a job's output stream that no later row changes: of a bitmap those whose eight rows have all been evaluated, until
the scan is over (R208, R219). -/
def Job.settled (j : Job) : Nat :=
  if oKind j.prog = 0 ∧ j.st = .running then (j.next - j.start) / 8 - j.outAt else j.out.length

/-- What a job has staged leaves as far as it may. -/
def State.flushJob (s : State) (n : Nat) : State :=
  let j := s.job n
  if j.kind ≠ 0 ∨ j.fail.isSome then s
  else
    let s := s.modJob n fun j => { j with held := none }
    let r := s.flushTo n j.op.outB false (j.out.length / 64 + 1) j.outAt (j.out.take j.settled)
    let s := r.1.modJob n fun j => { j with outAt := r.2.1, out := r.2.2 ++ j.out.drop j.settled }
    let r := s.flushTo n j.op.spill true (j.sp.length / 64 + 1) j.spAt j.sp
    r.1.modJob n fun j => { j with spAt := r.2.1, sp := r.2.2 }

/-! ### Slices (R217, R218) -/

/-- 256 KiB of the granules a program references, from row `i` up (R217). -/
def windowFrom (g : List Byte) : Nat → Nat → List Nat → List Nat
  | 0, _, acc => acc
  | fuel + 1, i, acc =>
    if pRows g ≤ i ∨ 4096 ≤ acc.length ∨ rowFits g i = false then acc
    else windowFrom g fuel (i + 1) (acc ++ (rowGrans g i).filter fun x => !acc.contains x)

/-- The row at which a job's window begins (R217): the lowest whose output waits in staging as a whole granule that may not leave yet;
a granule that only waits for later rows to fill it holds nothing. (DEDUCED, log entry 59) -/
def Job.winPos (j : Job) : Nat :=
  if oKind j.prog = 3 ∨ (min j.settled j.out.length < 64 ∧ j.sp.length < 64) then j.next else j.pos

/-- The local granule that granule `k` of a COPY or FILL reads, or writes for a FILL. -/
def Job.localGran (j : Job) (k : Nat) : Nat := baAddr (if j.kind = 1 then j.op.src else j.op.dst) / 64 + k

/-- The unread granules of a job's window: table granules, or the granule numbers of a COPY or FILL. -/
def Job.unread (j : Job) : List Nat :=
  if j.st ≠ .running ∨ j.fail.isSome then []
  else if j.kind = 0 then
    if j.stop.isSome then [] else ((windowFrom j.prog 262144 j.winPos []).take 4096).filter
      fun x => !rmem j.asked x
  else if j.kind = 1 ∧ baRemote j.op.src then []
  else ((List.range 4096).map (j.pos + ·)).filter fun k => k < j.total && !rmem j.asked k

/-- The channel of an entry of `unread`. -/
def Job.chanOf (j : Job) (x : Nat) : Nat := (decodeAddr (64 * (if j.kind = 0 then x else j.localGran x))).ch

def Job.unreadOn (j : Job) (c : Nat) : List Nat := j.unread.filter fun x => j.chanOf x == c

/-- W_c of R217. -/
def State.chW (s : State) (c : Nat) : Nat := (s.chs.jobs.map fun j => (j.unreadOn c).length).sum

/-- The channel with the highest credit among those with pending granules; ties to the lowest number. -/
def bestChan (w : List Nat) (credit : List Int) : Option Nat :=
  (List.range 32).foldl (fun best c =>
    if w.getD c 0 = 0 then best
    else match best with
      | none => some c
      | some b => if credit.getD b 0 < credit.getD c 0 then some c else best) none

/-- Granules in rising order as units of consecutive granules of one 256 B block (R169). -/
def groupUnits : List Nat → List (Nat × Nat)
  | [] => []
  | x :: xs => match groupUnits xs with
    | (y, n) :: us => if y = x + 1 ∧ x / 4 = y / 4 then (x, n + 1) :: us else (x, 1) :: (y, n) :: us
    | [] => [(x, 1)]

/-- The reads of a slice go into mortar; a FILL reads nothing, and its writes go when its slice arrives. -/
def State.sliceGoes (s : State) (n : Nat) (f : Nat × List Nat) : State :=
  let j := s.job n
  if j.kind = 2 ∨ (j.kind = 1 ∧ baRemote j.op.src) then s
  else
    let xs := f.2.filter fun x => j.kind = 0 || (tget j.have_ x).isNone
    if xs.isEmpty then s else s.ask 4 0 (sliceOwn n f) (groupUnits (xs.map fun x => if j.kind = 0 then x else j.localGran x))

/-- next_slice() of R218. -/
def State.nextSlice (s : State) : State :=
  let w := (List.range 32).map s.chW
  let total := w.sum
  let credit := (List.range 32).map fun c => if w.getD c 0 = 0 then (0 : Int) else s.chs.credit.getD c 0 + w.getD c 0
  match bestChan w credit with
  | none => s
  | some c =>
    match findFrom 16 (s.chs.last.getD c 15 + 1) fun n => !((s.job n).unreadOn c).isEmpty with
    | none => s
    | some n =>
      let xs := ((s.job n).unreadOn c).take 64
      let s := { s with chs := { s.chs with
        credit := setAt credit c (credit.getD c 0 - total), last := setAt s.chs.last c n } }
      let s := s.modJob n fun j => { j with asked := xs.foldl radd j.asked, flight := j.flight ++ [(c, xs)] }
      (s.sliceGoes n (c, xs)).incFld (CHS_CHW_SLICES c) 1

/-- A COPY from another endpoint asks for the next 4 KiB of its window (R217, R227). (DESIGN CHOICE, log entry 151) -/
def State.remoteReads (s : State) (n : Nat) : State :=
  let j := s.job n
  if j.st = .running ∧ j.kind = 1 ∧ baRemote j.op.src ∧ j.fail.isNone then
    match ((List.range 4096).map (j.pos + ·)).find? fun k => k < j.total && !rmem j.asked k with
    | none => s
    | some k =>
      let a := baAddr j.op.src + 64 * k
      let m := min (j.total - k) ((4096 - a % 4096) / 64)
      (s.modJob n fun j => { j with asked := raddRange j.asked k m }).sendReq 4 1 (baEndpoint j.op.src) a (m - 1) false false
        [] (64 * k) (.jobRead n)
  else s

/-- SLICE_ISSUE (R218): one slice by the weighted rotation, unless a request of M4 waits at its port (R173, R254), and the next
remote read of each COPY from elsewhere. PAUSE holds both: the reads of a COPY from another endpoint count as slices.
(DESIGN CHOICE, log entry 151) -/
def execSliceIssue (s : State) : Host.Outcome State Fault Refusal :=
  .next (
    if s.flag CHS_CTL_PAUSE ∨ s.inService = false then s
    else (List.range 16).foldl (fun s n => s.remoteReads n) (if s.m4Free then s.nextSlice else s))

/-! ### Data (R219, R227, R232-R235) -/

/-- A granule of a COPY arrives from its source: none where it is poisoned. The second part is false while admission holds
its write. -/
def State.copyGran (s : State) (n k : Nat) (bs : Option (List Byte)) : State :=
  let j := s.job n
  let s := match bs with
    | some _ => s
    | none => (s.modJob n fun j => { j with poison := j.poison + 1, first := some (min (64 * k) (j.first.getD (64 * k))) }).incFld
        CHS_PROWS_COUNT 1
  if baRemote j.op.dst then
    match bs with
    | none => s.modJob n fun j => { j with done := radd j.done k }
    | some bs => (s.sendReq 4 2 (baEndpoint j.op.dst) (baAddr j.op.dst + 64 * k) 0 false false bs (64 * k) (.jobWrite n)).add64
        CHS_WRBYTES_LO 64
  else
    let r := s.m4Write n (baAddr j.op.dst / 64 + k) bs
    r.1.modJob n fun j => { j with done := radd j.done k, fencedDst := j.fencedDst || !r.2 }

/-- A read of a COPY is not answered yet. -/
def State.readsOut (s : State) (n : Nat) : Bool := s.lnk.outst.any fun o => o.origin == .jobRead n

/-- A COPY or FILL whose granules have all been handled, and whose reads have all been answered, enters EMITTING (R215, R227). -/
def State.copyEnd (s : State) (n : Nat) : State :=
  let j := s.job n
  if j.kind ≠ 0 ∧ j.st = .running ∧ j.flight.isEmpty ∧ s.readsOut n = false ∧ (j.fail.isSome ∨ rcount j.asked = j.total) then
    s.modJob n fun j => { j with st := .emitting }
  else s

/-- One granule of a slice is read into staging (R219, R232): false while it waits for a restore or a recovery. -/
def State.sliceRead (s : State) (n x g : Nat) (obs : List CellObs) : State × Bool :=
  if s.unrestored (g / 64) then (s.touchStart (g / 64), false)
  else if s.unitHeld g then (s, false)
  else
    let r := s.readGran obs g 4 false (s.clean g)
    match r.2 with
    | .wait => (r.1, false)
    | out =>
      let bs := match out with | .data bs => some bs | _ => none
      ((r.1.add64 CHS_RDBYTES_LO 64).modJob n fun j => { j with have_ := tset j.have_ x bs }, true)

/-- One entry of a slice arrives: it is read, where it is not staged yet, and a COPY or FILL writes it. True when it is done; false
while it waits for a restore, a recovery or admission. A COPY that has stopped issues nothing further (R227). -/
def State.sliceGran (s : State) (n x : Nat) (obs : List CellObs) : State × Bool :=
  let j := s.job n
  let g := if j.kind = 0 then x else j.localGran x
  let d := baAddr j.op.dst / 64 + x
  if j.kind ≠ 0 ∧ j.fail.isSome then (s, true)
  else if s.inService = false then (s, false)
  else
    let r := if j.kind = 2 ∨ (j.kind = 1 ∧ (tget j.have_ x).isSome) then (s, true) else s.sliceRead n x g obs
    if r.2 = false ∨ j.kind = 0 then r
    else if baRemote j.op.dst = false ∧ r.1.m4May d = false then (r.1.m4Hold n d, false)
    else if j.kind = 2 then (r.1.copyGran n x (some j.op.pattern), true)
    else
      let bs := (tget (r.1.job n).have_ x).getD none
      ((r.1.modJob n fun j => { j with have_ := tdel j.have_ x }).copyGran n x bs, true)

/-- The granules of a remote read of a COPY have arrived (R227): those that admission holds wait as a slice on the channel of
their destination. -/
def State.copyArrive (s : State) (n k0 : Nat) (bs : List (Option (List Byte))) : State :=
  let s := bs.zipIdx.foldl (fun s b =>
    let k := k0 + b.2
    let j := s.job n
    let g := baAddr j.op.dst / 64 + k
    if j.fail.isSome then s
    else if baRemote j.op.dst || s.m4May g then s.copyGran n k b.1
    else (s.m4Hold n g).modJob n fun j => { j with
      have_ := tset j.have_ k b.1, flight := j.flight ++ [((decodeAddr (64 * g)).ch, [k])] }) s
  (s.add64 CHS_RDBYTES_LO (64 * bs.length)).copyEnd n

/-- SLICE_DATA_ARRIVE (R219, R234, R235): the oldest slice of the job on the channel, whose transfers have returned, arrives as far
as it may. -/
def execSliceDataArrive (n : Fin 16) (c : Fin 32) (obs : List CellObs) (s : State) : Host.Outcome State Fault Refusal :=
  .next (
    match (s.job n).flight.find? fun f => f.1 == c.val with
    | none => s
    | some f =>
      if s.onWay (sliceOwn n f) then s
      else
        let r := f.2.foldl (fun (r : State × List Nat) x =>
          let t := r.1.sliceGran n x obs
          (t.1, if t.2 then r.2 else r.2 ++ [x]))
          (s.modJob n fun j => { j with held := j.held.filter fun g => (decodeAddr (64 * g)).ch != c.val }, [])
        let s := r.1.modJob n fun j => { j with
          flight := (j.flight.erase f) ++ (if r.2.isEmpty then [] else [(f.1, r.2)]) }
        (if r.2.isEmpty then s else s.sliceGoes n (f.1, r.2)).copyEnd n)

/-! ### Evaluation (R192, R208-R212, R220, R223-R228, R232) -/

/-- The byte of a local address among the staged granules. -/
def Job.mem (j : Job) : RowMem := fun a =>
  match tget j.have_ (a / 64) with | some (some bs) => byteB bs (a % 64) | _ => 0

/-- The scan is over: all rows, the end of the stack, or a stop. -/
def Job.scanOver (j : Job) : Bool := j.stop.isSome || j.endStack || j.total ≤ j.next

/-- A bit of the bitmap: bit 0 is the starting row (R208, R223). -/
def Job.bit (j : Job) (i : Nat) (b : Bool) : Job :=
  let k := i - j.start - 8 * j.outAt
  let out := padB (k / 8 + 1) j.out
  { j with out := setAt out (k / 8) (BitVec.ofNat 8 ((byteB out (k / 8)).toNat + 2 ^ (k % 8) * b2n b)) }

/-- A selected row of a ROWID or COMPACT stream: it is appended, or it stops the job (R225). -/
def Job.append (j : Job) (i : Nat) (r : List Byte) : Job :=
  let at_ := j.outAt + j.out.length + r.length
  if j.op.outLen < at_ then { j with stop := some i }
  else { j with out := j.out ++ r, pend := j.pend ++ [(i, at_)], sel := j.sel + 1, scanned := j.scanned + 1, next := i + 1 }

/-- A selected row of an AGG job: it joins its group, opens one, or spills; or it stops the job (R212, R228). -/
def Job.groupRow (j : Job) (i : Nat) : Job :=
  let g := j.prog
  let e := rowGroup g j.mem i
  let on := fun (j : Job) => { j with sel := j.sel + 1, scanned := j.scanned + 1, next := i + 1 }
  match j.groups.find? fun x => x.key == e.key with
  | some x => on { j with groups := j.groups.map fun y => if y.key = e.key then Group.join g x e else y }
  | none =>
    if e.key.1 ≠ 0 ∨ (j.groups.filter fun x => x.key.1 == 0).length < min 65536 (2 ^ oGlog g) then
      on { j with groups := j.groups ++ [e] }
    else
      let at_ := j.spAt + j.sp.length + oESize g
      if j.op.spill = 0 ∨ j.op.spillLen < at_ then { j with stop := some i, spStop := true }
      else on { j with sp := j.sp ++ entryBytes g e, spPend := j.spPend ++ [(i, at_)], spillRows := j.spillRows + 1 }

/-- One row (R224, R225, R232): none while its data is not staged. -/
def Job.evalRow (j : Job) : Option Job :=
  let g := j.prog
  let i := j.next
  let k := oKind g
  if rowFits g i = false then some { j with endStack := true, residual := j.total - i }
  else if k = 0 ∧ j.start + 512 * (j.op.outLen / 64) ≤ i then some { j with stop := some i }
  else
    let gs := rowGrans g i
    if gs.any fun x => (tget j.have_ x).isNone then none
    else if gs.any fun x => tget j.have_ x == some none then
      let j := { j with
        poison := j.poison + 1, first := some (min i (j.first.getD i)), scanned := j.scanned + 1, next := i + 1 }
      some (if k = 0 then j.bit i false else j)
    else
      let sel := selected g j.mem i
      if k = 0 then some { j.bit i sel with sel := j.sel + b2n sel, scanned := j.scanned + 1, next := i + 1 }
      else if sel = false then some { j with scanned := j.scanned + 1, next := i + 1 }
      else if k = 1 then some (j.append i (rowId g (if oId64 g then 8 else 4) i))
      else if k = 2 then some (j.append i (compactRec g j.mem i))
      else some (j.groupRow i)

/-- The granules a row adds to what the array has consumed in a run that begins at row `start`. -/
def rowCost (g : List Byte) (start i : Nat) : Nat :=
  ((rowGrans g i).filter fun x => i = start || !(rowGrans g (i - 1)).contains x).length

/-- The rows of one chisel cycle, which consumes `n` granules (R220): a row is evaluated with its last granule, and the granules that
are left go to the row after it. Granules that are not staged leave the array idle. -/
def Job.evalRows : Nat → Nat → Job → Job
  | 0, _, j => j
  | fuel + 1, n, j =>
    let cost := rowCost j.prog j.start j.next
    if j.scanOver then j
    else match j.evalRow with
      | none => { j with eaten := 0 }
      | some j' => if n < cost then { j with eaten := n } else { j' with eaten := 0 }.evalRows fuel (n - cost)

/-- The scan ends (R215): streams are padded to 64 B (R208, R212) and the job enters EMITTING. -/
def State.scanEnd (s : State) (n : Nat) : State :=
  let s := s.dropFlight n
  (s.modJob n fun j => { j with
    st := .emitting
    out := if oKind j.prog = 3 then [] else padB (64 * ceilDiv j.out.length 64) j.out
    sp := padB (64 * ceilDiv j.sp.length 64) j.sp }).flushJob n

/-- CHISEL_CYCLE (R220): one handshake of the array for the job of a slot. -/
def execChiselCycle (n : Fin 16) (s : State) : Host.Outcome State Fault Refusal :=
  .next (
    let j := s.job n
    if j.st ≠ .running ∨ j.kind ≠ 0 then s
    else
      let j' := j.evalRows 1024 (j.eaten + 16)
      let s := (s.modJob n fun _ => j').add64 CHS_ROWS_LO (j'.scanned - j.scanned)
      let s := s.incFld CHS_PROWS_COUNT (j'.poison - j.poison)
      let s := s.flushJob n
      if (s.job n).scanOver ∨ (s.job n).fail.isSome then s.scanEnd n else s)

/-- GROUP_SORT_DONE (R210, R236): the groups are in order and their entries queued for writing. -/
def execGroupSortDone (n : Fin 16) (s : State) : Host.Outcome State Fault Refusal :=
  .next (
    let j := s.job n
    if j.st = .emitting ∧ j.kind = 0 ∧ oKind j.prog = 3 ∧ j.sorted = false then
      (s.modJob n fun j => { j with
        sorted := true
        out := aggBytes j.prog j.groups (0 < j.spillRows || j.spStop) j.sel j.scanned j.spillRows }).flushJob n
    else s)

/-- A job has a request outstanding. -/
def State.jobWaits (s : State) (n : Nat) : Bool := s.lnk.outst.any fun o =>
  match o.origin with | .jobRead m => m == n | .jobWrite m => m == n | .program m => m == n | _ => false

/-- OUTPUT_WRITES_ANSWERED (R215, R226, R227): every write that the job has sent is answered, those to this stack by their channels;
a refused one stops the job. (DESIGN CHOICE, log entry 60) -/
def execOutputWritesAnswered (n : Fin 16) (ok : Bool) (gran : Nat) (spill : Bool) (s : State) :
    Host.Outcome State Fault Refusal :=
  .next (
    let s := if (s.job n).st = .emitting ∨ (s.job n).st = .running then s.flushJob n else s
    let s := if ok ∨ (s.job n).st ≠ .emitting then s else s.jobFail n gran spill
    let j := s.job n
    let ready := j.kind != 0 || j.fail.isSome || (j.out.isEmpty && j.sp.isEmpty && (oKind j.prog != 3 || j.sorted))
    if j.st ≠ .emitting ∨ ready = false ∨ s.jobWaits n ∨ s.onWay (.out n) then s
    else if j.kind = 0 then s.finishRun n
    else s.finishCopy n)

/-! ### Completion (R215, R231) -/

/-- A summary (R231). -/
def summaryOf (j : Job) : List Byte :=
  let copy := j.kind != 0
  leBytes 8 (if copy then 0 else j.sel) ++ leBytes 8 (if copy then 64 * j.pos else j.scanned) ++
  leBytes 8 (if copy then 0 else j.residual) ++ leBytes 8 j.spillRows ++ leBytes 8 j.poison ++
  leBytes 8 (j.first.getD (2 ^ 64 - 1)) ++ leBytes 8 j.doneAt ++
  [BitVec.ofNat 8 j.op.q, BitVec.ofNat 8 j.status, BitVec.ofNat 8 j.op.opc, BitVec.ofNat 8 j.cause] ++
  leBytes 2 j.op.cid ++ [0, 0]

/-- The requests of a slot that frees are answered to nobody; their TAGs stay taken until then (R101). -/
def State.orphan (s : State) (n : Nat) : State :=
  { s with lnk := { s.lnk with outst := s.lnk.outst.map fun o =>
      match o.origin with
      | .jobRead m => if m = n then { o with origin := .jobRead 16 } else o
      | .jobWrite m => if m = n then { o with origin := .jobWrite 16 } else o
      | .program m => if m = n then { o with origin := .program 16 } else o
      | _ => o } }

/-- JOB_COMPLETION_SENT (R130, R215, R231): the entry is sent, the slot frees and the summary is logged. -/
def execJobCompletionSent (n : Fin 16) (s : State) : Host.Outcome State Fault Refusal :=
  .next (
    let j := s.job n
    if j.st ≠ .completing then s
    else
      let s := (s.complete j.op j.status j.result).incFld CHS_JOBS_COUNT 1
      let s := { s with chs := { s.chs with log := tset s.chs.log (j.seq % 256) (j.seq, summaryOf j) } }
      (s.orphan n).modJob n fun _ => {})

/-! ### Pace, resets and temperature (R220, R237) -/

/-- CHISEL_PACE_WINDOW (R220): 0x0806 once for two low windows in a row, until 1 ms of good ones. -/
def execChiselPaceWindow (count : Nat) (s : State) : Host.Outcome State Fault Refusal :=
  .next (
    let c := min count 4095
    let s := (s.setFld CHS_PACE_RATE c).minFld CHS_PACE_MIN c
    let low := decide (c < 1075)
    let run := if low then min 2 (s.chs.low + 1) else 0
    let good := if low then 0 else min 1000 (s.chs.good + 1)
    let fire := run == 2 && !s.chs.lowPosted
    let s := { s with chs := { s.chs with
      low := run, good := good, lowPosted := if fire then true else if good = 1000 then false else s.chs.lowPosted } }
    if fire then s.post 0x0806 2 0xFF c else s)

/-- The chisel's requests to other endpoints are forgotten. -/
def State.dropJobReqs (s : State) : State :=
  { s with lnk := { s.lnk with outst := s.lnk.outst.filter fun o =>
      match o.origin with | .jobRead _ => false | .jobWrite _ => false | .program _ => false | _ => true } }

/-- Every job is abandoned with no completion (R237). -/
def State.abandonJobs (s : State) : State :=
  let s := (List.range 16).foldl (fun s n => s.dropFlight n) s
  { s.dropJobReqs with chs := { s.chs with jobs := List.replicate 16 {}, credit := List.replicate 32 0 } }

/-- Every job ends ABORTED_RESET (R237): RESULT is 0, or for a COPY or FILL the bytes written (R130, R230). Each takes a summary
sequence, is logged and is counted in CHS_JOBS like every job that completes. (DESIGN CHOICE, log entry 155) -/
def State.abortJobs (s : State) : State :=
  let s := (List.range 16).foldl (fun s n =>
    if (s.job n).st = .free then s
    else
      let j := s.job n
      let r := if j.kind = 0 then 0 else 64 * rcount j.done
      let s := if j.st = .completing then s.modJob n fun j => { j with status := 5, result := r, cause := 0 }
        else (s.dropFlight n).finishJob n 5 r 0
      let s := (s.complete j.op 5 r).incFld CHS_JOBS_COUNT 1
      let k := s.job n
      { s with chs := { s.chs with log := tset s.chs.log (k.seq % 256) (k.seq, summaryOf k) } }) s
  { s.dropJobReqs with chs := { s.chs with jobs := List.replicate 16 {}, credit := List.replicate 32 0 } }

/-- A channel of DRAM course `d`. -/
def onCourse (d c : Nat) : Bool := c / 2 == d

/-- The bytes of a buffer from an offset on that lie on a course's channels, where the buffer is local. -/
def bufTouches (d b at_ n : Nat) : Bool :=
  !baRemote b && (List.range (ceilDiv n 64)).any fun k => onCourse d (decodeAddr (64 * ((baAddr b + at_) / 64 + k))).ch

/-- A CHISEL_RUN has results on a course's channels that it has not written: staged streams, and the entries of its groups
until they are queued. -/
def Job.unwritten (j : Job) (d : Nat) : Bool :=
  let n := if oKind j.prog = 3 ∧ j.sorted = false then 64 + j.groups.length * oESize j.prog else j.out.length
  bufTouches d j.op.outB j.outAt n || bufTouches d j.op.spill j.spAt j.sp.length

/-- A job still has unread granules or unwritten local data on a course's channels (R237). -/
def Job.touches (j : Job) (d : Nat) : Bool :=
  let chan := fun g => (decodeAddr (64 * g)).ch
  if j.st = .waiting ∨ j.st = .running then
    if j.kind = 0 then
      ((List.range (j.total - j.next)).any fun i => rowFits j.prog (j.next + i) &&
        (rowGrans j.prog (j.next + i)).any fun g => (tget j.have_ g).isNone && onCourse d (chan g)) ||
        (j.st == .running && j.unwritten d)
    else
      let read := fun (k : Nat) => (rmem j.asked k && !j.flight.any fun f => f.2.contains k) || (tget j.have_ k).isSome
      (List.range j.total).any fun k => !rmem j.done k &&
        ((j.kind == 1 && !baRemote j.op.src && !read k && onCourse d (chan (j.localGran k))) ||
          (!baRemote j.op.dst && onCourse d (chan (baAddr j.op.dst / 64 + k))))
  else j.st == .emitting && j.kind == 0 && j.unwritten d

/-- The course at a position enters T3 (R237): the jobs with work on it end ABORTED_THERMAL, and 0x0807 tells how many. The
step of the base course is applied to every channel (R337). The position of an AGG job, whose groups are lost, is its starting
row. (DEDUCED, log entry 59) -/
def State.thermalJobs (s : State) (pos : Nat) : State :=
  let ns := (List.range 16).filter fun n => (List.range 16).any fun d => (pos == 0 || pos == d + 3) && (s.job n).touches d
  let s := ns.foldl (fun s n =>
    let j := s.job n
    let p := if j.kind ≠ 0 then 64 * j.pos else if oKind j.prog = 3 then j.start else j.pos
    let seq := s.chs.seq
    (s.dropFlight n).finishJob n 9 (if j.kind = 0 then runResult j seq 9 p else p) 0) s
  if ns.isEmpty then s else s.post 0x0807 1 0xFF (pos + 256 * ns.length)

end Sys2Proof.Machine
end

