-- ==== Sys2Proof/Machine/Keep.lean ====
section
/-! DEFINITION. The keep: copies of pages, slots and wear, seals and folds as they start, arming and the energy budget
(R240-R255, R266-R270). What a seal goes on to stands in Save. -/

namespace Sys2Proof.Machine

/-! ### Courses (R240, R270) -/

/-- The temperature estimate of a keep course, in 0.01 °C. -/
def State.keepEst (s : State) (k : Nat) : Int := ((s.thm.crs.getD (1 + k) {}).est).getD 0

def Course.nfree (c : Course) : Nat := rcount c.fresh + c.freed.length

def Course.count (c : Course) (slot : Nat) : Nat := tgetD c.counts slot 0

/-- The slot with the lowest program count among the next 64 free slots in pool order (R245). (DEDUCED, log entry 64) -/
def Course.pickSlot (c : Course) : Option Nat :=
  ((rlist 64 c.fresh ++ c.freed).take 64).foldl (fun b x =>
    match b with
    | none => some x
    | some y => if c.count x < c.count y then some x else b) none

def Course.takeSlot (c : Course) (slot : Nat) : Course :=
  { c with fresh := rdel c.fresh slot, freed := c.freed.erase slot }

/-- A spare page of a course replaces a retired one (R270): 0x050F, and 0x0510 when fewer than a tenth of the spares remain. -/
def State.takeSpare (s : State) (k data : Nat) : State :=
  let was := (s.keep.course k).spares
  let s := s.modCourse k fun c => { c with spares := c.spares - 1, nretired := c.nretired + 1 }
  let s := s.post 0x050F 1 k data
  if 436736 ≤ 10 * was ∧ 10 * (was - 1) < 436736 then s.post 0x0510 2 k 0 else s

/-- A slot is retired (R270): a spare takes its number. (DEDUCED, log entry 65) -/
def State.retireSlot (s : State) (k slot : Nat) : State :=
  (s.modCourse k fun c => { c with retired := sins c.retired slot, counts := tset c.counts slot 0 }).takeSpare k slot

/-- The programs at which a page of a keep course is retired (R270). -/
def wearLimit : Nat := 10000000

/-- `n` metadata pages of a course are replaced (R270). What DATA of 0x050F holds for one is not stated.
(DEDUCED, log entry 65) -/
def State.retireMeta (s : State) (k n : Nat) : State :=
  (List.range n).foldl (fun s _ => s.bump.takeSpare k (s.free % 2 ^ 32)) s

/-- Every page of a map copy of a course is programmed: 48 MiB. -/
def State.mapWritten (s : State) (k copy : Nat) : State :=
  let n := (s.keep.course k).mapProg.getD copy 0 + 1
  (s.modCourse k fun c => { c with mapProg := setAt c.mapProg copy n }).retireMeta k (if n % wearLimit = 0 then 12288 else 0)

/-- Every page of the wear table of a course is programmed: 54 MiB. -/
def State.wearWritten (s : State) (k : Nat) : State :=
  let n := (s.keep.course k).wearProg + 1
  (s.modCourse k fun c => { c with wearProg := n }).retireMeta k (if n % wearLimit = 0 then 13824 else 0)

/-- A record's pages are programmed into the ring of a course's journal: 32,768 pages in turn. -/
def State.ringWritten (s : State) (k pages : Nat) : State :=
  let from_ := (s.keep.course k).jprog
  (s.modCourse k fun c => { c with jprog := from_ + pages }).retireMeta k
    ((List.range pages).filter fun i => ((from_ + i) / 32768 + 1) % wearLimit == 0).length

/-! ### Reading a page for a copy (R245, R309) -/

/-- What the mover's read of one granule meets: none for a poisoned or UNCORRECTABLE one; `some none` for the data in the
cells; a free value where the decoder miscorrects. The mover never recovers and writes no DRAM. -/
def State.moverGran (s : State) (obs : List CellObs) (g : Nat) : State × Option (Option (List Byte)) :=
  let l := decodeAddr (64 * g)
  let o := obsOf obs g
  let ue := fun (s : State) (named : List Nat) (mis : Bool) => ((s.ueCounted g named).noteUe g 5 mis false false, none)
  if s.fencedGran g then (s, none)
  else
    let s := if o.addrErr then (s.incFld INT_MISDIR_COUNT 1).post 0x0304 3 l.ch g else s
    if o.addrErr ∧ (o.repeatOk = false ∨ s.poisoned g) then ue s [] true
    else
      let good := if s.poisoned g then none else some none
      match s.decodeSyms l o.syms with
      | .clean => (s, good)
      | .corrected ks => (if s.poisoned g then s else s.corrected g 5 ks false, good)
      | .uncorrectable ks => ue s.bump ks o.addrErr
      | .wild => (s.bump.bump, some (some (leBytes 64 (Config.freeValue (s.fresh + 1)))))

/-- The 64 granules of a page: the state after, the page's bytes that are not 0, and its poison mask. Data of reported writes that
wait in the bank queues are read there (R143, R144). -/
def State.readPage (s : State) (page : Nat) (obs : List CellObs) : State × List Host.Cell × Nat :=
  (List.range 64).foldl (fun r k =>
    let g := 64 * page + k
    let x := match s.queuedData g with
      | some bs => (r.1, some (some bs))
      | none => r.1.moverGran obs g
    match x.2 with
    | none => (x.1, tdelRange r.2.1 (64 * k) 64, r.2.2 + 2 ^ k)
    | some none => (x.1, r.2)
    | some (some bs) => (x.1, mput r.2.1 (64 * k) bs, r.2.2)) (s, mcut s.dram.mem (4096 * page) 4096, 0)

/-- Writes to a page have been admitted and are not in DRAM: at their channel, or on their way to it. -/
def State.writesOnWay (s : State) (page : Nat) : Bool :=
  (s.mtr.xacts.any fun x => canWrite x.pkt && pageOf x.pkt.addr.toNat == page) ||
  s.mc.chans.any fun h => h.units.any fun u => u.own.isNone && u.op != 0 && pageOf u.addr == page

/-! ### Seals as they start (R246, R247) -/

/-- The numbers of a set of pages homed in course `k`, as indexes. -/
def halfOf (k : Nat) (r : Rng) : Rng := r.filterMap fun x =>
  let lo := (x.1 + 1 - k) / 2
  let hi := (x.1 + x.2 + 1 - k) / 2
  if lo < hi then some (lo, hi - lo) else none

/-- The pages that count as dirty (R243) and of which DRAM holds the newest version: while a restore is in progress those of the
units restored (R265). -/
def Keep.dirtySet (k : Keep) : Rng :=
  let d := k.copies.foldl (fun r c => radd r c.page) k.dirty
  if k.restMap then rdiff d (rdiff d (k.restored.map fun u => (16 * u.1, 16 * u.2))) else d

/-- A restore in progress has not restored a page's unit (R261, R265). -/
def Keep.unreached (k : Keep) (page : Nat) : Bool := k.restMap && !rmem k.restored (unitOfPage page)

/-- A seal record for a course, from the state at the seal (R247). (DEDUCED, log entry 66) -/
def State.makeRec (s : State) (k kind label : Nat) (ds : List Nat) (single : Bool) : SealRec :=
  let c := s.keep.course k
  { seq := s.keep.seq + 1
    kind := kind
    armed := s.keep.arm == .armed
    policy := s.keep.epoch.policy
    single := single
    deltas := ds.map fun i => (i, mapAt c.cur i)
    time := s.ks.time
    label := label
    holdcap := s.reg KEEP_HOLDCAP
    cmeas := s.fld KEEP_HOLDCHK_UF
    epoch := s.keep.epoch.num
    copy := if kind = 6 then 1 - c.force else c.force
    snap := if kind = 3 then some (halfOf k s.keep.dirtySet) else none }

/-- The bytes a record takes in its journal. -/
def recBytes (r : SealRec) : Nat :=
  4096 * ceilDiv (64 + 8 * r.deltas.length + (if r.snap.isSome then 1572864 else 0)) 4096

/-- Of a journal, what its ring of 128 MiB still holds (R246): the newest records. -/
def ringJournal : List SealRec → List SealRec
  | [] => []
  | r :: rs => if 2 ^ 27 < ((r :: rs).map recBytes).sum then ringJournal rs else r :: rs

/-- A record is written into a course's journal. -/
def Course.logged (c : Course) (r : SealRec) : Course := { c with journal := ringJournal (c.journal ++ [r]) }

/-- The bytes of a record cross mortar to the keep controller in pieces of 4 KiB (R167, R246); a fenced course takes none. -/
def State.recAsked (s : State) (k : Nat) (r : SealRec) : State :=
  if (s.keep.course k).fenced then s
  else (List.range (recBytes r / 4096)).foldl (fun s i => s.ask 5 1 .record (pageUnits i)) s

/-- A seal is written (R246): the deltas and pending slots of both courses go with it. A FOLD carries the entries swapped
since the fold began (R248); with its map it covers every delta that waits. -/
def State.sealStart (s : State) (kind label : Nat) (f : SealFor) : State :=
  let ds := fun k => let c := s.keep.course k
    if kind = 6 then c.deltaF else c.deltas
  let f0 := (s.keep.course 0).fenced
  let f1 := (s.keep.course 1).fenced
  let r0 := s.makeRec 0 kind label (ds 0) (f1 && !f0)
  let r1 := s.makeRec 1 kind label (ds 1) (f0 && !f1)
  let mv := fun (c : Course) => { c with
    deltaS := c.deltas, deltas := [], pendS := c.pend, pend := [] }
  let s := s.modKeep fun k => { k with
    courses := k.courses.map mv, seq := k.seq + 1, sealing := some (r0, r1, f), copiedS := k.copied, copied := []
    copiesSince := 0 }
  (s.recAsked 0 r0).recAsked 1 r1

/-- A seal is asked for: written now, or after the one under way, or after an urgent fold (R248). In RECOVERY the journals are
write protected (R20, R271). -/
def State.sealAsk (s : State) (kind label : Nat) (f : SealFor) : State :=
  if s.dev = .recovery then s
  else if s.keep.sealing.isSome || (s.keep.folding == some true && kind != 6) then
    if f = .none ∧ s.keep.sealQ.any (fun x => x.1 == kind) then s
    else s.modKeep fun k => { k with sealQ := k.sealQ ++ [(kind, label, f)] }
  else s.sealStart kind label f

/-- The next seal that waits is written: the first, or the FOLD that an urgent fold puts before every other (R248). One that has
nothing to seal any more is passed over. (DEDUCED, log entry 78) -/
def State.sealNext (s : State) : State :=
  if s.keep.sealing.isSome then s
  else
    let q := if s.keep.copiesSince = 0 then s.keep.sealQ.filter fun x => x.2.2 != .none else s.keep.sealQ
    match (if s.keep.folding = some true then q.find? fun x => x.1 == 6 else q.head?) with
    | some (kind, label, f) => (s.modKeep fun k => { k with sealQ := q.erase (kind, label, f) }).sealStart kind label f
    | none => s.modKeep fun k => { k with sealQ := q }

/-! ### Copies (R243-R245) -/

/-- A copy of a page begins (R245): a slot is taken, the dirty bit cleared, the page read and the slot's program started.
Its 64 granules cross mortar as requests of M5 (R167, R169). While a write to the page has been admitted and is not yet in DRAM
the bit is set again at once, since the copy may not hold it (R2, R243). Without a free slot the mover seals at once.
(DEDUCED, log entry 64; DEDUCED, log entry 142) -/
def State.copyStart (s : State) (page : Nat) (obs : List CellObs) : State :=
  let h := homeOf page
  let c := s.keep.course h
  match s.keep.keyOf s.keep.epoch, c.pickSlot with
  | some key, some slot =>
    let s := (s.modCourse h fun c => c.takeSlot slot).modKeep fun k => { k with
      dirty := if s.writesOnWay page then radd k.dirty page else rdel k.dirty page }
    let r := s.readPage page obs
    let v : KSlot := {
      index := indexOf page, seq := s.keep.seq, epoch := s.keep.epoch.num, count := c.count slot + 1
      mask := r.2.2, key := key, data := r.2.1 }
    (r.1.modKeep fun k => { k with
      copies := k.copies ++ [{ page := page, course := h, slot := slot, ver := v, cover := true }] }).ask 5 0 (.copy page)
        (pageUnits page)
  | some _, none => if c.pend.isEmpty then s else s.sealAsk 1 0 .none
  | none, _ => s

/-- The copies in flight in a course: at most its 512 page buffers (R19). -/
def Keep.inFlight (k : Keep) (c : Nat) : Nat := (k.copies.filter fun x => x.course == c).length

/-- Copies are started in a course while it has a page buffer and a page to copy. -/
def State.fillCourse (s : State) (c : Nat) (pick : State → Option Nat) : Nat → State
  | 0 => s
  | n + 1 =>
    if s.keep.inFlight c < 512 then
      match pick s with
      | none => s
      | some p =>
        let t := s.copyStart p []
        if t.keep.copies.length = s.keep.copies.length then t else t.fillCourse c pick n
    else s

/-- The first page of a set that is homed in a course, restored and not in flight. -/
def State.pageIn (s : State) (r : Rng) (c from_ : Nat) : Option Nat :=
  rnextFrom (rcount r + r.length + 1) r from_ fun p =>
    homeOf p == c && !s.keep.unreached p && !s.keep.copies.any fun x => x.page == p

/-- A page of a course may be copied: the course is not fenced, a key is held and no fold runs ahead of every copy. -/
def State.mayCopy (s : State) (c : Nat) : Bool :=
  !(s.keep.course c).fenced && s.keep.keyHeld && s.keep.folding != some true && !s.pwr.interval &&
  !s.blocked 0x22

/-- The page of a copy is still on its way to the keep controller: its program has not started. -/
def State.unstarted (s : State) (x : Copy) : Bool := s.onWay (.copy x.page) || s.onWay (.page x.page)

/-- A copy whose program has not started is given up: its slot returns to the pool, and its page is dirty. -/
def State.cancelCopy (s : State) (x : Copy) : State :=
  (s.modCourse x.course fun c => { c with freed := c.freed ++ [x.slot] }).modKeep fun k => { k with
    copies := k.copies.erase x, dirty := radd k.dirty x.page }

/-- Above 115 °C a save programs nothing further into a keep course (R258): the course is held, and a page read for it whose
program has not started is copied afresh later. (DEDUCED, log entry 75) -/
def State.heatHold (s : State) (k : Nat) : State :=
  if 11500 < s.keepEst k ∧ (s.keep.course k).hold = none then
    (s.keep.copies.filter fun x => x.course == k && s.unstarted x).foldl State.cancelCopy
      (s.modCourse k fun c => { c with hold := some s.clock })
  else s

/-- The set of pages homed in either course that may be copied with the course's page buffers, for a checkpoint, a
characterisation or a save; each is restarted as programs complete. A save tests the temperature first (R258). -/
def State.moverFill (s : State) : State :=
  (List.range 2).foldl (fun s c =>
    if s.mayCopy c = false then s
    else if s.dev = .saving then
      let s := s.heatHold c
      if s.keep.saveStep = 5 ∧ (s.keep.course c).hold = none then
        s.fillCourse c (fun s => s.pageIn s.keep.dirty c 0) 512
      else s
    else match s.keep.ckpt with
    | some (_, pages) => s.fillCourse c (fun s => s.pageIn pages c 0) 512
    | none => match s.keep.charac with
      | some _ => s.fillCourse c (fun s =>
          (s.pageIn s.keep.dirty c 0).orElse fun _ =>
            s.pageIn [(0, allPages)] c ((s.keep.charac.map (·.ptr)).getD 0)) 512
      | none => s) s

/-- A program of a copy completes and the map entry is swapped (R245): the old slot becomes pending. -/
def State.swapEntry (s : State) (x : Copy) : State :=
  let c := s.keep.course x.course
  let i := indexOf x.page
  let old := mapAt c.cur i
  let oldEpoch := ((tget c.slots old.slot).map (·.epoch)).getD s.keep.epoch.num
  let s := s.modCourse x.course fun c => { c with
    cur := tset c.cur i { slot := x.slot, heat := min 3 (old.heat + 1), zero := false, poison := x.ver.mask != 0 }
    slots := tset c.slots x.slot x.ver
    counts := tset c.counts x.slot x.ver.count
    pend := c.pend ++ [old.slot]
    deltas := sins c.deltas i
    deltaF := if s.keep.folding = none then c.deltaF else sins c.deltaF i }
  let s := s.modKeep fun k => { k with
    copies := k.copies.erase x
    copied := radd k.copied x.page
    copiesSince := k.copiesSince + 1
    poisonPg := rdel k.poisonPg x.page
    oldLeft := k.oldLeft + b2n (x.ver.epoch != k.epoch.num) - b2n (!old.zero && oldEpoch != k.epoch.num)
    ckpt := k.ckpt.map fun y => (y.1, if x.cover then rdel y.2 x.page else y.2)
    charac := k.charac.map fun y => if k.dirty.isEmpty then { y with ptr := max y.ptr (x.page + 1) } else y }
  let s := s.add64 KEEP_COPIES_LO 1
  if wearLimit ≤ x.ver.count then s.retireSlot x.course x.slot else s

/-- A copy that ends without a swap: its slot returns to the pool. The program completes on its own (R19), and the slot then holds
the whole new page unless it failed; one that has reached its last program is retired (R270). -/
def State.dropCopy (s : State) (x : Copy) (ok : Bool) : State :=
  let s := (s.modCourse x.course fun c => { c with
    freed := c.freed ++ [x.slot], counts := tset c.counts x.slot x.ver.count
    slots := if ok then tset c.slots x.slot x.ver else c.slots }).modKeep fun k => { k with copies := k.copies.erase x }
  if ok ∧ wearLimit ≤ x.ver.count then s.retireSlot x.course x.slot else s

/-- Every copy in flight of a course, or of both, ends without a swap. -/
def State.dropCopies (s : State) (p : Copy → Bool) : State :=
  (s.keep.copies.filter p).foldl (fun s x => if s.unstarted x then s.cancelCopy x else s.dropCopy x true) s

/-- Copies in flight are abandoned with their dirty bits set (R271): those whose program has not started end at once, the programs
of the others complete under R19. -/
def State.abandonCopies (s : State) : State :=
  (s.keep.copies.filter s.unstarted).foldl State.cancelCopy
    (s.modKeep fun k => { k with dirty := k.copies.foldl (fun r x => radd r x.page) k.dirty })

/-- The trickle's pages: dirty, not copied since the last seal, of a restored unit, homed in a course that takes copies.
(DESIGN CHOICE, log entry 73) -/
def State.trickleOk (s : State) (p : Nat) : Bool :=
  let c := homeOf p
  s.mayCopy c && !(s.keep.course c).hotPosted && !rmem s.keep.copied p && !rmem s.keep.copiedS p && !s.keep.unreached p &&
  s.keep.inFlight c < 512 && !s.keep.copies.any fun x => x.page == p

/-- The trickle's rate in 0.1 GB/s (R244, R274): the catch-up rate while ARMING, while a write waits under admission, and
above D_max (R255). (DESIGN CHOICE, log entry 73) -/
def State.trickleRate (s : State) : Nat :=
  let fast := s.keep.arm == .arming || s.admHold ||
    ((s.keep.arm == .armed || s.keep.arm == .suspended) && decide (s.keep.dmax < s.keep.dirtyCount))
  max 1 (min 960 (if fast then s.fld KEEP_CATCHUP_BW_RATE else s.fld KEEP_TRICKLE_BW_RATE))

/-- TRICKLE_COPY_START (R244): the next dirty page in ascending order from where the trickle stands.
(DESIGN CHOICE, log entry 73) -/
def execTrickleCopyStart (obs : List CellObs) (s : State) : Host.Outcome State Fault Refusal :=
  .next (
    if s.inService = false ∨ s.flag KEEP_CTL_PAUSE ∨ s.pwr.interval then s
    else
      let s := if s.keep.winStart + 1000000 ≤ s.clock then
          s.modKeep fun k => { k with winStart := s.clock, winPages := 0 } else s
      if s.trickleRate * 100000 < (s.keep.winPages + 1) * 4096 then s
      else
        let fuel := rcount s.keep.dirty + s.keep.dirty.length + 1
        let next := (rnextFrom fuel s.keep.dirty s.keep.ptr s.trickleOk).orElse fun _ =>
          rnextFrom fuel s.keep.dirty 0 s.trickleOk
        match next with
        | none => s
        | some p => (s.modKeep fun k => { k with ptr := p + 1, winPages := k.winPages + 1 }).copyStart p obs)

/-- SEAL_TIMER (R246): a TRICKLE record when any copy has been made since the last seal. (DESIGN CHOICE, log entry 3) -/
def execSealTimer (s : State) : Host.Outcome State Fault Refusal :=
  .next (if s.inService ∧ 0 < s.keep.copiesSince ∧ s.pwr.interval = false then s.sealAsk 1 0 .none else s)

/-! ### Folds (R248) -/

/-- A fold begins when a journal holds more than 8 MiB since its last FOLD, and runs ahead of every copy above 16 MiB.
(DEDUCED, log entry 79) -/
def State.foldCheck (s : State) : State :=
  let most := ((s.keep.courses.filter fun c => !c.fenced).map (·.jbytes)).foldl max 0
  if s.inService = false then s
  else if 16 * 2 ^ 20 < most then
    let s := if s.keep.folding = none then s.modKeep fun k => { k with
        courses := k.courses.map fun c => { c with
          foldMap := c.cur.map fun e => (e.1, { e.2 with heat := e.2.heat / 2 }), deltaF := [] } }
      else s
    s.modKeep fun k => { k with folding := some true }
  else if 8 * 2 ^ 20 < most ∧ s.keep.folding = none then
    s.modKeep fun k => { k with
      folding := some false
      courses := k.courses.map fun c => { c with
        foldMap := c.cur.map fun e => (e.1, { e.2 with heat := e.2.heat / 2 }), deltaF := [] } }
  else s

/-- The map copies that are not in force have been programmed in the courses that are not fenced. -/
def State.mapsWritten (s : State) : State :=
  (List.range 2).foldl (fun s k =>
    let c := s.keep.course k
    if c.fenced then s else s.mapWritten k (1 - c.force)) s

/-- A record has been programmed into the journals of the courses that are not fenced. -/
def State.recsWritten (s : State) (r0 r1 : SealRec) : State :=
  [(0, r0), (1, r1)].foldl (fun s x =>
    if (s.keep.course x.1).fenced then s else s.ringWritten x.1 (recBytes x.2 / 4096)) s

/-- FOLD_MAP_WRITTEN (R248): the map copy that is not in force holds the map as it stood; the FOLD is sealed.
(DEDUCED, log entry 79) -/
def execFoldMapWritten (s : State) : Host.Outcome State Fault Refusal :=
  .next (
    if s.keep.folding.isNone || s.pwr.interval ||
        s.keep.sealQ.any (fun x => x.2.2 == .fold) || s.keep.sealing.any (fun x => x.2.2 == .fold) then s
    else
      (s.modKeep fun k => { k with
        courses := k.courses.map fun c => if c.fenced then c else { c with maps := setAt c.maps (1 - c.force) c.foldMap } }).mapsWritten.sealAsk
          6 0 .fold)

/-! ### Arming (R253) -/

/-- Every KEEP_ARM that waits completes. -/
def State.armEnds (s : State) (status : Nat) : State :=
  let ops := s.keep.armOps
  ops.foldl (fun s o => s.complete o status 0) (s.modKeep fun k => { k with armOps := [] })

/-- The stack is disarmed, with the cause and severity of 0x0502. (DESIGN CHOICE, log entry 68) -/
def State.disarm (s : State) (cause sev status : Nat) : State :=
  if s.keep.arm = .disarmed then s
  else ((s.modKeep fun k => { k with arm := .disarmed, below := false }).post 0x0502 sev 0xFF cause).armEnds status

/-- A checkpoint under way ends. (DEDUCED, log entry 69) -/
def State.ckptEnds (s : State) (status result : Nat) : State :=
  match s.keep.ckpt with
  | none => s
  | some (o, _) => { s.modKeep (fun k => { k with ckpt := none }) with wq := { s.wq with ksCur := none } }.complete o status result

/-- A characterisation under way ends. (DEDUCED, log entry 69) -/
def State.characEnds (s : State) (status result : Nat) : State :=
  match s.keep.charac with
  | none => s
  | some c =>
    { s.modKeep (fun k => { k with charac := none }) with wq := { s.wq with ksCur := none } }.complete c.op status result

/-- The operation of a seal that belongs to a checkpoint. -/
def SealFor.op : SealFor → Option Op
  | .checkpoint1 o _ => some o
  | .checkpoint2 o => some o
  | _ => Option.none

/-- A checkpoint that waits for a seal ends: the seal itself goes on. -/
def State.ckptSealEnds (s : State) (status : Nat) : State :=
  let ops := (s.keep.sealQ.filterMap fun x => x.2.2.op) ++ (match s.keep.sealing with
    | some (_, _, f) => f.op.toList | none => [])
  let s := s.modKeep fun k => { k with
    sealQ := k.sealQ.filter fun x => x.2.2.op.isNone
    sealing := k.sealing.map fun x => (x.1, x.2.1, if x.2.2.op.isSome then SealFor.none else x.2.2) }
  ops.foldl (fun s o => { s with wq := { s.wq with ksCur := none } }.complete o status 0) s

/-- Every checkpoint and characterisation ends with a status. -/
def State.moverOpsEnd (s : State) (status : Nat) : State :=
  ((s.ckptEnds status 0).ckptSealEnds status).characEnds status 0

/-- A keep course is fenced (R262, R317): 0x0688, 0x0511, and the stack is disarmed. (DEDUCED, log entry 69) -/
def State.fenceCourse (s : State) (k : Nat) : State :=
  if (s.keep.course k).fenced then s
  else
    let gone := s.keep.copies.filter fun x => x.course == k
    let s := ((s.dropCopies fun x => x.course == k).modCourse k fun c => { c with fenced := true }).modKeep fun y => { y with
      dirty := gone.foldl (fun r x => radd r x.page) y.dirty }
    let s := (s.post 0x0688 3 k 0).post 0x0511 4 k 0
    (s.disarm 3 3 6).moverOpsEnd 6

/-! ### Energy (R250, R251, R255) -/

/-- The energy measurement is valid (R250). -/
def State.measValid (s : State) : Bool :=
  s.reg KEEP_HOLDCAP != 0 && s.fld KEEP_HOLDVMIN_MV != 0 && s.keep.samples.length == 100 &&
  s.keep.samples.all fun x => 50000 ≤ x && x ≤ 1750000

/-- V of R250 in µV of store voltage: the lowest of the last 100 samples. -/
def State.holdV (s : State) : Nat :=
  match s.keep.samples with
  | [] => 0
  | x :: xs => 8 * xs.foldl min x

def State.eta (s : State) : Nat := max 500 (min 1000 (s.fld KEEP_HOLDETA_PERMILLE))

/-- C_eff in µF (R251). (DEDUCED, log entry 70) -/
def State.ceff (s : State) : Nat :=
  if s.flag KEEP_HOLDCHK_VALID then min (s.reg KEEP_HOLDCAP) (s.fld KEEP_HOLDCHK_UF) else 8 * s.reg KEEP_HOLDCAP / 10

/-- E_avail in mJ, rounded down (R251): η/1000 · ½ · C · (V² − Vmin²) − 3 J, with C in µF and V in µV. Before a
characterisation C_eff is 0.8 C exactly, so its tenths are carried. (DEDUCED, log entry 70) -/
def State.energyMj (s : State) (v : Nat) : Int :=
  let c10 := if s.flag KEEP_HOLDCHK_VALID then 10 * min (s.reg KEEP_HOLDCAP) (s.fld KEEP_HOLDCHK_UF) else 8 * s.reg KEEP_HOLDCAP
  let vm := 1000 * s.fld KEEP_HOLDVMIN_MV
  ((s.eta * c10 : Nat) : Int) * (((v * v : Nat) : Int) - (vm * vm : Nat)) / (2 * 10 ^ 19) - 3000

/-- D_max of R251. -/
def dmaxOf (e : Int) : Nat := min 25165824 ((e * 262144 / 450).toNat)

/-- The device computes its energy quantities (R251). (DEDUCED, log entry 70) -/
def State.energy (s : State) : State :=
  let v := s.holdV
  let e := s.energyMj v
  s.modKeep fun k => { k with
    vmv := v / 1000, eavail := e, ceff := s.ceff, dmax := if k.arm = .suspended then 0 else dmaxOf e }

/-- The keep state follows the measurement and the dirty count (R253, R255). -/
def State.armFollows (s : State) : State :=
  let valid := s.measValid
  match s.keep.arm with
  | .disarmed => s
  | .arming =>
    if valid = false then (s.modKeep fun k => { k with arm := .disarmed }).armEnds 7
    else if s.keep.dirtyCount ≤ s.keep.dmax then
      ((s.modKeep fun k => { k with arm := .armed, below := false }).post 0x0501 0 0xFF (s.keep.dmax / 256)).armEnds 0
    else s
  | .armed =>
    if valid = false then
      let s := s.post 0x0504 2 0xFF (s.keep.lastUv / 1000 % 65536)
      if s.flag KEEP_CTL_INVDISARM then s.disarm 2 1 7
      else s.modKeep fun k => { k with arm := .suspended, dmax := 0 }
    else s
  | .suspended => if valid then s.modKeep fun k => { k with arm := .arming } else s

/-- 0x0503 when D_max comes to lie below the dirty count in ARMED or SUSPENDED (R255). -/
def State.belowCheck (s : State) : State :=
  let low := (s.keep.arm == .armed || s.keep.arm == .suspended) && decide (s.keep.dmax < s.keep.dirtyCount)
  if low = s.keep.below then s
  else
    let s := s.modKeep fun k => { k with below := low }
    if low then s.post 0x0503 2 0xFF (s.keep.dirtyCount - s.keep.dmax) else s

/-- The end of HOLDUP_CHARACTERIZE (R252) with V2 at the store, in µV. C_meas = 2 E / (η (V1² − V2²)). (DEDUCED, log entry 71) -/
def State.characDone (s : State) (v2 : Nat) : State :=
  match s.keep.charac with
  | none => s
  | some c =>
    let d := c.uv1 * c.uv1 - v2 * v2
    if 98 * c.uv1 < 100 * v2 ∨ d = 0 then s.characEnds 7 0
    else
      -- pJ / (per mille · µV²) in µF: 2 · E · 10⁻¹² · 10³ · 10¹² · 10⁶
      let cm := min (2 ^ 31 - 1) (2 * (s.thm.pj - c.pj1) * 10 ^ 9 / (s.eta * d))
      let s := (s.setFld KEEP_HOLDCHK_UF cm).setFld KEEP_HOLDCHK_VALID (b2n (cm != 0))
      let s := s.post 0x050C 0 0xFF (cm / 1000)
      let s := if 10 * cm < 9 * s.reg KEEP_HOLDCAP then s.post 0x050D 2 0xFF 0 else s
      s.energy.characEnds 0 (cm % 2 ^ 32 + 2 ^ 32 * twos 32 s.energy.keep.eavail)

/-- HOLD_SENSE_SAMPLE (R250): in every state except OFF, from the end of the power-on reset. A characterisation ends early at
Vmin + 0.1 (V1 − Vmin) (R252). -/
def execHoldSenseSample (uv : Nat) (s : State) : Host.Outcome State Fault Refusal :=
  .next (
    if s.dev = .off ∨ s.pwr.levels.contains 1 then s
    else
      let s := s.modKeep fun k => { k with samples := (uv :: k.samples).take 100, lastUv := uv }
      let s := s.armFollows
      match s.keep.charac with
      | none => s
      | some c =>
        let vm := 1000 * s.fld KEEP_HOLDVMIN_MV
        if 10 * s.holdV ≤ 9 * vm + c.uv1 then s.characDone s.holdV else s)

/-- ENERGY_BUDGET_UPDATE (R251, R253, R255), every 100 µs; KEEP_ADMHOLD counts them while a write waits.
(DESIGN CHOICE, log entry 72) -/
def execEnergyBudgetUpdate (s : State) : Host.Outcome State Fault Refusal :=
  .next (
    if s.dev = .off then s
    else
      let s := s.energy.armFollows.belowCheck
      if s.admHold then s.incFld KEEP_ADMHOLD_US 100 else s)

/-- CHARACTERIZE_END (R252). (DEDUCED, log entry 71) -/
def execCharacterizeEnd (uv2 : Nat) (s : State) : Host.Outcome State Fault Refusal :=
  .next (s.characDone (8 * uv2))

/-- The store's settings have been written: a measurement that they make invalid takes effect on the keep state at once (R5, R250,
R253). -/
def State.holdSetup (s : State) : State := if s.measValid then s else s.armFollows

/-- A write of KEEP_HOLDCAP: C_meas is discarded (R252). -/
def State.writeHoldcap (s : State) (v : Nat) : State := ((s.setReg KEEP_HOLDCAP v).setReg KEEP_HOLDCHK 0).holdSetup

/-- KEEP_HOLDCAP_WRITE (R252). -/
def execKeepHoldcapWrite (a : Access) (v : Word) (s : State) : Host.Outcome State Fault Refusal :=
  .next (s.cfgWrite a KEEP_HOLDCAP fun s => s.writeHoldcap v.toNat)

/-! ### Keys and epochs (R267-R269) -/

/-- A POLICY 1 epoch still in use that has no share held and that a share matches. (DESIGN CHOICE, log entry 85) -/
def Keep.shareMatch (k : Keep) (share : Nat) : Option Epoch :=
  match k.secret with
  | none => none
  | some sec =>
    let used := if 0 < k.oldLeft then k.epochs.take 2 else k.epochs.take 1
    used.find? fun e => e.policy == 1 && (tget k.shares e.num).isNone && (derive sec share e.num 1).2.2 == e.chk

/-- A POLICY 1 epoch in use has no share held. -/
def Keep.waitsShare (k : Keep) : Bool :=
  let used := if 0 < k.oldLeft then k.epochs.take 2 else k.epochs.take 1
  used.any fun e => e.policy == 1 && (tget k.shares e.num).isNone

/-- The policy of the next epoch: 1 where the fuses fix it (CFG word 48 bit 1, R381). (DEDUCED, log entry 48) -/
def State.keyPolicy (s : State) : Nat := if bitAt s.fus.opts 1 then 1 else s.fld KEEP_KEYPOL_POLICY

/-- An epoch change (R269): the number rises, the key-wrap record is written, an EPOCH record is sealed and every page whose
entry is not ZERO becomes dirty; so does one in flight, whose version carries the previous epoch. (DEDUCED, log entry 67) -/
def State.newEpoch (s : State) : State :=
  let pol := s.keyPolicy
  let n := (s.keep.epoch.num + 1) % 2 ^ 32
  let share := match s.keep.pendShare with
    | some x => some x
    | none => if pol = 1 then tget s.keep.shares s.keep.epoch.num else none
  let chk := (derive (s.keep.secret.getD 0) (share.getD 0) n pol).2.2
  let live := fun (c : Course) => (c.cur.filter fun e => !e.2.zero).map (·.1)
  let pages := ((live (s.keep.course 0)).map fun i => 2 * i) ++ ((live (s.keep.course 1)).map fun i => 2 * i + 1)
  let s := s.modKeep fun k => { k with
    epochs := { num := n, policy := pol, chk := chk } :: k.epochs.take 1
    shares := (match pol, share with
      | 1, some x => tset k.shares n x
      | _, _ => k.shares)
    pendShare := none, epochChange := true, oldLeft := pages.length
    dirty := (pages ++ k.copies.map (·.page)).foldl radd k.dirty }
  s.writeWrap.sealAsk 7 0 .epoch

/-- An epoch change has not ended: its record is not sealed, or a slot in force still carries the previous epoch.
(DEDUCED, log entry 67) -/
def Keep.epochOpen (k : Keep) : Bool := k.epochChange || 0 < k.oldLeft

/-- The key is lost: the stack is disarmed, and what the mover does for the Keystone ends (R249, R253). (DEDUCED, log entry 69) -/
def State.keyLost (s : State) : State := (s.disarm 4 3 6).moverOpsEnd 6

/-- The key registers are zeroised (R267). -/
def State.dropKeys (s : State) : State :=
  (s.modKeep fun k => { k with shares := [], pendShare := none, secret := none }).keyLost

end Sys2Proof.Machine
end

