-- ==== Sys2Proof/Machine/Fuses.lean ====
section
/-! DEFINITION. The fuse array: its words and regions, the staged load, programming, the recording of repairs, the lifecycle
and the locks (R379-R396, R318). -/

namespace Sys2Proof.Machine

/-! ### Words (R379, R382, R385) -/

def blankWord : FuseWord := cleanWord 0

def State.fword (s : State) (a : Nat) : FuseWord := tgetD s.fus.words a blankWord

/-- The check bits of a read. -/
def FRead.check (r : FRead) : Nat := match r.chk with
  | some c => c
  | none => if r.raw = 0 then 0 else Config.fuseCheck r.raw % 128

/-- A word reads 0 in all 39 bits. -/
def FRead.blank (r : FRead) : Bool := r.raw == 0 && (r.chk == none || r.chk == some 0)

/-- Steps 1 and 2 of R382. -/
def FuseWord.value (w : FuseWord) : Option Nat :=
  if w.tight.out ≤ 1 then some w.tight.data else if w.norm.out ≤ 1 then some w.norm.data else none

/-- The two raw reads differ, or one of them is not clean (R382). -/
def FuseWord.marginal (w : FuseWord) : Bool :=
  w.norm.raw != w.tight.raw || w.norm.chk != w.tight.chk || w.norm.out != 0 || w.tight.out != 0

/-- Eight or more of the 32 data bits read 1 at either reference (R385). -/
def FuseWord.isSet (w : FuseWord) : Bool := 8 ≤ popcount 32 w.norm.raw || 8 ≤ popcount 32 w.tight.raw

/-! ### Regions (R379, R380) -/

/-- A region: its number, its first word, its data words, and the first word of its second copy. -/
structure Region where
  num : Nat
  base : Nat
  n : Nat
  dup : Option Nat
deriving DecidableEq, Repr

def regions : List Region := [
  ⟨0, 0x000, 15, none⟩, ⟨1, 0x010, 255, some 0x110⟩, ⟨2, 0x210, 1023, none⟩, ⟨3, 0x610, 63, none⟩, ⟨4, 0x650, 63, none⟩,
  ⟨5, 0x690, 63, none⟩, ⟨6, 0x6D0, 63, none⟩, ⟨7, 0x710, 15, some 0x720⟩, ⟨8, 0x730, 7, some 0x738⟩, ⟨9, 0x740, 159, none⟩,
  ⟨10, 0x7E0, 15, some 0x7F0⟩]

def regionNo (n : Nat) : Region := regions.getD n ⟨0, 0, 15, none⟩

/-- A fixed region (R383). -/
def fixedRegion (n : Nat) : Bool := n == 0 || n == 1 || n == 7 || n == 9

/-- A growing region (R384). -/
def growingRegion (n : Nat) : Bool := 2 ≤ n && n ≤ 6

/-- A word lies in a region. -/
def Region.holds (r : Region) (a : Nat) : Bool :=
  (r.base ≤ a && a ≤ r.base + r.n) || (match r.dup with | some b => b ≤ a && a ≤ b + r.n | none => false)

/-- The region of a word; words 0x7E0 to 0x7FF close the array. -/
def regionOf (a : Nat) : Nat := ((regions.find? fun r => r.holds a).map (·.num)).getD 10

/-- The addresses of a region's words, both copies. -/
def Region.addrs (r : Region) : List Nat :=
  ((List.range (r.n + 1)).map (r.base + ·)) ++ (match r.dup with
    | some b => (List.range (r.n + 1)).map (b + ·) | none => [])

/-- The seal of R381. -/
def sealOf (ws : List Nat) : Nat := (crc32 (leBytes 4 ws.length ++ (ws.map (leBytes 4)).flatten)).toNat

/-- A resolved word (R382): with step 3 for a duplicated region. -/
def State.resolve (s : State) (a : Nat) (other : Option Nat) : Option Nat :=
  match (s.fword a).value with
  | some v => some v
  | none => match other with
    | some b => (s.fword b).value
    | none => none

/-- The data words of a copy and its seal, resolved. -/
def State.regionWords (s : State) (r : Region) (base : Nat) (other : Option Nat) : List (Option Nat) × Option Nat :=
  ((List.range r.n).map fun i => s.resolve (base + i) (other.map (· + i)), s.resolve (base + r.n) (other.map (· + r.n)))

/-- Resolved words pass the test of a fixed region (R383). -/
def sealOk (w : List (Option Nat) × Option Nat) : Bool :=
  w.1.all Option.isSome && (match w.2 with
    | some x => x != 0 && x == sealOf (w.1.map fun v => v.getD 0)
    | none => false)

/-- A lock fuse is blown (R385); LIFE has none. -/
def State.lockBlown (s : State) (n : Nat) : Bool :=
  n != 8 && ((s.fword (0x7E0 + n)).isSet || (s.fword (0x7F0 + n)).isSet)

/-- The lifecycle words set in a copy of LIFE, as bits. -/
def State.lifeSet (s : State) (base : Nat) : Nat :=
  ((List.range 4).map fun i => if (s.fword (base + i)).isSet then 2 ^ i else 0).sum

/-- The state that set transition words give: the highest. -/
def lifeOf (bits : Nat) : Nat := if 8 ≤ bits then 4 else if 4 ≤ bits then 3 else if 2 ≤ bits then 2 else if 1 ≤ bits then 1 else 0

/-- What a load makes of one region: its state as FUS_REGSTAT.STATE gives it, whether it is invalid, whether copy B is used
whole, whether a word came from the other copy, and its words. -/
structure RegLoad where
  state : Nat
  invalid : Bool
  copyB : Bool
  dup : Bool
  words : List (Option Nat)
deriving DecidableEq, Repr

/-- A region is read (R383-R385). (DEDUCED, log entry 97) -/
def State.loadRegion (s : State) (n : Nat) : RegLoad :=
  let r := regionNo n
  if n = 8 ∨ n = 10 then { state := 2, invalid := false, copyB := false, dup := false, words := [] }
  else if fixedRegion n then
    let a := s.regionWords r r.base r.dup
    let own := s.regionWords r r.base none
    let blank := r.addrs.all fun x => (s.fword x).norm.blank && (s.fword x).tight.blank
    if sealOk a then { state := 2, invalid := false, copyB := false, dup := a != own, words := a.1 }
    else
      let bad : RegLoad := { state := if blank then 0 else 4, invalid := true, copyB := false, dup := a != own, words := [] }
      match r.dup with
      | some b =>
        let w := s.regionWords r b none
        if sealOk w then { state := 2, invalid := false, copyB := true, dup := false, words := w.1 } else bad
      | none => bad
  else
    let a := s.regionWords r r.base none
    let lock := s.lockBlown n
    let ok : Bool := match a.2 with
      | some x => x != 0 && x == sealOf (a.1.map fun v => v.getD 0)
      | none => false
    let blank := a.2 == some 0
    let st := if ok then 2 else if lock then 4 else if blank then 1 else 3
    { state := st, invalid := st == 4, copyB := false, dup := false, words := if st = 4 then [] else a.1 }

/-! ### The remap rebuilt (R318) -/

/-- The bank a row word names. -/
def wBank (w : Nat) : Nat := getBits w 28 19

/-- The spare row that the next row word of a bank takes (R16, R318): of REPAIR_M, where `man` says that the word is in it or on its
way there, the manufacturing rows 4-11 in order; of the others the first of field-repair rows 0-3 and then the manufacturing rows
that serves no row word. (DEDUCED, log entry 159) -/
def spareFor (rs : List Repair) (w : Nat) (man : Bool) : Option Nat :=
  let mine := rs.filter fun r => wKind r.word == 1 && wBank r.word == wBank w
  let m := (mine.filter fun r => r.src == 0 || r.src == 2).length
  if man then (if m < 8 then some (4 + m) else none)
  else (List.range 12).find? fun x => !mine.any fun r => r.spare == x

/-- A repair in force, from its word. -/
def addRepair (man : Bool) (src : Nat) (rs : List Repair) (w : Nat) : List Repair :=
  let k := wKind w
  if k = 1 then rs ++ [{ word := w, src := src, spare := (spareFor rs w man).getD 255 }]
  else if 2 ≤ k ∧ k ≤ 4 then rs ++ [{ word := w, src := src }]
  else rs

/-- The words of INT_PEND_n, in order. -/
def State.pendWords (s : State) : List Nat := ((List.range 16).map fun n => s.reg (INT_PEND n)).filter (· != 0)

/-- INT_PEND_n hold a list of words, the oldest lowest: so their order is that in which they will be fused (R318).
(DEDUCED, log entry 159) -/
def State.setPend (s : State) (ws : List Nat) : State := (List.range 16).foldl (fun s n => s.setReg (INT_PEND n) (ws.getD n 0)) s

/-- The repairs of REPAIR_M, then REPAIR_F in word order, then INT_PEND_n, whose row words go to REPAIR_M while the lifecycle state
is STACKED (R318). -/
def State.rebuildRemap (s : State) (life : Nat) (m f : List Nat) : List Repair :=
  s.pendWords.foldl (addRepair (life == 2) 2) (f.foldl (addRepair false 1) (m.foldl (addRepair true 0) []))

/-! ### Free words (R390) -/

/-- Whether a data word of a growing region is blank. -/
def State.blankAt (s : State) (a : Nat) : Bool := (s.fword a).norm.blank

/-- The lowest blank data word of a growing region. -/
def State.freeWord (s : State) (n : Nat) : Option Nat :=
  let r := regionNo n
  ((List.range r.n).find? fun i => s.blankAt (r.base + i)).map (r.base + ·)

/-- REPAIR_F banks that are OPEN. -/
def State.openBanks (s : State) : List Nat := (List.range 4).filter fun b => s.fus.states.getD (3 + b) 0 == 1

/-- The free REPAIR_F words: blank data words of OPEN banks. -/
def State.freeF (s : State) : Nat :=
  (s.openBanks.map fun b => ((List.range 63).filter fun i => s.blankAt (0x610 + 0x40 * b + i)).length).sum

/-- FUS_RFFREE and INT_REPFUSE.FREE (R390). -/
def State.noteFree (s : State) : State :=
  let n := s.freeF
  (((s.setFld FUS_RFFREE_FREE n).setFld FUS_RFFREE_BANK (s.openBanks.headD 0)).setFld INT_REPFUSE_FREE n)

/-! ### The load (R382-R386) -/

def wordsNat (ws : List (Option Nat)) (from_ n : Nat) : Nat :=
  (List.range n).foldl (fun x i => x + (((ws.getD (from_ + i) none).getD 0) % 2 ^ 32) * 2 ^ (32 * i)) 0

/-- A word of TRIM; without a valid TRIM the default of R383. -/
def RegLoad.trim (l : RegLoad) (i d : Nat) : Nat := if l.invalid then d else (l.words.getD i none).getD 0

/-- The impedance codes of TRIM that trace to CAL_RES (R344): of the TSVs, and of the lanes of some ports. -/
def State.trimImpedance (s : State) (l : RegLoad) (ports : List Nat) : State :=
  ports.foldl (fun s p => s.setReg (CAL_ZLANE p) (l.trim (1 + p) 0x2020)) (s.setReg CAL_ZTSV (l.trim 0 0x202020))

/-- The gains and offsets of TRIM that trace to CAL_RES (R344). -/
def State.trimSense (s : State) (l : RegLoad) : State :=
  let s := (List.range 40).foldl (fun s n => s.setReg (CAL_SGAIN n) (l.trim (5 + n) 0x4000)) s
  (List.range 88).foldl (fun s n => s.setReg (CAL_SOFF n) (l.trim (45 + n) 0)) s

/-- The trims as the CAL registers take them. -/
def State.applyTrim (s : State) (l : RegLoad) : State :=
  let w := l.trim
  let s := (s.trimImpedance l [0, 1, 2, 3]).trimSense l
  let s := (List.range 32).foldl (fun s c => s.setFld (CAL_DSTEP_TRIM c) (w (133 + c) 0x80)) s
  { s with cal := { s.cal with ktrim := [w 165 0x80 % 256, w 166 0x80 % 256] } }

/-- Every marginal word, in address order. -/
def State.marginals (s : State) : List Nat := (s.fus.words.filter fun e => e.2.marginal).map (·.1)

/-- The status registers that a load gives (R396). -/
def State.noteLoad (s : State) (ls : List RegLoad) : State :=
  let marg := s.marginals
  let a := s.lifeSet 0x730
  let b := s.lifeSet 0x738
  let s := (((s.setFld FUS_LIFE_SETA a).setFld FUS_LIFE_SETB b).setFld FUS_LIFE_SPLIT (b2n (lifeOf a != lifeOf b))).setFld
    FUS_LIFE_STATE (max (lifeOf a) (lifeOf b))
  let s := (s.setFld FUS_STAT_INVALID ((List.range 11).map fun n =>
    if (ls.map (·.invalid)).getD n false then 2 ^ n else 0).sum).setFld FUS_LOCKF_BLOWN s.fus.blown
  let s := s.setFld FUS_MARGCNT_COUNT marg.length
  let s := (List.range 8).foldl (fun s n => s.setReg (FUS_MARG n) (match marg[n]? with
    | some x => 2 ^ 31 + x | none => 0)) s
  let s := (List.range 11).foldl (fun s n =>
    let r := regionNo n
    let l := ls.getD n { state := 0, invalid := false, copyB := false, dup := false, words := [] }
    let base := if l.copyB then r.dup.getD r.base else r.base
    let used := ((List.range r.n).filter fun i => !s.blankAt (base + i)).length
    let mg := (marg.filter fun x => r.holds x).length
    ((((((s.setFld (FUS_REGSTAT_STATE n) l.state).setFld (FUS_REGSTAT_LOCKF n) (b2n (s.lockBlown n))).setFld
      (FUS_REGSTAT_DUP n) (b2n l.dup)).setFld (FUS_REGSTAT_COPYB n) (b2n l.copyB)).setFld
      (FUS_REGSTAT_MARG n) (min 255 mg)).setFld (FUS_REGSTAT_USED n) used)) s
  (s.setReg FUS_CFGOPT s.fus.opts).setReg64 FUS_ID0 s.fus.ident

/-- The commit of a load (R386). (DEDUCED, log entry 97) -/
def State.fuseCommit (s : State) : State :=
  let ls : List RegLoad := (List.range 11).map fun n => s.loadRegion n
  let l := fun n => ls.getD n { state := 0, invalid := true, copyB := false, dup := false, words := [] }
  let life := max (lifeOf (s.lifeSet 0x730)) (lifeOf (s.lifeSet 0x738))
  let val := fun (ws : List (Option Nat)) => (ws.map fun v => v.getD 0).filter (· != 0)
  let cfgOk := !(l 9).invalid
  let s := { s with
    fus := { s.fus with
      life := life, loaded := true, loading := false
      states := ls.map RegLoad.state, keyBad := (l 7).invalid
      blown := ((List.range 11).map fun n => if s.lockBlown n then 2 ^ n else 0).sum
      opts := if cfgOk then ((l 9).words.getD 48 none).getD 0 else 0
      fwKey := if cfgOk then wordsNat (l 9).words 0 24 else 0
      unlockKey := if cfgOk then wordsNat (l 9).words 24 24 else 0
      ident := if (l 0).invalid then 0 else wordsNat (l 0).words 0 2 }
    intg := { s.intg with
      repairs := s.rebuildRemap life (val (l 2).words)
        (val ((l 3).words ++ (l 4).words ++ (l 5).words ++ (l 6).words)) } }
  let s := s.modKeep fun k => { k with
    secret := if (l 7).invalid || life == 0 || life == 4 then none else some (wordsNat (l 7).words 0 8) }
  let s := if s.keep.secret.isNone then s.keyLost else s
  let s := ((s.applyTrim (l 1)).noteLoad ls).noteFree
  let s := s.incFld FUS_LOADCNT_LOADS 1
  let s := (List.range 11).foldl (fun s n =>
    let x := l n
    let s := if x.copyB then s.post 0x0705 1 n 0 else s
    if x.invalid then s.post 0x0704 (if n = 1 then 4 else 3) n 0
    else if growingRegion n ∧ x.state = 3 then s.post 0x070A 2 n 0 else s) s
  let s := match s.marginals with
    | a :: _ => s.post 0x0703 2 (regionOf a) a
    | [] => s
  s.post 0x0701 0 0xFF (s.fld FUS_STAT_INVALID + 65536 * s.fld FUS_MARGCNT_COUNT)

/-- A reset before the commit restarts the load (R386). -/
def State.loadRestart (s : State) : State :=
  if s.fus.loading then
    (({ s with fus := { s.fus with loading := false } }.incFld FUS_LOADCNT_RESTARTS 1).post 0x0702 1 0xFF 0)
  else s

/-! ### Programming (R387-R389) -/

/-- VPP lies within its programming range: the rail is good (R387). -/
def State.vppOk (s : State) : Bool := bitAt s.pwr.good 4

/-- A lock word of a REPAIR_F bank (R389, R394). (DEDUCED, log entry 99) -/
def bankLockWord (a : Nat) : Bool := (0x7E3 ≤ a && a ≤ 0x7E6) || (0x7F3 ≤ a && a ≤ 0x7F6)

/-- The lifecycle state permits a word program of a region (R389). (DESIGN CHOICE, log entry 100) -/
def lifePermits (life reg a : Nat) (byKs : Bool) : Bool :=
  if reg = 8 then false
  else if life = 1 then true
  else if life = 2 then reg == 0 || reg == 1 || reg == 2 || reg == 7 || reg == 9 || reg == 10
  else if life = 3 then byKs && ((3 ≤ reg && reg ≤ 6) || bankLockWord a)
  else false

/-- A program command ends with a result; every result but OK posts 0x0706 (R387). BUSY stays for a command still under
way. -/
def State.pgResult (s : State) (a result : Nat) : State :=
  let s := ((s.setFld FUS_PGSTAT_BUSY (b2n s.fus.cmd.isSome)).setFld FUS_PGSTAT_RESULT result).setFld FUS_PGSTAT_ADDR a
  if result = 1 then s else s.post 0x0706 2 (regionOf a) (a % 2048 + 65536 * result)

/-- A program starts. -/
def State.pgStart (s : State) (c : FuseCmd) : State :=
  { (s.setFld FUS_PGSTAT_BUSY 1).setFld FUS_PGSTAT_ADDR c.addr with fus := { s.fus with cmd := some c } }

/-- A load, program or lifecycle command is under way. -/
def State.fuseBusy (s : State) : Bool := s.fus.loading || s.fus.cmd.isSome

/-- A word program (R387): the preconditions in order. -/
def State.programWord (s : State) (a d : Nat) (byKs : Bool) : State :=
  let reg := regionOf a
  let own := if bankLockWord a then !(s.fus.life == 3 && byKs) && s.lockBlown reg
    else s.lockBlown reg || bitAt (s.fld FUS_LOCK_LOCK) reg
  if lifePermits s.fus.life reg a byKs = false then s.pgResult a 2
  else if own then s.pgResult a 3
  else if s.vppOk = false then s.pgResult a 4
  else if s.blankAt a = false then s.pgResult a 5
  else if s.fuseBusy then s.pgResult a 9
  else s.pgStart { kind := 1, addr := a, data := d, state := 0, byKs := byKs }

/-- A lifecycle command names a step that exists (R391): the next state up to FIELD, or RETIRED for OP 3 (`retire`).
(DESIGN CHOICE, log entry 100) -/
def State.lifeStep (s : State) (target : Nat) (retire : Bool) : Bool :=
  if retire then 1 ≤ s.fus.life && s.fus.life ≤ 3 else target == s.fus.life + 1 && target ≤ 3

/-- The conditions of a lifecycle command (R391). (DESIGN CHOICE, log entry 100) -/
def State.lifePrereq (s : State) (target : Nat) (retire : Bool) : Bool :=
  if s.lifeStep target retire = false then false
  else if s.fus.life = 2 ∧ retire = false then
    [0, 1, 2, 7, 9].all fun n => s.fus.states.getD n 0 == 2 && s.lockBlown n &&
      (match (regionNo n).dup with
        | some b => sealOk (s.regionWords (regionNo n) (regionNo n).base none) && sealOk (s.regionWords (regionNo n) b none)
        | none => true)
  else true

/-- A lifecycle command (R387, R391): the preconditions in order, then the transition word in LIFE copy A first. A command
that names no step has no word to be blank. (DESIGN CHOICE, log entry 100) -/
def State.lifeCommand (s : State) (target : Nat) (retire : Bool) : State :=
  let k := if retire then 4 else target
  let a := 0x730 + (k - 1)
  if s.vppOk = false then s.pgResult a 4
  else if s.lifeStep target retire ∧ s.blankAt a = false then s.pgResult a 5
  else if s.lifePrereq target retire = false then s.pgResult a 8
  else if s.fuseBusy then s.pgResult a 9
  else s.pgStart { kind := 2, addr := a, data := 0xFFFFFFFF, state := k, byKs := false }

/-- A write of FUS_PGCMD (R387, R388): over the lattice answered OK and ignored. -/
def State.pgCommand (s : State) (a : Access) (v : Nat) : State :=
  let op := v % 4
  let byKs := match a.path with | .keystone => true | _ => false
  match a.path with
  | .port _ => s
  | _ =>
    if getBits v 31 16 ≠ 0xF05A ∨ op = 0 then s
    else if op = 1 then s.programWord (s.fld FUS_PGADDR_ADDR) (s.reg FUS_PGDATA) byKs
    else s.lifeCommand (getBits v 10 8) (op == 3)

/-- FUSE_PROGRAM_WORD (R387). -/
def execFuseProgramWord (a : Access) (v : Word) (s : State) : Host.Outcome State Fault Refusal :=
  .next (s.cfgWrite a FUS_PGCMD fun s => s.pgCommand a v.toNat)

/-- LIFECYCLE_ADVANCE (R391). -/
def execLifecycleAdvance (a : Access) (v : Word) (s : State) : Host.Outcome State Fault Refusal :=
  .next (s.cfgWrite a FUS_PGCMD fun s => s.pgCommand a v.toNat)

/-- LIFECYCLE_RETIRE (R391). -/
def execLifecycleRetire (a : Access) (v : Word) (s : State) : Host.Outcome State Fault Refusal :=
  .next (s.cfgWrite a FUS_PGCMD fun s => s.pgCommand a v.toNat)

/-! ### Recording (R318, R390) -/

/-- The oldest word that waits to be fused. -/
def State.pendWord (s : State) : Option Nat := s.pendWords.head?

/-- What Loesh firmware programs next of its own accord: a lagging copy of LIFE (R385), the seal of a full bank, the lock of
a sealed bank, a repair word that waits. (DEDUCED, log entry 96) -/
def State.ksFuse (s : State) : Option FuseCmd :=
  let cmd := fun a d k => some ({ kind := k, addr := a, data := d, state := 0, byKs := true } : FuseCmd)
  let la := lifeOf (s.lifeSet 0x730)
  let lb := lifeOf (s.lifeSet 0x738)
  if la ≠ lb then cmd (if la < lb then 0x730 + lb - 1 else 0x738 + la - 1) 0xFFFFFFFF 4
  else if s.fus.life = 3 then
    match (List.range 4).find? fun b => s.fus.states.getD (3 + b) 0 == 1 && (s.freeWord (3 + b)).isNone with
    | some b =>
      let r := regionNo (3 + b)
      cmd (r.base + 63) (sealOf ((s.regionWords r r.base none).1.map fun v => v.getD 0)) 1
    | none =>
      match (List.range 4).find? fun b => s.fus.states.getD (3 + b) 0 == 2 &&
          (s.blankAt (0x7E3 + b) || s.blankAt (0x7F3 + b)) with
      | some b => cmd (if s.blankAt (0x7E3 + b) then 0x7E3 + b else 0x7F3 + b) 0xFFFFFFFF 1
      | none =>
        match s.pendWord, s.openBanks.find? fun b => !bitAt (s.fld FUS_LOCK_LOCK) (3 + b) with
        | some w, some b => (s.freeWord (3 + b)).bind fun a => cmd a w 1
        | _, _ => none
  else if s.fus.life = 2 then
    match s.pendWord, s.freeWord 2 with
    | some w, some a =>
      if s.fus.states.getD 2 0 = 1 ∧ s.lockBlown 2 = false ∧ bitAt (s.fld FUS_LOCK_LOCK) 2 = false then
        cmd a w 1
      else none
    | _, _ => none
  else none

/-- Loesh firmware programs what waits, when VPP and the array allow it. It runs in every state whose Keystone does.
(DEDUCED, log entry 96) -/
def State.fuseRecord (s : State) : State :=
  if s.fuseBusy || !s.vppOk || !s.fus.loaded || s.dev == .off || s.dev == .aux || s.dev == .safe then s
  else match s.ksFuse with
    | some c => s.pgStart c
    | none => s

/-- A verified word is recorded: a lifecycle word, a seal, a lock or a repair. (DEDUCED, log entry 96) -/
def State.recorded (s : State) (c : FuseCmd) : State :=
  let reg := regionOf c.addr
  let r := regionNo reg
  if reg = 10 then
    { s with fus := { s.fus with blown := ((List.range 11).map fun n => if s.lockBlown n then 2 ^ n else 0).sum } }
  else if growingRegion reg ∧ c.byKs ∧ c.addr = r.base + r.n then
    ({ s with fus := { s.fus with states := setAt s.fus.states reg 2 } }.noteFree).post 0x0709 0 reg 0
  else if growingRegion reg ∧ c.byKs then
    let src := if reg = 2 then 0 else 1
    let was : Nat := s.fld INT_REPFUSE_FREE
    let s := s.setPend (s.pendWords.erase c.data)
    let rs := s.intg.repairs.map fun (x : Repair) =>
      if x.word = c.data ∧ 2 ≤ x.src then { x with src := src } else x
    let s : State := { s with intg := { s.intg with repairs := rs } }
    let s := s.noteFree
    if 16 ≤ was ∧ s.fld INT_REPFUSE_FREE < 16 then s.post 0x068B 2 0xFF (s.fld INT_REPFUSE_FREE) else s
  else s

/-- The lifecycle state that LIFE now gives takes effect (R391, R392). -/
def State.lifeTakes (s : State) : State :=
  let a := s.lifeSet 0x730
  let b := s.lifeSet 0x738
  let old := s.fus.life
  let new := max old (max (lifeOf a) (lifeOf b))
  let s := ((s.setFld FUS_LIFE_SETA a).setFld FUS_LIFE_SETB b).setFld FUS_LIFE_SPLIT (b2n (lifeOf a != lifeOf b))
  if new = old then s
  else
    let s := ({ s with fus := { s.fus with life := new } }.setFld FUS_LIFE_STATE new).post 0x0707 1 0xFF (new + 16 * old)
    if new = 4 then s.dropKeys else s

/-- FUSE_PROGRAM_DONE (R387, R390, R391): 0 verified, 1 the read-back differs, 2 aborted. A word that is not verified reads
as the command says; what its check bits and its decode are is a free value. -/
def execFuseProgramDone (outcome : Fin 3) (read : Word) (s : State) : Host.Outcome State Fault Refusal :=
  .next (
    match s.fus.cmd with
    | none => s
    | some c =>
      let s := { s with fus := { s.fus with cmd := none } }
      if outcome = 0 then
        let s := if c.data = 0 then s else { s with fus := { s.fus with words := tset s.fus.words c.addr (cleanWord c.data) } }
        let s := s.pgResult c.addr 1
        if c.kind = 1 then (s.recorded c).fuseRecord
        else if c.kind = 2 then
          let s := s.lifeTakes
          let b := c.addr + 8
          if s.vppOk = false then s.pgResult b 4
          else s.pgStart { c with kind := 3, addr := b }
        else
          let s := s.lifeTakes
          if c.kind = 4 then (s.post 0x0708 1 0xFF 0).fuseRecord else s.fuseRecord
      else
        let f := fun i => Config.freeValue (s.fresh + i)
        let r : Nat → FRead := fun i => { raw := read.toNat, chk := some (f i % 128), out := f (i + 1) % 3, data := f (i + 2) % 2 ^ 32 }
        let s := { s with
          fresh := s.fresh + 6
          fus := { s.fus with words := tset s.fus.words c.addr { norm := r 0, tight := r 3 } } }
        let s := s.pgResult c.addr (if outcome = 1 then 6 else 7)
        let reg := regionOf c.addr
        let s := if growingRegion reg ∧ c.byKs ∧ c.addr = (regionNo reg).base + (regionNo reg).n then
            { s with fus := { s.fus with states := setAt s.fus.states reg 3 } }.noteFree
          else s
        if c.kind = 1 then s.noteFree else s.lifeTakes)

/-- REPAIR_FUSE_RETRY (R318): every 10 s; 0x0689 once for a word that waits, with the channel of the word; a keep-bus word names
none. (DEDUCED, log entry 159) -/
def execRepairFuseRetry (s : State) : Host.Outcome State Fault Refusal :=
  .next (
    let s := s.fuseRecord
    match s.intg.repairs.find? fun r => r.src == 2 && !r.posted with
    | some r =>
      if s.fus.cmd.any fun c => c.data == r.word then s
      else
        let rs := s.intg.repairs.map fun (x : Repair) => if x = r then { x with posted := true } else x
        { s with intg := { s.intg with repairs := rs } }.post 0x0689 2 (if wKind r.word = 3 then 0xFF else wChan r.word) r.word
    | none => s)

/-- A reset of reach COLD or wider aborts a program under way (R387). -/
def State.abortFuse (s : State) : State :=
  match s.fus.cmd with
  | none => s
  | some c =>
    let f := fun i => Config.freeValue (s.fresh + i)
    let r : Nat → FRead := fun i => { raw := f i % 2 ^ 32, chk := some (f (i + 1) % 128), out := f (i + 2) % 3, data := f (i + 3) % 2 ^ 32 }
    ({ s with
      fresh := s.fresh + 8
      fus := { s.fus with cmd := none, words := tset s.fus.words c.addr { norm := r 0, tight := r 4 } } }).pgResult c.addr 7

/-! ### Registers (R393, R394) -/

/-- A write of FUS_LOCK (R394): a 1 sets a bit; bit 8 reads 0. (DEDUCED, log entry 99) -/
def State.writeLock (s : State) (v : Nat) : State := s.setFld FUS_LOCK_LOCK ((s.fld FUS_LOCK_LOCK ||| (v % 2048)) &&& 0x6FF)

/-- FUS_LOCK_WRITE (R394). (DEDUCED, log entry 99) -/
def execFusLockWrite (a : Access) (v : Word) (s : State) : Host.Outcome State Fault Refusal :=
  .next (s.cfgWrite a FUS_LOCK fun s => s.writeLock v.toNat)

/-- FUS_RDADDR_WRITE (R393, R396): both reads are presented at once; a KEY word is hidden. (DEDUCED, log entry 98) -/
def State.rawRead (s : State) (a : Nat) : State :=
  let w := s.fword a
  let s := s.setFld FUS_RDADDR_ADDR a
  if regionOf a = 7 then
    ((s.setReg FUS_RDNORM 0).setReg FUS_RDTIGHT 0).setReg FUS_RDINFO (2 ^ 31 + 2 ^ 30)
  else
    let d := popcount 32 (w.norm.raw ^^^ w.tight.raw)
    ((s.setReg FUS_RDNORM w.norm.data).setReg FUS_RDTIGHT w.tight.data).setReg FUS_RDINFO
      (2 ^ 31 + w.tight.check * 2 ^ 17 + w.tight.out * 2 ^ 15 + w.norm.check * 2 ^ 8 + w.norm.out * 2 ^ 6 + d)

def execFusRdaddrWrite (a : Access) (v : Word) (s : State) : Host.Outcome State Fault Refusal :=
  .next (s.cfgWrite a FUS_RDADDR fun s => s.rawRead (v.toNat % 2048))

/-- Loesh firmware sets the sticky locks at bring-up step 4 (R394). -/
def State.stickyLocks (s : State) : State :=
  let bit := fun n =>
    let st := s.fus.states.getD n 0
    n != 8 && (st == 2 || (s.fus.life == 3 && !(3 ≤ n && n ≤ 6 && st == 1)))
  s.setFld FUS_LOCK_LOCK (s.fld FUS_LOCK_LOCK ||| ((List.range 11).map fun n => if bit n then 2 ^ n else 0).sum)

end Sys2Proof.Machine
end

