-- ==== Sys2Proof/Machine/Repair.lean ====
section
/-! DEFINITION. Repair: the remedies of self-test, their recording, row migration, suspect joints, and the repointer
(R310-R320). -/

namespace Sys2Proof.Machine

/-! ### Recording (R318) -/

/-- A repair that is found now waits in INT_PEND_n to be fused: the lifecycle state records repairs, and an entry is free. -/
def State.pends (s : State) : Bool := (s.fus.life == 2 || s.fus.life == 3) && decide (s.pendWords.length < 16)

/-- A repair joins the remap, `live` at once; it waits in INT_PEND_n behind the words that wait there (R318). -/
def State.record (s : State) (word spare : Nat) (live : Bool) : State :=
  let add := fun (src : Nat) => { s with intg := { s.intg with
    repairs := s.intg.repairs ++ [({ word := word, src := src, spare := spare, live := live } : Repair)] } }
  if s.pends then ((add 2).setPend (s.pendWords ++ [word])).fuseRecord else add 3

/-- The spare row that a row which fails now would take (R314, R318). -/
def State.spareNext (s : State) (w : Nat) : Option Nat := spareFor s.intg.repairs w (s.pends && s.fus.life == 2)

/-- A pin repair is found (R316): while its channel runs, the switch comes into force at the next calibration step boundary; else,
or where `now` says that the standby pin carries the pin already (R352, R354), at once. -/
def State.recordPin (s : State) (c word : Nat) (now : Bool) : State :=
  let s := s.record word 255 false
  if now = false ∧ ((s.chan c).st = .active ∨ (s.chan c).st = .draining) then s
  else (s.intg.repairs.filter fun r => r.word == word && !r.live).foldl State.switchLands s

/-! ### Pins and TSVs (R314, R316) -/

/-- The word of a pin repair. -/
def pinWord (c pin stby : Nat) : Nat := 2 * 2 ^ 29 + c * 2 ^ 24 + pin * 2 ^ 17 + stby * 2 ^ 10

/-- The standby pins of a pin's unit (R352). -/
def stbyPins (pin : Nat) : List Nat :=
  if pin < 80 then [80 + 2 * (pin / 40), 81 + 2 * (pin / 40)]
  else if pin < 84 then [80 + 2 * ((pin - 80) / 2), 81 + 2 * ((pin - 80) / 2)]
  else [108, 109, 110, 111]

/-- The pins numbered 80-83 and 108-111 are standbys. -/
def isStby (pin : Nat) : Bool := (80 ≤ pin && pin ≤ 83) || (108 ≤ pin && pin ≤ 111)

/-- The lowest free standby pin of a pin's unit. -/
def State.freeStby (s : State) (c pin : Nat) : Option Nat := (stbyPins pin).find? fun x => !s.stbyTaken c x

/-- The pin's last repair word: what carries it now. -/
def State.carrier (s : State) (c pin : Nat) : Option Nat :=
  ((s.allWords 2).filter fun w => wChan w == c && wPin w == pin).getLast?.map wStby

/-- A pin is carried as an erasure (R314). -/
def State.erasedPin (s : State) (c pin : Nat) : Bool := s.carrier c pin == some 0x7F

/-- The pin that a standby pin carries. -/
def State.carried (s : State) (c stby : Nat) : Option Nat :=
  ((s.allWords 2).filter fun w => wChan w == c && wStby w == stby && s.carrier c (wPin w) == some stby).head?.map wPin

/-- A failed pin of a channel takes its remedy (R314, R316, R368); the second part is the remedy's number. -/
def State.failPin0 (s : State) (c pin : Nat) (now : Bool) : State × Nat :=
  match s.freeStby c pin with
  | some x => (s.recordPin c (pinWord c pin x) now, if pin < 80 then 1 + x % 2 else 1)
  | none =>
    if s.erasedPin c pin then (s, 0)
    else
      let first := !(s.allWords 2).any fun w => wChan w == c && wPin w < 80 && pinPc (wPin w) == pinPc pin && wStby w == 0x7F
      (s.recordPin c (pinWord c pin 0x7F) now, if pin < 80 ∧ first then 3 else 4)

/-- As above; a standby pin that fails is marked used, and one that carries a pin fails as that pin. (DEDUCED, log entry 104) -/
def State.failPin (s : State) (c pin : Nat) (now : Bool) : State × Nat :=
  if isStby pin then
    match s.carried c pin with
    | some k => s.failPin0 c k now
    | none => if s.stbyTaken c pin then (s, 0) else (s.record (pinWord c pin 0x7F) 255 true, 0)
  else s.failPin0 c pin now

/-! ### Keep-bus TSVs -/

def wCourse (w : Nat) : Nat := getBits w 28 28
def wTsv (w : Nat) : Nat := getBits w 27 20
def wKstby (w : Nat) : Nat := getBits w 19 17

def keepWord (k tsv stby : Nat) : Nat := 3 * 2 ^ 29 + k * 2 ^ 28 + tsv * 2 ^ 20 + stby * 2 ^ 17

/-- A standby TSV of a keep course is taken: it carries a TSV, or it has failed itself. -/
def State.kstbyTaken (s : State) (k i : Nat) : Bool :=
  (s.words 3).any fun w => wCourse w == k && (wKstby w == i || wTsv w == 176 + i)

/-- The TSVs of a keep course that the keep-bus code carries (R319). -/
def State.keepCoded (s : State) (k : Nat) : Nat :=
  ((s.words 3).filter fun w => wCourse w == k && wKstby w == 7 && wTsv w < 176).length

/-- A slot was read or programmed as it should be (R319): no beat met more failed TSVs than the keep-bus code carries, as the
command says, and those that repair left to the code are no more than it corrects. (DESIGN CHOICE, log entry 162) -/
def State.keepBusOk (s : State) (k : Nat) (ok : Bool) : Bool := ok && keepBeat (s.keepCoded k) 0 == .good

def State.kcarried (s : State) (k i : Nat) : Option Nat :=
  ((s.words 3).filter fun w => wCourse w == k && wKstby w == i).getLast?.map wTsv

/-- A keep-bus TSV is carried by the code already. -/
def State.kcoded (s : State) (k tsv : Nat) : Bool := (s.words 3).contains (keepWord k tsv 7)

/-- A failed keep-bus TSV takes its remedy (R314, R318). (DEDUCED, log entry 104) -/
def State.failKeep0 (s : State) (k tsv : Nat) : State × Nat :=
  match (List.range 4).find? fun i => !s.kstbyTaken k i with
  | some i => ((s.record (keepWord k tsv i) 255 true).post 0x0687 1 k (tsv + 256 * i), 1)
  | none =>
    if s.kcoded k tsv then (s, 0)
    else
    let s := s.record (keepWord k tsv 7) 255 true
    if 2 ≤ s.keepCoded k then (s.fenceCourse k, 4) else (s, 2)

def State.failKeep (s : State) (k tsv : Nat) : State × Nat :=
  if 176 ≤ tsv then
    match s.kcarried k (tsv - 176) with
    | some t => s.failKeep0 k t
    | none => if s.kstbyTaken k (tsv - 176) then (s, 0) else (s.record (keepWord k tsv 7) 255 true, 0)
  else s.failKeep0 k tsv

/-! ### Rows (R314, R315, R317) -/

/-- The row a target word names (R361). -/
def tRow (t : Nat) : Nat × Nat × Nat × Nat := (getBits t 27 23, getBits t 22 22, getBits t 21 18, getBits t 16 0)

/-- A failed row: repaired in a hold of its own while a spare is left, else fenced. -/
def State.failRow (s : State) (t : Nat) : State × Nat :=
  let (c, pc, bank, row) := tRow t
  match s.spareNext (rowWord 1 c pc bank row) with
  | some x =>
    ({ s with intg := { s.intg with todo := if s.intg.todo.contains t then s.intg.todo else s.intg.todo ++ [t] } },
      if x < 4 then 1 else 2)
  | none =>
    let w := rowWord 4 c pc bank row
    if s.intg.repairs.any fun r => r.word == w then (s, 0)
    else ((s.record w 255 true).post 0x0686 3 c (row + 2 ^ 17 * bank + 2 ^ 21 * pc), 4)

/-! ### Units and waiting repairs (R354) -/

/-- The unit of rolling recalibration that a pin belongs to. -/
def unitOfPin (c pin : Nat) : CalUnit :=
  if pin < 80 then .data c (pin / 40) else if pin < 84 then .data c ((pin - 80) / 2) else .cmd c

def unitOfTarget (t : Nat) : Option CalUnit :=
  if t / 2 ^ 28 = 2 then some (unitOfPin (getBits t 27 23) (t % 128))
  else if t / 2 ^ 28 = 3 then some (.keep (getBits t 8 8)) else none

def State.visitOf (s : State) (u : CalUnit) : Option Visit := s.cal.visits.find? fun v => v.unit == u

/-- A pin or keep TSV repair by its target word. -/
def State.failTsv (s : State) (t : Nat) (now : Bool) : State × Nat :=
  if t / 2 ^ 28 = 2 then s.failPin (getBits t 27 23) (t % 128) now else s.failKeep (getBits t 8 8) (t % 256)

/-- A repair that waits. -/
def State.repairWaits (s : State) (t : Nat) : State :=
  { s with intg := { s.intg with todo := if s.intg.todo.contains t then s.intg.todo else s.intg.todo ++ [t] } }

/-- A pin or keep TSV repair; none begins under a BLOCK reset of the slicer (R323). -/
def State.repairTsv (s : State) (t : Nat) (now : Bool) : State × Nat :=
  if s.blocked 0x24 then (s.repairWaits t, (s.failTsv t now).2) else s.failTsv t now

/-- A target has failed a self-test (R312, R368). A pin whose unit visits another pin waits for the visit's end (R354), and no repair
begins under a BLOCK reset of the slicer (R323). (DESIGN CHOICE, log entry 105) -/
def State.failTarget (s : State) (t : Nat) : State × Nat :=
  if t / 2 ^ 28 = 1 then s.failRow t
  else
    let busy := match unitOfTarget t with
      | some u => (match s.visitOf u with
        | some v => v.pin != (if t / 2 ^ 28 = 2 then t % 128 else t % 256)
        | none => false)
      | none => false
    if busy then (s.repairWaits t, (s.failTsv t false).2)
    else s.repairTsv t ((unitOfTarget t).any fun u => (s.visitOf u).any fun v => v.second && v.stby.isSome)

/-- The pin repairs that waited for a unit's visit are made; not before the slicer returns from a BLOCK reset (R323). -/
def State.doTodo (s : State) (u : CalUnit) : State :=
  if s.blocked 0x24 ∨ (s.visitOf u).isSome then s
  else
    let mine := s.intg.todo.filter fun t => unitOfTarget t == some u
    mine.foldl (fun s t => (s.failTsv t false).1)
      { s with intg := { s.intg with todo := s.intg.todo.filter fun t => unitOfTarget t != some u } }

/-- The slicer has returned (R323): the pin repairs that waited for it are made. -/
def State.slicerBack (s : State) : State := (s.intg.todo.filterMap unitOfTarget).foldl State.doTodo s

/-- Every log entry that a test covers is freed when the test ends (R313). -/
def State.freeCovered (s : State) (t : Nat) : State :=
  let ns := (List.range 64).filter fun n => s.celogCovered t n
  if ns.isEmpty then s
  else
    let s := ns.foldl (fun s n => s.setFld (INT_CELOG_A_VALID n) 0) s
    { s with intg := { s.intg with ovfPosted := false } }

/-- The granules of a row (R140). -/
def bankRowGrans (c pc bank row : Nat) : List Nat :=
  (List.range 16).map fun i => encodeAddr { ch := c, pc := pc, bank := bank, row := row, gran := i, byte := 0 } / 64

/-- Writes reported complete wait in a bank's queue: a hold of the bank comes after them (R144, R158). -/
def State.bankOwes (s : State) (c pc i : Nat) : Bool := (s.bank c pc i).q.any fun u => u.reported && u.own.isNone

/-- A granule that M6 reads and is to write back (R310, R315, R363): what the code gives is what the cells then hold. Where that
changes the contents the page is dirty (R3, R243). -/
def State.resolveGran (s : State) (obs : List CellObs) (g : Nat) (scrub : Bool) : State :=
  let r := s.readGran obs g 6 scrub (s.clean g)
  match r.2 with
  | .data bs =>
    if s.fencedGran g ∨ bs = s.granData g then r.1 else (r.1.putGran g bs).markDirty (g / 64)
  | _ => r.1

/-- The code corrects what a read of a granule meets. -/
def State.readCorrects (s : State) (obs : List CellObs) (g : Nat) : Bool :=
  match s.decodeSyms (decodeAddr (64 * g)) (obsOf obs g).syms with
  | .corrected _ => true
  | _ => false

/-- A granule that M6 has read is rewritten with a fresh code where it ends CORRECTED (R310). -/
def State.rewriteGran (s : State) (obs : List CellObs) (g : Nat) (scrub : Bool) : State :=
  let t := s.resolveGran obs g scrub
  if s.readCorrects obs g ∧ s.fencedGran g = false then t.countGran true g else t

/-- A granule of a row repair is resolved before the hold ends (R307, R315), one whose recovery is under way too. Whether its keep
slot reads is a free value. (DEDUCED, log entry 160) -/
def State.repairGran (s : State) (obs : List CellObs) (g : Nat) : State :=
  let s := if s.intg.recov.any fun r => r.granule == g then s else s.resolveGran obs g false
  match s.intg.recov.find? fun r => r.granule == g with
  | some r => s.bump.finishRecovery r (s.free % 2 == 0)
  | none => s

/-- A held bank's row is activated and its 16 granules pass, read or written. -/
def State.rowPass (s : State) (c pc i row : Nat) (write : Bool) : State :=
  (bankRowGrans c pc i row).foldl (fun s g => (s.colGo c pc i write 0).countGran write g) (s.openRow c pc i row)

/-- A held bank's row is precharged, with a targeted refresh that this makes due. -/
def State.rowShut (s : State) (c pc i : Nat) : State := (s.preGo c pc i).trrGo c pc i

/-- A bank's hold ends (R158); a channel that goes idle goes on to self-refresh. -/
def State.endHold (s : State) (c : Nat) : State := (s.modChan c fun h => { h with hold := none }).drained c

/-- ROW_REPAIR_HOLD (R315): in one hold the row's granules are read, resolved and written into the spare row, and the bank's
remap is switched. The hold comes after the writes reported complete in the bank. (DEDUCED, log entry 160) -/
def execRowRepairHold (c : Fin 32) (pc : Fin 2) (bank : Fin 16) (row : Nat) (obs : List CellObs) (s : State) :
    Host.Outcome State Fault Refusal :=
  .next (
    let t := 2 ^ 28 + c.val * 2 ^ 23 + pc.val * 2 ^ 22 + bank.val * 2 ^ 18 + row
    if s.intg.todo.contains t = false ∨ (s.chan c).st ≠ .active ∨ (s.chan c).hold.isSome ∨ s.blocked 0x24 ∨
        s.bankOwes c pc bank then s
    else
      let w := rowWord 1 c pc bank row
      let s := { s with intg := { s.intg with todo := s.intg.todo.erase t } }
      match s.spareNext w with
      | none => (s.failRow t).1
      | some x =>
        let s := (s.takeHold c pc bank).rowPass c pc bank row false
        let s := (bankRowGrans c pc bank row).foldl (fun s g => s.repairGran obs g) s
        let s := (((s.rowShut c pc bank).rowPass c pc bank row true).rowShut c pc bank).endHold c
        (s.record w x true).post 0x0681 1 c (row + 2 ^ 17 * bank + 2 ^ 21 * pc + 2 ^ 24 * x))

/-! ### Suspect joints (R320) -/

/-- A TSV has been placed with an eye of `width` steps, in the course at position `pos`, where `ui` is a unit interval. 0x068A comes
again for a TSV a day of 86,400 s after its last one. (DESIGN CHOICE, log entry 154) -/
def State.placed (s : State) (target pos width ui : Nat) : State :=
  let s := s.minFld (INT_TSVC_MINEYE (pos - 1)) width
  let was := s.intg.suspects.contains target
  if 100 * width < 40 * ui then
    let s : State := if was then s
      else { s with intg := { s.intg with suspects := sins s.intg.suspects target } }.requestTest 3 target
    let due : Bool := match tget s.intg.suspAt target with
      | none => true
      | some t => decide (t + 86400 * 10 ^ 9 ≤ s.clock)
    if due then
      ({ s with intg := { s.intg with suspAt := tset s.intg.suspAt target s.clock } }).post 0x068A 1 pos width
    else s
  else { s with intg := { s.intg with suspects := sdel s.intg.suspects target } }

/-! ### The repointer (R310, R311) -/

def scrubUnits : Nat := 402653184

/-- The repointer passes over a unit: in a fenced row or pseudo-channel, or not restored. (DEDUCED, log entry 107) -/
def State.scrubSkips (s : State) (u : Nat) : Bool := s.fencedGran (4 * u) || s.unrestored (u / 16)

/-- SCRUB_UNIT_ISSUE (R310): the next unit is read, corrected granules are rewritten and uncorrectable ones resolved; at the
end of a pass 0x0305. The unit crosses mortar as a request of M6: while one waits at its port (R172, R173, R311), or a recovery
holds the unit (R309), none is issued. (DEDUCED, log entry 107; DEDUCED, log entry 142) -/
def execScrubUnitIssue (obs : List CellObs) (s : State) : Host.Outcome State Fault Refusal :=
  .next (
    let u : Nat := s.fld INT_SCRUB_POS_UNIT % scrubUnits
    if s.scrubbing = false ∨ s.pwr.interval ∨ s.blocked 0x23 ∨ (s.master 6).asks.isEmpty = false ∨ s.unitHeld (4 * u) then s
    else
      let s := if s.scrubSkips u then s
        else ((List.range 4).foldl (fun s i => s.rewriteGran obs (4 * u + i) true) s).ask 6 0 .scrub [(4 * u, 4)]
      if u + 1 = scrubUnits then
        let m : Nat := s.intg.scrubRun / (60 * 10 ^ 9)
        let s := { s with intg := { s.intg with scrubRun := 0 } }
        let s := (s.setFld INT_SCRUB_POS_UNIT 0).incFld INT_SCRUB_PASS_PASSES 1
        ((s.setFld INT_SCRUB_PASS_LASTMIN (min 65535 m)).setFld INT_SCRUB_STAT_BEHIND 0).post 0x0305 0 0xFF m
      else s.setFld INT_SCRUB_POS_UNIT (u + 1))

/-- SCRUB_BEHIND_TIMEOUT (R311): 1.1 scrub periods of running time without the pass's end; 0x0306 once. -/
def execScrubBehindTimeout (s : State) : Host.Outcome State Fault Refusal :=
  .next (
    if s.scrubbing = false ∨ s.flag INT_SCRUB_STAT_BEHIND then s
    else (s.setFld INT_SCRUB_STAT_BEHIND 1).post 0x0306 1 0xFF 0)

end Sys2Proof.Machine
end

