-- ==== Sys2Proof/Machine/Calibration.lean ====
section
/-! DEFINITION. Calibration: eyes, delay commits, rolling recalibration, background tracking, and the values that power-up
calibration and training leave (R343-R360). -/

namespace Sys2Proof.Machine

/-! ### Eyes (R347, R348) -/

/-- The run of true entries that is longest, the first of equals: start and length. -/
def longestRun : List Bool → Nat → Nat → Nat → Nat × Nat → Nat × Nat
  | [], _, st, n, best => if best.2 < n then (st, n) else best
  | true :: bs, i, st, n, best => longestRun bs (i + 1) (if n = 0 then i else st) (n + 1) best
  | false :: bs, i, st, n, best => longestRun bs (i + 1) 0 0 (if best.2 < n then (st, n) else best)

/-- How many of the three settings beyond an outermost coarse point are error-free without a gap. -/
def fineRun (ok : Nat → Bool) : Nat := if ok 1 then (if ok 2 then (if ok 3 then 3 else 2) else 1) else 0

/-- The edges of an eye from the settings that were error-free; none where no coarse point was. -/
def sweepEdges (errFree : List Nat) : Option (Nat × Nat) :=
  let r := longestRun ((List.range 64).map fun i => errFree.contains (4 * i)) 0 0 0 (0, 0)
  if r.2 = 0 then none
  else
    let a := 4 * r.1
    let b := 4 * (r.1 + r.2 - 1)
    some (a - fineRun (fun i => i ≤ a && errFree.contains (a - i)), b + fineRun (fun i => errFree.contains (b + i)))

/-- Width and centre of an eye; 0 and 0 where there is none. -/
def eyeOf (errFree : List Nat) : Nat × Nat :=
  match sweepEdges errFree with
  | none => (0, 0)
  | some (l, r) => (r - l + 1, (l + r + 1) / 2)

/-- A unit interval in steps: 8.0 Gbit/s on a DRAM channel, 6.4 Gbit/s on the keep bus. -/
def unitUi : CalUnit → Nat
  | .keep _ => 390
  | _ => 312

/-- The smallest width with a working setting (R348, R360). -/
def State.minEye (s : State) (u : CalUnit) : Nat := max 10 (min 40 (s.fld CAL_CTL_MINEYE)) * unitUi u / 100

def centreOk (c : Nat) : Bool := 0x10 ≤ c && c ≤ 0xEF

/-- An eye is a working setting. -/
def State.working (s : State) (u : CalUnit) (width centre : Nat) : Bool := s.minEye u ≤ width && centreOk centre

/-! ### Units (R349, R352) -/

/-- The pins a unit visits. -/
def unitPins : CalUnit → List Nat
  | .data _ pc => (List.range 40).map (40 * pc + ·)
  | .cmd _ => (List.range 22).map (84 + ·)
  | .keep _ => List.range 168

def calKey : CalUnit → Nat
  | .data c pc => 2 * c + pc
  | .cmd c => 64 + c
  | .keep k => 96 + k

/-- A unit that exists. -/
def unitOk : CalUnit → Bool
  | .data c pc => c < 32 && pc < 2
  | .cmd c => c < 32
  | .keep k => k < 2

/-- The target word of a pin of a unit (R361). -/
def unitTarget (u : CalUnit) (pin : Nat) : Nat :=
  match u with
  | .data c _ => pinTarget c pin
  | .cmd c => pinTarget c pin
  | .keep k => 3 * 2 ^ 28 + k * 256 + pin

/-- The course position of a unit, and the UNIT of its events (R359). -/
def unitPos : CalUnit → Nat
  | .data c _ => 3 + c / 2
  | .cmd c => 3 + c / 2
  | .keep k => 1 + k

def unitEv : CalUnit → Nat
  | .data c _ => c
  | .cmd c => c
  | .keep k => 0x20 + k

/-- The lowest free standby pin of a unit. -/
def State.unitStby (s : State) : CalUnit → Option Nat
  | .data c pc => s.freeStby c (40 * pc)
  | .cmd c => s.freeStby c 84
  | .keep k => ((List.range 4).find? fun i => !s.kstbyTaken k i).map (176 + ·)

/-- A pin that is carried as an erasure, or by the keep-bus code, is not visited (R353). -/
def State.unvisited (s : State) (u : CalUnit) (pin : Nat) : Bool :=
  match u with
  | .data c _ => s.erasedPin c pin
  | .cmd c => s.erasedPin c pin
  | .keep k => s.kcarried k 7 == some pin || (s.words 3).any fun w => wCourse w == k && wTsv w == pin && wKstby w == 7

/-- A unit recalibrates in place (R353, R354). -/
def State.inPlace (s : State) (u : CalUnit) : Bool :=
  (s.unitStby u).isNone || (match u with | .data c pc => s.degraded c pc | _ => false)

/-- A unit runs rolling recalibration (R352, R358): its channel is ACTIVE, in BRINGUP too; a keep course that is not fenced once
its placement has been renewed. (DEDUCED, log entry 117) -/
def State.unitRuns (s : State) (u : CalUnit) : Bool :=
  unitOk u && (s.inService || (s.dev == .bringup && 5 < s.pwr.step)) &&
  (match u with
  | .data c pc => (s.chan c).st == .active && !s.pcFenced c pc
  | .cmd c => (s.chan c).st == .active && !s.chanFenced c
  | .keep k => !(s.keep.course k).fenced)

/-! ### Delay values and commits (R349, R350, R355) -/

def dlyReg (u : CalUnit) (pin : Nat) : Nat :=
  match u with
  | .data c _ => MC_DLY c (pin / 4)
  | .cmd c => MC_DLY c (pin / 4)
  | .keep k => CAL_KDLY k (pin / 4)

/-- The shadow and the active delay of a pin. -/
def State.setDly (s : State) (u : CalUnit) (pin v : Nat) : State :=
  s.setReg (dlyReg u pin) (setBits (s.reg (dlyReg u pin)) (8 * (pin % 4) + 7) (8 * (pin % 4)) v)

def State.actDly (s : State) (u : CalUnit) (pin : Nat) : Nat :=
  getBits (s.actReg (dlyReg u pin)) (8 * (pin % 4) + 7) (8 * (pin % 4))

/-- Firmware leaves a unit's values alone. (DEDUCED, log entry 120) -/
def State.dlyHold (s : State) : CalUnit → Bool
  | .data c _ => s.flag (MC_DLYOVR_HOLD c)
  | .cmd c => s.flag (MC_DLYOVR_HOLD c)
  | .keep k => s.flag (CAL_KOVR_HOLD k)

/-- The pin whose delay line carries a pin's traffic: the standby pin that a repair gave it, else the pin itself (R350, R352).
(DEDUCED, log entry 117) -/
def State.linePin (s : State) (u : CalUnit) (pin : Nat) : Nat :=
  match u with
  | .keep k =>
    match ((s.words 3).filter fun w => wCourse w == k && wTsv w == pin).getLast? with
    | some w => if wKstby w < 4 then 176 + wKstby w else pin
    | none => pin
  | .data c _ => if (s.carrier c pin).getD 0x7F < 0x7F then (s.carrier c pin).getD pin else pin
  | .cmd c => if (s.carrier c pin).getD 0x7F < 0x7F then (s.carrier c pin).getD pin else pin

/-- The strobe groups of a unit's shadow group: strobe pin and its data and check pins (R349). -/
def strobeGroups : CalUnit → List (Nat × List Nat)
  | .keep _ => (List.range 8).map fun g => (168 + g, (List.range 16).map (16 * g + ·) ++ [128 + 2 * g, 129 + 2 * g])
  | _ => ((List.range 2).map fun p => (List.range 4).map fun g =>
      (112 + 4 * p + g, (List.range 8).map (40 * p + 8 * g + ·) ++ [40 * p + 32 + 2 * g, 40 * p + 33 + 2 * g])).flatten

/-- The shift of a strobe group whose mean lies 8 or more from 128: round(m − 128) (R355). (DEDUCED, log entry 118) -/
def State.groupShift (s : State) (u : CalUnit) (pins : List Nat) : Int :=
  let n : Int := pins.length
  let d : Int := ((pins.map (s.actDly u)).sum : Nat) - 128 * n
  if 8 * n ≤ d.natAbs then (2 * d + n) / (2 * n) else 0

/-- One strobe group moves in the shadows; a strobe that would leave its field is tested. A data field that would leave its
range is a free value. (DEDUCED, log entry 118) -/
def State.moveGroup (s : State) (u : CalUnit) (g : Nat × List Nat) (sh : Int) : State :=
  let at_ := fun (s : State) (pin : Nat) => (getBits (s.reg (dlyReg u pin)) (8 * (pin % 4) + 7) (8 * (pin % 4)) : Int) - sh
  if sh = 0 then s
  else
    let x := at_ s g.1
    if x < 0 ∨ 255 < x then s.requestTest 2 (unitTarget u g.1)
    else
      (g.2.foldl (fun s p =>
        let y := at_ s p
        if y < 0 ∨ 255 < y then (s.setDly u p (s.free % 256)).bump else s.setDly u p y.toNat) s).setDly u g.1 x.toNat

/-- A keep-bus commit captures the shadow group (R350). -/
def State.keepCommit (s : State) (k : Nat) : State :=
  { s with cal := { s.cal with
    kcap := setAt s.cal.kcap k ((List.range 45).map fun n => s.reg (CAL_KDLY k n))
    kpend := setAt s.cal.kpend k true } }

/-- Firmware rewrites a unit's shadows with their active values, but for the fields it means to change and the groups that
strobe tracking moves, and commits (R350, R355). -/
def State.fwCommit (s : State) (u : CalUnit) (changes : List (Nat × Nat)) (force : Bool) : State :=
  if s.dlyHold u then s
  else
    let regs := match u with
      | .keep k => (List.range 45).map (CAL_KDLY k)
      | .data c _ => (List.range 30).map (MC_DLY c)
      | .cmd c => (List.range 30).map (MC_DLY c)
    let shifts := if force || s.flag CAL_CTL_STRBTRK then (strobeGroups u).map fun g => (g, s.groupShift u g.2) else []
    let s := regs.foldl (fun s a => s.setReg a (s.actReg a)) s
    let s := changes.foldl (fun s x => s.setDly u x.1 x.2) s
    let s := shifts.foldl (fun s x => s.moveGroup u x.1 x.2) s
    match u with
    | .keep k => s.keepCommit k
    | .data c _ => s.dlyCommit c
    | .cmd c => s.dlyCommit c

/-- The value of a pin that a commit under way will give it; its active value where none is. -/
def State.comingDly (s : State) (u : CalUnit) (pin : Nat) : Nat :=
  let cap := match u with
    | .keep k => if s.cal.kpend.getD k false then s.cal.kcap.getD k [] else []
    | .data c pc => if ((s.chan c).pc pc).dlyPend then (s.chan c).dlyCap else []
    | .cmd c => if ((s.chan c).pcs.any fun p => p.dlyPend) then (s.chan c).dlyCap else []
  match cap[pin / 4]? with
  | some w => getBits w (8 * (pin % 4) + 7) (8 * (pin % 4))
  | none => s.actDly u pin

/-- CAL_KAPPLY_k (R350). (DEDUCED, log entry 120) -/
def execCalKapply (a : Access) (k : Fin 2) (v : Word) (s : State) : Host.Outcome State Fault Refusal :=
  .next (s.cfgWrite a (CAL_KAPPLY k) fun s => if bitAt v.toNat 0 then s.keepCommit k else s)

/-- KEEP_BUS_GAP (R350, R356): a captured group takes effect, and a tracked trim of the course. -/
def execKeepBusGap (k : Fin 2) (s : State) : Host.Outcome State Fault Refusal :=
  .next (
    let s := if s.cal.kpend.getD k false then
        let cap := s.cal.kcap.getD k []
        let s : State := { s with cal := { s.cal with kpend := setAt s.cal.kpend k false } }
        cap.zipIdx.foldl (fun (s : State) x => { s with act := tset s.act (CAL_KDLY k x.2) x.1 }) s
      else s
    match tget s.cal.pend (110 + k) with
    | some v => { s with cal := { s.cal with ktrim := setAt s.cal.ktrim k v, pend := tdel s.cal.pend (110 + k) } }
    | none => s)

/-! ### Records (R352, R357) -/

/-- CAL_LAST_c or CAL_KLAST_k. -/
def State.noteVisit (s : State) (u : CalUnit) (result pin width centre : Nat) : State :=
  let w := result * 2 ^ 28 + pin % 256 * 2 ^ 20 + width % 1024 * 2 ^ 10 + centre % 256
  match u with
  | .keep k => s.setReg (CAL_KLAST k) w
  | .data c _ => s.setReg (CAL_LAST c) w
  | .cmd c => s.setReg (CAL_LAST c) w

/-- A visit is counted as completed. (DEDUCED, log entry 117) -/
def State.countVisit (s : State) (u : CalUnit) : State :=
  match u with
  | .keep k => s.incFld (CAL_KROLL_VISITS k) 1
  | .data c _ => s.incFld (CAL_ROLL_VISITS c) 1
  | .cmd c => s.incFld (CAL_ROLL_VISITS c) 1

/-- The narrowest eye of a channel. -/
def State.eyeMin (s : State) (u : CalUnit) (pin width : Nat) : State :=
  let go := fun (c : Nat) =>
    if width < s.fld (CAL_EYEMIN_STEPS c) then (s.setFld (CAL_EYEMIN_STEPS c) width).setFld (CAL_EYEMIN_PIN c) pin else s
  match u with
  | .keep _ => s
  | .data c _ => go c
  | .cmd c => go c

def allUnitsOf : List CalUnit :=
  ((List.range 32).map fun c => [CalUnit.data c 0, .data c 1, .cmd c]).flatten ++ [.keep 0, .keep 1]

/-- CAL_COUNT rises (R357). -/
def State.calRise (s : State) : State :=
  ({ s with cal := { s.cal with seen := [] } }.incFld CAL_COUNT_COUNT 1).setReg64 CAL_LAST_TIME_LO s.ks.time

/-- A unit of a fenced pseudo-channel, channel or keep course, whose pins are not visited. -/
def State.unitFenced (s : State) : CalUnit → Bool
  | .data c pc => s.pcFenced c pc
  | .cmd c => s.chanFenced c
  | .keep k => (s.keep.course k).fenced

/-- A pin has been visited; a rolling cycle is completed when every unit that is not fenced has visited each of its pins
(R352, R357). (DEDUCED, log entry 117) -/
def State.seenPin (s : State) (u : CalUnit) (pin : Nat) : State :=
  let s := { s with cal := { s.cal with seen := tmod s.cal.seen (calKey u) [] fun r => radd r pin } }
  if allUnitsOf.all fun u => s.unitFenced u || (unitPins u).all fun p => rmem (tgetD s.cal.seen (calKey u) []) p || s.unvisited u p then s.calRise
  else s

/-- A visit leaves the list; the pin repairs that waited for it are made (R354). (DEDUCED, log entry 117) -/
def State.endVisit (s : State) (v : Visit) : State :=
  ({ s with cal := { s.cal with visits := s.cal.visits.filter fun x => x.unit != v.unit } }).doTodo v.unit

/-- Visits abandoned (R354): no value changes. -/
def State.abandonVisits (s : State) (p : CalUnit → Bool) : State :=
  let vs := s.cal.visits.filter fun v => p v.unit
  vs.foldl (fun s v => (s.noteVisit v.unit 5 v.pin 0 0).endVisit v) s

/-! ### Rolling recalibration (R352-R355) -/

/-- ROLL_VISIT_START (R352, R353). -/
def execRollVisitStart (u : CalUnit) (s : State) : Host.Outcome State Fault Refusal :=
  .next (
    if s.unitRuns u = false ∨ s.flag CAL_CTL_ROLLEN = false ∨ (s.visitOf u).isSome ∨ s.pwr.interval then s
    else
      let pins := unitPins u
      let at_ : Nat := tgetD s.cal.next (calKey u) 0 % pins.length
      match findFrom pins.length at_ fun i => !s.unvisited u (pins.getD i 0) with
      | none => s
      | some i =>
        let stby : Option Nat := if s.inPlace u then none else s.unitStby u
        { s with cal := { s.cal with
          next := tset s.cal.next (calKey u) ((i + 1) % pins.length)
          visits := s.cal.visits ++ [{ unit := u, pin := pins.getD i 0, stby := stby, second := stby.isNone }] } })

/-- A pin has no working setting (R348, R352, R353): 0x06C3, and it counts as a failed self-test of that pin. Where a standby pin
carries its traffic the repair takes effect from that moment, in place at the next boundary. -/
def State.noSetting (s : State) (u : CalUnit) (pin width : Nat) (inPlace : Bool) : State × Nat :=
  let s := match u with
    | .keep _ => s
    | .data c _ => s.incFld (CAL_FAIL_NOSET c) 1
    | .cmd c => s.incFld (CAL_FAIL_NOSET c) 1
  (s.post 0x06C3 2 (unitEv u) (pin + 256 * width + 2 ^ 18 * b2n inPlace)).repairTsv (unitTarget u pin) !inPlace

/-- The end of a visit's own sweep of pin *k*: its centre is committed, or it has no working setting (R352-R355). The second
part is the remedy taken. (DEDUCED, log entry 117) -/
def State.visitCentre (s : State) (v : Visit) (width centre : Nat) : State × Nat :=
  let u := v.unit
  let s := (s.placed (unitTarget u v.pin) (unitPos u) width (unitUi u)).eyeMin u v.pin width
  let s := { s with cal := { s.cal with inc := tdel s.cal.inc (256 * calKey u + v.pin) } }
  if s.working u width centre then
    let extra := match v.stby with
      | some x => if v.slice then [] else [(x, s.comingDly u x)]
      | none => []
    let s := s.fwCommit u (extra ++ [(s.linePin u v.pin, centre)]) false
    let susp : Nat := if 100 * width < 40 * unitUi u then 2 else 1
    ((((s.noteVisit u susp v.pin width centre).countVisit u).seenPin u v.pin).endVisit v, 0)
  else
    let r := s.noSetting u v.pin width v.stby.isNone
    ((((r.1.noteVisit u 3 v.pin width centre).countVisit u).seenPin u v.pin).endVisit v, r.2)

/-- SWEEP_DONE (R347): the eye of the swept pin; then the next step of the visit. -/
def execSweepDone (u : CalUnit) (errFree : List Nat) (s : State) : Host.Outcome State Fault Refusal :=
  .next (
    match s.visitOf u with
    | none => s
    | some v =>
      if v.slice then s
      else
        let (width, centre) := eyeOf errFree
        let put := fun (s : State) (v : Visit) => { s with cal := { s.cal with
          visits := s.cal.visits.map fun x => if x.unit = u then v else x } }
        -- a centre outside its range: strobe tracking at the next commit, and the pin is swept again
        if s.minEye u ≤ width ∧ centreOk centre = false ∧ v.again = false then
          put (s.fwCommit u [] true) { v with again := true }
        else if v.second then (s.visitCentre v width centre).1
        else
          let x := v.stby.getD 0
          if s.working u width centre then
            put ((s.placed (unitTarget u x) (unitPos u) width (unitUi u)).fwCommit u [(x, centre)] false)
              { v with second := true, again := false }
          else
            let r := s.noSetting u x width false
            (r.1.noteVisit u 3 v.pin width centre).endVisit v)

/-- VISIT_INCOMPLETE_TIMEOUT (R352): no value changes; two in a row for one pin request a pin test. -/
def execVisitIncompleteTimeout (u : CalUnit) (s : State) : Host.Outcome State Fault Refusal :=
  .next (
    match s.visitOf u with
    | none => s
    | some v =>
      if v.slice then s
      else
        let s := match u with
          | .keep _ => s
          | .data c _ => s.incFld (CAL_FAIL_INCOMPLETE c) 1
          | .cmd c => s.incFld (CAL_FAIL_INCOMPLETE c) 1
        let s := (s.noteVisit u 4 v.pin 0 0).post 0x06C4 1 (unitEv u) v.pin
        let key : Nat := 256 * calKey u + v.pin
        let s := if (tget s.cal.inc key).isSome then
            { s with cal := { s.cal with inc := tdel s.cal.inc key } }.requestTest 2 (unitTarget u v.pin)
          else { s with cal := { s.cal with inc := tset s.cal.inc key 1 } }
        (s.seenPin u v.pin).endVisit v)

/-! ### Background tracking (R356) -/

def State.tracking (s : State) : Bool := s.inService && s.flag CAL_CTL_TRACKEN

/-- TRACK_STEP_TIMER: the replica lines of the channels, then of the keep courses. -/
def execTrackStepTimer (fs trim : List Nat) (s : State) : Host.Outcome State Fault Refusal :=
  .next (
    if s.tracking = false then s
    else
      let s := (List.range 32).foldl (fun s c => match fs[c]? with
        | some v => s.setFld (CAL_DSTEP_FS c) v
        | none => s) s
      (List.range 34).foldl (fun s i =>
        let key := if i < 32 then i else 110 + (i - 32)
        let now := if i < 32 then s.fld (CAL_DSTEP_TRIM i) else s.cal.ktrim.getD (i - 32) 0x80
        match trim[i]? with
        | some v => if v % 256 = now then s
            else { s with cal := { s.cal with pend := tset s.cal.pend key (v % 256) } }
        | none => s) s)

/-- The largest movement of a code among the fields of an impedance register. -/
def codeMove (a b : Nat) : Nat :=
  [0, 8, 16].foldl (fun m lo => max m (((getBits a (lo + 5) lo : Nat) : Int) - (getBits b (lo + 5) lo : Nat)).natAbs) 0

/-- Quantities that trace to CAL_RES are tracked: with a bad reference their trim codes stand (R344, R356). -/
def State.trackingRes (s : State) : Bool := s.tracking && !s.flag CAL_STAT_REFBAD

/-- TRACK_IMPEDANCE_TIMER: a TSV code that moves by more than one waits for a commit boundary, lane codes for TRAIN. -/
def execTrackImpedanceTimer (ztsv : Word) (zlane : List Word) (s : State) : Host.Outcome State Fault Refusal :=
  .next (
    if s.trackingRes = false then s
    else
      let v : Nat := ztsv.toNat &&& 0x3F3F3F
      let s : State := if 1 < codeMove v (s.reg CAL_ZTSV) then
          { s with cal := { s.cal with pend := tset s.cal.pend 100 v } } else s
      (List.range 4).foldl (fun s p => match zlane[p]? with
        | some w =>
          let x := w.toNat &&& 0x3F3F
          if x = s.reg (CAL_ZLANE p) then s else { s with cal := { s.cal with pend := tset s.cal.pend (200 + p) x } }
        | none => s) s)

/-- TRACK_GAIN_TIMER: one segment, at once. -/
def execTrackGainTimer (n : Fin 40) (v : Word) (s : State) : Host.Outcome State Fault Refusal :=
  .next (if s.trackingRes then s.setReg (CAL_SGAIN n) v.toNat else s)

/-- TRACK_OFFSET_TIMER: all 88 converter offsets, at once. -/
def execTrackOffsetTimer (v : List Word) (s : State) : Host.Outcome State Fault Refusal :=
  .next (
    if s.trackingRes = false then s
    else (List.range 88).foldl (fun s n => match v[n]? with
      | some w => s.setReg (CAL_SOFF n) (w.toNat % 65536)
      | none => s) s)

/-! ### Power-up (R344-R346, R351) -/

/-- The references of sub-step 1 (R344). -/
def State.calRefs (s : State) (m : CalResult) : State :=
  let bad := decide (m.resDohm < 19000 ∨ 21000 < m.resDohm)
  let s := (s.setFld CAL_RESMEAS_DOHM (min 65535 m.resDohm)).setFld CAL_REFCLK_PPM (satTwos 16 m.refPpm)
  let s := s.setFld CAL_STAT_REFBAD (b2n bad)
  if bad then s.post 0x06C1 3 0xFF (min 65535 m.resDohm) else s

/-- REFCLK lies more than 2 % from the internal oscillator (R344). -/
def clkOff (m : CalResult) : Bool := 20000 < m.refPpm.natAbs

/-- REFCLK is absent, or lies too far from the internal oscillator: CAL_STAT.CLKBAD, and 0x06C2 when it is found (R344). -/
def State.clkBad (s : State) (m : CalResult) : Bool := clkOff m || !s.pins.refclk

def State.calClock (s : State) (m : CalResult) : State :=
  if s.clkBad m = false then s.setFld CAL_STAT_CLKBAD 0
  else if s.flag CAL_STAT_CLKBAD then s
  else (s.setFld CAL_STAT_CLKBAD 1).post 0x06C2 3 0xFF 0

/-- The step trims of sub-step 3 (R345): of the keep buses, and where `full` of the DRAM channels. They trace to REFCLK (R343). -/
def State.calSteps (s : State) (m : CalResult) (full : Bool) : State :=
  if s.clkBad m then s
  else
    let s := s.setFld CAL_STEP_FS m.stepFs
    let s : State := { s with cal := { s.cal with
      ktrim := (List.range 2).map fun k => (m.ktrim.getD k (s.cal.ktrim.getD k 0x80)) % 256 } }
    if full = false then s
    else (List.range 32).foldl (fun s c => match m.dtrim[c]? with
      | some v => s.setFld (CAL_DSTEP_TRIM c) v
      | none => s) s

/-- The values that calibration leaves (R345, R346): a quantity that traces to CAL_RES takes the codes of TRIM where the reference is
bad. A quantity that a sub-step calibrates and that the command does not give keeps its value. -/
def State.calValues (s : State) (m : CalResult) (ports : List Nat) (full : Bool) : State :=
  let bad := s.flag CAL_STAT_REFBAD
  let s := if bad then s.trimImpedance (s.loadRegion 1) ports else
    let s := s.setReg CAL_ZTSV (m.ztsv.toNat &&& 0x3F3F3F)
    ports.foldl (fun s p => match m.zlane[p]? with
      | some w => s.setReg (CAL_ZLANE p) (w.toNat &&& 0x3F3F)
      | none => s) s
  let s := s.calSteps m full
  if full = false then s
  else
    let s := if bad then s.trimSense (s.loadRegion 1) else
      let s := (List.range 40).foldl (fun s n => match m.sgain[n]? with
        | some w => s.setReg (CAL_SGAIN n) w.toNat
        | none => s) s
      (List.range 88).foldl (fun s n => match m.soff[n]? with
        | some w => s.setReg (CAL_SOFF n) (w.toNat % 65536)
        | none => s) s
    (List.range 64).foldl (fun s n => match m.region[n]? with
      | some w =>
        let s := s.setReg (CAL_REGION n) (w.toNat % 2 ^ 24)
        let sh := getBits w.toNat 23 16
        if 60 < (signed 8 sh).natAbs then s.post 0x06C6 2 0xFF (n + 2 ^ 16 * sh) else s
      | none => s) s

/-- Training places a pin (R345, R347, R348): its width is reported for the suspect test, and its centre is its delay; without a
working setting it takes its remedy. -/
def State.placeEye (s : State) (u : CalUnit) (pin : Nat) (e : Eye) : State :=
  let s := s.placed (unitTarget u pin) (unitPos u) e.width (unitUi u)
  if s.working u e.width e.centre = false then (s.noSetting u pin e.width false).1
  else if s.dlyHold u then s
  else
    let s := s.setDly u pin e.centre
    let a := dlyReg u pin
    { s with act := tset s.act a (setBits (s.actReg a) (8 * (pin % 4) + 7) (8 * (pin % 4)) e.centre) }

/-- The pins of a list are placed; the seeds that were used are counted (R351). -/
def State.placeEyes (s : State) (unit : Nat → CalUnit) (pins : List (Nat × Eye)) : State :=
  (pins.foldl (fun s x => s.placeEye (unit x.1) x.1 x.2) s).incFld CAL_STAT_SEEDS (pins.filter fun x => x.2.seeded).length

/-- The eyes of pins 0 up, those of the standby pins first: one that does not work is no remedy. -/
def eyesOf (stby : Nat → Bool) (eyes : List Eye) : List (Nat × Eye) :=
  let all := eyes.zipIdx.map fun x => (x.2, x.1)
  (all.filter fun x => stby x.1) ++ all.filter fun x => !stby x.1

/-- The keep bus of a course is trained (R345). (DEDUCED, log entry 119) -/
def State.trainKeep (s : State) (k : Nat) (eyes : List Eye) : State :=
  s.placeEyes (fun _ => .keep k) (eyesOf (fun t => decide (176 ≤ t)) (eyes.take 180))

/-- A channel is trained (R345): all 120 pins at once, and then the standby pins onto which pins have moved.
(DEDUCED, log entry 119) -/
def State.trainChan (s : State) (c : Nat) (eyes stby : List Eye) : State :=
  let s := s.placeEyes (unitOfPin c) (eyesOf isStby (eyes.take 120))
  s.placeEyes (unitOfPin c) (([80, 81, 82, 83, 108, 109, 110, 111].zip stby).filter fun x => (s.carried c x.1).isSome)

end Sys2Proof.Machine
end

