-- ==== Sys2Proof/Machine/Keystone.lean ====
section
/-! DEFINITION. What the Keystone does for the operations it performs: their end, the records it writes to a buffer, and the
image it reads for an FW_STAGE (R117, R125, R127, R412). -/

namespace Sys2Proof.Machine

/-- A Keystone operation ends: the Keystone is free for the next (R127). -/
def State.ksEnds (s : State) (o : Op) (status result : Nat) : State :=
  (if s.wq.ksCur = some o then { s with wq := { s.wq with ksCur := none } } else s).complete o status result

/-- A granule that M7 reads or writes crosses mortar (R167). (DEDUCED, log entry 142) -/
def State.ksMoves (s : State) (op g : Nat) : State := s.ask 7 op .keystone [(g, 1)]

/-- A granule, or the first bytes of one, written by the Keystone (M7); the second part says that it has landed. A poisoned granule
takes no partial write, and a fenced one none: such a write is answered POISON (R87, R317). A page whose contents change is dirty
(R243). (DESIGN CHOICE, log entry 54) -/
def State.ksGran (s : State) (g : Nat) (bs : List Byte) : State × Bool :=
  let mask := 2 ^ bs.length - 1
  let t := s.ksMoves 1 g
  if s.fencedGran g ∨ (bs.length < 64 ∧ s.poisoned g ∧ (s.queuedData g).isNone) then (t, false)
  else
    let t := (t.overtake g mask bs).markDirty (g / 64)
    (if bs.length = 64 then t.putGran g bs else if s.poisoned g then t else t.putMasked g mask bs, true)

/-- A write of an operation that did not land: the first byte that may not have (R412). -/
def KsWait.lost (w : KsWait) (off : Nat) : KsWait := { w with fail := some (min off (w.fail.getD off)) }

/-- A granule of an operation's result, at an offset, written. -/
def State.ksPut (r : State × KsWait) (g off : Nat) (bs : List Byte) : State × KsWait :=
  let x := r.1.ksGran g bs
  (x.1, if x.2 then r.2 else r.2.lost off)

/-- A granule waits for the restore of its unit (R264) or for a recovery (R309). -/
def State.ksStalls (s : State) (g : Nat) : Bool := s.unrestored (g / 64) || s.unitHeld g

/-- The granules of a byte string, the last one perhaps in part. -/
def granulesOf : Nat → List Byte → List (List Byte)
  | 0, _ => []
  | n + 1, bs => if bs.isEmpty then [] else bs.take 64 :: granulesOf n (bs.drop 64)

/-! ### Firmware images (R33, R125) -/

/-- A keep course lies above its programming limit of 105 °C. -/
def State.keepHot (s : State) : Bool := decide (10500 < s.keepEst 0) || decide (10500 < s.keepEst 1)

/-- KS_FWVER of an image in a slot: [0] is the slot. (DEDUCED, log entry 45) -/
def fwverOf (version slot : Nat) : Nat := version / 2 % 2 ^ 31 * 2 + slot % 2

/-- A course's slot takes an image; a fenced course takes none (R20). -/
def State.putFwAt (s : State) (k x : Nat) (f : FwSlot) : State :=
  if (s.keep.course k).fenced then s
  else { s with ks := { s.ks with fw := setAt s.ks.fw (2 * k + x) f } }.reservedMoves f.image.length

/-- The slot that is not running takes an image, first in K0 and then in K1 (R125). (DESIGN CHOICE, log entry 44) -/
def State.putFw (s : State) (f : FwSlot) : State :=
  let x := 1 - s.ks.fwRun % 2
  (s.putFwAt 0 x f).putFwAt 1 x f

/-- What the bytes of an image put into a slot: its digest is compared with SHA-384 of the image, and its signature is checked
under the key of fuse region CFG, under which nothing verifies while that region is invalid (R33, R383).
(DESIGN CHOICE, log entry 44) -/
def State.fwSlotOf (s : State) (image : List Byte) : FwSlot :=
  let digest := leBytes 48 (Config.fwDigest image)
  let sig := Config.fwSig image
  { present := true, version := Config.fwVersion image % 2 ^ 32
    digestOk := Config.sha384 image % 2 ^ 384 == Config.fwDigest image % 2 ^ 384, digest := digest, sig := sig
    key := if !bitAt (s.fld FUS_STAT_INVALID) 9 && Config.ecdsaOk s.fus.fwKey digest sig then some s.fus.fwKey else none
    image := image }

/-- FW_STAGE once its image has been read (R125, R412): refused where it is not newer, else written to the slot that is not
running, which stays invalid where its digest or its signature is bad or the image could not be read.
(DESIGN CHOICE, log entry 44) -/
def State.fwEnd (s : State) (o : Op) (r : FwRead) : State :=
  if r.bad then (s.putFw { present := true }).ksEnds o 0xF 0
  else
    let f := s.fwSlotOf (r.got.map (·.getD [])).flatten
    if f.version / 2 ≤ s.ks.fwRun / 2 then s.ksEnds o 8 0
    else if s.keepHot then s.ksEnds o 9 0
    else if f.digestOk ∧ f.key.isSome then (s.putFw f).ksEnds o 0 (fwverOf f.version (1 - s.ks.fwRun % 2))
    else (s.putFw { f with digestOk := false }).ksEnds o 0xF 0

/-! ### Transfers (R117, R412) -/

/-- A transfer of a Keystone operation has ended: when nothing is left the operation completes. Where a write may not have
landed it ends STOPPED_OUTPUT_FULL with the records below it (R412). -/
def State.ksSettle (s : State) (w : KsWait) : State :=
  if w.left = 0 ∧ w.todo.isEmpty ∧ (w.fw.all fun r => r.wait.isEmpty) then
    let s := { s with wq := { s.wq with waits := s.wq.waits.filter fun x => x.op != w.op } }
    match w.fw, w.fail with
    | some r, _ => s.fwEnd w.op r
    | none, none => s.ksEnds w.op w.status w.result
    | none, some off => s.ksEnds w.op 2 (if w.each = 0 then 0 else (off - w.hdr) / w.each)
  else { s with wq := { s.wq with waits := s.wq.waits.filter (fun x => x.op != w.op) ++ [w] } }

/-- A WR of the Keystone over the lattice: whole granules, the last one perhaps in part. -/
def State.ksSend (s : State) (o : Op) (b off : Nat) (bs : List Byte) : State :=
  let n := ceilDiv bs.length 64
  let og : Origin := .keystone o.q o.cid o.gen
  if bs.length % 64 = 0 then s.sendReq 7 2 (baEndpoint b) (baAddr b + off) (n - 1) false false bs off og
  else
    let masks := ((List.range n).map fun i => leBytes 8 (2 ^ min 64 (bs.length - 64 * i) - 1)).flatten
    s.sendReq 7 2 (baEndpoint b) (baAddr b + off) (n - 1) false true
      (padB (16 * ceilDiv (8 * n) 16) masks ++ padB (64 * n) bs) off og

/-- The Keystone writes a result to a buffer, and the operation completes once it has landed. In this stack the write is made
at once but for units that are not restored; where no memory answers it has failed. (DESIGN CHOICE, log entry 54) -/
def State.ksWrite (s : State) (o : Op) (b : Nat) (data : List Byte) (status result hdr each : Nat) : State :=
  let w : KsWait := { op := o, status := status, result := result, left := 0, hdr := hdr, each := each }
  if baRemote b then
    let ps := pieces (data.length / 64 + data.length / 4096 + 3) (baAddr b) 0 data.length 4096
    let s := ps.foldl (fun s x => s.ksSend o b x.1 (sliceB data x.1 x.2)) s
    s.ksSettle { w with left := ps.length }
  else
    let gs := (granulesOf (data.length / 64 + 1) data).zipIdx
    let r := gs.foldl (fun (r : State × KsWait) x =>
      let g := baAddr b / 64 + x.2
      if r.1.inService = false ∨ dramEnd / 64 ≤ g then
        (r.1, r.2.lost (64 * x.2))
      else if r.1.ksStalls g then
        ((if r.1.unrestored (g / 64) then r.1.touchStart (g / 64) else r.1), { r.2 with todo := r.2.todo ++ [(g, 64 * x.2, x.1)] })
      else State.ksPut r g (64 * x.2) x.1) (s, w)
    r.1.ksSettle r.2

/-- One granule of an image is read from this stack's DRAM by M7: it waits for the restore of its unit and for a recovery; one
that is poisoned, or where no memory answers, makes the image unreadable. -/
def State.ksReadGran (s : State) (obs : List CellObs) (b : Nat) (r : FwRead) (i : Nat) : State × FwRead :=
  let g := baAddr b / 64 + i
  let done := { r with wait := r.wait.erase i }
  if s.inService = false ∨ dramEnd / 64 ≤ g then (s, { done with bad := true })
  else if s.unrestored (g / 64) then (s.touchStart (g / 64), r)
  else if s.unitHeld g then (s, r)
  else
    let x := match s.queuedData g with
      | some bs => (s, GranRead.data bs)
      | none => s.readGran obs g 7 false (s.clean g)
    match x.2 with
    | .wait => (x.1, r)
    | .poison => (x.1.ksMoves 0 g, { done with bad := true })
    | .data bs => (x.1.ksMoves 0 g, { done with got := setAt done.got i (some bs) })

/-- The granules of an image that are still to be read are read as far as they may be. -/
def State.ksReadOn (s : State) (obs : List CellObs) (w : KsWait) : State × KsWait :=
  match w.fw with
  | none => (s, w)
  | some r =>
    let x := r.wait.foldl (fun (x : State × FwRead) i => x.1.ksReadGran obs (fieldB w.op.desc 8 8) x.2 i) (s, r)
    (x.1, { w with fw := some x.2 })

/-- FW_STAGE reads its image (R125): here, where its granules may be in error, or with RDs of at most 4 KiB from the endpoint that
holds it (R83, R412). -/
def State.ksRead (s : State) (obs : List CellObs) (o : Op) (b len : Nat) : State :=
  let n := len / 64
  let w : KsWait := { op := o, status := 0, result := 0, left := 0, fw := some { got := List.replicate n none, wait := [] } }
  if baRemote b then
    let ps := pieces (len / 64 + len / 4096 + 3) (baAddr b) 0 len 4096
    let s := ps.foldl (fun s x => s.sendReq 7 1 (baEndpoint b) (baAddr b + x.1) (x.2 / 64 - 1) false false [] x.1
      (.keystone o.q o.cid o.gen)) s
    s.ksSettle { w with left := ps.length }
  else
    let x := s.ksReadOn obs { w with fw := some { got := List.replicate n none, wait := List.range n } }
    x.1.ksSettle x.2

/-- Granules that waited for the restore of their unit or for a recovery are written and read (R264, R309). -/
def State.ksRetry (s : State) : State :=
  s.wq.waits.foldl (fun s w =>
    let ready := w.todo.filter fun x => !s.ksStalls x.1
    if ready.isEmpty ∧ (w.fw.all fun r => r.wait.isEmpty) then s
    else
      let r := ready.foldl (fun r x => State.ksPut r x.1 x.2.1 x.2.2)
        (s, { w with todo := w.todo.filter fun x => s.ksStalls x.1 })
      let x := r.1.ksReadOn [] r.2
      x.1.ksSettle x.2) s

/-- A remote transfer of a Keystone operation has been answered, or has failed (R412). The bytes of an image take their
place. -/
def State.ksAnswered (s : State) (q cid gen off : Nat) (ok : Bool) (bs : List Byte) : State :=
  match s.wq.waits.find? fun w => w.op.q == q && w.op.cid == cid && w.op.gen == gen && 0 < w.left with
  | none => s
  | some w => s.ksSettle (match w.fw with
    | none => let w := { w with left := w.left - 1 }; if ok then w else w.lost off
    | some r => { w with
      left := w.left - 1
      fw := some (if ok then
          { r with got := (granulesOf (bs.length / 64 + 1) bs).zipIdx.foldl (fun g x => setAt g (off / 64 + x.2) (some x.1)) r.got }
        else { r with bad := true }) })

end Sys2Proof.Machine
end

