-- ==== Sys2Proof/Machine/SelfTest.lean ====
section
/-! DEFINITION. Self-test slices, their results and scheduling, and the test access port (R361-R376). -/

namespace Sys2Proof.Machine

/-! ### Targets (R361, R362) -/

def tKind (t : Nat) : Nat := t / 2 ^ 28
def tChan (t : Nat) : Nat := getBits t 27 23

/-- A target word of R361 without a reserved value. -/
def targetOk (t : Nat) : Bool :=
  if tKind t = 1 then getBits t 17 17 == 0 && getBits t 16 0 < 98304
  else if tKind t = 2 then getBits t 22 7 == 0 && t % 128 < 120
  else if tKind t = 3 then getBits t 27 9 == 0 && t % 256 < 180
  else false

/-- The channel or keep course of a target, as the events' UNIT (R377), and its course position.
(DESIGN CHOICE, log entry 105) -/
def tUnit (t : Nat) : Nat := if tKind t = 3 then 0x20 + getBits t 8 8 else tChan t
def tPos (t : Nat) : Nat := if tKind t = 3 then 1 + getBits t 8 8 else 3 + tChan t / 2

/-- The throttle step of a target's course (R337). -/
def State.tStep (s : State) (t : Nat) : Nat := (s.thm.crs.getD (tPos t) {}).step

def tPin (t : Nat) : Nat := if tKind t = 2 then t % 128 else t % 256

/-- A slice that checks the wrapper and sweeps nothing (R364). -/
def wrapperSlice (t : Nat) : Bool :=
  (tKind t == 2 && (tPin t == 106 || tPin t == 107 || 112 ≤ tPin t)) || (tKind t == 3 && 168 ≤ tPin t)

/-- N of R365. -/
def sliceN (t : Nat) : Nat := if tKind t = 1 then 160 else if wrapperSlice t then 8 else 78

/-- Row index and TSV index as target words (R362), and back. -/
def rowIndexTarget (i : Nat) : Nat :=
  2 ^ 28 + (i % 32) * 2 ^ 23 + (i / 32 % 2) * 2 ^ 22 + (i / 64 % 16) * 2 ^ 18 + i / 1024

def tsvIndexTarget (j : Nat) : Nat :=
  if j < 3840 then pinTarget (j / 120) (j % 120) else 3 * 2 ^ 28 + (j - 3840) / 180 * 256 + (j - 3840) % 180

def rowIndexes : Nat := 100663296
def tsvIndexes : Nat := 4200

def targetIndex (t : Nat) : Nat :=
  if tKind t = 1 then tChan t + 32 * (getBits t 22 22 + 2 * (getBits t 21 18 + 16 * getBits t 16 0))
  else if tKind t = 2 then 120 * tChan t + tPin t
  else 3840 + 180 * getBits t 8 8 + tPin t

/-- The location of a row target's first granule. -/
def tLoc (t : Nat) : Loc :=
  { ch := tChan t, pc := getBits t 22 22, bank := getBits t 21 18, row := getBits t 16 0, gran := 0, byte := 0 }

/-- A target that is fenced, carried as an erasure, or in a unit that is not restored (R362, R371). -/
def State.targetOut (s : State) (t : Nat) : Bool :=
  if tKind t = 1 then
    let l := tLoc t
    s.pcFenced l.ch l.pc || s.rowFenced l || s.unrestored (pageOf (encodeAddr l))
  else if tKind t = 2 then
    (if tPin t < 80 then s.pcFenced (tChan t) (tPin t / 40) else s.chanFenced (tChan t)) || s.erasedPin (tChan t) (tPin t)
  else (s.keep.course (getBits t 8 8)).fenced || s.unvisited (.keep (getBits t 8 8)) (tPin t)

/-- A rotation target is passed over (R362). -/
def State.rotSkips (s : State) (t : Nat) : Bool :=
  s.targetOut t || (s.flag BST_CTL_SKIPHOT && decide (2 ≤ s.tStep t))

/-! ### Results (R365-R369) -/

/-- SIG after one step (R365). (DESIGN CHOICE, log entry 123) -/
def sigStep (c : BitVec 32) (v : BitVec 64) : BitVec 32 :=
  (leBytes 8 v.toNat).foldl (fun c b => crcBits 8 (c ^^^ b.setWidth 32)) c

/-- FINAL of the steps executed. (DESIGN CHOICE, log entry 123) -/
def sliceFinal (vs : List (BitVec 64)) : Nat :=
  ((vs.foldl sigStep 0xFFFFFFFF#32) ^^^ BitVec.ofNat 32 vs.length).toNat

/-- EXPECTED: FINAL of N error-free steps. -/
def sliceExpected (n : Nat) : Nat := sliceFinal (List.replicate n 0)

/-- The 64 B record of R369. -/
def sliceRecord (c : Slice) (result cause steps final : Nat) (now : Nat) (extra : List Byte) (remedy seq : Nat) : List Byte :=
  leBytes 4 c.target ++ leBytes 1 result ++ leBytes 1 cause ++ leBytes 2 steps ++ leBytes 2 c.n ++ leBytes 2 0 ++
  leBytes 4 final ++ leBytes 4 (sliceExpected c.n) ++ leBytes 4 0 ++ leBytes 8 c.t0 ++ leBytes 8 now ++
  sliceB extra 0 8 ++ leBytes 1 c.origin ++ leBytes 1 remedy ++ leBytes 2 0 ++ leBytes 4 seq ++ leBytes 8 0

/-- A retest goes to the head of the targeted queue (R367, R370); with 16 entries queued the newest of firmware's waits.
(DEDUCED, log entry 124) -/
def State.queueRetest (s : State) (t : Nat) : State :=
  if s.testQueued t then s
  else
    let q := (t, 1, none) :: s.bst.queue
    if 16 < q.length then
      match q.getLast? with
      | some (u, _, none) => { s with
          bst := { s.bst with queue := q.dropLast }, intg := { s.intg with tests := u :: s.intg.tests } }
      | _ => { s with bst := { s.bst with queue := q } }
    else { s with bst := { s.bst with queue := q } }

/-- BST_INC_n after a result (R367). -/
def State.noteInc (s : State) (t result : Nat) : State :=
  let l := s.bst.inc.filter fun x => x != t && x != 0
  let l := if result = 2 then (if 16 ≤ l.length then l.drop 1 else l) ++ [t] else l
  let s := { s with bst := { s.bst with inc := l } }
  if result = 2 then s.queueRetest t else s

/-- The column command that a ROW slice issues to its row's granule `i` of the 16. -/
def State.sliceCol (s : State) (l : Loc) (i : Nat) (write : Bool) : State :=
  (s.colGo l.ch l.pc l.bank write 0).countGran write (encodeAddr { l with gran := i % 16 } / 64)

/-- A ROW slice's hold ends (R363): the pattern steps among its `steps` have issued their commands, and the restore always
completes; an uncorrectable save read restores nothing. The row is precharged and the bank is released. -/
def State.rowEnds (s : State) (t steps : Nat) (restored : Bool) : State :=
  let l := tLoc t
  if (s.chan l.ch).hold ≠ some (l.pc, l.bank) then s
  else
    let s := if restored then
        let s := (List.range (min 128 (steps - 16))).foldl (fun s i => s.sliceCol l i (i / 16 % 2 == 0)) s
        (List.range 16).foldl (fun s i => s.sliceCol l i true) s
      else s
    (s.rowShut l.ch l.pc l.bank).endHold l.ch

/-- A visit that a slice made leaves. -/
def State.sliceVisitEnds (s : State) (t result : Nat) : State :=
  match unitOfTarget t with
  | none => s
  | some u =>
    match s.visitOf u with
    | none => s
    | some v => if v.slice then ((s.noteVisit u result v.pin 0 0).seenPin u v.pin).endVisit v else s

/-- A slice reports its result (R366-R369): counted, posted, entered in BST_INC_n and in the log, and written for a BIST_REQUEST. A
test that was asked for frees the log entries it covers whatever its result (R313). `act` takes the remedy of a failed target. -/
def State.sliceReport (s : State) (c : Slice) (result cause steps final : Nat) (extra : List Byte)
    (act : State → State × Nat) : State :=
  let s := { s with bst := { s.bst with cur := none } }
  let s := if tKind c.target = 1 then s.rowEnds c.target steps (cause != 5) else s
  let s := if result = 0 then s.incFld BST_CNT_PASS_COUNT 1
    else if result = 2 then (s.incFld BST_CNT_INC_COUNT 1).post 0x0602 1 (tUnit c.target) c.target
    else (s.incFld BST_CNT_FAIL_COUNT 1).post (if result = 1 then 0x0601 else 0x0603) 2 (tUnit c.target) c.target
  let r := act s
  let s := r.1.sliceVisitEnds c.target 4
  let s := s.noteInc c.target result
  let s := if c.origin ≠ 0 then s.freeCovered c.target else s
  let seq := s.bst.seq
  let rec_ := sliceRecord c result cause steps final s.ks.time extra r.2 seq
  let s := { s with bst := { s.bst with seq := (seq + 1) % 2 ^ 32, log := tset s.bst.log (seq % 64) (seq, rec_) } }
  match c.op with
  | none => s
  | some o => s.ksWrite o (fieldB o.desc 16 8) rec_ 0 0 0 0

/-- The remedy of a failed target (R368). (DEDUCED, log entry 124) -/
def State.sliceRemedy (t result : Nat) (s : State) : State × Nat :=
  if result = 1 ∨ result = 3 then s.failTarget t else (s, 0)

/-- INCOMPLETE, or FAIL_INCOMPLETE where the target's previous result was INCOMPLETE (R366). (DEDUCED, log entry 124) -/
def State.incResult (s : State) (t : Nat) : Nat := if s.bst.inc.contains t then 3 else 2

/-- The running slice is cut short by the device (R369, R373): how many steps it has executed is a free value. One that has
not executed its first step reports nothing. (DESIGN CHOICE, log entry 123) -/
def State.cutSlice (s : State) (cause : Nat) : State :=
  match s.bst.cur with
  | none => s
  | some c =>
    if c.started then
      let steps := s.free % c.n
      let s := s.bump
      let final := s.free % 2 ^ 32
      let r := s.incResult c.target
      s.bump.sliceReport c r cause steps final [] (State.sliceRemedy c.target r)
    else { s with bst := { s.bst with cur := none } }

/-- The slicer stops for a reset or a save (R373): the running slice ends INCOMPLETE and the queue is cleared. A BIST_REQUEST among
them gets no completion from it (R134). -/
def State.stopSlicer (s : State) (cause : Nat) : State :=
  let s : State := { s with bst := { s.bst with cur := s.bst.cur.map fun c => ({ c with op := none } : Slice) } }
  let s := s.cutSlice cause
  { s with bst := { s.bst with queue := [] }, intg := { s.intg with tests := [] } }

/-! ### Scheduling (R370) -/

/-- BIST_REQUESTs whose course is at T3 before step 1 end ABORTED_THERMAL (R371). -/
def State.bistThermal (s : State) : State :=
  let hot := fun (t : Nat) => decide (3 ≤ s.tStep t)
  let gone := (s.bst.queue.filterMap fun x => if hot x.1 then x.2.2 else none) ++ (match s.bst.cur with
    | some c => if !c.started && hot c.target then c.op.toList else []
    | none => [])
  if gone.isEmpty then s
  else
    let cur := match s.bst.cur with
      | some c => if !c.started && hot c.target && c.op.isSome then none else some c
      | none => none
    let s := { s with bst := { s.bst with cur := cur, queue := s.bst.queue.filter fun x => !(hot x.1 && x.2.2.isSome) } }
    gone.foldl (fun s o => s.ksEnds o 9 0) s

/-- The next rotation target from an index on, passing over what is skipped; at most `fuel` indexes are looked at.
(DEDUCED, log entry 122) -/
def State.rotNext (s : State) : Nat → Nat → Nat → (Nat → Nat) → Option Nat
  | 0, _, _, _ => none
  | fuel + 1, i, n, f =>
    let t := f (i % n)
    if s.rotSkips t then s.rotNext fuel (i + 1) n f else some t

/-- The target that the rotation names now (R362): slices 7 and 15 of every 16 take a TSV. (DEDUCED, log entry 122) -/
def State.rotTarget (s : State) : Option Nat :=
  if s.bst.rot % 16 = 7 ∨ s.bst.rot % 16 = 15 then s.rotNext 4200 (s.fld BST_POS_TSV_INDEX) tsvIndexes tsvIndexTarget
  else s.rotNext 65536 (s.fld BST_POS_ROW_INDEX) rowIndexes rowIndexTarget

/-- A target is deferred at a tick: its repair is under way, or a rolling visit holds its pin (R370). -/
def State.targetHeld (s : State) (t : Nat) : Bool :=
  s.intg.todo.contains t ||
  (match unitOfTarget t with
  | none => false
  | some u => match s.visitOf u with
    | some v => v.pin == tPin t || v.stby == some (tPin t)
    | none => false)

/-- SLICE_TICK (R370). -/
def execSliceTick (s : State) : Host.Outcome State Fault Refusal :=
  .next (
    if s.inService = false ∨ s.bst.cur.isSome ∨ s.pwr.interval ∨ s.blocked 0x24 then s
    else
      let s := s.bistThermal.fillTests
      let start := fun (t og : Nat) (o : Option Op) (rest : List (Nat × Nat × Option Op)) =>
        if s.targetHeld t then s.incFld BST_CNT_DEFER_COUNT 1
        else { s with bst := { s.bst with queue := rest, cur := some { target := t, origin := og, op := o } } }
      match s.bst.queue.find? fun x => decide (s.tStep x.1 < 3) with
      | some x => start x.1 x.2.1 x.2.2 (s.bst.queue.erase x)
      | none =>
        if s.flag BST_CTL_EN = false then s
        else match s.rotTarget with
          | some t => start t 0 none s.bst.queue
          | none => s)

/-- The rotation moves past a target that has started; 0x0604 at the end of a pass (R362). (DEDUCED, log entry 122) -/
def State.rotPast (s : State) (t : Nat) : State :=
  let s := { s with bst := { s.bst with rot := (s.bst.rot + 1) % 16 } }
  let i := targetIndex t + 1
  let hours := fun (from_ : Nat) => min 65535 ((s.ks.time - from_) / (3600 * 10 ^ 9))
  if tKind t = 1 then
    if i = rowIndexes then
      (((s.setFld BST_POS_ROW_INDEX 0).incFld BST_PASSES_ROW 1).post 0x0604 0 0xFF (65536 * hours s.bst.passRow) |>
        fun (s : State) => { s with bst := { s.bst with passRow := s.ks.time } })
    else s.setFld BST_POS_ROW_INDEX i
  else if i = tsvIndexes then
    (((s.setFld BST_POS_TSV_INDEX 0).incFld BST_PASSES_TSV 1).post 0x0604 0 0xFF (1 + 65536 * hours s.bst.passTsv) |>
      fun (s : State) => { s with bst := { s.bst with passTsv := s.ks.time } })
  else s.setFld BST_POS_TSV_INDEX i

/-- Whether a save read of a granule ends UNCORRECTABLE. -/
def State.readsUe (s : State) (obs : List CellObs) (g : Nat) : Bool :=
  let o := obsOf obs g
  (o.addrErr && (!o.repeatOk || s.poisoned g)) || (match s.decodeSyms (decodeAddr (64 * g)) o.syms with
    | .uncorrectable _ => true
    | _ => false)

/-- The save reads of a row (R363), until one ends UNCORRECTABLE; the second part counts those made. -/
def State.saveReads (s : State) (obs : List CellObs) : List Nat → Nat → State × Option Nat
  | [], _ => (s, none)
  | g :: gs, n =>
    let l := decodeAddr (64 * g)
    let s := s.sliceCol l l.gran false
    if s.readsUe obs g then ((s.readGran obs g 6 false (s.clean g)).1, some (n + 1))
    else (s.resolveGran obs g false).saveReads obs gs (n + 1)

/-- SLICE_RESOURCE_GRANTED (R363-R365): the slice obtains its hold, its standby pin or its gap, and executes its first step. A
bank's hold comes after the writes reported complete in its queue (R144).
The save reads of a ROW slice meet the cells of `obs`; one that is UNCORRECTABLE ends the slice with cause 5. -/
def execSliceResourceGranted (obs : List CellObs) (s : State) : Host.Outcome State Fault Refusal :=
  .next (
    let s := s.bistThermal
    match s.bst.cur with
    | none => s
    | some c =>
      let t := c.target
      let c' := { c with started := true, n := sliceN t, t0 := s.ks.time }
      let go := fun (s : State) =>
        let s := if c.origin = 0 then s.rotPast t else s
        { s with bst := { s.bst with cur := some c' } }
      if c.started ∨ s.inService = false then s
      else if tKind t = 1 then
        let l := tLoc t
        if (s.chan l.ch).st ≠ .active ∨ (s.chan l.ch).hold.isSome ∨ s.bankOwes l.ch l.pc l.bank then s
        else
          let s := ((go s).takeHold l.ch l.pc l.bank).openRow l.ch l.pc l.bank l.row
          let r := s.saveReads obs (bankRowGrans l.ch l.pc l.bank l.row) 0
          match r.2 with
          | none => r.1
          | some n =>
            let res := r.1.incResult t
            r.1.sliceReport c' res 5 n (sliceFinal (List.replicate n 0)) [] (State.sliceRemedy t res)
      else if wrapperSlice t then go s
      else match unitOfTarget t with
        | none => s
        | some u =>
          if (s.visitOf u).isSome ∨ s.unitRuns u = false then s
          else
            let stby := if s.inPlace u then none else s.unitStby u
            let v : Visit := { unit := u, pin := tPin t, stby := stby, second := true, slice := true }
            let s := go s
            { s with cal := { s.cal with visits := s.cal.visits ++ [v] } })

/-- SLICE_END (R366). `mism` holds the mismatch vector of each step executed, `errFree` the settings of a sweep that were
error-free. -/
def execSliceEnd (mism : List (BitVec 64)) (overBudget : Bool) (cause : Byte) (errFree : List Nat) (s : State) :
    Host.Outcome State Fault Refusal :=
  .next (
    match s.bst.cur with
    | none => s
    | some c =>
      if c.started = false then s
      else
        let t := c.target
        let vs := mism.take c.n
        let steps := vs.length
        let final := sliceFinal vs
        let eye := eyeOf errFree
        let swept := tKind t != 1 && !wrapperSlice t
        let mask := vs.foldl (fun (m v : BitVec 64) => m ||| v) 0
        let extra := if tKind t = 1 then leBytes 8 (mask.toNat % 2 ^ 40)
          else if swept then leBytes 2 eye.1 ++ leBytes 1 eye.2 else []
        if steps < c.n ∨ overBudget then
          let r := s.incResult t
          s.sliceReport c r (if overBudget then 1 else cause.toNat) steps final extra (State.sliceRemedy t r)
        else
          let u := (unitOfTarget t).getD (.cmd 0)
          let works := !swept || s.working u eye.1 eye.2
          let clean := final == sliceExpected c.n
          let r := if clean && works then 0 else 1
          s.sliceReport c r 0 steps final extra fun s =>
            match swept, s.visitOf u with
            | true, some v =>
              if clean || !works then s.visitCentre v eye.1 eye.2
              else ((s.noteVisit u 3 v.pin eye.1 eye.2).seenPin u v.pin).endVisit v |>.failTarget t
            | _, _ => State.sliceRemedy t r s)

/-- SLICE_BUDGET_EXPIRY (R365, R366): a slice that has not started is deferred and tried again at the next period; one that
has exceeded its budget is INCOMPLETE with cause 1. -/
def execSliceBudgetExpiry (s : State) : Host.Outcome State Fault Refusal :=
  .next (
    match s.bst.cur with
    | none => s
    | some c =>
      if c.started then s.cutSlice 1
      else
        let s := s.incFld BST_CNT_DEFER_COUNT 1
        { s with bst := { s.bst with
          cur := none
          queue := if c.origin = 0 then s.bst.queue else (c.target, c.origin, c.op) :: s.bst.queue } })

/-! ### The test access port (R374-R376) -/

/-- The reset interval is held open by RESET_N (R374). -/
def State.resetHeld (s : State) : Bool := s.pwr.interval && !s.pins.resetN

/-- An instruction enters the instruction register. -/
def State.tapIr (s : State) (ir : Nat) : State := { s with bst := { s.bst with ir := ir } }

/-- An instruction that acts only inside a reset held by RESET_N; otherwise it selects BYPASS. -/
def State.tapHeld (s : State) (ir : Nat) : State := if s.resetHeld then s.tapIr ir else s.tapIr 0xFF

/-- The port works in every state except OFF, while TRST_N does not hold it reset (R29). (PRESUMED, log entry 139) -/
def State.tap (s : State) (f : State → State) : State := if s.dev = .off ∨ s.pins.trstN = false then s else f s

def execBypass (s : State) : Host.Outcome State Fault Refusal := .next (s.tap fun s => s.tapIr 0xFF)

/-- IDCODE (R374). -/
def State.idcode (s : State) : Nat := s.fld KS_REV_BASE * 2 ^ 28 + 0x9600 * 2 ^ 12 + 0x4C5 * 2 + 1

/-- TRST_N changes its level (R29): low puts the port's reset instruction, IDCODE, in the register and holds the port there.
(PRESUMED, log entry 139) -/
def State.trstLevel (s : State) (low : Bool) : State :=
  if s.dev = .off then s
  else
    let s : State := { s with pins := { s.pins with trstN := !low } }
    if low then s.tapIr 0x01 else s

def execIdcode (s : State) : Host.Outcome State Fault Refusal :=
  .next (s.tap fun s => (s.tapIr 0x01).emit (.tdo 32 s.idcode))

/-- The levels of the boundary register's balls in the order of R29: RESET_N, PWR_FAIL_N, KEEP_SEALED, ALERT_N,
THERM_TRIP_N, COMPAT, I3C_SCL, I3C_SDA, SBADDR0-2, LINTEL_FORCE_N. The levels of the two sideband balls are free values.
(DESIGN CHOICE, log entry 125) -/
def State.boundarySample (s : State) : List Bool :=
  [s.pins.resetN, s.pins.pwrFailN, !s.pins.keepSealed, !s.alert, !s.pins.thermTrip, s.pins.compat,
    s.free % 2 == 1, s.free / 2 % 2 == 1, bitAt s.pins.sbaddr 0, bitAt s.pins.sbaddr 1, bitAt s.pins.sbaddr 2,
    s.pins.lintelForceN]

def boolsNat : List Bool → Nat
  | [] => 0
  | b :: bs => b2n b + 2 * boolsNat bs

/-- The boundary register is captured, and loaded where levels are given (R374). -/
def State.samplePreload (s : State) (levels : Option (List Bool)) : State :=
  let v := s.boundarySample
  let s := (s.tapIr 0x02).bump.emit (.tdo v.length (boolsNat v))
  { s with bst := { s.bst with boundary := levels.getD v } }

/-- SAMPLE/PRELOAD (R374), or a level of TRST_N (R29), for which the table has no row.
(DESIGN CHOICE, log entry 125; PRESUMED, log entry 139) -/
def execSamplePreload (pins : PortPins) (s : State) : Host.Outcome State Fault Refusal :=
  .next (match pins with
    | .trst low => s.trstLevel low
    | .preload levels => s.tap fun s => s.samplePreload levels)

def execExtest (s : State) : Host.Outcome State Fault Refusal := .next (s.tap fun s => s.tapHeld 0x00)
def execClamp (s : State) : Host.Outcome State Fault Refusal := .next (s.tap fun s => s.tapHeld 0x03)
def execHighz (s : State) : Host.Outcome State Fault Refusal := .next (s.tap fun s => s.tapHeld 0x04)

/-- UNLOCK_NONCE (R374, R376). (DESIGN CHOICE, log entry 125) -/
def execUnlockNonce (s : State) : Host.Outcome State Fault Refusal :=
  .next (s.tap fun s => (s.tapIr 0x10).emit (.tdo 128 s.bst.nonce))

/-- A fresh nonce. -/
def State.newNonce (s : State) : State := { s with bst := { s.bst with nonce := s.free % 2 ^ 128 }, fresh := s.fresh + 1 }

/-- Unlock tokens may be accepted (R380, R383, R389): ID and CFG were valid at the last load, the state is not BLANK, and the
option NOUNLOCK is not set. (DESIGN CHOICE, log entry 125) -/
def State.tokensTaken (s : State) : Bool :=
  s.fus.states.getD 0 0 == 2 && s.fus.states.getD 9 0 == 2 && s.fus.life != 0 && !bitAt s.fus.opts 0

/-- UNLOCK_LOAD (R376). -/
def execUnlockLoad (token : List Byte) (s : State) : Host.Outcome State Fault Refusal :=
  .next (s.tap fun s =>
    let s := s.tapIr 0x11
    let ok := s.tokensTaken = true ∧ token.length = 128 ∧ fieldB token 0 8 = s.fus.ident ∧ fieldB token 8 16 = s.bst.nonce ∧ fieldB token 28 4 = 0 ∧
      Config.ecdsaOk s.fus.unlockKey (token.take 32) (token.drop 32) = true
    let scope := fieldB token 24 4
    let s := s.newNonce
    if ok then ({ s with bst := { s.bst with unlock := some scope } }).post 0x0607 1 0xFF scope else s)

/-- A course whose wrapper a scan may access (R375, R376, R389): any in WAFER and STACKED; later a DRAM course under an unlock
of scope 1. (DEDUCED, log entry 143) -/
def State.scanMay (s : State) (p : Nat) : Bool :=
  s.fus.life == 1 || s.fus.life == 2 || (3 ≤ p && bitAt (s.bst.unlock.getD 0) 1)

/-- SCAN_ENTER (R374, R375): `zero` says that the read-back found only zeros, `courses` the courses whose wrappers are
accessed. -/
def execScanEnter (zero : Bool) (courses : List Nat) (s : State) : Host.Outcome State Fault Refusal :=
  .next (s.tap fun s =>
    if s.resetHeld = false then s.tapIr 0xFF
    else if !(s.fus.life == 1 || s.fus.life == 2 || s.bst.unlock.isSome) then (s.tapIr 0xFF).post 0x0605 2 0xFF 0
    else
      let s := s.dropKeys
      let s := { s with chs := { s.chs with jobs := List.replicate 16 {} }, wq := { s.wq with ksq := [], waits := [] } }
      if zero = false then (s.tapIr 0xFF).post 0x0605 2 0xFF 0
      else
        let s := { s.tapIr 0x20 with bst := { s.bst with ir := 0x20, scan := true } }
        if (courses.filter fun p => decide (3 ≤ p) && s.scanMay p).isEmpty then s else { s with pwr := { s.pwr with mayResume := false } })

end Sys2Proof.Machine
end

