-- ==== Sys2Proof/Machine/Power.lean ====
section
/-! DEFINITION. Resets: their sources, the reset interval, and what each reach clears (R280-R287, R104, R164, R168, R188,
R237, R271, R323, R358, R373). -/

namespace Sys2Proof.Machine

/-! ### Semaphores and latches (R38, R45) -/

/-- Held semaphores that satisfy a test are broken (R45). (DESIGN CHOICE, log entry 18) -/
def State.breakSems (s : State) (p : Sem → Bool) : State :=
  { s with ks := { s.ks with sems := s.ks.sems.map fun x => if x.held && p x then { broken := true } else x } }

/-- Every latch is emptied (R38). -/
def State.emptyLatches (s : State) : State := { s with ks := { s.ks with latches := List.replicate 6 none } }

/-- One path's latch is emptied. -/
def State.emptyLatch (s : State) (i : Nat) : State := { s with ks := { s.ks with latches := setAt s.ks.latches i none } }

/-- The latches whose register pair lies in a block are emptied (R38, BLOCK). -/
def State.emptyLatchesOf (s : State) (p : Nat → Bool) : State :=
  { s with ks := { s.ks with latches := s.ks.latches.map fun l => match l with
    | some x => if p x.lo then none else some x
    | none => none } }

/-! ### The keep path (R271) -/

/-- A seal that has not ended is abandoned: what its record covers waits for the next. (DEDUCED, log entry 78) -/
def State.abandonSeal (s : State) : State :=
  s.modKeep fun k => { k with
    sealing := none, sealQ := [], folding := none, copiesSince := k.copiesSince + rcount k.copiedS
    copied := runion k.copied k.copiedS, copiedS := []
    courses := k.courses.map fun c => { c with
      deltas := c.deltaS.foldl sins c.deltas, deltaS := [], pend := c.pendS ++ c.pend, pendS := [], deltaF := [], foldMap := [] } }

/-- The keep operations and the mover's work stop at a reset (R271): copies in flight keep their pages dirty.
(DEDUCED, log entry 84) -/
def State.keepStops (s : State) : State :=
  (s.abandonCopies.abandonSeal).modKeep fun k => { k with armOps := [], ckpt := none, charac := none, touch := [] }

/-! ### Mortar, channels and jobs -/

/-- What a master port holds, its outstanding counts and its meter are cleared; what it has counted and when it last posted 0x0804
stand (R168, R182, R189). -/
def Master.cleared (x : Master) : Master := { shortAt := x.shortAt, short := x.short, heldNs := x.heldNs }

/-- Mortar's operating state is cleared (R168, R188): requests in flight, ranks, meters, outstanding counts and pace minimums. -/
def State.mortarClear (s : State) : State :=
  let s : State := { s with mtr := { s.mtr with
    masters := s.mtr.masters.map Master.cleared, xacts := [], works := []
    targets := s.mtr.targets.map fun t => { capLeft := t.capLeft } } }
  (List.range 16).foldl (fun s n => s.setFld (MTR_PACE_MIN n) (getBits (resetOf (MTR_PACE n)) 27 16)) s

/-- A channel's queued requests are abandoned. -/
def Chan.dropped (h : Chan) : Chan := h.only fun _ => false

/-- A reset's idle request to every channel (R161, R285 step 2): reads and unreported writes are abandoned, and an ACTIVE channel
writes its reported writes in its command slots before it enters self-refresh. One in training is DOWN. -/
def State.chansIdle (s : State) : State :=
  (List.range 32).foldl (fun s c =>
    match (s.chan c).st with
    | .active => (s.modChan c fun h => h.only MUnit.owed).idleChannel c
    | .draining => (s.modChan c fun h => h.only MUnit.owed).drained c
    | .training => s.modChan c fun h => { h.dropped with st := .down }
    | _ => s.modChan c Chan.dropped) s

/-- A channel is still writing what it has reported complete (R161 step 2). -/
def State.draining (s : State) : Bool := s.mc.chans.any fun h => h.st == .draining

/-- Jobs are abandoned with no completion, slots and SRAM cleared (R237). -/
def State.jobsLost (s : State) : State := { s with chs := { s.chs with jobs := List.replicate 16 {} } }

/-- The operations that the Keystone performs and that wait for it are lost with their queues (R134). -/
def State.ksLost (s : State) : State :=
  { s with
    wq := { s.wq with ksq := [], ksCur := none, waits := [] }
    pwr := { s.pwr with ksDown := false, ksOp := none } }

/-! ### Units withdrawn from a channel (R103, R188) -/

/-- The units that a channel controller and its target in mortar hold. -/
def State.unitsAt (s : State) (c : Nat) : List MUnit :=
  let h := s.chan c
  let t := s.tgt c
  t.hdrs ++ t.door.toList ++ h.units ++ (t.xfers.map fun x => x.unit).filter fun u => u.op == 0

/-- What a target holds without the units that a test picks; a master whose transfers all go gives up the data path. -/
def Tgt.without (t : Tgt) (p : MUnit → Bool) : Tgt :=
  let xs := t.xfers.filter fun x => !p x.unit
  { t with
    hdrs := t.hdrs.filter fun u => !p u, door := t.door.filter fun u => !p u, xfers := xs
    owner := t.owner.filter fun o => xs.any fun x => x.unit.master == o }

/-- Unreported units at a channel that a test picks are withdrawn: their lattice requests are answered with a status once nothing of
them is left in mortar, and those of the device's own masters return (R103, R188). The second part counts the requests. What M4 to M7
do with a unit that returns so is not stated: it counts as complete, and their work goes on. (DESIGN CHOICE, log entry 148) -/
def State.withdraw (s : State) (c : Nat) (p : MUnit → Bool) (status : Nat) : State × Nat :=
  let us := (s.unitsAt c).filter fun u => !u.reported && p u
  let out := fun (u : MUnit) => !u.reported && p u
  let ids := us.filterMap fun u => if u.own.isSome then none else some u.xact
  let s := (s.modTgt c fun t => t.without out).modChan c fun h => h.only fun u => !out u
  let n := (s.mtr.xacts.filter fun x => ids.contains x.id).length
  let s : State := { s with mtr := { s.mtr with
    xacts := s.mtr.xacts.map fun (x : Xact) => if ids.contains x.id then { x with status := status } else x } }
  (us.foldl (fun s u => s.unitReturn u []) s, n)

/-! ### The lattice (R104, R285 step 1) -/

/-- A request that ends at this stack: addressed to it, or hop-addressed with its last hop here (R91). -/
def State.endsHere (s : State) (k : Pkt) : Bool :=
  isRequest k.opc.toNat && (if k.nbr then !hopsOn k else s.hasCoord && k.dest.toNat == s.me)

/-- The requests of a port that no channel has yet taken: those whole in its receive buffer (R104), and those that wait at
their master port without lying there. -/
def State.waitingAt (s : State) (p : Nat) : List Pkt :=
  let rx := (s.port p).rx.filter s.endsHere
  let parked := ((s.master p).req ++ (s.master p).mgt).map fun (x : Parked) => x.pkt
  rx ++ parked.filter fun k => !rx.contains k

/-- The lattice requests that lie in this stack and that no channel has taken, with their ports (R103, R104). -/
def State.notPerformed (s : State) : List (Nat × Pkt) :=
  ((List.range 4).map fun p => (s.waitingAt p).map fun k => (p, k)).flatten

/-- The lattice requests that this stack has accepted and not answered: those issued, and those not yet performed. -/
def State.accepted (s : State) : List (Nat × Pkt) :=
  ((s.mtr.xacts.filter fun x => x.port < 4).map fun x => (x.port, x.pkt)) ++ s.notPerformed

/-- They are answered with a status. -/
def State.answerAccepted (s : State) (status : Nat) : State :=
  s.accepted.foldl (fun s x => s.answer x.1 x.2 status 0 []) s

/-- What is queued in a port is discarded, and its link will start fresh (R79, R104). -/
def Port.flushed (t : Port) : Port :=
  { t with
    outq := [], rx := [], part := [], haveLink := false, initRx := false, ret := List.replicate 6 0
    txCred := List.replicate 6 0, nakOut := false, nakDue := false, unacked := 0 }

/-- A reset that reaches a port raises its link epoch (R78, R104). -/
def State.epochUp (s : State) (p : Nat) : State := s.setFld (LTC_PEPOCH_OWN p) ((s.fld (LTC_PEPOCH_OWN p) + 1) % 65536)

/-- Every link's epoch rises, and it will start fresh (R104). -/
def State.linksFresh (s : State) : State :=
  let s := (List.range 4).foldl State.epochUp s
  { s with lnk := { s.lnk with ports := s.lnk.ports.map Port.flushed, outst := [], loop := [] } }

/-! ### Registers (R280, R281) -/

/-- What COLD keeps beside the RWS fields (R281): the strap latches, RST_START and RST_RAILHIST, the link epochs, the lock of the
reset authority, and the VALID bits of the correctable log (R306). -/
def keepAtCold (a : Nat) : Bool :=
  a == KS_STRAP || a == LTC_RSTAUTH_LOCK || a == RST_START || a == RST_RAILHIST ||
  ((List.range 4).any fun p => a == LTC_PEPOCH p) || (0xA01000 ≤ a && a < 0xA01400 && a % 16 == 0)

/-- The blocks that COLD resets (R281): all but KEEP. (DEDUCED, log entry 86) -/
def State.coldRegs (s : State) : State :=
  let fs := s.fld RST_BRINGUP_FAILSTEP
  let s := (s.resetRange 0 0x900000 keepAtCold).resetRange 0xA00000 0x500000 keepAtCold
  s.setFld RST_BRINGUP_FAILSTEP fs

/-- Step 5 under COLD (R280, R281). (DEDUCED, log entry 86) -/
def State.coldClears (s : State) : State :=
  let s := s.coldRegs
  let s := s.loadRestart.abortFuse
  let s : State := { s with
    ks := { s.ks with sems := List.replicate 32 {}, dests := List.replicate 4 {} }
    lnk := { s.lnk with ports := List.replicate 4 {}, opened := [false, false], closed := [true, true] }
    mc := { s.mc with band := List.replicate 16 1, bandLow := List.replicate 16 (0, 0), chans := s.mc.chans.map fun (h : Chan) => { h with
      st := .down, hold := none, dlyCap := [], pcs := h.pcs.map fun _ => ({ sref := true } : Pc) } }
    mtr := {}
    wq := { s.wq with rot := 63 }
    chs := {}
    intg := { s.intg with recov := [], todo := [], suspects := [], recovWin := [] }
    thm := {}
    fus := { s.fus with loaded := false }
    bst := { s.bst with unlock := none }
    cal := {}
    pwr := { s.pwr with blk := none, readyAt := none } }
  s.newNonce

/-- Step 5 of taking a reset (R285). -/
def State.resetStep5 (s : State) : State :=
  let s : State := { s with pwr := { s.pwr with waiting := false, taken := true, pulses := [] } }
  -- copies whose programs were waited for end without a swap (R271)
  let s := s.dropCopies fun _ => true
  let s := s.resetQueues
  if 4 ≤ s.pwr.reach then s.coldClears
  else
    let s : State := s.breakSems fun _ => true
    { s with pwr := { s.pwr with blk := none } }

/-- A reset is taken at the interval's reach (R285). In THERMAL_HOLD it has no effect (R289). In RECOVERY a WARM one is taken as
elsewhere; the boot ROM firmware restarts with it, and the device stays. (DEDUCED, log entry 87) -/
def State.takeReset (s : State) : State :=
  if s.dev = .thermalHold then { s with pwr := { s.pwr with taken := true, pulses := [] } }
  else
    let s := s.stopSlicer 2
    let s := s.abandonVisits fun _ => true
    let s : State := { s with intg := { s.intg with recov := [], todo := [] } }
    let s := if 4 ≤ s.pwr.reach then s.updateLintels
      else (s.answerAccepted 2)
    let s := s.linksFresh.emptyLatches.ksLost.jobsLost
    let s := s.keepStops.chansIdle.mortarClear
    if s.keep.copies.isEmpty && !s.draining then s.resetStep5
    else { s with pwr := { s.pwr with waiting := true, taken := false } }

/-! ### The interval (R284) -/

/-- A source acts, a pulse of it until step 5 has been taken for it: it opens an interval or joins the open one; a wider reach
widens it and the reset is taken again. (DEDUCED, log entry 87) -/
def State.actReset (s : State) (src reach ep : Nat) (level : Bool) : State :=
  let p := s.pwr
  let d : Deferred := { source := src, reach := reach, endpoint := ep }
  let levels := if level then (if p.levels.contains src then p.levels else p.levels ++ [src]) else p.levels
  -- a watchdog's reset restarts the Keystone, and the model does not run meanwhile (R288, R334)
  let s : State := if src = 6 ∧ s.dev ≠ .thermalHold then { s with thm := { s.thm with model := false } } else s
  if p.interval then
    if p.reach < reach then
      State.takeReset { s with pwr := { p with
        reach := reach, source := src, endpoint := ep, mask := p.mask ||| 2 ^ src, levels := levels, taken := false
        pulses := if level then p.pulses else p.pulses ++ [d], restartKs := p.restartKs || src == 6 } }
    else { s with pwr := { p with
      mask := p.mask ||| 2 ^ src, levels := levels, restartKs := p.restartKs || src == 6
      pulses := if level || p.taken then p.pulses else p.pulses ++ [d] } }
  else
    State.takeReset { s with pwr := { p with
      interval := true, reach := reach, source := src, endpoint := ep, mask := 2 ^ src, levels := levels
      pulses := if level then [] else [d], waiting := false, taken := false, restartKs := src == 6 } }

/-- A source's reset waits for SEALED (R287); 0x0108 is posted once per source. (DEDUCED, log entry 37; DEDUCED, log entry 76) -/
def State.deferReset (s : State) (d : Deferred) : State :=
  let seen := s.pwr.deferred.any fun x => x.source == d.source
  let s : State := if s.pwr.deferred.contains d then s else { s with pwr := { s.pwr with deferred := s.pwr.deferred ++ [d] } }
  if seen then s else s.post 0x0108 1 0xFF (d.source + 256 * d.reach)

/-- A source asserts a reset (R282): deferred while SAVING (R287), acting otherwise. (DEDUCED, log entry 87) -/
def State.assertReset (s : State) (src reach ep : Nat) (level : Bool) : State :=
  if s.dev = .off then s
  else if s.dev = .saving then s.deferReset { source := src, reach := reach, endpoint := ep }
  else s.actReset src reach ep level

/-- A level source is released. -/
def State.releaseLevel (s : State) (src : Nat) : State :=
  { s with pwr := { s.pwr with levels := s.pwr.levels.filter (· != src) } }

/-- What an interval leaves in the RST registers, and 0x0101 (R284, R299). (DEDUCED, log entry 87) -/
def State.recordReset (s : State) (reach src ep mask : Nat) : State :=
  let s := s.setReg RST_CAUSE (2 ^ 31 + reach * 2 ^ 28 + src * 2 ^ 20 + (if src = 3 then ep % 2 ^ 14 else 0))
  let s := (s.setReg RST_SRCMASK (mask % 65536)).setReg64 RST_CAUSETIME_LO s.ks.time
  s.post 0x0101 1 0xFF (reach + 16 * src + 65536 * mask)

/-- What PORT reach does (R68, R79, R104): the port retrains, its link starts fresh, the semaphores owned over it are broken,
its latch is emptied. -/
def State.portClears (s : State) (p : Nat) : State :=
  let t := s.port p
  let s := if t.st = .bypassed ∨ t.st = .disabled then s
    else if t.st = .active then s.leaveActive p 3 else s.startOver p .detect
  let s := ((s.clearReg (LNK_STAT p)).clearReg (LNK_SKEW p)).modPort p fun t => { t with haveLink := false, rstHold := true }
  let s := (s.epochUp p)
  let s := (List.range 17).foldl (fun s n => s.clearReg (LNK_LSTAT p n)) s
  (s.breakSems fun x => x.src == 0 && x.port == p).emptyLatch p

/-- A PORT reset: an interval of its own, or a source of the wider one that is open (R284). -/
def State.portReset (s : State) (p src ep : Nat) : State :=
  let s := s.portClears p
  if s.pwr.interval then { s with pwr := { s.pwr with mask := s.pwr.mask ||| 2 ^ src } } else s.recordReset 2 src ep (2 ^ src)

/-- The deferred sources act together when SEALED is reached (R287). A level that has been released acts as a pulse; PORT resets
beside a wider one are part of its interval. (DEDUCED, log entry 76) -/
def State.actDeferred (s : State) : State :=
  let ds := s.pwr.deferred
  let ports := ds.filter fun d => d.reach == 2
  let wide := ds.filter fun d => d.reach != 2
  let s : State := { s with pwr := { s.pwr with deferred := [], toHold := s.pwr.toHold || ds.any fun d => d.source == 8 } }
  let s := ports.foldl (fun s d => s.portClears d.port) s
  if wide.isEmpty then
    match ports with
    | [] => s
    | d :: _ => s.recordReset 2 d.source d.endpoint (2 ^ d.source)
  else
    let s := wide.foldl (fun s d =>
      s.actReset d.source d.reach d.endpoint
        ((d.source == 2 && !s.pins.resetN) || (d.source == 0xC && s.pwr.good != 0x3F))) s
    { s with pwr := { s.pwr with mask := ports.foldl (fun m d => m ||| 2 ^ d.source) s.pwr.mask } }

/-- The latest channel and the latest program of a reset's wait have ended: the reset goes on (R285 steps 3 and 4).
(DEDUCED, log entry 84) -/
def State.waitCheck (s : State) : State :=
  if s.pwr.waiting ∧ s.keep.copies.isEmpty ∧ s.draining = false then s.resetStep5 else s

/-- COMMAND_SLOT (R147): one 1 ns slot of a pseudo-channel. `obs` is what the column command's read meets in the cells.
(DESIGN CHOICE, log entry 52) -/
def execCommandSlot (c : Fin 32) (pc : Fin 2) (obs : List CellObs) (s : State) : Host.Outcome State Fault Refusal :=
  .next (s.slot c pc obs).waitCheck

/-- A unit of a channel's pins. -/
def CalUnit.onChan (c : Nat) : CalUnit → Bool
  | .data d _ => d == c
  | .cmd d => d == c
  | .keep _ => false

/-- An idle request to a channel abandons the visits of its pins (R354), and the channel drains (R161). -/
def State.idleAsked (s : State) (c : Nat) : State := (s.abandonVisits (CalUnit.onChan c)).idleChannel c

/-- CHANNEL_IDLE_REQUEST (R161, R354). (DEDUCED, log entry 53) -/
def execChannelIdleRequest (c : Fin 32) (s : State) : Host.Outcome State Fault Refusal := .next (s.idleAsked c)

/-- CHANNEL_IDLE_TIMEOUT (R161 step 6, R163): self-refresh is not reached. -/
def execChannelIdleTimeout (c : Fin 32) (s : State) : Host.Outcome State Fault Refusal :=
  .next (if (s.chan c).st = .draining then (s.idleFails c).waitCheck else s)

/-- RESET_PROGRAM_WAIT_TIMEOUT (R285): 60 µs have passed; 0x0109, and the reset proceeds. (DEDUCED, log entry 84) -/
def execResetProgramWaitTimeout (k : Fin 2) (s : State) : Host.Outcome State Fault Refusal :=
  .next (
    if s.pwr.waiting ∧ s.keep.copies.any (fun x => x.course == k.val) then
      let s := s.post 0x0109 3 k 0
      (s.dropCopies fun x => x.course == k.val).waitCheck
    else s)

/-- RESET_N_ASSERT (R282, R283). -/
def execResetNAssert (s : State) : Host.Outcome State Fault Refusal :=
  .next (
    if s.pins.resetN = false then s
    else { s with pins := { s.pins with resetN := false } }.assertReset 2 4 0 true)

/-- RESET_N_RELEASE (R283, R375): scan ends. -/
def execResetNRelease (s : State) : Host.Outcome State Fault Refusal :=
  .next (
    if s.pins.resetN then s
    else
      let s : State := { s with pins := { s.pins with resetN := true } }.releaseLevel 2
      if s.bst.ir = 0x20 ∨ s.bst.ir = 0 ∨ s.bst.ir = 3 ∨ s.bst.ir = 4 then { s with bst := { s.bst with ir := 0xFF } } else s)

/-- RSTACT with defining byte 0x02 (R41, R45, R282). -/
def execRstactColdReset (s : State) : Host.Outcome State Fault Refusal :=
  .next (if s.dev = .off then s else (s.breakSems fun x => x.src == 1).assertReset 4 4 0 false)

/-- RST_CMD (R282, R300): over the sideband with the key; writes over the lattice are ignored. -/
def State.rstCmd (s : State) (a : Access) (v : Nat) : State :=
  match a.path with
  | .sideband =>
    if v / 65536 ≠ 0xA5C3 then s
    else if v % 4 = 1 then s.assertReset 5 3 0 false
    else if v % 4 = 2 then s.assertReset 5 4 0 false
    else s
  | _ => s

def execRstCmdWarm (a : Access) (v : Word) (s : State) : Host.Outcome State Fault Refusal :=
  .next (s.cfgWrite a RST_CMD fun s => s.rstCmd a v.toNat)

def execRstCmdCold (a : Access) (v : Word) (s : State) : Host.Outcome State Fault Refusal :=
  .next (s.cfgWrite a RST_CMD fun s => s.rstCmd a v.toNat)

/-- An endpoint holds an LTC_RSTAUTH_n entry with EN = 1 and at least a reach (R105). -/
def State.rstAuth (s : State) (ep reach : Nat) : Bool :=
  (List.range 8).any fun n =>
    s.flag (LTC_RSTAUTH_EN n) && s.fld (LTC_RSTAUTH_ENDPOINT n) == ep && reach ≤ s.fld (LTC_RSTAUTH_MAXREACH n)

/-- The Keystone restarts and nothing more: every operation that it had accepted and not finished ends ABORTED_RESET, as in a
BLOCK reset of it (R286). (DEDUCED, log entry 92) -/
def State.ksAborted (s : State) : State :=
  let ops := s.wq.ksCur.toList ++ s.wq.ksq ++ ((s.wq.waits.map fun w => w.op).filter fun o => s.wq.ksCur != some o)
  ops.foldl (fun s o => s.complete o 5 0) s.ksLost

/-- WATCHDOG_EXPIRY (R288). In RECOVERY the boot ROM firmware restarts and nothing more. (DEDUCED, log entry 95) -/
def execWatchdogExpiry (s : State) : Host.Outcome State Fault Refusal :=
  .next (
    if s.dev = .off ∨ s.dev = .aux ∨ s.dev = .safe then s
    else
      let esc := match s.pwr.wdogLast with
        | some t => decide (s.clock ≤ t + 10 ^ 10) && s.dev != .recovery
        | none => false
      let s : State := { s.incFld RST_WDOG_COUNT 1 with pwr := { s.pwr with wdogLast := some s.clock } }
      let s := s.post 0x0107 2 0xFF (b2n esc)
      if s.dev = .recovery then (s.emptyLatch 5).ksAborted
      else if esc then s.assertReset 7 4 0 false
      else s.assertReset 6 3 0 false)

end Sys2Proof.Machine
end

