-- ==== Sys2Proof/Machine/Save.lean ====
section
/-! DEFINITION. Seals as they end, checkpoints, the power-fail save, and the keep step with its restore (R242, R245-R249,
R256-R265, R392, R411). -/

namespace Sys2Proof.Machine

/-! ### The start record (R296) -/

/-- The 64 bytes of the start record (R296). -/
def StartRec.bytes (r : StartRec) : List Byte :=
  let b := padB 60 (leBytes 8 r.seq ++ leBytes 4 r.starts ++ leBytes 1 r.fails ++ leBytes 1 (b2n r.inprog) ++ leBytes 1 r.cause ++
    [0] ++ leBytes 8 r.time)
  b ++ leBytes 4 (crc32 b).toNat

/-- A copy of the start record read back: none where its CRC does not pass (R20, R296). -/
def startOf (b : List Byte) : Option StartRec :=
  if b.length = 64 ∧ fieldB b 60 4 = (crc32 (b.take 60)).toNat then
    some { seq := fieldB b 0 8, starts := fieldB b 8 4, fails := fieldB b 12 1, inprog := bitAt (fieldB b 13 1) 0,
           cause := fieldB b 14 1, time := fieldB b 16 8 }
  else none

/-- The start record chosen under R20; a record whose copies are both lost starts over. (DESIGN CHOICE, log entry 137) -/
def State.startChosen (s : State) : StartRec :=
  (pickCopy (fun (r : StartRec) => r.seq) (s.courseCopy 0 fun c => startOf c.start)
    (s.courseCopy 1 fun c => startOf c.start)).getD {}

/-- The start record is changed and written, in both courses (R20). (DESIGN CHOICE, log entry 137) -/
def State.writeRecord (s : State) (f : StartRec → StartRec) : State :=
  let r := f s.pwr.record
  let r : StartRec := { r with seq := r.seq + 1, time := s.ks.time }
  let s : State := { s with pwr := { s.pwr with record := r } }.writeReserved fun c => { c with start := r.bytes }
  ((s.setFld RST_START_STARTS r.starts).setFld RST_START_INPROG (b2n r.inprog)).setFld RST_START_FAILS r.fails

/-- R392 forbids the keep courses to be read or programmed: RETIRED, or an invalid KEY region. (DEDUCED, log entry 77) -/
def State.keepBarred (s : State) : Bool := s.fus.life == 4 || s.fus.keyBad

/-! ### A save (R256-R260, R411) -/

/-- SEALED is left once PWR_FAIL_N has been high for 10 ms with every rail good: COLD, source 0x0A (R287). -/
def State.sealedExit (s : State) : State :=
  if s.dev = .sealed ∧ s.pwr.highFor10 ∧ s.pwr.good = 0x3F ∧ s.pwr.toHold = false then s.actReset 0xA 4 0 false else s

/-- The duration of the save and the GiB it saved are kept, in the image too where it may be written (R272, R274).
(DESIGN CHOICE, log entry 156) -/
def State.saveNoted (s : State) (ms gib : Nat) : State :=
  let s := (s.setFld KEEP_SAVE_MS (min 65535 ms)).setFld KEEP_SAVE_GIB gib
  let barred := s.keepBarred
  s.modKeep fun k => { k with
    saveMs := ms
    courses := k.courses.map fun c => if c.fenced || barred then c else { c with lastSave := (ms, gib) } }

/-- SEALED is entered (R257 step 6, R260, R411): every channel runs the idle steps of R161 (R164), and the deferred resets act.
(DEDUCED, log entry 77) -/
def State.enterSealed (s : State) (final : Bool) : State :=
  let ms := (s.clock - s.keep.saveStart) / 1000000
  let gib := ceilDiv s.keep.savePages 262144
  let s := s.saveNoted ms gib
  let s := (s.setDev .sealed).modKeep fun k => { k with saveStep := 0 }
  let s := if final then
      ({ s with pins := { s.pins with keepSealed := false } }).post 0x0506 1 0xFF (min 65535 ms + 65536 * gib)
    else s
  ((List.range 32).foldl State.idleChannel s).actDeferred.sealedExit

/-- A save with no key ends (R411). (DEDUCED, log entry 77) -/
def State.saveNoKey (s : State) : State := (s.post 0x0514 3 0xFF s.keep.saveDirty).enterSealed false

/-- A page that a course may copy now is left. (DEDUCED, log entry 66) -/
def State.pageLeft (s : State) : Bool :=
  (List.range 2).any fun c =>
    !(s.keep.course c).fenced && (s.keep.course c).hold.isNone && (s.pageIn s.keep.dirty c 0).isSome

/-- A dirty page of a held course is left. -/
def State.heldLeft (s : State) : Bool :=
  (List.range 2).any fun c => (s.keep.course c).hold.isSome && (s.pageIn s.keep.dirty c 0).isSome

/-- The save goes on: copies are started; when none is left SAVE_FINAL is sealed (R257 steps 5 and 6). -/
def State.saveGoes (s : State) : State :=
  if s.dev = .saving ∧ s.keep.saveStep = 5 then
    let s := s.moverFill
    if s.keep.copies.isEmpty ∧ s.pageLeft = false ∧ s.heldLeft = false then
      (s.modKeep fun k => { k with saveStep := 6 }).sealAsk 5 0 .saveFinal
    else s
  else s

/-- Channels that rest return to ACTIVE for a warm bring-up and for a save on the RESUME path (R163, R256, R294): one in self-refresh
at once, one that is DOWN by training. A fenced channel stays as it is. -/
def State.wakeChannels (s : State) : State :=
  (List.range 32).foldl (fun s c =>
    if s.chanFenced c then s
    else match (s.chan c).st with
      | .selfref => s.exitSref c
      | .down => s.modChan c fun (h : Chan) => { h with st := .training }
      | _ => s) s

/-- A unit that has read nothing yet waits at its channel for a recovery or a restore. -/
def State.unitStuck (s : State) (u : MUnit) : Bool := s.unitWaits u && !(u.op == 0 && !u.data.isEmpty)

/-- Every request that is not yet performed is answered REFUSED_SAVING at the start of a save (R103): those that a recovery or a
restore holds at their channels, and those that wait at a master port or lie whole in a receive buffer. What waits at the ports of M4
and M6 is not issued any more (R188). (DEDUCED, log entry 66) -/
def State.refuseWaiting (s : State) : State :=
  let stuck := s.unitStuck
  let s := (List.range 32).foldl (fun s c => (s.withdraw c stuck 3).1) s
  let own := ((s.mtr.masters.drop 4).map fun (m : Master) => m.req ++ m.mgt).flatten
  let s := own.foldl (fun s x => s.answer x.port x.pkt 3 0 []) s
  let s := s.notPerformed.foldl (fun s x => (s.takeRx x.1 x.2).answer x.1 x.2 3 0 []) s
  { s with mtr := { s.mtr with masters := s.mtr.masters.zipIdx.map fun x =>
      { x.1 with req := [], mgt := [], asks := if x.2 = 4 ∨ x.2 = 6 then [] else x.1.asks } } }

/-- Responses and transit packets that have not left when a save closes the lintels are lost (R103). -/
def State.dropOutputs (s : State) : State :=
  { s with lnk := { s.lnk with ports := s.lnk.ports.map fun (t : Port) => { t with outq := [], rx := [], part := [] } } }

/-- A save begins inside a reset interval (R284, R287): the interval ends, and is recorded where its reset has been taken. The sources
whose reset has not, and the levels still asserted, are deferred. (DEDUCED, log entry 76) -/
def State.intervalCut (s : State) : State :=
  if s.pwr.interval then
    let p := s.pwr
    let s := if p.taken then s.recordReset p.reach p.source p.endpoint p.mask else s
    let s : State := { s with pwr := { s.pwr with interval := false, waiting := false, taken := false, levels := [], pulses := [] } }
    (p.pulses ++ p.levels.map fun x => ({ source := x, reach := 4, endpoint := 0 } : Deferred)).foldl State.deferReset s
  else s

/-- The save in steps 1 and 2 of R257: what an open reset interval's sources still assert is deferred, requests are refused,
the lintels close, queues, jobs and the rest of the stack's work stop.
(DEDUCED, log entry 66; DESIGN CHOICE, log entry 74; DEDUCED, log entry 76) -/
def State.startSave (s : State) : State :=
  let s := s.intervalCut.stopSlicer 3
  let s := s.abandonVisits fun _ => true
  let wake := s.dev == .bringup || (List.range 32).any fun c => (s.chan c).st == .selfref || (s.chan c).st == .down
  let s := s.refuseWaiting
  let s : State := { s with intg := { s.intg with recov := [] } }
  let s : State := { s with mtr := { s.mtr with
    masters := s.mtr.masters.zipIdx.map fun x => if privileged x.2 then x.1 else { x.1 with meter := 0 } } }
  let s := (s.setDev .saving).post 0x0505 1 0xFF (s.keep.dirtyCount / 256)
  let s := s.writeRecord fun r => { r with inprog := false }
  let s := s.updateLintels.dropOutputs.resetQueues.ksLost.abandonJobs
  let s : State := { s with pwr := { s.pwr with blk := none, paused := false, boot := 0 } }
  let folds := s.keep.sealing.any fun x => x.2.2 == .fold
  let s := if folds then s.abandonSeal else s
  let s := s.modKeep fun k => { k with
    folding := none, armOps := [], ckpt := none, charac := none, touch := []
    courses := k.courses.map fun (c : Course) => { c with foldMap := [], deltaF := [], hold := none }
    sealQ := k.sealQ.filter fun x => x.2.2 == .epoch
    sealing := k.sealing.map fun x => (x.1, x.2.1, if x.2.2.op.isSome then SealFor.none else x.2.2)
    saveStep := 1, saveKey := k.keyHeld, saveStart := s.clock, savePages := 0, saveSince := 0, saveDirty := k.dirtyCount }
  if wake then s.wakeChannels else s

/-- Units of M0 to M4 and M6 are in mortar or at a channel and have not been reported complete (R188, R257 step 3). -/
def State.unitsLeft (s : State) : Bool :=
  let left := fun (u : MUnit) => !privileged u.master && !u.reported
  (s.mtr.targets.any fun t => t.hdrs.any left || t.door.any left || t.xfers.any fun x => left x.unit) ||
  s.mc.chans.any fun h => h.units.any left

/-- SAVE_UNITS_DRAINED (R257 steps 3 and 4, R411): the units already issued have completed at their targets, and no channel is on its
way into self-refresh. Channels that have gone there return (R256). -/
def execSaveUnitsDrained (s : State) : Host.Outcome State Fault Refusal :=
  .next (
    if s.dev ≠ .saving ∨ s.keep.saveStep ≠ 1 ∨ s.unitsLeft ∨ s.draining then s
    else
      let s := s.wakeChannels.modKeep fun k => { k with saveStep := 4 }
      if s.keep.saveKey = false ∧ s.keepBarred then s.saveNoKey else s.sealAsk 3 0 .saveOpen)

/-- SAVE_HOLD_TIMEOUT (R260): power has returned, and the course has not cooled for 60 s; the save ends without SAVE_FINAL.
(DEDUCED, log entry 75) -/
def execSaveHoldTimeout (k : Fin 2) (s : State) : Host.Outcome State Fault Refusal :=
  .next (
    if s.dev = .saving ∧ s.keep.saveStep = 5 ∧ (s.keep.course k).hold.isSome ∧ s.pwr.highFor10 ∧ s.pwr.good = 0x3F ∧
        s.keep.copies.isEmpty ∧ s.pageLeft = false then
      (s.modKeep fun y => { y with saveStep := 6 }).sealAsk 4 0 (.saveEnd k)
    else s)

/-- A save condition in a state that may save (R256, R278): READY, RESTORING, and BRINGUP on the RESUME path with dirty
pages. -/
def State.maySave (s : State) : Bool := s.inService || (s.dev == .bringup && s.pwr.resume && 0 < s.keep.dirtyCount)

/-! ### Thermal limits of the keep path (R244, R249, R252, R258, R260) -/

/-- The keep courses' estimates are tested. (DEDUCED, log entry 75) -/
def State.keepHeat (s : State) : State :=
  let s := (List.range 2).foldl (fun s k =>
    let e := s.keepEst k
    let c := s.keep.course k
    let s := if 10500 < e then
        (if c.hotPosted then s else (s.modCourse k fun c => { c with hotPosted := true }).post 0x050E 1 k 0).moverOpsEnd 9
      else if e ≤ 10300 then s.modCourse k fun c => { c with hotPosted := false }
      else s
    if s.dev ≠ .saving then s
    else if 11500 < e ∧ c.hold = none then s.heatHold k
    else if e < 11000 ∧ c.hold.isSome then s.modCourse k fun c => { c with hold := none }
    else s) s
  s.saveGoes

/-! ### Programs of copies (R245, R270) -/

/-- A checkpoint whose pages are all copied seals its record (R249 step 3). -/
def State.ckptGoes (s : State) : State :=
  match s.keep.ckpt with
  | some (o, pages) =>
    if rcount pages = 0 then
      (s.modKeep fun k => { k with ckpt := none }).sealAsk 2 (fieldB o.desc 8 8) (.checkpoint2 o)
    else s.moverFill
  | none => s

/-- A save's count of pages, with a SAVE record after each 1 GiB (R257 step 5). (DEDUCED, log entry 65) -/
def State.savePage (s : State) : State :=
  if s.dev = .saving then
    let n := s.keep.saveSince + 1
    let s := s.modKeep fun k => { k with savePages := k.savePages + 1, saveSince := if n = 262144 then 0 else n }
    if n = 262144 then s.sealAsk 4 0 .none else s
  else s

/-- PAGE_PROGRAM_COMPLETE (R19, R245): the map entry is swapped, or the slot is retired and the page copied again. A program
that a reset waits for ends without a swap (R271). No program completes whose page is still on its way. (DEDUCED, log entry 65) -/
def execPageProgramComplete (k slot : Nat) (ok : Bool) (s : State) : Host.Outcome State Fault Refusal :=
  .next (
    match s.keep.copies.find? fun x => x.course == k && x.slot == slot with
    | none => s
    | some x =>
      if s.unstarted x then s
      else if s.pwr.waiting then
        (if ok then s.dropCopy x true else (s.dropCopy x false).retireSlot x.course x.slot).waitCheck
      else
        let s := if s.keepBusOk k ok then
            let s := (s.swapEntry x).savePage
            if s.dev ≠ .saving ∧ 786432 < (s.keep.course k).pend.length then s.sealAsk 1 0 .none else s
          else
            let s := (s.dropCopy x false).retireSlot x.course x.slot
            let s := s.markDirty x.page
            let hot := if s.dev = .saving then (s.keep.course x.course).hold.isSome else (s.keep.course x.course).hotPosted
            if s.mayCopy x.course ∧ hot = false then s.copyStart x.page [] else s
        let s := if s.keep.charac.isSome then s.moverFill else s
        s.ckptGoes.saveGoes)

/-! ### Versions of poisoned pages (R262) -/

/-- A page that a restore delivers poisoned is copied as a new version with POISON set, in a course that is not fenced; without a key
or a free slot it waits. The entry goes with the next record. (DEDUCED, log entry 80) -/
def State.poisonVersion (s : State) (page : Nat) : State :=
  let h := homeOf page
  let i := indexOf page
  let c := s.keep.course h
  match s.keep.keyOf s.keep.epoch, (if c.fenced then none else c.pickSlot) with
  | some key, some slot =>
    let n := c.count slot + 1
    let v : KSlot := {
      index := i, seq := s.keep.seq, epoch := s.keep.epoch.num, count := n, mask := fullMask, key := key, data := [] }
    let old := mapAt c.cur i
    let stale := !old.zero && ((tget c.slots old.slot).map (·.epoch)).getD s.keep.epoch.num != s.keep.epoch.num
    let s := (s.modCourse h fun c => c.takeSlot slot).modCourse h fun c => { c with
      cur := tset c.cur i { slot := slot, heat := old.heat, zero := false, poison := true }
      slots := tset c.slots slot v, counts := tset c.counts slot n, pend := c.pend ++ [old.slot]
      deltas := sins c.deltas i, deltaF := if s.keep.folding = none then c.deltaF else sins c.deltaF i }
    let s := s.modKeep fun k => { k with
      poisonPg := rdel k.poisonPg page, copiesSince := k.copiesSince + 1, oldLeft := k.oldLeft - b2n stale }
    let s := (s.add64 KEEP_COPIES_LO 1).ask 5 1 (.page page) (pageUnits page)
    if wearLimit ≤ n then s.retireSlot h slot else s
  | _, _ => s

/-- The pages that wait for a version with POISON set get it as far as there are free slots; for the others the mover seals.
(DEDUCED, log entry 80) -/
def State.poisonPages (s : State) : State :=
  if s.keep.poisonPg.isEmpty ∨ s.keepBarred ∨ (s.inService = false ∧ ¬ (s.dev = .bringup ∧ s.keep.phase = 5)) then s
  else
    let s := (rlist (rcount s.keep.poisonPg) s.keep.poisonPg).foldl State.poisonVersion s
    if s.keep.poisonPg.isEmpty ∨ s.keep.copiesSince = 0 then s else s.sealAsk 1 0 .none

/-! ### Seals as they end (R246, R248, R249, R257, R269) -/

/-- The record of one course enters its journal; what it covers is settled. -/
def Course.sealed (c : Course) (r : SealRec) (kind : Nat) : Course :=
  if c.fenced then
    { c with deltas := c.deltaS.foldl sins c.deltas, deltaS := [], pend := c.pendS ++ c.pend, pendS := [] }
  else
    -- a fold halves HEAT, but for the entries swapped since it began (R241, R248)
    let cur := if kind = 6 then c.cur.map fun e =>
        if c.deltas.contains e.1 || r.deltas.any (fun d => d.1 == e.1) then e else (e.1, { e.2 with heat := e.2.heat / 2 })
      else c.cur
    { c.logged r with
    cur := cur, jbytes := if kind = 6 then 0 else c.jbytes + recBytes r
    freed := c.freed ++ c.pendS, deltaS := [], pendS := [] }

/-- A fold's FOLD is sealed: its copy is in force; the wear table is rewritten at every 16th fold (R270). -/
def Course.folded (c : Course) : Course :=
  if c.fenced then { c with foldMap := [], deltaF := [] }
  else
    let n := c.folds + 1
    { c with force := 1 - c.force, folds := n, foldMap := [], deltaF := [], wear := if n % 16 = 0 then c.counts else c.wear }

/-- The wear tables of courses whose fold was a 16th have been programmed (R270). -/
def State.wearFolded (s : State) : State :=
  (List.range 2).foldl (fun s k =>
    let c := s.keep.course k
    if c.fenced ∨ c.folds % 16 ≠ 0 then s else s.wearWritten k) s

/-- What a sealed record goes on to. -/
def State.sealGoesOn (s : State) (r : SealRec) (f : SealFor) : State :=
  match f with
  | .none => s
  | .checkpoint1 o pages =>
    let left := rdiff pages (rdiff pages s.keep.dirtySet)
    (s.modKeep fun k => { k with ckpt := some (o, left) }).ckptGoes
  | .checkpoint2 o => ((s.setReg64 KEEP_CKPTSEQ_LO r.seq).modKeep fun k => { k with ckptLabel := r.label }).ksEnds o 0 r.seq
  | .saveOpen =>
    if s.keep.saveKey then (s.modKeep fun k => { k with saveStep := 5 }).saveGoes else s.saveNoKey
  | .saveFinal => s.enterSealed true
  | .saveEnd k => (s.post 0x0513 3 k s.keep.dirtyCount).enterSealed false
  | .fold =>
    (s.modKeep fun k => { k with folding := none, courses := k.courses.map Course.folded }).wearFolded
  | .epoch => s.modKeep fun k => { k with epochChange := false }

/-- SEAL_READBACK_DONE (R246): sealed when the record of every course that is not fenced reads back; otherwise what it
carried goes into a new record with the next sequence. Nothing reads back while the records are on their way. What waited for free
slots then goes on. (DEDUCED, log entry 78) -/
def execSealReadbackDone (ok0 ok1 : Bool) (s : State) : Host.Outcome State Fault Refusal :=
  .next (
    match s.keep.sealing with
    | none => s
    | some (r0, r1, f) =>
      if s.onWay .record then s else
      let q0 := { r0 with ok := ok0 }
      let q1 := { r1 with ok := ok1 }
      let good := (ok0 || (s.keep.course 0).fenced) && (ok1 || (s.keep.course 1).fenced)
      let s := s.recsWritten r0 r1
      if good then
        let s := ((s.modCourse 0 fun c => c.sealed q0 r0.kind).modCourse 1 fun c => c.sealed q1 r0.kind).modKeep fun k =>
          { k with sealing := none, copiedS := [] }
        let s := (s.setReg64 KEEP_SEALSEQ_LO r0.seq).setReg64 KEEP_SEALTIME_LO r0.time
        let s := (s.sealGoesOn r0 f).poisonPages.foldCheck.sealNext
        if s.dev = .saving then s.saveGoes else s.moverFill
      else
        let back := fun (q : SealRec) (c : Course) =>
          { (if c.fenced then c else c.logged q) with
            pend := c.pendS ++ c.pend, pendS := [], deltaS := [], deltas := c.deltaS.foldl sins c.deltas }
        let s := ((s.modCourse 0 (back q0)).modCourse 1 (back q1)).modKeep fun k =>
          { k with sealing := none, copied := runion k.copied k.copiedS }
        s.sealStart r0.kind r0.label f)

/-! ### Choosing the image (R261, R262) -/

/-- The records of a course that are present and valid. (DEDUCED, log entry 80) -/
def Course.valid (c : Course) (read : Bool) : List SealRec := if read && !c.fenced then c.journal.filter (·.ok) else []

/-- S of R262: the highest sequence valid in both courses, or sealed with SINGLE in its own; with one course unreadable, the
highest of the other. (DEDUCED, log entry 80) -/
def imageSeq (v0 v1 : List SealRec) (both : Bool) : Nat :=
  let ok := fun (o : List SealRec) (r : SealRec) => r.single || !both || o.any fun x => x.seq == r.seq
  ((v0.filter (ok v1) ++ v1.filter (ok v0)).map (fun (r : SealRec) => r.seq)).foldl max 0

/-- A record's deltas applied to a map. -/
def SealRec.apply (r : SealRec) (m : Tab MapEnt) : Tab MapEnt := r.deltas.foldl (fun m d => tset m d.1 d.2) m

/-- A course's map at S: the copy of the last FOLD, with the deltas of it and of every later record up to S. -/
def mapOf (c : Course) (v : List SealRec) (n : Nat) : Tab MapEnt :=
  let rs := v.filter fun r => r.seq ≤ n
  match (rs.filter fun r => r.kind == 6).getLast? with
  | none => []
  | some f => (rs.filter fun r => f.seq ≤ r.seq).foldl (fun m r => r.apply m) (c.maps.getD f.copy [])

/-- The map copy that the last FOLD at or below S names. -/
def forceOf (v : List SealRec) (n : Nat) : Nat :=
  ((v.filter fun r => r.seq ≤ n && r.kind == 6).getLast?.map (·.copy)).getD 0

/-- The indexes of an incomplete save (R262): the newest SAVE_OPEN has no SAVE_FINAL; those of its snapshot that no later
record names. -/
def incompleteOf (v : List SealRec) (n : Nat) : Option Rng :=
  let rs := v.filter fun r => r.seq ≤ n
  match (rs.filter fun r => r.kind == 3).getLast? with
  | none => none
  | some o =>
    let later := rs.filter fun r => o.seq < r.seq
    if later.any fun r => r.kind == 5 then none
    else some (later.foldl (fun x r => r.deltas.foldl (fun x d => rdel x d.1) x) (o.snap.getD []))

/-- Entries that are not ZERO and whose slot carries another epoch than the current one. (DESIGN CHOICE, log entry 82) -/
def Course.oldSlots (c : Course) (m : Tab MapEnt) (epoch : Nat) : Nat :=
  (m.filter fun e => !e.2.zero && (match tget c.slots e.2.slot with
    | some v => v.epoch != epoch | none => false)).length

/-- The slots that no entry of a map names, in rising order (R240). (DESIGN CHOICE, log entry 82) -/
def freeSlots (m : Tab MapEnt) : Rng :=
  let r := m.foldl (fun r e => radd r e.1) [(12582912, 1572864)]
  m.foldl (fun r e => rdel r e.2.slot) r

/-- A course formatted (R242); its FOLD with sequence 1 is sealed by the caller's record. (DEDUCED, log entry 83) -/
def Course.format (c : Course) (r : SealRec) : Course :=
  { c with
    maps := [[], []], force := 0, cur := [], foldMap := [], journal := [r], deltas := [], deltaS := [], deltaF := []
    fresh := [(12582912, 1572864)], freed := [], pend := [], pendS := [], jbytes := 0, lastSave := (0, 0) }

/-- Both courses are formatted (R242). (DEDUCED, log entry 83) -/
def State.formatKeep (s : State) : State :=
  let s := s.modKeep fun k => { k with
    epochs := if k.epochs.isEmpty then [{ num := 1, policy := 0, chk := (derive (k.secret.getD 0) 0 1 0).2.2 }] else k.epochs
    seq := 0 }
  let s := s.writeWrap
  let r : SealRec := { s.makeRec 0 6 0 [] false with copy := 0 }
  let s := s.modKeep fun k => { k with
    seq := 1, courses := k.courses.map fun (c : Course) => c.format r, copiesSince := 0, copied := [], oldLeft := 0 }
  let s := (List.range 2).foldl (fun s k => (s.mapWritten k 0).mapWritten k 1) s
  let s := s.recsWritten r r
  ((((s.recAsked 0 r).recAsked 1 r).setReg64 KEEP_SEALSEQ_LO 1).setReg64 KEEP_SEALTIME_LO r.time)

/-! ### READY and the keep step (R261, R263, R294) -/

/-- The duration of the step that ends. -/
def State.stepClose (s : State) : State :=
  let s := if s.pwr.warm ∨ s.pwr.step = 0 then s
    else s.setFld (RST_STEPMS_MS (s.pwr.step - 1)) (min 65535 ((s.clock - s.pwr.stepAt) / 1000000))
  { s with pwr := { s.pwr with stepDone := true } }

/-- A step begins. -/
def State.stepAt (s : State) (n : Nat) : State :=
  { s with pwr := { s.pwr with step := n, stepAt := s.clock, stepDone := false } }

/-- The last step of bring-up ends (R300). -/
def State.stepsEnd (s : State) : State :=
  let s := s.stepClose
  { s with pwr := { s.pwr with step := 0, stepDone := false } }

/-- READY is entered (R296, R299). -/
def State.enterReady (s : State) : State :=
  let s := s.stepsEnd.setDev .ready
  let s := s.modKeep fun k => { k with phase := 0, restMap := false }
  let s := (s.writeRecord fun r => { r with inprog := false }).post 0x0102 0 0xFF ((s.clock - s.pwr.startAt) / 1000000)
  { s with pwr := { s.pwr with readyAt := some s.clock } }

/-- Host access opens (R263 step 5); DATA of 0x0509 counts from step 1 of the restore (R273). -/
def State.openAccess (s : State) : State :=
  let s := (s.stepsEnd.setDev .restoring).modKeep fun k => { k with phase := 6 }
  s.post 0x0509 0 0xFF ((s.clock - s.keep.restAt) / 1000000)

/-- A restore unit holds a page with HEAT 2 or more. (DEDUCED, log entry 81) -/
def Keep.hotUnit (k : Keep) (u : Nat) : Bool :=
  (List.range 16).any fun i =>
    let p := 16 * u + i
    2 ≤ (mapAt (k.course (homeOf p)).cur (indexOf p)).heat

/-- A unit of the hot pass is left. (DEDUCED, log entry 81) -/
def Keep.hotLeft (k : Keep) : Bool :=
  (List.range 2).any fun c => (k.course c).cur.any fun e =>
    2 ≤ e.2.heat && !rmem k.restored (unitOfPage (2 * e.1 + c))

/-- The shares of R263 step 2 are there: the image is chosen next. The wait for a share does not count toward R297. -/
def State.sharesCome (s : State) : State :=
  if s.keep.phase = 2 ∧ s.keep.waitsShare = false then
    let gone := match s.pwr.waitAt with | some t => s.clock - t | none => 0
    let s : State := { s with pwr := { s.pwr with
      waitAt := if s.pwr.paused then some s.clock else none, uncounted := s.pwr.uncounted + gone } }
    s.modKeep fun k => { k with phase := 3 }
  else s

/-- A restore begins (R263 step 1): RESTORE, or FRESH where neither journal holds a valid record or R392 forbids reading.
(DEDUCED, log entry 83) -/
def State.restoreBegin (s : State) : State :=
  let barred := s.keepBarred
  let s := s.modKeep fun k => { k with courses := (k.courses.zipIdx).map fun x => { x.1 with fenced := 2 ≤ s.keepCoded x.2 } }
  let v0 := (s.keep.course 0).valid true
  let v1 := (s.keep.course 1).valid true
  let none_ := (s.keep.courses.all fun c => !(c.journal.any fun r => r.ok))
  let path := if barred || none_ then KPath.fresh else .restore
  let s := if path = .fresh ∧ barred = false then s.formatKeep else s
  let n := imageSeq v0 v1 (!(s.keep.course 0).fenced && !(s.keep.course 1).fenced)
  let old := fun (c : Course) (v : List SealRec) => c.oldSlots (mapOf c v n) s.keep.epoch.num
  let s := s.modKeep fun k => { k with
    path := path, phase := 2, dirty := [], copies := [], copied := [], restored := [], touch := [], restMap := false
    poisonPg := [], lost := 0, incomplete := false, chosen := 0, restArmed := false, restTouch := 0, restAt := s.clock
    oldLeft := if path = .restore then old (s.keep.course 0) v0 + old (s.keep.course 1) v1 else 0 }
  let s := s.post 0x0508 0 0xFF (if path = .fresh then 1 else 2)
  if s.keep.waitsShare ∧ barred = false then { s with pwr := { s.pwr with waitAt := some s.clock } }
  else s.modKeep fun k => { k with phase := 3 }

/-- A dirty map that fails its SRAM check on RESUME is replaced by one in which every page is dirty (R261). No command of the table
makes the check fail. (DESIGN CHOICE, log entry 157) -/
def State.mapCheck (s : State) : State :=
  if s.keep.sramOk then s else s.modKeep fun k => { k with dirty := [(0, allPages)], sramOk := true }

/-- The keep step of a bring-up (R261, R293 step 8, R294 step 5, R392): the last step of either. (DEDUCED, log entry 89) -/
def State.keepStep (s : State) : State :=
  let s := (if s.pwr.warm then s else s.stepAt 8).setReg RST_RAILHIST 0
  let s := if s.keepBarred then s.post 0x0705 4 7 0 else s
  let resume := s.pwr.resume
  let s : State := { s with pwr := { s.pwr with mayResume := true } }
  if resume then
    let s := (s.mapCheck.modKeep fun k => { k with path := .resume }).post 0x0512 0 0xFF 0
    let s : State := { s with pwr := { s.pwr with full := false } }
    let s := if s.keep.epochChange ∧ s.keep.sealing.isNone ∧ s.keep.keyHeld then s.sealAsk 7 0 .epoch else s
    if s.keep.restMap then
      if s.keep.phase = 6 then s.stepsEnd.setDev .restoring else s.openAccess
    else s.enterReady
  else s.restoreBegin

/-- The image fields of KEEP are loaded after a FULL reset (R274): those of the record of S, and what the image keeps of the last save.
(DESIGN CHOICE, log entry 156) -/
def State.loadImage (s : State) (r : SealRec) : State :=
  let v := (s.keep.course (if (s.keep.course 0).fenced then 1 else 0)).lastSave
  let s := ((s.setFld KEEP_SAVE_MS (min 65535 v.1)).setFld KEEP_SAVE_GIB v.2).modKeep fun k => { k with saveMs := v.1 }
  let s := (s.setReg KEEP_HOLDCAP r.holdcap).setFld KEEP_HOLDCHK_UF r.cmeas
  let s := (s.setFld KEEP_HOLDCHK_VALID (b2n (r.cmeas != 0))).setFld KEEP_KEYPOL_POLICY r.policy
  (s.setReg64 KEEP_SEALSEQ_LO r.seq).setReg64 KEEP_SEALTIME_LO r.time

/-- RESTORE_IMAGE_CHOSEN (R262, R263 step 3): S, its maps, and what is poisoned. (DEDUCED, log entry 80) -/
def State.chooseImage (s : State) (read0 read1 : Bool) : State :=
  let c0 := s.keep.course 0
  let c1 := s.keep.course 1
  let v0 := c0.valid read0
  let v1 := c1.valid read1
  let both := read0 && read1 && !c0.fenced && !c1.fenced
  let n := imageSeq v0 v1 both
  let omitted := fun (o : List SealRec) => o.any fun r => r.single && r.seq ≤ n
  let f0 := !read0 || c0.fenced || omitted v1
  let f1 := !read1 || c1.fenced || omitted v0
  -- a course already fenced counts anew: 0x0688 and 0x0511 were posted when it was found
  let s := if f0 then s.fenceCourse 0 else s
  let s := if f1 then s.fenceCourse 1 else s
  let i0 := incompleteOf v0 n
  let i1 := incompleteOf v1 n
  let pg := fun (k : Nat) (f : Bool) (x : Option Rng) => if f then [] else
    (rlist (rcount (x.getD [])) (x.getD [])).map fun i => (2 * i + k)
  let pages := pg 0 f0 i0 ++ pg 1 f1 i1
  let inc := i0.isSome || i1.isSome
  let lost := pages.length + 12582912 * (b2n f0 + b2n f1)
  let top := ((c0.journal ++ c1.journal).map (fun (r : SealRec) => r.seq)).foldl max n
  let cks := ((v0 ++ v1).filter fun r => r.seq ≤ n && r.kind == 2)
  let ck := cks.foldl (fun (b : Option SealRec) r => match b with
    | none => some r
    | some x => if x.seq ≤ r.seq then some r else b) none
  let rec_ := (v0 ++ v1).find? fun r => r.seq == n
  let upd := fun (k : Nat) (c : Course) (v : List SealRec) (s : State) =>
    let m := mapOf c v n
    s.modCourse k fun c => if c.fenced then { c with cur := [] } else { c with
      -- what is after S is ignored for good: its sequences are not used again (R262)
      journal := c.journal.map fun r => if n < r.seq then { r with ok := false } else r
      cur := m, force := forceOf v n, fresh := freeSlots m, freed := [], pend := [], pendS := [], deltas := [], deltaS := []
      deltaF := [], foldMap := [] }
  let s := upd 1 c1 v1 (upd 0 c0 v0 s)
  let s := s.modKeep fun k => { k with
    chosen := n, seq := top, phase := 4, poisonPg := pages.foldl radd [], lost := lost, incomplete := inc
    restArmed := (rec_.map (·.armed)).getD false
    epochChange := (rec_.map fun r => r.epoch != k.epoch.num).getD false
    ckptLabel := (ck.map (·.label)).getD k.ckptLabel }
  let s := match rec_, s.pwr.full with
    | some r, true => (s.loadImage r).setReg64 KEEP_CKPTSEQ_LO ((ck.map (fun (r : SealRec) => r.seq)).getD 0)
    | _, _ => s
  let s := s.setFld KEEP_LOSTPG_PAGES lost
  if inc then s.post 0x0507 3 0xFF pages.length else s

def execRestoreImageChosen (read0 read1 : Bool) (s : State) : Host.Outcome State Fault Refusal :=
  .next (
    if s.dev ≠ .bringup ∨ s.keep.phase ≠ 3 ∨ s.pwr.interval ∨ s.pwr.paused then s
    else if s.keepBarred then
      s.modKeep fun k => { k with phase := 4, courses := k.courses.map fun (c : Course) => { c with cur := [] } }
    else s.chooseImage read0 read1)

/-- The fold of restore step 4 in one course (R262, R263): the current map is written into the copy not in force, and its FOLD is
sealed. -/
def Course.foldedInto (c : Course) (r : SealRec) : Course :=
  if c.fenced then c
  else
    let c : Course := { c with foldMap := c.cur }
    { ({ c with maps := setAt c.maps (1 - c.force) c.cur }).folded with
      journal := (c.logged r).journal, jbytes := 0, freed := c.freed ++ c.pend, pend := [], deltas := [] }

/-- One fold of restore step 4: the versions with POISON set that slots are free for enter the map and go with its record (R262).
While pages are left another follows, whose slots the first has freed. (DEDUCED, log entry 79) -/
def State.foldImage (s : State) : Nat → State
  | 0 => s
  | n + 1 =>
    let s := (rlist (rcount s.keep.poisonPg) s.keep.poisonPg).foldl State.poisonVersion s
    let f0 := (s.keep.course 0).fenced
    let f1 := (s.keep.course 1).fenced
    let r0 := s.makeRec 0 6 0 (s.keep.course 0).deltas (f1 && !f0)
    let r1 := s.makeRec 1 6 0 (s.keep.course 1).deltas (f0 && !f1)
    let s := ((s.mapsWritten.recsWritten r0 r1).recAsked 0 r0).recAsked 1 r1
    let s := (((s.modCourse 0 fun c => c.foldedInto r0).modCourse 1 fun c => c.foldedInto r1).modKeep fun k => { k with
      seq := k.seq + 1, copiesSince := 0 }).wearFolded
    let s := (s.setReg64 KEEP_SEALSEQ_LO r0.seq).setReg64 KEEP_SEALTIME_LO r0.time
    if s.keep.poisonPg.isEmpty then s else s.foldImage n

/-- RESTORE_MAP_LOADED (R263 step 4): poisoned pages are copied, the map is written into the copy not in force, and a FOLD
is sealed; restored units are counted from here. A pool of 1,572,864 free slots needs at most 8 folds for a course's pages.
(DEDUCED, log entry 79) -/
def execRestoreMapLoaded (s : State) : Host.Outcome State Fault Refusal :=
  .next (
    if s.dev ≠ .bringup ∨ s.keep.phase ≠ 4 ∨ s.pwr.interval ∨ s.pwr.paused then s
    else
      let s := if s.keepBarred then s else s.foldImage 16
      let arm := s.keep.arm == .disarmed && s.flag KEEP_CTL_REARM && s.keep.restArmed && s.keep.keyHeld &&
        s.keep.courses.all fun c => !c.fenced
      let s := s.modKeep fun k => { k with
        phase := 5, restMap := true, restored := [], arm := if arm then .arming else k.arm }
      let s : State := { s with pwr := { s.pwr with full := false } }
      let s := if s.keep.epochChange ∧ s.keepBarred = false ∧ s.keep.keyHeld then s.sealAsk 7 0 .epoch else s
      if s.fld KEEP_OPEN_MS_MS = 0 ∨ s.keep.hotLeft = false then s.openAccess else s)

/-- HOT_PASS_TIMEOUT (R263 step 5): KEEP_OPEN_MS has passed since step 4. -/
def execHotPassTimeout (s : State) : Host.Outcome State Fault Refusal :=
  .next (if s.dev = .bringup ∧ s.keep.phase = 5 ∧ s.pwr.interval = false ∧ s.pwr.paused = false then s.openAccess else s)

/-! ### Restore units (R263-R265) -/

/-- A page's version is written into DRAM (R262, R263): poison where its course is fenced or its slot cannot be read, zeros for a
ZERO entry without a keep read. A page found unreadable here is counted lost and gets a version with POISON set; no write of M5 sets a
dirty bit (R243). The page crosses mortar from the keep controller and to its channels (R167). (DEDUCED, log entry 81) -/
def State.restorePage (s : State) (page : Nat) (bad : Bool) : State :=
  let c := s.keep.course (homeOf page)
  let zero := s.keepBarred || (mapAt c.cur (indexOf page)).zero
  let bad := bad && !c.fenced && !zero
  let v := if c.fenced ∨ bad ∨ rmem s.keep.poisonPg page then none
    else if s.keepBarred then some ([], 0) else s.keep.version page
  let pois := s.dram.poison.filter fun g => g / 64 != page
  let read := !c.fenced && !zero
  let s := match v with
    | some (data, mask) =>
      { s with dram := {
          mem := mpaste s.dram.mem (4096 * page) 4096 data
          poison := ((List.range 64).filter fun i => bitAt mask i).foldl (fun l i => sins l (64 * page + i)) pois } }
    | none =>
      { s with dram := {
          mem := tdelRange s.dram.mem (4096 * page) 4096
          poison := (List.range 64).foldl (fun l i => sins l (64 * page + i)) pois } }
  let s := if read then s.ask 5 0 (.fetch page) (pageUnits page) else s.ask 5 1 (.restore page) (pageUnits page)
  if bad then
    ((s.modKeep fun k => { k with poisonPg := radd k.poisonPg page, lost := k.lost + 1 }).incFld KEEP_LOSTPG_PAGES 1).poisonPages
  else s

/-- A unit's restore writes are performed, and then every request held on it. (DEDUCED, log entry 81) -/
def State.restoreUnit (s : State) (u : Nat) (bad : List Nat) : State :=
  let s := (List.range 16).foldl (fun s i => s.restorePage (16 * u + i) (bad.contains i)) s
  let s := s.modKeep fun k => { k with restored := radd k.restored u, touch := k.touch.filter fun t => t.1 != u }
  let s := if s.dev = .restoring then s.ksRetry else s
  if rcount s.keep.restored = allUnits then
    let s := if s.dev = .restoring then s else s.openAccess
    (s.post 0x050A 0 0xFF s.keep.restTouch).enterReady
  else if s.keep.phase = 5 ∧ s.keep.hotLeft = false then s.openAccess
  else s

/-- RESTORE_UNIT_DONE (R263): in the hot pass the units that hold a hot page. -/
def execRestoreUnitDone (unit : Nat) (bad : List Nat) (s : State) : Host.Outcome State Fault Refusal :=
  .next (
    let may := (s.dev == .restoring && s.keep.phase == 6) || (s.dev == .bringup && s.keep.phase == 5 && s.keep.hotUnit unit)
    if may = false ∨ s.pwr.interval ∨ s.pwr.paused ∨ allUnits ≤ unit ∨ rmem s.keep.restored unit then s
    else s.restoreUnit unit bad)

/-- TOUCH_FETCH_DONE (R264): one of up to 64 fetches under way. -/
def execTouchFetchDone (unit : Nat) (bad : List Nat) (ns : Nat) (s : State) : Host.Outcome State Fault Refusal :=
  .next (
    if s.dev ≠ .restoring ∨ s.pwr.interval ∨ ((s.keep.touch.take 64).any fun t => t.1 == unit) = false then s
    else
      ((s.maxFld KEEP_TOUCHLAT_NS ns).modKeep fun k => { k with restTouch := k.restTouch + 1 }).restoreUnit unit bad)

end Sys2Proof.Machine
end

