-- ==== Sys2Proof/Machine/Sensors.lean ====
section
/-! DEFINITION. The temperature sensors, and the start of the thermal model (R330-R334). Temperatures are in 0.01 °C. -/

namespace Sys2Proof.Machine

def State.sensor (s : State) (n : Nat) : Sensor := s.thm.sensors.getD n {}

def State.modSensor (s : State) (n : Nat) (f : Sensor → Sensor) : State :=
  { s with thm := { s.thm with sensors := modAt s.thm.sensors n f } }

/-- The mean of the last four conversions (R330); of those made while there are fewer. -/
def Sensor.reading (x : Sensor) : Option Int :=
  let c := x.conv.take 4
  if c.isEmpty then none else some (c.sum / (c.length : Int))

/-- A sensor is masked (R332). -/
def State.masked (s : State) (n : Nat) : Bool := bitAt (s.reg (THM_SENSMASK (n / 32))) (n % 32)

/-- The sensors of a quadrant (R330). -/
def quadSensors (pos q : Nat) : List Nat :=
  if pos = 0 then (List.range 4).map (4 * q + ·) else if pos < 19 then [16 + 4 * (pos - 1) + q] else []

/-- None of a quadrant's unmasked sensors has completed a conversion (R334). -/
def State.quadSilent (s : State) (pos q : Nat) : Bool :=
  let live := (quadSensors pos q).filter fun n => !s.masked n
  !live.isEmpty && live.all (fun n => (s.sensor n).conv.isEmpty)

/-- The position and the quadrant of a sensor. -/
def sensorPos (n : Nat) : Nat := if n < 16 then 0 else (n - 16) / 4 + 1
def sensorQuad (n : Nat) : Nat := if n < 16 then n / 4 else (n - 16) % 4

/-- The higher of two values that may be missing. -/
def optMax (a b : Option Int) : Option Int :=
  match a, b with
  | some x, some y => some (max x y)
  | some x, none => some x
  | none, y => y

/-- The highest unmasked, non-failed sensor of a quadrant. -/
def State.quadSensor (s : State) (pos q : Nat) : Option Int :=
  (quadSensors pos q).foldl (fun b n =>
    let x := s.sensor n
    if s.masked n || x.failed then b else optMax b x.reading) none

/-- The model starts (R334): its nodes are set from the sensors of their quadrants, and the cap's from D15; 0x0407. -/
def State.modelStart (s : State) : State :=
  let nodes := (List.range 80).map fun i =>
    let pos := min 18 (i / 4)
    let own := s.quadSensor pos (i % 4)
    let any := (List.range 4).foldl (fun b q => optMax b (s.quadSensor pos q)) none
    (own.orElse fun _ => any).getD (s.thm.nodes.getD i 0)
  ({ s with thm := { s.thm with model := true, nodes := nodes } }).post 0x0407 0 0xFF 0

end Sys2Proof.Machine
end

