-- ==== Sys2Proof/Machine/Bringup.lean ====
section
/-! DEFINITION. Supplies, bring-up, RECOVERY, SAFE and THERMAL_HOLD as states, firmware starts and BLOCK resets (R275-R279,
R286, R289-R299, R33, R126, R386). -/

namespace Sys2Proof.Machine

/-! ### Firmware images (R33, R125, R126) -/

/-- A slot's signature verifies under a key (R33): as found when it was staged, or tried anew under another key.
(DESIGN CHOICE, log entry 44) -/
def FwSlot.verifies (f : FwSlot) (key : Nat) : Bool := f.key == some key || Config.ecdsaOk key f.digest f.sig

/-- The boot ROM's check of a slot (R33): its digest and its signature under the key of fuse region CFG. No image verifies while
that region is invalid (R383), and none is read from a fenced course. -/
def State.fwValid (s : State) (slot : Nat) (f : FwSlot) : Bool :=
  f.present && f.digestOk && !bitAt (s.fld FUS_STAT_INVALID) 9 && f.verifies s.fus.fwKey && !(s.keep.course (slot / 2)).fenced

/-- The valid image with the higher version, as its KS_FWVER; none when neither slot is valid in either course.
(DEDUCED, log entry 45) -/
def State.bestFw (s : State) : Option Nat :=
  let vs := (s.ks.fw.zipIdx.filter fun f => s.fwValid f.2 f.1).map fun f => fwverOf f.1.version f.2
  vs.foldl (fun b v => match b with
    | none => some v
    | some x => if x / 2 < v / 2 then some v else some x) none

/-- An image that gives a KS_FWVER is still valid in its slot. -/
def State.fwStill (s : State) (v : Nat) : Bool :=
  s.ks.fw.zipIdx.any fun f => s.fwValid f.2 f.1 && fwverOf f.1.version f.2 == v

def State.runFw (s : State) (v : Nat) : State := { s.setReg KS_FWVER v with ks := { s.ks with fwRun := v } }

/-! ### RECOVERY, SAFE, THERMAL_HOLD (R290-R292) -/

/-- Every channel is DOWN (R164). -/
def State.chansDown (s : State) : State :=
  { s with mc := { s.mc with chans := s.mc.chans.map fun (h : Chan) => { h.dropped with
    st := .down, hold := none, pcs := h.dropped.pcs.map fun (p : Pc) => { p with sref := true } } } }

/-- The ports where the X ring's lintel is open already when RECOVERY is entered (R69): P1 is DISABLED, and P0, which may not keep
its generation and width, trains anew. The cause of that 0x0202 is not stated. (DESIGN CHOICE, log entry 138) -/
def State.recoveryPorts (s : State) (wasOpen : Bool) : State :=
  if wasOpen ∧ s.lnk.closed.getD 0 true = false then
    let s := s.startOver 1 .disabled
    match (s.port 0).st with
    | .active => s.bump.leaveActive 0 (s.free % 16)
    | .disabled => s
    | _ => s.startOver 0 .detect
  else s

/-- RECOVERY is entered (R292, R296), with one write of the start record, in which `f` stands for what the cause changes beside it; the
next bring-up restores (R271). (DEDUCED, log entry 90) -/
def State.enterRecovery (s : State) (cause step : Nat) (f : StartRec → StartRec) : State :=
  let s := (s.setFld RST_BRINGUP_FAILSTEP step).setFld RST_BRINGUP_RECCAUSE cause
  let s : State := { s with pwr := { s.pwr with step := 0, mayResume := false, paused := false, stepDone := false, resume := false } }
  let s := s.chansDown.setDev .recovery
  let s : State := { s with thm := { s.thm with model := false } }
  let wasOpen := !s.lnk.closed.getD 0 true
  (((s.writeRecord fun r => { f r with cause := cause }).updateLintels).recoveryPorts wasOpen).post 0x0104 3 0xFF cause

/-- SAFE is entered (R289, R290). (DEDUCED, log entry 90) -/
def State.enterSafe (s : State) (test step : Nat) : State :=
  let s := s.setFld RST_BRINGUP_FAILSTEP 1
  let s : State := { s with pwr := { s.pwr with step := 0, paused := false, stepDone := false } }
  let s := (s.chansDown.setDev .safe).updateLintels
  let s : State := { s with thm := { s.thm with model := false } }
  s.post 0x0106 4 0xFF (test % 256 + 256 * step)

/-- THERMAL_HOLD is entered (R289, R291), where the Keystone runs the model from the sensors (R340). (DEDUCED, log entry 90) -/
def State.enterHold (s : State) : State :=
  let s : State := { s with
    pwr := { s.pwr with toHold := false, holdAt := s.clock, cool := false, boot := 0, step := 0, paused := false, stepDone := false }
    thm := { s.thm with holdDwell := 0 } }
  let s := if s.thm.model then s else s.modelStart
  { (s.chansDown.setDev .thermalHold).updateLintels with pins := { s.pins with thermTrip := true } }

/-! ### Steps of bring-up (R279, R293) -/

/-- Bring-up pauses (R279): time does not count until it resumes. -/
def State.pauseNow (s : State) : State :=
  let s : State := { s with pwr := { s.pwr with paused := true, waitAt := s.pwr.waitAt.orElse fun _ => some s.clock } }
  s.post 0x010F 1 0xFF s.pwr.step

/-- Step 7: every channel that is not fenced is trained; with none the keep step begins. -/
def State.begin7 (s : State) : State :=
  let s := s.stepAt 7
  let s := (List.range 32).foldl (fun s c =>
    if s.chanFenced c then s else s.modChan c fun (h : Chan) => { h with st := .training }) s
  if s.mc.chans.any fun h => h.st == .training then s else s.stepClose.keepStep

/-- Step 6: the lintels are opened (R65). -/
def State.begin6 (s : State) : State :=
  let s := s.stepAt 6
  let s : State := { s with lnk := { s.lnk with opened := [true, true] } }
  let s := s.updateLintels.stepClose
  if s.pwr.fell then s.pauseNow else s.begin7

/-- The start record, as chosen under R20, at the beginning of a start (R296); RECOVERY with cause 1 at FAILS 3, or the bring-up
goes on. -/
def State.countStart (s : State) (step : Nat) (go : State → State) : State :=
  let r := s.startChosen
  let s : State := { s with pwr := { s.pwr with record := r } }
  let fails := if r.inprog then min 15 (r.fails + 1) else r.fails
  let s := if r.inprog then s.post 0x0103 2 0xFF fails else s
  let starts := (r.starts + 1) % 2 ^ 32
  if 3 ≤ fails then s.enterRecovery 1 step fun r => { r with fails := fails, starts := starts, inprog := false }
  else go (s.writeRecord fun r => { r with fails := fails, starts := starts, inprog := true })

/-- A warm bring-up from its step 2 (R294): the start is counted, links start fresh, channels return to ACTIVE, and the keep step
follows; one that was DOWN trains first (R163). -/
def State.warmGoes (s : State) : State :=
  (s.stepAt 2).countStart 2 fun s =>
    let s := (s.stepAt 4).updateLintels
    let s := s.wakeChannels
    if s.mc.chans.any fun h => h.st == .training then s else (s.stepAt 5).keepStep

/-- The step after the one that has ended; of a warm bring-up step 4 is the one that may last, and step 1 where a fuse load that a
reset cut off is made again (R386). -/
def State.nextStep (s : State) : State :=
  if s.pwr.warm then (if s.pwr.step = 1 then s.warmGoes else (s.stepAt 5).keepStep)
  else match s.pwr.step with
  | 1 => { s.stepAt 2 with fus := { s.fus with loading := true } }
  | 5 => s.begin6
  | 6 => s.begin7
  | 7 => s.keepStep
  | n => s.stepAt (n + 1)

/-- The step under way ends; PWR_FAIL_N pauses bring-up here (R279). -/
def State.stepEnds (s : State) : State :=
  let s := s.stepClose
  if s.pwr.fell then s.pauseNow else s.nextStep

/-- Bring-up resumes after a pause. -/
def State.resumeBringup (s : State) : State :=
  let s : State := { s with pwr := { s.pwr with paused := false } }
  let s := if s.keep.phase = 2 ∧ s.keep.waitsShare then s
    else
      let gone := match s.pwr.waitAt with | some t => s.clock - t | none => 0
      { s with pwr := { s.pwr with waitAt := none, uncounted := s.pwr.uncounted + gone } }
  if s.pwr.stepDone ∧ s.pwr.step < 8 then s.nextStep else s

/-- A step of cold bring-up is under way. -/
def State.inStep (s : State) (n : Nat) : Bool :=
  s.dev == .bringup && s.pwr.step == n && !s.pwr.stepDone && !s.pwr.interval && !s.pwr.warm && !s.pwr.paused

/-! ### The start of a bring-up (R293, R294) -/

/-- The RESUME conditions of R261 at step 1. (DEDUCED, log entry 89) -/
def State.resumes (s : State) : Bool :=
  s.pwr.mayResume && !s.pwr.full && !bitAt (s.reg RST_RAILHIST) 3 && !bitAt (s.reg RST_RAILHIST) 4 &&
  (s.keep.phase == 0 || s.keep.restMap)

/-- Step 1 of either bring-up. -/
def State.bootBegin (s : State) (warm : Bool) : State :=
  let early := s.pwr.early
  let s := s.loadRestart.setDev .bringup
  let s : State := { s with
    pins := { s.pins with keepSealed := true, thermTrip := false }
    pwr := { s.pwr with
      step := 1, warm := warm, paused := false, stepDone := false, stepAt := s.clock, startAt := s.clock, uncounted := 0
      waitAt := none, resume := s.resumes, readyAt := none, boot := 0, early := 0, fell := false } }
  let s := s.setFld RST_BRINGUP_KIND (b2n warm)
  let s := if early = 0 then s else s.post 0x010E 1 0xFF early
  let s := if s.bst.scan then
      (({ s with bst := { s.bst with scan := false } }).setFld BST_SCAN_SESSION 1).post 0x0606 1 0xFF 0
    else s
  s.updateLintels

/-- A cold bring-up waits at step 1 for its self-test. (DEDUCED, log entry 88) -/
def State.bootCold (s : State) : State :=
  let s := (s.bootBegin false).clearReg BST_POWERUP
  { s.chansDown with thm := { s.thm with model := false } }

/-- A warm bring-up (R294). After a watchdog the Keystone has restarted (R126), and the thermal model with it. A fuse load that a
reset cut off starts again first (R386). (DEDUCED, log entry 88) -/
def State.bootWarm (s : State) : State :=
  let ks := s.pwr.restartKs
  let s := s.bootBegin true
  let s := if ks then
      (s.runFw (s.bestFw.getD 0)).modelStart
    else s
  if s.fus.loaded then s.warmGoes else { s with fus := { s.fus with loading := true } }

/-- A bring-up begins when every rail is good and PWR_FAIL_N is high (R279, R289); until then it waits. -/
def State.tryBoot (s : State) (kind : Nat) : State :=
  if s.pwr.good = 0x3F ∧ s.pins.pwrFailN ∧ s.pwr.interval = false then
    if kind = 3 then s.bootWarm else s.bootCold
  else { s with pwr := { s.pwr with boot := kind } }

def State.retryBoot (s : State) : State := if s.pwr.boot = 0 then s else s.tryBoot s.pwr.boot

/-- RESET_INTERVAL_END (R284, R289): every source is released and the reset has been taken. A watchdog's WARM in SEALED starts the
thermal model again (R340). (DEDUCED, log entry 88) -/
def execResetIntervalEnd (s : State) : Host.Outcome State Fault Refusal :=
  .next (
    let p := s.pwr
    if p.interval = false ∨ p.levels.isEmpty = false ∨ p.taken = false ∨ p.waiting then s
    else
      let s := s.recordReset p.reach p.source p.endpoint p.mask
      let s : State := { s with pwr := { s.pwr with interval := false, taken := false, pulses := [], mask := 0 } }
      match s.dev with
      | .off => s
      | .saving => s
      | .thermalHold => s
      | .aux => s.tryBoot 4
      | .sealed =>
        let s := if p.restartKs ∧ p.reach < 4 then s.modelStart else s
        if p.toHold then s.enterHold else if bitAt p.mask 0xA then s.tryBoot 4 else s.sealedExit
      | .recovery => if 4 ≤ p.reach then s.tryBoot 4 else s
      | .safe => if 4 ≤ p.reach then s.tryBoot 4 else s
      | _ =>
        if p.toHold then s.enterHold
        else if 4 ≤ p.reach then s.tryBoot 4
        else s.tryBoot 3)

/-! ### Supplies (R275-R279, R282, R289) -/

/-- The rails that must be good before a rail (R276), as bits. (DEDUCED, log entry 93) -/
def railPred : Rail → Nat
  | .vaux => 0 | .vdd => 0x01 | .vddl => 0x03 | .vddt => 0x03 | .vpp => 0x0F | .vkp => 0x1F

def railBit : Rail → Nat
  | .vaux => 0 | .vdd => 1 | .vddl => 2 | .vddt => 3 | .vpp => 4 | .vkp => 5

/-- A course as its cells keep it through a loss of power: programs in flight complete under R19. -/
def Course.afterLoss (c : Course) : Course :=
  { c with
    cur := [], foldMap := [], deltas := [], deltaS := [], deltaF := [], fresh := [], freed := [], pend := [], pendS := []
    fenced := false, hold := none, hotPosted := false, jbytes := 0 }

/-- FULL (R280): what only fuses, the keep courses and the start record keep. DRAM contents are lost (R7): they read as memory
that nothing has written. (DEDUCED, log entry 86) -/
def State.fullReset (s : State) : State :=
  let s := s.dropCopies fun _ => true
  let z := State.reset
  { z with
    pending := s.pending, clock := s.clock, fresh := s.fresh, out := s.out
    pins := { s.pins with keepSealed := true, thermTrip := false }
    ks := { z.ks with fw := s.ks.fw }
    keep := { z.keep with courses := s.keep.courses.map Course.afterLoss, epochs := s.wrapChosen }
    fus := { z.fus with words := s.fus.words }
    pwr := { z.pwr with good := s.pwr.good, early := s.pwr.early, record := s.startChosen, highFor10 := s.pwr.highFor10 } }

/-- VAUX_LOSS (R282, R289): every state goes to OFF. -/
def execVauxLoss (s : State) : Host.Outcome State Fault Refusal :=
  .next (
    if s.dev = .off then s
    else
      let s := s.abortFuse.fullReset
      { s with dev := .off, prev := .off, pwr := { s.pwr with good := s.pwr.good / 2 * 2, interval := false } })

/-- VAUX_RISE (R289): OFF goes to AUX, and FULL is held. RESET_N low holds its reset from then on (R282). -/
def execVauxRise (s : State) : Host.Outcome State Fault Refusal :=
  .next (
    if s.dev ≠ .off then s
    else
      let s := s.fullReset
      let good := s.pwr.good / 2 * 2 + 1
      { s with
        dev := .aux, prev := .off
        pwr := { s.pwr with
          good := good, early := s.pwr.early ||| (good / 2 * 2), interval := true, reach := 5, source := 1
          mask := if s.pins.resetN then 2 else 6, levels := if s.pins.resetN then [1] else [1, 2], taken := true } })

/-- POR_RELEASE (R282, R30, R250): the straps are latched and HOLD_SENSE sampling starts. -/
def execPorRelease (compat : Bool) (sbaddr : BitVec 3) (s : State) : Host.Outcome State Fault Refusal :=
  .next (
    if s.dev ≠ .aux ∨ s.pwr.levels.contains 1 = false then s
    else
      let st := b2n compat + 2 * sbaddr.toNat
      let s : State := { s.setReg KS_STRAP st with
        pins := { s.pins with compat := compat, sbaddr := sbaddr.toNat }
        ks := { s.ks with straps := st, compat := compat } }
      (s.modKeep fun k => { k with samples := [] }).releaseLevel 1)

/-- RAIL_GOOD (R275, R277, R278): a rail that becomes good before a predecessor is noted. (DEDUCED, log entry 93) -/
def execRailGood (r : Rail) (s : State) : Host.Outcome State Fault Refusal :=
  .next (
    let b := railBit r
    if b = 0 ∨ bitAt s.pwr.good b then s
    else
      let early := s.pwr.good &&& railPred r != railPred r
      let good := s.pwr.good ||| 2 ^ b
      let s : State := { s with pwr := { s.pwr with good := good, early := if early then s.pwr.early ||| 2 ^ b else s.pwr.early } }
      if good = 0x3F then (s.releaseLevel 0xC).sealedExit.retryBoot else s)

/-- RAIL_UNDERVOLTAGE (R275, R278): without VAUX the rail is good no longer, and nothing else happens. (DEDUCED, log entry 94) -/
def execRailUndervoltage (r : Rail) (s : State) : Host.Outcome State Fault Refusal :=
  .next (
    let b := railBit r
    if b = 0 then s
    else if s.dev = .off then { s with pwr := { s.pwr with good := s.pwr.good &&& (0x3F - 2 ^ b) } }
    else
      let s : State := { s with pwr := { s.pwr with good := s.pwr.good &&& (0x3F - 2 ^ b) } }
      let s := (s.setReg RST_RAILHIST (s.reg RST_RAILHIST ||| 2 ^ b)).incFld RST_UVCNT_COUNT 1
      let s := s.post 0x010B 3 0xFF (2 ^ b)
      if s.maySave then s.startSave
      else
        let s : State := if b = 3 ∨ b = 4 then { s with pwr := { s.pwr with resume := false } } else s
        if s.dev = .sealed then s.actReset 0xC 4 0 true else s.assertReset 0xC 4 0 true)

/-- PWR_FAIL_N_FALL (R256, R279, R404): the filtered level falls. (DESIGN CHOICE, log entry 74; DEDUCED, log entry 94) -/
def execPwrFailNFall (s : State) : Host.Outcome State Fault Refusal :=
  .next (
    if s.pins.pwrFailN = false then s
    else
      let s : State := { s with pins := { s.pins with pwrFailN := false }, pwr := { s.pwr with highFor10 := false } }
      if s.maySave then s.startSave
      else if s.dev = .bringup then
        let s : State := { s with pwr := { s.pwr with fell := true } }
        if s.pwr.step = (if s.pwr.warm then 5 else 8) ∧ s.pwr.paused = false then s.pauseNow else s
      else s)

/-- PWR_FAIL_N_RISE (R279, R404). (DEDUCED, log entry 94) -/
def execPwrFailNRise (s : State) : Host.Outcome State Fault Refusal :=
  .next ({ s with pins := { s.pins with pwrFailN := true } }.retryBoot)

/-- THERMAL_HOLD is left (R291): 0x010C, and a cold bring-up. -/
def State.holdExit (s : State) : State :=
  if s.dev = .thermalHold ∧ s.pwr.cool ∧ s.pwr.highFor10 ∧ s.pwr.interval = false ∧ s.pwr.boot = 0 then
    (s.post 0x010C 1 0xFF (min 65535 ((s.clock - s.pwr.holdAt) / 1000000))).tryBoot 4
  else s

/-- POWER_RETURN_10MS (R260, R279, R287, R291, R404). -/
def execPowerReturn10ms (s : State) : Host.Outcome State Fault Refusal :=
  .next (
    if s.pins.pwrFailN = false then s
    else
      let s : State := { s with pwr := { s.pwr with highFor10 := true, fell := false } }
      let s := if s.dev = .bringup ∧ s.pwr.paused then s.resumeBringup else s
      s.sealedExit.holdExit)

/-! ### The events of bring-up (R289-R298) -/

/-- A sensor that is not masked reads 110 °C or above (R291, R332). -/
def State.sensorHot (s : State) : Bool := (List.range 88).any fun n => !s.masked n && (match (s.sensor n).conv with
  | v :: _ => decide (11000 ≤ v)
  | [] => false)

/-- A warm bring-up waits for a fuse load that a reset cut off (R386). -/
def State.warmLoads (s : State) : Bool :=
  s.dev == .bringup && s.pwr.warm && s.pwr.step == 1 && !s.pwr.stepDone && !s.pwr.interval && !s.pwr.paused

/-- POWERUP_SELFTEST_DONE (R372, R289, R291). An INCOMPLETE test is run once more. -/
def execPowerupSelftestDone (result : Fin 4) (test : Byte) (step : BitVec 24) (ms : BitVec 16) (s : State) :
    Host.Outcome State Fault Refusal :=
  .next (
    if s.inStep 1 = false then s
    else
      let runs : Nat := s.fld BST_POWERUP_RUNS + 1
      let res := if result.val = 2 ∧ 2 ≤ runs then 3 else result.val
      let s := ((((s.setFld BST_POWERUP_VALID 1).setFld BST_POWERUP_RESULT res).setFld BST_POWERUP_RUNS runs).setFld
        BST_POWERUP_TEST (if res = 0 then 0 else test.toNat)).setFld BST_POWERUP_MS ms.toNat
      if res = 2 then s
      else if res ≠ 0 then s.enterSafe test.toNat step.toNat
      else if s.sensorHot then s.enterHold
      else s.stepEnds)

/-- FUSE_LOAD_COMMIT (R386, R292): an invalid TRIM region enters RECOVERY. (DEDUCED, log entry 97) -/
def execFuseLoadCommit (s : State) : Host.Outcome State Fault Refusal :=
  .next (
    if (s.inStep 2 = false ∧ s.warmLoads = false) ∨ s.fus.loading = false then s
    else
      let s := s.fuseCommit
      let s := (List.range 2).foldl (fun s k => if 2 ≤ s.keepCoded k then s.fenceCourse k else s) s
      if bitAt (s.fld FUS_STAT_INVALID) 1 then s.enterRecovery 2 2 id else s.stepEnds)

/-- KEEP_BUS_TRAINED (R293 step 3, R296, R345): a TSV without a working setting takes its remedy. (DEDUCED, log entry 119) -/
def execKeepBusTrained (eyes0 eyes1 : List Eye) (s : State) : Host.Outcome State Fault Refusal :=
  .next (if s.inStep 3 = false then s else ((s.trainKeep 0 eyes0).trainKeep 1 eyes1).countStart 3 State.stepEnds)

/-- FIRMWARE_START (R33, R296, R394): RECOVERY with cause 3 where no image is valid; otherwise Loesh firmware runs, sets the
sticky locks and starts the thermal model. -/
def execFirmwareStart (s : State) : Host.Outcome State Fault Refusal :=
  .next (
    if s.inStep 4 = false then s
    else match s.bestFw with
      | none =>
        (s.runFw 0).enterRecovery 3 4 fun r => { r with fails := min 15 (r.fails + 1), inprog := false }
      | some v =>
        let s := (s.runFw v).stickyLocks
        s.modelStart.fuseRecord.stepEnds)

/-- POWERUP_CAL_DONE (R344-R346): step 5 of bring-up, which waits at its start for REFCLK; in RECOVERY only what R346 names. -/
def execPowerupCalDone (m : CalResult) (s : State) : Host.Outcome State Fault Refusal :=
  .next (
    if s.dev = .recovery then ((s.calRefs m).calClock m).calValues m [0] false
    else if s.inStep 5 = false then s
    else
      let s := (s.calRefs m).calClock m
      if s.clkBad m then s
      else
        let s := (s.calValues m [0, 1, 2, 3] true).incFld CAL_STAT_SEEDS m.seeds
        let s := (s.trainKeep 0 (m.keep.getD 0 [])).trainKeep 1 (m.keep.getD 1 [])
        let s := (s.calRise.setFld CAL_STAT_DONE 1).post 0x06C0 0 0xFF m.ms
        ({ s with cal := { s.cal with started := true } }).stepEnds)

/-- A step of bring-up ends once no channel trains any more: step 7 of a cold one, step 4 of a warm one (R293, R294). -/
def State.stepTrains (s : State) : Bool :=
  s.inStep 7 || (s.dev == .bringup && s.pwr.warm && s.pwr.step == 4 && !s.pwr.stepDone && !s.pwr.interval && !s.pwr.paused)

/-- Channels that train belong to a step of bring-up, to a save, or to a BLOCK reset of a channel that was DOWN (R163, R164, R256). -/
def State.mayTrain (s : State) : Bool := s.stepTrains || s.dev == .saving || (s.inService && !s.pwr.interval)

/-- CHANNEL_TRAINING_DONE (R163, R345): the channel becomes ACTIVE, or is fenced. -/
def execChannelTrainingDone (c : Fin 32) (eyes stby : List Eye) (s : State) : Host.Outcome State Fault Refusal :=
  .next (
    if s.mayTrain = false ∨ (s.chan c).st ≠ .training then s
    else
      let s := s.trainChan c eyes stby
      let s := if s.chanFenced c then s.modChan c fun (h : Chan) => { h with st := .down } else s.trained c
      if s.stepTrains = false ∨ s.mc.chans.any (fun h => h.st == .training) then s
      else s.stepEnds)

/-- START_TIMEOUT (R297). (DEDUCED, log entry 95) -/
def execStartTimeout (s : State) : Host.Outcome State Fault Refusal :=
  .next (
    if (s.dev = .bringup ∨ s.dev = .restoring) ∧ s.pwr.waitAt.isNone ∧ s.pwr.interval = false then
      (s.post 0x010D 2 0xFF 0).assertReset 9 4 0 false
    else s)

/-- READY_60S (R296). -/
def execReady60s (s : State) : Host.Outcome State Fault Refusal :=
  .next (
    if s.dev = .ready ∧ s.pwr.readyAt.isSome then
      ({ s with pwr := { s.pwr with readyAt := none } }).writeRecord fun r => { r with fails := 0 }
    else s)

/-- RST_RECOVER_EXIT (R298). (DEDUCED, log entry 91) -/
def State.recoverExit (s : State) (a : Access) (v : Nat) : State :=
  let may := match a.path with
    | .sideband => true
    | .port _ => a.hop.isNone && s.rstAuth a.requester.toNat 2
    | .keystone => false
  if may = false ∨ v / 65536 ≠ 0xA5C3 ∨ v % 2 = 0 then s
  else if s.dev = .recovery then
    ((s.writeRecord fun r => { r with fails := 0, inprog := false }).post 0x0105 1 0xFF 0).assertReset 0xB 4 0 false
  else if s.dev = .ready then s.writeRecord fun r => { r with fails := 0 }
  else s

def execRstRecoverExit (a : Access) (v : Word) (s : State) : Host.Outcome State Fault Refusal :=
  .next (s.cfgWrite a RST_RECOVER_EXIT fun s => s.recoverExit a v.toNat)

/-! ### BLOCK resets (R286) -/

/-- A BLOCK reset is asked for: by host software, or by Loesh firmware over the Keystone's own path. (DEDUCED, log entry 91) -/
def State.blockAsk (s : State) (target : Nat) (byFw : Bool) : State :=
  if 0x25 < target ∨ (byFw ∧ target = 0x25) ∨ s.dev = .saving ∨ s.dev = .sealed ∨ s.pwr.blk.isSome ∨ s.pwr.interval then
    s.setFld RST_BLKREQ_RESULT 3
  else
    let s : State := { s with pwr := { s.pwr with blk := some { target := target, byFw := byFw } } }
    if target < 32 then s.idleAsked target else s

/-- RST_BLKREQ (R286). -/
def State.blkreq (s : State) (a : Access) (v : Nat) : State :=
  let may := match a.path with
    | .sideband => true
    | .port _ => a.hop.isNone && s.rstAuth a.requester.toNat 0
    | .keystone => true
  if may = false then s
  else
    let s := s.setFld RST_BLKREQ_TARGET v
    if bitAt v 31 then s.blockAsk (v % 256) (match a.path with | .keystone => true | _ => false) else s

def execRstBlkreq (a : Access) (v : Word) (s : State) : Host.Outcome State Fault Refusal :=
  .next (s.cfgWrite a RST_BLKREQ fun s => s.blkreq a v.toNat)

/-- BLOCK of a channel (R164, R188): what has not been reported complete is answered ABORTED_RESET, and it returns to ACTIVE through
SELFREF; one whose command clock has stopped trains first (R163). The second part counts the requests. (DEDUCED, log entry 92) -/
def State.blockChannel (s : State) (c : Nat) : State × Nat :=
  let s := s.abandonVisits (CalUnit.onChan c)
  let s := match s.bst.cur with
    | some x => if tKind x.target = 1 ∧ tChan x.target = c then s.cutSlice 2 else s
    | none => s
  let s := if (s.chan c).st = .draining then s.idleFails c else s
  let r := s.withdraw c (fun _ => true) 2
  let s := r.1.modChan c fun (h : Chan) => { h.only MUnit.owed with hold := none }
  (match (s.chan c).st with
    | .selfref => s.exitSref c
    | .down => if s.chanFenced c ∨ s.inService = false then s else s.modChan c fun (h : Chan) => { h with st := .training }
    | _ => s, r.2)

/-- A KEEP_STATUS whose record has not all landed (R271). -/
def KsWait.keep (w : KsWait) : Bool := fieldB w.op.desc 0 1 == 0x23

/-- BLOCK of the keep controller (R271). In RECOVERY the journals are write protected (R20). (DEDUCED, log entry 92) -/
def State.blockKeep (s : State) : State × Nat :=
  let ops := (s.wq.waits.filter KsWait.keep).map fun w => w.op
  let n := s.keep.armOps.length + b2n s.keep.ckpt.isSome + b2n s.keep.charac.isSome + ops.length
  let s : State := (s.moverOpsEnd 5).armEnds 5
  let s : State := { s with wq := { s.wq with waits := s.wq.waits.filter fun w => !w.keep } }
  let s := ops.foldl (fun s o => s.ksEnds o 5 0) s
  let s := s.abandonVisits fun u => match u with | .keep _ => true | _ => false
  let s := s.abandonCopies
  let s := s.dropCopies fun _ => true
  let s := s.abandonSeal
  (if s.keep.epochChange then s.sealAsk 7 0 .epoch else s, n)

/-- The slices that the Keystone's BIST_REQUESTs asked for go on without them: their operations end elsewhere. -/
def State.bistOpsLeave (s : State) : State :=
  { s with bst := { s.bst with
    queue := s.bst.queue.filter fun x => x.2.2.isNone
    cur := s.bst.cur.map fun (c : Slice) => { c with op := none } } }

/-- Every operation that the Keystone has accepted ends ABORTED_RESET, and it restarts (R286). (DEDUCED, log entry 92) -/
def State.blockKeystone (s : State) : State × Nat :=
  let n0 := b2n s.wq.ksCur.isSome + s.wq.ksq.length + s.wq.waits.length
  let s := (s.moverOpsEnd 5).bistOpsLeave.emptyLatch 5
  let s := s.ksAborted
  ({ s with pwr := { s.pwr with ksDown := true }, thm := { s.thm with model := false } }, n0)

/-- The slicer's BIST_REQUESTs end ABORTED_RESET (R373). -/
def State.blockSlicer (s : State) : State × Nat :=
  let ops := s.bst.queue.filterMap fun x => x.2.2
  let s : State := { s with bst := { s.bst with queue := s.bst.queue.filter fun x => x.2.2.isNone } }
  let cur := match s.bst.cur with | some c => c.op | none => none
  let s : State := { s with bst := { s.bst with cur := s.bst.cur.map fun (c : Slice) => { c with op := none } } }
  let s := s.stopSlicer 2
  let ops := ops ++ cur.toList
  (ops.foldl (fun s o => s.ksEnds o 5 0) s, ops.length)

/-- What step 3 of R286 resets, and how many operations it completes ABORTED_RESET. -/
def State.blockReset (s : State) (target : Nat) : State × Nat :=
  if target < 32 then s.blockChannel target
  else if target = 0x20 then (s.resetQueues, 0)
  else if target = 0x21 then
    let n := (s.chs.jobs.filter fun j => j.st != .free).length
    (s.abortJobs, n)
  else if target = 0x22 then s.blockKeep
  else if target = 0x23 then ((s.setReg INT_SCRUB_STAT 0), 0)
  else if target = 0x24 then s.blockSlicer
  else s.blockKeystone

/-- The register pairs that lie in the unit a BLOCK reset resets (R38): a channel's own 32 KiB of MC, or the unit's block. -/
def unitHolds (target lo : Nat) : Bool :=
  if target < 32 then MC_CTL target ≤ lo && lo < MC_CTL target + 0x8000
  else match target with
    | 0x20 => lo / 0x100000 == 5
    | 0x21 => lo / 0x100000 == 8
    | 0x22 => lo / 0x100000 == 9
    | 0x23 => lo / 0x100000 == 10
    | 0x24 => lo / 0x100000 == 13
    | _ => lo / 0x100000 == 0

/-- BLOCK_UNIT_IDLE (R286, R299): the unit reports idle, which a channel does not while it drains, or RST_IDLE_TMO has passed. Repairs
that waited for the slicer are made on its return (R323). -/
def execBlockUnitIdle (timeout : Bool) (s : State) : Host.Outcome State Fault Refusal :=
  .next (
    match s.pwr.blk with
    | none => s
    | some b =>
      if timeout = false ∧ b.target < 32 ∧ (s.chan b.target).st = .draining then s else
      let s : State := { s with pwr := { s.pwr with blk := none } }
      let r := s.blockReset b.target
      let r := (if b.target = 0x24 then r.1.slicerBack else r.1, r.2)
      let s := r.1.emptyLatchesOf (unitHolds b.target)
      let s := s.setFld RST_BLKREQ_RESULT (if timeout then 2 else 1)
      let s := ((s.setFld RST_BLKSTAT_ABORTED (min 65535 r.2)).setFld RST_BLKSTAT_BYFW (b2n b.byFw)).setFld
        RST_BLKSTAT_TARGET b.target
      let src := if b.byFw then 0xD else 0xE
      let s := s.recordReset 1 src 0 (2 ^ src)
      if timeout then s.post 0x010A 1 0xFF (b.target + 65536 * min 65535 r.2) else s)

/-- KEYSTONE_RESTART_DONE (R126, R286): the Keystone runs the image it was started into, or where it did not start the
previous one, or its own minimal firmware. FW_ACTIVATE then completes DONE. -/
def execKeystoneRestartDone (started : Bool) (s : State) : Host.Outcome State Fault Refusal :=
  .next (
    if s.pwr.ksDown = false then s
    else
      let old := s.ks.fwRun
      let new := match s.pwr.ksOp with
        | some _ => if started then s.bestFw.getD old else if s.fwStill old then old else 0
        | none => if s.fwStill old then old else 0
      let op := s.pwr.ksOp
      let s : State := { s with pwr := { s.pwr with ksDown := false, ksOp := none } }
      let s := s.runFw new
      let s := if s.dev = .recovery ∨ s.dev = .safe ∨ s.dev = .aux then s
        else s.modelStart
      match op with
      | some o => s.ksEnds o 0 new
      | none => s)

end Sys2Proof.Machine
end

