-- ==== Sys2Proof/Machine/Tick.lean ====
section
/-! DEFINITION. What a nanosecond without a command does: time passes (R43, R190, R311), and the ports send IDLE (R75, R78). -/

namespace Sys2Proof.Machine

/-- MTR_STAT_m.HELD: a request waits at a master port (R190). -/
def State.portHeld (s : State) (m : Nat) : Bool :=
  let x := s.master m
  !x.req.isEmpty || !x.mgt.isEmpty || !x.asks.isEmpty || (m == 4 && s.m4Stuck)

/-- A nanosecond of waiting at the master ports: MTR_HELD_m counts whole microseconds (R190). (DESIGN CHOICE, log entry 2) -/
def State.heldTick (s : State) : State :=
  (List.range 8).foldl (fun s m =>
    let x := s.master m
    if s.portHeld m then
      let s := { s with mtr := { s.mtr with masters := modAt s.mtr.masters m fun x => { x with heldNs := (x.heldNs + 1) % 1000 } } }
      if x.heldNs % 1000 = 999 then s.incFld (MTR_HELD_US m) 1 else s
    else s) s

/-- One nanosecond passes: KS_TIME counts it in every state but OFF (R43), and the running time of the scrub pass while the
repointer runs (R311), and the time that requests wait at the master ports (R190). (DESIGN CHOICE, log entry 2) -/
def State.tick (s : State) : State :=
  let s := s.heldTick
  { s with
    clock := s.clock + 1
    ks := { s.ks with time := if s.dev = .off then s.ks.time else (s.ks.time + 1) % 2 ^ 64 }
    intg := { s.intg with scrubRun := s.intg.scrubRun + b2n s.scrubbing } }

/-- An ACTIVE port with no DATA flit to send sends IDLE (R75), before the partner's INIT has come as after it (R78): what may
go as DATA has gone with the command that queued it. One flit a nanosecond stands for the flits of that time.
(DESIGN CHOICE, log entry 24) -/
def State.idleFlit (s : State) (p : Nat) : State := if (s.port p).st = .active then s.txIdle p else s

/-- What a nanosecond without a command does: time passes, and each ACTIVE port sends IDLE (R43, R75).
(DESIGN CHOICE, log entry 2) -/
def State.idle (s : State) : State := (List.range 4).foldl State.idleFlit s.tick

end Sys2Proof.Machine
end

