-- ==== Sys2Proof/Machine/Views.lean ====
section
/-! DEFINITION. What registers read: the stored fields, and the fields that report state held elsewhere (R36, R37). -/

namespace Sys2Proof.Machine

/-- A value with one field replaced. -/
def putF (v : Nat) (f : Fld) (x : Nat) : Nat := setBits v f.hi f.lo x

/-- A number held to the width of a register field. -/
def satF (w x : Nat) : Nat := min (2 ^ w - 1) x

/-! ### KS and EVT (R42-R47) -/

/-- KS_SEM_n. -/
def Sem.word (x : Sem) : Nat :=
  2 ^ 31 * b2n x.held + 2 ^ 30 * b2n x.broken + 2 ^ 28 * x.src + 2 ^ 14 * x.owner + 2 ^ 12 * x.port

/-- KS_SEM_EPOCH_n: what is left of a lease in ms, rounded up; without a lease 0xFFFF. A free semaphore reads 0. -/
def Sem.epochWord (x : Sem) (clock : Nat) : Nat :=
  if x.held then
    x.epoch + 65536 * (match x.expiry with | some t => satF 16 (ceilDiv (t - clock) 1000000) | none => 0xFFFF)
  else 0

def State.sem (s : State) (n : Nat) : Sem := s.ks.sems.getD n {}

def State.viewKs (s : State) (a v : Nat) : Nat :=
  let n := (a - 0x1000) / 16
  if a = KS_STATE then 16 * s.prev.val + s.dev.val
  else if a = KS_TIME_LO then s.ks.time % 2 ^ 32
  else if a = KS_TIME_HI then s.ks.time / 2 ^ 32
  else if 32 ≤ n then v
  else if a = KS_SEM n then (s.sem n).word
  else if a = KS_SEM_EPOCH n then (s.sem n).epochWord s.clock
  else v

/-- The entry that EVT_RD_SEQ names, if it is still in the ring (R46). -/
def State.rdEntry (s : State) : Option Ev :=
  match tget s.ks.log (s.reg EVT_RD_SEQ % 4096) with
  | some e => if e.seq = s.reg EVT_RD_SEQ then some e else none
  | none => none

def State.viewEvt (s : State) (a v : Nat) : Nat :=
  let n := (a - EVT_ENT 0) / 4
  if a = EVT_WR_SEQ then s.ks.wrSeq
  else if a = EVT_RD_STAT then b2n s.rdEntry.isSome
  else if a = EVT_ALERT_SEQ then s.ks.alertSeq
  else if n < 4 ∧ a = EVT_ENT n then (match s.rdEntry with | some e => fieldB e.bytes (4 * n) 4 | none => 0)
  else v

/-! ### RST (R300) -/

/-- The ms of a start that count toward the limit of R297. -/
def State.elapsedMs (s : State) : Nat :=
  if s.dev = .bringup ∨ s.dev = .restoring then
    satF 16 (((s.pwr.waitAt.getD s.clock) - s.pwr.startAt - s.pwr.uncounted) / 1000000)
  else 0

/-- The rails that are good with every predecessor good (R277). -/
def State.railsGood (s : State) : Nat :=
  (([Rail.vaux, .vdd, .vddl, .vddt, .vpp, .vkp].filter fun r =>
    bitAt s.pwr.good (railBit r) && (s.pwr.good &&& railPred r == railPred r)).map fun r => 2 ^ railBit r).sum

/-- The watchdog runs while the Keystone runs firmware (R288). (DEDUCED, log entry 95) -/
def State.wdogRuns (s : State) : Bool :=
  !(s.dev == .off || s.dev == .aux || s.dev == .safe) && !s.pwr.ksDown && (s.ks.fwRun != 0 || s.dev == .recovery)

def State.viewRst (s : State) (a v : Nat) : Nat :=
  if a = RST_BLKREQ then putF v RST_BLKREQ_BUSY (b2n s.pwr.blk.isSome)
  else if a = RST_DEFER then
    let ds := s.pwr.deferred
    2 ^ 31 * b2n (!ds.isEmpty) + 2 ^ 28 * (ds.map (·.reach)).foldl max 0 + ds.foldl (fun m d => m ||| 2 ^ d.source) 0
  else if a = RST_WDOG then putF v RST_WDOG_ARMED (b2n s.wdogRuns)
  else if a = RST_BRINGUP then
    putF (putF v RST_BRINGUP_STEP (if s.dev = .bringup then s.pwr.step else 0)) RST_BRINGUP_ELAPSED s.elapsedMs
  else if a = RST_RAIL then s.railsGood
  else if a = RST_PINS then
    16 * b2n s.pins.thermTrip + 8 * b2n s.pins.keepSealed + 4 * b2n s.pins.lintelForceN + 2 * b2n s.pins.resetN +
      b2n s.pins.pwrFailN
  else v

/-! ### FUS (R396) -/

def State.viewFus (s : State) (a v : Nat) : Nat :=
  let n := (a - FUS_REGSTAT 0) / 4
  if a = FUS_STAT then
    putF (putF (putF v FUS_STAT_VPPOK (b2n s.vppOk)) FUS_STAT_LOADING (b2n s.fus.loading)) FUS_STAT_LOADED (b2n s.fus.loaded)
  else if n < 11 ∧ a = FUS_REGSTAT n then putF v (FUS_REGSTAT_LOCKS n) (b2n (bitAt (s.fld FUS_LOCK_LOCK) n))
  else v

/-! ### LNK and LTC (R71, R108) -/

/-- The value of a port state (R53). -/
def PSt.val : PSt → Nat
  | .disabled => 0 | .bypassed => 1 | .detect => 2 | .negotiate => 3 | .train => 4 | .align => 5 | .active => 6

def State.viewLnk (s : State) (a v : Nat) : Nat :=
  let off := a - 0x300000
  let p := off / 65536
  if 0x40000 ≤ off then
    let n := (off - 0x40000) / 4
    if n < 2 ∧ off % 4 = 0 then
      putF v (LNK_LINTEL_CLOSE n) (s.fld (LNK_LINTEL_CLOSE n)) % 256 + 256 * (s.lintelCauses n + b2n (s.lnk.closed.getD n true))
    else v
  else if a = LNK_STAT p then putF v (LNK_STAT_STATE p) (s.port p).st.val
  else v

/-- LTC_CREDIT_p_n (R108): RXFREE reads its reset value 0 while the port passes everything on and fills no receive buffer.
(DEDUCED, log entry 140) -/
def State.viewLtc (s : State) (a v : Nat) : Nat :=
  let p := (a - 0x400100) / 64
  let n := (a - LTC_CREDIT p 0) / 4
  if 0x400100 ≤ a ∧ p < 4 ∧ n < 6 ∧ a = LTC_CREDIT p n then
    let t := s.port p
    65536 * (if t.st = .bypassed then 0 else t.rxFree n) + satF 16 (t.txCred.getD n 0)
  else v

/-! ### WQ (R139) -/

def QSt.val : QSt → Nat
  | .disabled => 0 | .active => 1 | .draining => 2 | .error => 3

/-- Operations that wait for the Keystone or that it holds (R127). -/
def State.ksHeld (s : State) : Nat := s.wq.ksq.length + b2n s.wq.ksCur.isSome

def State.viewWq (s : State) (a v : Nat) : Nat :=
  let q := (a - WQ_CFG 0) / 32
  if a = WQ_GSTAT then
    let act := (s.wq.queues.filter fun t => t.st != .disabled).length
    let ch := (s.chs.jobs.filter fun j => j.st != .free).length
    65536 * act + 256 * ch + min 9 s.ksHeld
  else if a < WQ_CFG 0 ∨ 64 ≤ q then v
  else
    let t := s.queue q
    if a = WQ_STAT q then 2 ^ 29 * t.st.val + 2 ^ 25 * t.err + 2 ^ 20 * t.inflight + t.head
    else if a = WQ_PROG q then putF (putF v (WQ_PROG_PHASE q) (b2n t.phase)) (WQ_PROG_CQTAIL q) t.cqTail
    else v

/-! ### MC (R166) -/

def ChSt.val : ChSt → Nat
  | .down => 0 | .training => 1 | .active => 2 | .draining => 3 | .selfref => 4

/-- The highest debt of a pseudo-channel's banks. -/
def Pc.topDebt (p : Pc) : Int :=
  match p.banks with
  | [] => 0
  | b :: bs => bs.foldl (fun d (x : Bank) => max d x.debt) b.debt

def State.viewMc (s : State) (a v : Nat) : Nat :=
  let c := (a - 0x600000) / 32768
  let h := s.chan c
  if a = MC_STAT c then
    4096 * (b2n (s.degraded c 0) + 2 * b2n (s.degraded c 1)) + 256 * s.thrStep c + 16 * s.chanBand c + h.st.val
  else if a = MC_REFSTAT c then 256 * satTwos 6 (h.pc 1).topDebt + satTwos 6 (h.pc 0).topDebt
  else if a = MC_PCSTAT c 0 ∨ a = MC_PCSTAT c 1 then
    let p := h.pc (if a = MC_PCSTAT c 0 then 0 else 1)
    2 ^ 29 * b2n p.sref + 2 ^ 28 * b2n (p.writeMode && !s.flag (MC_CTL_BATCHOFF c)) + 65536 * satF 9 p.writes + satF 9 p.reads
  else if a = MC_INGRESS c then putF v (MC_INGRESS_FILL c) h.ingress.length
  else if a = MC_DLYAPPLY c then 256 * b2n (h.pcs.any (·.dlyPend))
  else
    let n := (a - MC_BANKQ c 0) / 4
    if n < 16 ∧ a = MC_BANKQ c n then
      let w := fun (i : Nat) =>
        let b := s.bank c i n
        2048 * b2n b.row.isSome + 64 * b.q.length + satTwos 6 b.debt
      65536 * w 1 + w 0
    else v

/-! ### MTR (R190) -/

/-- Reads of the MTR block (R190). OUTST counts the granules outstanding in both of a port's queues, up to 4,096.
(DESIGN CHOICE, log entry 146) -/
def State.viewMtr (s : State) (a v : Nat) : Nat :=
  let m := (a - 0x700100) / 64
  if a = MTR_FLOOR then 2 ^ 31 * b2n s.mtr.scaled + 2 ^ 28 * s.stackBand + 65536 * s.fBand + s.fNow
  else if a = MTR_GSUM then 65536 * ((List.range 8).map s.gEff).sum + s.gSum
  else if a < 0x700100 ∨ 8 ≤ m then v
  else if a = MTR_ACTBW m then 65536 * s.gAct m + s.gEff m
  else if a = MTR_STAT m then
    let x := s.master m
    2 ^ 31 * b2n (s.portHeld m) + 2 ^ 28 * s.portCause m + 2 ^ 27 * b2n (0 < x.meter) + min 4096 (x.ost + x.mgtOst)
  else v

/-! ### CHS (R239) -/

def JSt.val : JSt → Nat
  | .free => 0 | .loading => 1 | .waiting => 2 | .running => 3 | .emitting => 4 | .completing => 5

/-- The summary that CHS_SUMRD names, if it is still in the log (R231). -/
def State.sumRead (s : State) : Option (List Byte) :=
  match tget s.chs.log (s.reg CHS_SUMRD % 256) with
  | some (q, b) => if q = s.reg CHS_SUMRD then some b else none
  | none => none

def State.viewChs (s : State) (a v : Nat) : Nat :=
  let js := s.chs.jobs
  let n := (a - CHS_SLOTSTAT 0) / 16
  let c := (a - CHS_CHW 0) / 4
  let k := (a - CHS_SUM 0) / 4
  if a = CHS_STAT then
    65536 * (js.filter fun j => j.st == .running || j.st == .emitting).length +
    256 * (js.filter fun j => j.st == .waiting).length +
    b2n (s.flag CHS_CTL_PAUSE && js.all fun j => j.flight.isEmpty)
  else if a = CHS_SRAM then putF v CHS_SRAM_FREE (0x3000 - s.sramUsed)
  else if a = CHS_SUMWR then s.chs.seq
  else if a = CHS_SUMSTAT then b2n s.sumRead.isSome
  else if CHS_SUM 0 ≤ a ∧ k < 16 then (match s.sumRead with | some b => fieldB b (4 * k) 4 | none => 0)
  else if CHS_SLOTSTAT 0 ≤ a ∧ n < 16 then
    let j := s.job n
    if j.st = .free then 0
    else if a = CHS_SLOTSTAT n then
      2 ^ 29 * j.st.val + 2 ^ 28 * (j.pos / 2 ^ 32 % 2) + 2 ^ 22 * j.op.q + 2 ^ 20 * j.kind + j.op.cid
    else if a = CHS_SLOTPOS n then j.pos % 2 ^ 32
    else if a = CHS_SLOTSEL n then satF 32 j.sel
    else satF 14 j.need
  else if CHS_CHW 0 ≤ a ∧ c < 32 then putF v (CHS_CHW_PEND c) (satF 16 (s.chW c))
  else v

/-! ### KEEP (R274) -/

def Arm.val : Arm → Nat
  | .disarmed => 0 | .arming => 1 | .armed => 2 | .suspended => 3

def KPath.val : KPath → Nat
  | .none => 0 | .fresh => 1 | .restore => 2 | .resume => 3

/-- A slot is in use: a map entry names it, or it is the slot of an index without an entry (R241). -/
def Course.inUse (c : Course) (x : Nat) : Bool :=
  (x < 12582912 && (tget c.cur x).isNone) || c.cur.any fun e => e.2.slot == x

/-- The highest program count of a slot in use. (DEDUCED, log entry 127) -/
def Course.wearMax (c : Course) : Nat := (c.counts.filter fun e => c.inUse e.1).foldl (fun m e => max m e.2) 0

/-- KEEP_STAT.KEY. -/
def Keep.keyStat (k : Keep) : Nat :=
  if k.secret.isNone then 0 else if k.waitsShare then 2 else b2n k.keyHeld

/-- The slots of a keep course (R240). -/
def keepSlots : Nat := 14155776

def State.viewKeep (s : State) (a v : Nat) : Nat :=
  let k := s.keep
  let n := (a - KEEP_POOLFREE 0) / 16
  let c := k.course n
  if a = KEEP_STAT then
    2 ^ 24 * k.path.val + 2 ^ 23 * b2n k.incomplete + 2 ^ 22 * b2n (k.courses.any (·.fenced)) + 2 ^ 20 * k.keyStat +
    4096 * (if s.dev = .bringup ∨ s.dev = .restoring then k.phase else 0) + 8 * b2n s.measValid + 4 * b2n s.admHold + k.arm.val
  else if a = KEEP_HOLDV then satF 16 k.vmv
  else if a = KEEP_EAVAIL then satTwos 32 k.eavail
  else if a = KEEP_DIRTY then k.dirtyCount
  else if a = KEEP_DMAX then k.dmax
  else if a = KEEP_KEYPOL then
    s.keyPolicy + 256 * b2n (k.arm == .disarmed && (k.pendShare.isSome || s.keyPolicy != k.epoch.policy))
  else if a = KEEP_KEYSTAT then
    putF (putF (putF v KEEP_KEYSTAT_EPOCH k.epoch.num) KEEP_KEYSTAT_OLD (b2n (0 < k.oldLeft))) KEEP_KEYSTAT_SHARE
      (b2n (!k.shares.isEmpty || k.pendShare.isSome))
  else if a = KEEP_OLDLEFT then k.oldLeft
  else if a = KEEP_RESTPROG then rcount k.restored
  else if a = KEEP_RETIRED 0 ∨ a = KEEP_RETIRED 1 then (k.course (if a = KEEP_RETIRED 0 then 0 else 1)).nretired
  else if a = KEEP_WEARQV then
    let d := k.course (s.fld KEEP_WEARQ_COURSE)
    let x := s.fld KEEP_WEARQ_SLOT
    if keepSlots ≤ x then s.free % 2 ^ 32
    else if d.retired.contains x then 0xFFFFFFFF else tgetD d.wear x 0
  else if a < KEEP_POOLFREE 0 ∨ 2 ≤ n then v
  else if a = KEEP_POOLFREE n then c.nfree
  else if a = KEEP_POOLPEND n then c.pend.length + c.pendS.length
  else if a = KEEP_WEARMAX n then c.wearMax
  else if a = KEEP_SPARE n then c.spares
  else v

/-! ### INT (R325) -/

/-- The row words of a kind that a test selects. -/
def State.rowWords (s : State) (kind : Nat) (p : Nat → Bool) : Nat := ((s.words kind).filter p).length

/-- The channel pins below 120, standbys apart, whose carrier satisfies a test. -/
def State.pinsOn (s : State) (c lo hi : Nat) (p : Nat → Bool) : Nat :=
  ((List.range (hi - lo)).filter fun i => !isStby (lo + i) && (match s.carrier c (lo + i) with | some x => p x | none => false)).length

/-- The keep-bus TSVs of a course that are repaired. -/
def State.ktsvs (s : State) (k : Nat) : Nat :=
  ((List.range 176).filter fun t => (s.words 3).any fun w => wCourse w == k && wTsv w == t).length

def allChans : List Nat := List.range 32

/-- INT_PCSTAT_c of one pseudo-channel. -/
def State.pcStat (s : State) (c pc : Nat) : Nat :=
  let e := s.erasures c pc
  (if s.pcFenced c pc then 3 else if 2 ≤ e then 2 else e) + 4 * s.stbyUsed c pc + 16 * min 7 e

/-- The repair words in force in the order of R322: those of one place stand in the order of their words there. One whose pin has yet
to be switched is not in force. -/
def State.repairOrder (s : State) : List Repair :=
  [0, 1, 2, 3].flatMap fun k => s.intg.repairs.filter fun r => r.src == k && r.live

/-- The TSVs of a course that are on standby or carried. -/
def State.tsvSpared (s : State) (pos : Nat) : Nat :=
  if pos ≤ 2 then s.ktsvs (pos - 1)
  else s.pinsOn (2 * (pos - 3)) 0 120 (fun _ => true) + s.pinsOn (2 * (pos - 3) + 1) 0 120 (fun _ => true)

def State.viewInt (s : State) (a v : Nat) : Nat :=
  let c := (a - INT_CH_CE 0) / 16
  let n := (a - INT_TSVC 0) / 4
  let f := (a - INT_FENCE 0) / 4
  if a = INT_SCRUB_STAT then putF v INT_SCRUB_STAT_ACTIVE (b2n s.scrubbing)
  else if a = INT_CELOG_USED then ((List.range 64).filter fun i => s.flag (INT_CELOG_A_VALID i)).length
  else if a = INT_REPFUSE then
    putF v INT_REPFUSE_PENDING ((List.range 16).filter fun i => s.reg (INT_PEND i) != 0).length
  else if a = INT_REPROW then 65536 * satF 16 (s.rowWords 4 fun _ => true) + satF 16 (s.rowWords 1 fun _ => true)
  else if a = INT_REPTSV then
    2 ^ 24 * satF 8 (allChans.map fun c => s.pinsOn c 0 80 (· == 0x7F)).sum + 65536 * satF 8 (s.ktsvs 0 + s.ktsvs 1) +
    256 * satF 8 (allChans.map fun c => s.pinsOn c 84 120 (· != 0x7F)).sum +
    satF 8 (allChans.map fun c => s.pinsOn c 0 80 (· != 0x7F)).sum
  else if INT_CH_CE 0 ≤ a ∧ c < 32 then
    if a = INT_PCSTAT c then
      2 ^ 20 * b2n (s.chanFenced c) + 2 ^ 17 * s.cmdStby c + 256 * s.pcStat c 1 + s.pcStat c 0
    else if a = INT_CH_ROWS c then
      65536 * satF 16 (s.rowWords 4 fun w => wChan w == c) + satF 16 (s.rowWords 1 fun w => wChan w == c)
    else v
  else if a = INT_KEEPBUS 0 ∨ a = INT_KEEPBUS 1 then
    let k := if a = INT_KEEPBUS 0 then 0 else 1
    16 * b2n (s.keep.course k).fenced + 8 * b2n (0 < s.keepCoded k) +
      ((List.range 4).filter fun i => s.kstbyTaken k i).length
  else if INT_TSVC 0 ≤ a ∧ n < 18 then
    putF (putF v (INT_TSVC_SPARED n) (satF 8 (s.tsvSpared (n + 1)))) (INT_TSVC_SUSPECT n)
      (satF 8 (s.intg.suspects.filter fun t => tPos t == n + 1).length)
  else if INT_FENCE 0 ≤ a ∧ f < 16 then
    match (s.repairOrder.filter fun r => wKind r.word == 4)[f]? with
    | some r =>
      let w := r.word
      2 ^ 31 + 2 ^ 26 * wChan w + 2 ^ 25 * getBits w 23 23 + 2 ^ 21 * getBits w 22 19 + getBits w 18 2
    | none => 0
  else v

/-! ### THM (R342) -/

/-- A temperature register: units of 0.1 °C, rounded down; 0x8000 for no value. (DESIGN CHOICE, log entry 112) -/
def tempReg : Option Int → Nat
  | none => 0x8000
  | some t => satTwos 16 (t / 10)

/-- The highest course estimate and its position. -/
def State.maxEst (s : State) : Option (Int × Nat) :=
  (s.thm.crs.zipIdx).foldl (fun (b : Option (Int × Nat)) x =>
    match x.1.est, b with
    | some e, some (m, _) => if m < e then some (e, x.2) else b
    | some e, none => some (e, x.2)
    | none, _ => b) none

def State.viewThm (s : State) (a v : Nat) : Nat :=
  let t := s.thm
  let susp := fun (n : Nat) => ((List.range 32).map fun j =>
    let x := s.sensor (32 * n + j)
    if 32 * n + j < 88 ∧ (x.suspect || x.failed) then 2 ^ j else 0).sum
  if a = THM_STAT then
    65536 * tempReg (s.maxEst.map (·.1)) + 2048 * ((s.maxEst.map (·.2)).getD 0) +
    512 * (t.crs.foldl (fun m (c : Crs) => max m c.step) 0) + 256 * b2n s.pins.thermTrip + 128 * b2n t.model + 64 * b2n t.lidDef
  else if a = THM_LID then tempReg t.lid
  else if a = THM_PWRTOT then satF 17 (t.pwr.sum / 1000)
  else if a = THM_ENERGY_LO then t.pj / 10 ^ 9 % 2 ^ 32
  else if a = THM_ENERGY_HI then t.pj / 10 ^ 9 / 2 ^ 32 % 2 ^ 32
  else if a = THM_SENSSUSP 0 ∨ a = THM_SENSSUSP 1 ∨ a = THM_SENSSUSP 2 then susp ((a - THM_SENSSUSP 0) / 4)
  else
    let n := (a - THM_CRS 0) / 4
    let q := (a - THM_QUAD 0 0) / 4
    let e := (a - THM_SENS 0) / 4
    let w := (a - THM_PWR 0) / 4
    let g := (a - THM_SEG 0) / 4
    if THM_CRS 0 ≤ a ∧ n < 20 then
      let c := t.crs.getD n {}
      65536 * tempReg c.est + 4096 * b2n c.warn + 1024 * c.step +
      256 * (if 3 ≤ n ∧ n < 19 ∧ c.est.isSome then s.mc.band.getD (n - 3) 1 else 0) + c.src
    else if THM_QUAD 0 0 ≤ a ∧ q < 80 then
      if s.quadSilent (q / 4) (q % 4) then 0x80008000
      else 65536 * tempReg (if t.model then some (t.nodes.getD q 0) else none) + tempReg (s.quadSensor (q / 4) (q % 4))
    else if THM_SENS 0 ≤ a ∧ e < 88 then
      let x := s.sensor e
      tempReg (if x.failed then none else x.reading)
    else if THM_PWR 0 ≤ a ∧ w < 19 then satF 16 (t.pwr.getD w 0 / 1000)
    else if THM_SEG 0 ≤ a ∧ g < 40 then
      let x := t.segs.getD g (0, 0)
      65536 * satF 16 x.2 + satF 16 x.1
    else v

/-! ### CAL (R360) -/

/-- The pin and BUSY fields of CAL_ROLL_c and CAL_KROLL_k come from the visit of a unit. (DESIGN CHOICE, log entry 121) -/
def State.visitPin (s : State) (us : List CalUnit) : Option Nat :=
  (s.cal.visits.find? fun v => us.contains v.unit).map (·.pin)

/-- The bounds of the sub-steps 1 to 7 of R345, in ns from the start of bring-up step 5. -/
def calBounds : List Nat := [1, 4, 12, 20, 24, 26, 32].map (· * 1000000)

/-- The sub-step of R345 under way: each takes until its bound, and while REFCLK is bad the first waits.
(DESIGN CHOICE, log entry 121) -/
def State.calStep (s : State) : Nat :=
  if s.inStep 5 = false then 0
  else if s.flag CAL_STAT_CLKBAD then 1
  else 1 + (calBounds.filter fun b => s.pwr.stepAt + b ≤ s.clock).length

def State.viewCal (s : State) (a v : Nat) : Nat :=
  let c := (a - CAL_ROLL 0) / 32
  if a = CAL_STAT then putF (putF v CAL_STAT_STEP s.calStep) CAL_STAT_ROLLING (b2n (!s.cal.visits.isEmpty))
  else if a = CAL_KAPPLY 0 ∨ a = CAL_KAPPLY 1 then
    256 * b2n (s.cal.kpend.getD (if a = CAL_KAPPLY 0 then 0 else 1) false)
  else if a = CAL_KROLL 0 ∨ a = CAL_KROLL 1 then
    let k := if a = CAL_KROLL 0 then 0 else 1
    let p := s.visitPin [.keep k]
    putF (putF (putF v (CAL_KROLL_BUSY k) (b2n p.isSome)) (CAL_KROLL_PIN k) (p.getD 0xFF)) (CAL_KROLL_INPLACE k)
      (b2n (s.inPlace (.keep k)))
  else if CAL_ROLL 0 ≤ a ∧ c < 32 ∧ a = CAL_ROLL c then
    let p := s.visitPin [.data c 0, .data c 1, .cmd c]
    putF (putF (putF (putF v (CAL_ROLL_BUSY c) (b2n p.isSome)) (CAL_ROLL_PIN c) (p.getD 0x7F)) (CAL_ROLL_INPLACE1 c)
      (b2n (s.inPlace (.data c 1)))) (CAL_ROLL_INPLACE0 c) (b2n (s.inPlace (.data c 0)))
  else v

/-! ### BST (R378) -/

/-- The record that BST_LOGRD names, if it is one of the last 64 (R369). -/
def State.logRead (s : State) : Option (List Byte) :=
  match tget s.bst.log (s.reg BST_LOGRD % 64) with
  | some (q, b) => if q = s.reg BST_LOGRD then some b else none
  | none => none

def State.viewBst (s : State) (a v : Nat) : Nat :=
  let n := (a - BST_INC 0) / 4
  let k := (a - BST_LOG 0) / 4
  if a = BST_STAT then
    2 ^ 28 * (match s.bst.cur with | none => 0 | some c => if c.started then 2 else 1) + 65536 * s.bst.queue.length
  else if a = BST_TARGET then (match s.bst.cur with | some c => if c.started then c.target else 0 | none => 0)
  else if a = BST_SCAN then putF v BST_SCAN_UNLOCK (b2n s.bst.unlock.isSome)
  else if a = BST_LOGWR then s.bst.seq
  else if a = BST_LOGSTAT then b2n s.logRead.isSome
  else if BST_LOG 0 ≤ a ∧ k < 16 then (match s.logRead with | some b => fieldB b (4 * k) 4 | none => 0)
  else if BST_INC 0 ≤ a ∧ n < 16 then s.bst.inc.getD n 0
  else v

/-! ### The whole -/

/-- What a 32-bit read of a register returns. An offset that holds no register reads 0 (R36). -/
def State.view (s : State) (a : Nat) : Nat :=
  match rowOf a with
  | none => 0
  | some _ =>
    let v := s.readAcc a
    match a / 0x100000 with
    | 0 => s.viewKs a v
    | 1 => s.viewRst a v
    | 2 => s.viewFus a v
    | 3 => s.viewLnk a v
    | 4 => s.viewLtc a v
    | 5 => s.viewWq a v
    | 6 => s.viewMc a v
    | 7 => s.viewMtr a v
    | 8 => s.viewChs a v
    | 9 => s.viewKeep a v
    | 10 => s.viewInt a v
    | 11 => s.viewThm a v
    | 12 => s.viewCal a v
    | 13 => s.viewBst a v
    | 14 => s.viewEvt a v
    | _ => v

end Sys2Proof.Machine
end

