-- ==== Sys2Proof/Machine/WorkQueues.lean ====
section
/-! DEFINITION. Dispatch of descriptors and the operations that the Keystone performs (R115-R136, R249, R252, R253, R268,
R272, R322, R371). -/

namespace Sys2Proof.Machine

/-! ### Host errors (R138) -/

/-- The bytes of a descriptor from an offset on are 0. -/
def zeroFrom (d : List Byte) (k : Nat) : Bool := (d.drop k).all (· == 0)

/-- DST or SRC of the Keystone's operations, LEN, and the target of a BIST_REQUEST (R122, R123). -/
def Op.buf (o : Op) : Nat := if o.opc = 0x30 then fieldB o.desc 16 8 else fieldB o.desc 8 8
def Op.blen (o : Op) : Nat := fieldB o.desc 16 4
def Op.target (o : Op) : Nat := fieldB o.desc 8 8
/-- ACTION and SHARE of a KEY_SHARE (R122). -/
def Op.action (o : Op) : Nat := fieldB o.desc 8 1
def Op.share (o : Op) : Nat := fieldB o.desc 32 32

/-- A descriptor that R138 leaves unpredictable: a reserved OPC, a reserved byte or bit that is not 0, or an address or length
that is not a multiple of 64 B. -/
def Op.bad (o : Op) : Bool :=
  let d := o.desc
  d.length != 64 || getBits (fieldB d 1 1) 7 1 != 0 || fieldB d 4 4 != 0 ||
  match o.opc with
  | 0x00 | 0x01 | 0x21 | 0x22 | 0x25 | 0x41 => !zeroFrom d 8
  | 0x10 => runBad o || !zeroFrom d 56
  | 0x11 => copyBad o || !zeroFrom d 32
  | 0x12 => copyBad o || !zeroFrom d 56
  | 0x20 => !zeroFrom d 16
  | 0x23 => baBad o.buf || !zeroFrom d 16
  | 0x24 => fieldB d 9 23 != 0 || 2 ≤ o.action || (o.action == 1 && !zeroFrom d 32)
  | 0x30 => baBad o.buf || 2 ^ 32 ≤ o.target || !targetOk o.target || !zeroFrom d 24
  | 0x31 => baBad o.buf || o.blen % 64 != 0 || bitAt (fieldB d 20 2) 15 || !zeroFrom d 22
  | 0x32 => baBad o.buf || o.blen % 64 != 0 || !zeroFrom d 20
  | 0x40 => baBad o.buf || o.blen % 64 != 0 || 2 ^ 24 < o.blen || !zeroFrom d 20
  | _ => true

/-- The local ranges that a descriptor names for writing. -/
def Op.ranges (o : Op) : List (Nat × Nat) :=
  match o.opc with
  | 0x10 => [(o.outB, o.outLen), (o.spill, o.spillLen)]
  | 0x11 | 0x12 => [(o.dst, o.len)]
  | 0x23 => [(o.buf, 256)]
  | 0x30 => [(o.buf, 64)]
  | 0x31 | 0x32 => [(o.buf, o.blen)]
  | _ => []

/-! ### Dispatch (R127, R129, R136) -/

/-- An opcode of the chisel and one of the Keystone (R127). -/
def chiselOp (opc : Nat) : Bool := opc == 0x10 || opc == 0x11 || opc == 0x12
def keystoneOp (opc : Nat) : Bool := 0x20 ≤ opc

/-- A queue's host is reached through P0 (R136). (DEDUCED, log entry 132) -/
def State.viaP0 (s : State) (q : Nat) : Bool :=
  s.hasCoord && (match routeInject s (reqPkt s.me 2 (s.qHost q) 0 0 true false 0 []) with | .out p _ => p == 0 | _ => false)

/-- The opcode executes in the present device state (R136). NOP and FENCE end only DONE (R132).
(DEDUCED, log entry 48; DEDUCED, log entry 132) -/
def State.executes (s : State) (o : Op) : Bool :=
  match s.dev with
  | .restoring | .ready => true
  | .bringup => [0x00, 0x01, 0x24, 0x23, 0x31, 0x32].contains o.opc
  | .recovery =>
    o.opc == 0x00 || o.opc == 0x01 ||
    (([0x23, 0x31, 0x32, 0x41].contains o.opc || (o.opc == 0x40 && baRemote o.buf)) && s.viaP0 o.q)
  | _ => false

/-- A descriptor as an operation of its queue (R115). -/
def State.opOf (s : State) (q : Nat) (d : List Byte) : Op :=
  { q := q, cid := fieldB d 2 2, opc := fieldB d 0 1, desc := d, gen := (s.queue q).gen }

/-- The resource of an operation is free (R127, R129, R286). -/
def State.resourceFree (s : State) (o : Op) : Bool :=
  if o.opc = 0x01 then (s.queue o.q).inflight == 0
  else if chiselOp o.opc then s.freeSlot.isSome && !s.blocked 0x21
  else if keystoneOp o.opc then s.wq.ksq.length < 8 && !s.blocked 0x25
  else true

/-- The next descriptor of a queue can dispatch. -/
def State.mayDispatch (s : State) (q : Nat) : Bool :=
  let t := s.queue q
  match t.fetched with
  | [] => false
  | d :: _ =>
    let o := s.opOf q d
    t.st == .active && !s.flag WQ_GCTL_PAUSE && !s.blocked 0x20 && t.inflight < s.depth q &&
    (s.inService || s.dev == .bringup || s.dev == .recovery) &&
    (!s.executes o || o.bad || s.resourceFree o)

/-- A descriptor is handed to its resource (R127). One that the device state refuses names cause 0x02 when it is a CHISEL_RUN
(R230). -/
def State.handOver (s : State) (o : Op) : State :=
  if s.executes o = false then s.complete o 0xA (if o.opc = 0x10 then 2 else 0)
  else if o.bad then s.hostError o o.ranges
  else if o.opc = 0x10 then (match s.freeSlot with | some n => s.startRun n o | none => s)
  else if chiselOp o.opc then (match s.freeSlot with | some n => s.startCopy n o | none => s)
  else if keystoneOp o.opc then { s with wq := { s.wq with ksq := s.wq.ksq ++ [o] } }
  else s.complete o 0 0

/-- The next descriptor of a queue is dispatched. -/
def State.dispatch (s : State) (q : Nat) : State :=
  match (s.queue q).fetched with
  | [] => s
  | d :: ds =>
    let s := s.modQueue q fun t => { t with fetched := ds, inflight := t.inflight + 1 }
    State.handOver { s with wq := { s.wq with rot := q } } (s.opOf q d)

/-- The queue whose descriptor the rotation dispatches next (R127). -/
def State.nextQueue (s : State) : Option Nat := findFrom 64 (s.wq.rot + 1) s.mayDispatch

/-- DESCRIPTOR_DISPATCH (R127): one dispatch, in rotation among the queues that have one ready. -/
def execDescriptorDispatch (s : State) : Host.Outcome State Fault Refusal :=
  .next (
    match s.nextQueue with
    | some q => s.dispatch q
    | none => s)

/-- The Keystone can perform an operation now: it performs no other, it runs, and no unit the operation needs is being reset. -/
def State.ksFree (s : State) (o : Op) : Bool :=
  s.wq.ksCur.isNone && !s.pwr.ksDown && !s.blocked 0x25 &&
  !(s.blocked 0x22 && 0x20 ≤ o.opc && o.opc ≤ 0x25) && !(s.blocked 0x24 && o.opc == 0x30)

/-- The Keystone takes the operation at the head of those that wait and performs it. -/
def State.ksGo (s : State) (q : Nat) (d : List Byte) (go : State → Op → State) : State :=
  match s.wq.ksq with
  | [] => s
  | o :: os =>
    if o.q = q ∧ o.desc = d ∧ s.ksFree o then go { s with wq := { s.wq with ksq := os, ksCur := some o } } o else s

/-- The command names a descriptor of queue `q`: it is dispatched where it stands next in its queue and the rotation has come to
that queue (R127). (DEDUCED, log entry 42) -/
def State.dispatchDesc (s : State) (q : Nat) (d : List Byte) (opc : Nat) : State :=
  if d.length ≠ 64 ∨ fieldB d 0 1 ≠ opc then s
  else if (s.queue q).fetched.head? = some d ∧ s.nextQueue = some q then s.dispatch q
  else s

/-- The operation of a descriptor of queue `q` is performed by the Keystone: the descriptor is dispatched where it has not been
(R127), and where the Keystone is free, it performs it. (DEDUCED, log entry 42) -/
def State.perform (s : State) (q : Nat) (d : List Byte) (opc : Nat) (go : State → Op → State) : State :=
  if d.length ≠ 64 ∨ fieldB d 0 1 ≠ opc then s
  else if s.wq.ksq.any fun o => o.q == q && o.desc == d then s.ksGo q d go
  else (s.dispatchDesc q d opc).ksGo q d go

/-- NOP (R129): DONE at dispatch. -/
def execNop (q : Fin 64) (d : List Byte) (s : State) : Host.Outcome State Fault Refusal :=
  .next (s.dispatchDesc q d 0x00)

/-- FENCE (R129): dispatched once every earlier operation of its queue has completed. -/
def execFence (q : Fin 64) (d : List Byte) (s : State) : Host.Outcome State Fault Refusal :=
  .next (s.dispatchDesc q d 0x01)

/-- CHISEL_RUN (R118): takes a chisel slot. (DESIGN CHOICE, log entry 63) -/
def execChiselRun (q : Fin 64) (d : List Byte) (s : State) : Host.Outcome State Fault Refusal :=
  .next (s.dispatchDesc q d 0x10)

/-- COPY (R119): takes a chisel slot. -/
def execCopy (q : Fin 64) (d : List Byte) (s : State) : Host.Outcome State Fault Refusal :=
  .next (s.dispatchDesc q d 0x11)

/-- FILL (R120): takes a chisel slot. -/
def execFill (q : Fin 64) (d : List Byte) (s : State) : Host.Outcome State Fault Refusal :=
  .next (s.dispatchDesc q d 0x12)

/-! ### Keep operations (R122) -/

/-- A keep course is fenced. -/
def State.keepFenced (s : State) : Bool := s.keep.courses.any (·.fenced)

/-- KEEP_CHECKPOINT (R249): copies pending since the last seal are sealed first, then the pages dirty now are copied. -/
def State.checkpoint (s : State) (o : Op) : State :=
  if s.keep.keyHeld = false ∨ s.keepFenced ∨ s.keep.epochOpen then s.ksEnds o 6 0
  else if s.keep.arm = .suspended then s.ksEnds o 7 0
  else if s.keepHot then s.ksEnds o 9 0
  else
    let pages := s.keep.dirtySet
    let s := s.modKeep fun k => { k with copies := k.copies.map fun c => { c with cover := !rmem k.dirty c.page } }
    if s.keep.copiesSince = 0 then (s.modKeep fun k => { k with ckpt := some (o, pages) }).ckptGoes
    else s.sealAsk 1 0 (.checkpoint1 o pages)

def execKeepCheckpoint (q : Fin 64) (d : List Byte) (s : State) : Host.Outcome State Fault Refusal :=
  .next (s.perform q d 0x20 State.checkpoint)

/-- A KEEP_ARM would start a new epoch (R269). (DEDUCED, log entry 67) -/
def State.epochDue (s : State) : Bool := s.keep.pendShare.isSome || s.keyPolicy != s.keep.epoch.policy

/-- The new epoch would have no key: POLICY 1 without a share. -/
def State.epochKeyless (s : State) : Bool :=
  s.keyPolicy == 1 && s.keep.pendShare.isNone && (tget s.keep.shares s.keep.epoch.num).isNone

/-- The refusals 2 and 3 of R253 that hold in DISARMED and ARMING. -/
def State.armRefused (s : State) : Option Nat :=
  if s.fus.life = 4 then some 8
  else if s.keep.keyHeld = false ∨ s.keepFenced then some 6
  else none

/-- The waiting KEEP_ARM leaves the Keystone (R253). -/
def State.armWaits (s : State) (o : Op) : State :=
  ({ s with wq := { s.wq with ksCur := none } }).modKeep fun k => { k with armOps := k.armOps ++ [o] }

/-- KEEP_ARM (R253). -/
def State.keepArm (s : State) (o : Op) : State :=
  match s.keep.arm with
  | .armed => s.ksEnds o 0 0
  | .suspended => s.ksEnds o 7 0
  | .arming =>
    match s.armRefused with
    | some st => s.ksEnds o st 0
    | none => s.armWaits o
  | .disarmed =>
    match s.armRefused with
    | some st => s.ksEnds o st 0
    | none =>
      if s.epochDue && (s.keep.epochOpen || s.epochKeyless) then s.ksEnds o 6 0
      else if s.measValid = false ∨ s.keep.dmax < 262144 then s.ksEnds o 7 0
      else
        let s := if s.epochDue then s.newEpoch else s
        ((s.modKeep fun k => { k with arm := .arming }).armWaits o).armFollows

def execKeepArm (q : Fin 64) (d : List Byte) (s : State) : Host.Outcome State Fault Refusal :=
  .next (s.perform q d 0x21 State.keepArm)

/-- KEEP_DISARM (R253). -/
def State.keepDisarm (s : State) (o : Op) : State :=
  if s.flag KEEP_CTL_ARMLOCK then s.ksEnds o 6 0 else (s.disarm 1 1 6).ksEnds o 0 0

def execKeepDisarm (q : Fin 64) (d : List Byte) (s : State) : Host.Outcome State Fault Refusal :=
  .next (s.perform q d 0x22 State.keepDisarm)

/-- The 256 B record of KEEP_STATUS (R272). -/
def State.statusRecord (s : State) : List Byte :=
  let k := s.keep
  let c0 := k.course 0
  let c1 := k.course 1
  padB 256 (leBytes 8 (s.reg64 KEEP_SEALSEQ_LO) ++ leBytes 8 (s.reg64 KEEP_SEALTIME_LO) ++ leBytes 8 k.dirtyCount ++
    leBytes 8 k.dmax ++ leBytes 4 (satTwos 32 k.eavail) ++ leBytes 4 k.ceff ++ leBytes 4 k.vmv ++
    leBytes 1 k.arm.val ++ leBytes 1 k.path.val ++
    leBytes 1 (b2n s.measValid + 2 * b2n (k.keyStat == 1) + 4 * b2n (k.keyStat == 2) + 8 * b2n k.incomplete + 16 * b2n s.keepFenced) ++
    [0] ++ leBytes 8 (s.reg64 KEEP_CKPTSEQ_LO) ++ leBytes 8 k.ckptLabel ++ leBytes 8 k.lost ++ leBytes 4 (rcount k.restored) ++
    leBytes 4 k.epoch.num ++ leBytes 8 (max c0.wearMax c1.wearMax) ++ leBytes 8 (c0.nretired + c1.nretired) ++
    leBytes 4 (min c0.spares c1.spares) ++ leBytes 4 k.saveMs)

/-- KEEP_STATUS (R272). -/
def execKeepStatus (q : Fin 64) (d : List Byte) (s : State) : Host.Outcome State Fault Refusal :=
  .next (s.perform q d 0x23 fun s o => s.ksWrite o o.buf s.statusRecord 0 0 0 0)

/-- A share is offered (R268). (DEDUCED, log entry 48) -/
def State.shareOffer (s : State) (o : Op) : State :=
  let sh := o.share
  if s.fus.life = 4 then s.ksEnds o 8 0
  else match s.keep.shareMatch sh with
  | some e => ((s.modKeep fun k => { k with shares := tset k.shares e.num sh }).sharesCome).ksEnds o 0 0
  | none =>
    if (s.keep.shares.any fun x => x.2 == sh) ∨ s.keep.pendShare = some sh then s.ksEnds o 0 0
    else if s.keep.arm = .disarmed ∧ s.keyPolicy = 1 then
      (s.modKeep fun k => { k with pendShare := some sh }).ksEnds o 0 0
    else ((s.incFld KEEP_KEYSTAT_BADSHARE 1).post 0x050B 2 0xFF 0).ksEnds o 6 0

def execKeyShareSupply (q : Fin 64) (d : List Byte) (s : State) : Host.Outcome State Fault Refusal :=
  .next (s.perform q d 0x24 fun s o => if o.action = 0 then s.shareOffer o else { s with wq := { s.wq with ksq := o :: s.wq.ksq, ksCur := none } })

/-- The held shares are zeroised (R268). -/
def State.shareClear (s : State) (o : Op) : State :=
  if s.fus.life = 4 then s.ksEnds o 8 0
  else if s.keep.arm = .disarmed ∧ s.dev ≠ .restoring then
    (s.modKeep fun k => { k with shares := [], pendShare := none }).ksEnds o 0 0
  else s.ksEnds o 6 0

def execKeyShareClear (q : Fin 64) (d : List Byte) (s : State) : Host.Outcome State Fault Refusal :=
  .next (s.perform q d 0x24 fun s o => if o.action = 1 then s.shareClear o else { s with wq := { s.wq with ksq := o :: s.wq.ksq, ksCur := none } })

/-- HOLDUP_CHARACTERIZE (R252): V1 and the energy count are recorded and the mover runs. (DEDUCED, log entry 71) -/
def State.characterize (s : State) (o : Op) : State :=
  if s.measValid = false then s.ksEnds o 7 0
  else if s.keep.keyHeld = false ∨ s.keepFenced then s.ksEnds o 6 0
  else if s.keepHot then s.ksEnds o 9 0
  else (s.modKeep fun k => { k with charac := some { op := o, uv1 := s.holdV, pj1 := s.thm.pj } }).moverFill

def execHoldupCharacterize (q : Fin 64) (d : List Byte) (s : State) : Host.Outcome State Fault Refusal :=
  .next (s.perform q d 0x25 State.characterize)

/-! ### Maintenance and firmware (R123-R126, R322, R371) -/

/-- BIST_REQUEST (R371): the slice enters the targeted queue and the Keystone waits for its result.
(DESIGN CHOICE, log entry 47) -/
def State.bistRequest (s : State) (o : Op) : State :=
  let t := o.target
  if s.targetOut t ∨ 16 ≤ s.bst.queue.length then s.ksEnds o 0xA 0
  else if 3 ≤ s.tStep t then s.ksEnds o 9 0
  else { s with bst := { s.bst with queue := s.bst.queue ++ [(t, 2, some o)] } }

def execBistRequest (q : Fin 64) (d : List Byte) (s : State) : Host.Outcome State Fault Refusal :=
  .next (s.perform q d 0x30 State.bistRequest)

/-- The addresses of one register table, rising. -/
def rowAddrs (base : Nat) : List (Nat × Nat) → List Nat
  | [] => [base]
  | (st, n) :: ds => (List.range n).flatMap fun i => rowAddrs (base + st * i) ds

/-- Every register of a block in ascending order of address. -/
def blockAddrs (blk : Nat) : List Nat := ((catalogue blk).flatMap fun r => rowAddrs r.base r.dims).mergeSort (· ≤ ·)

/-- The record of one register (R124). (DESIGN CHOICE, log entry 46) -/
def State.telRecord (s : State) (a : Nat) : List Byte := leBytes 4 a ++ leBytes 4 (s.view a)

/-- TELEMETRY_SNAPSHOT (R124). How long the reading takes is a free value of at most 20 µs. (DESIGN CHOICE, log entry 46) -/
def State.telemetry (s : State) (o : Op) : State :=
  let blocks := fieldB o.desc 20 2
  let all := ((List.range 15).filter fun b => bitAt blocks b).flatMap blockAddrs
  let n := min all.length ((o.blen - 64) / 8)
  let header := padB 64 (leBytes 8 s.ks.time ++ leBytes 8 ((s.ks.time + s.free % 20001) % 2 ^ 64) ++ leBytes 2 blocks ++ [0, 0] ++
    leBytes 4 n)
  let data := ((all.take n).map s.telRecord).flatten
  s.bump.ksWrite o o.buf ((header ++ data).take o.blen) (if n < all.length ∨ o.blen < 64 then 2 else 0) n 64 8

def execTelemetrySnapshot (q : Fin 64) (d : List Byte) (s : State) : Host.Outcome State Fault Refusal :=
  .next (s.perform q d 0x31 State.telemetry)

/-- A record of REPAIR_QUERY (R322). -/
def Repair.record (r : Repair) : List Byte :=
  leBytes 4 r.word ++
    [BitVec.ofNat 8 (b2n (r.src == 0 || r.src == 1) + 2 * b2n (r.src == 2) + 4 * b2n (r.src == 0)),
      BitVec.ofNat 8 (if wKind r.word = 1 then r.spare else 0xFF), 0, 0]

/-- REPAIR_QUERY (R322). -/
def State.repairQuery (s : State) (o : Op) : State :=
  let all := s.repairOrder
  let n := min all.length ((o.blen - 64) / 8)
  let pend := ((List.range 16).filter fun i => s.reg (INT_PEND i) != 0).length
  let header := padB 64 (leBytes 8 s.ks.time ++ leBytes 4 n ++ leBytes 4 all.length ++ leBytes 2 (s.fld INT_REPFUSE_FREE) ++
    leBytes 1 pend)
  let data := ((all.take n).map Repair.record).flatten
  s.ksWrite o o.buf ((header ++ data).take o.blen) (if n < all.length ∨ o.blen < 64 then 2 else 0) n 64 8

def execRepairQuery (q : Fin 64) (d : List Byte) (s : State) : Host.Outcome State Fault Refusal :=
  .next (s.perform q d 0x32 State.repairQuery)

/-- FW_STAGE (R125, R412): the image is read; where the part is RETIRED nothing is. -/
def State.fwStage (obs : List CellObs) (s : State) (o : Op) : State :=
  if s.fus.life = 4 then s.ksEnds o 8 0 else s.ksRead obs o o.buf o.blen

def execFwStage (q : Fin 64) (d : List Byte) (obs : List CellObs) (s : State) : Host.Outcome State Fault Refusal :=
  .next (s.perform q d 0x40 (State.fwStage obs))

/-- FW_ACTIVATE (R126): the Keystone restarts, where a staged image is newer than the running one. -/
def State.fwActivate (s : State) (o : Op) : State :=
  let newer := match s.bestFw with | some v => decide (s.ks.fwRun / 2 < v / 2) | none => false
  if newer = false ∨ (s.dev ≠ .ready ∧ s.dev ≠ .recovery) then s.ksEnds o 0xA 0
  else { s.emptyLatch 5 with
    pwr := { s.pwr with ksDown := true, ksOp := some o }
    thm := { s.thm with model := false } }

def execFwActivate (q : Fin 64) (d : List Byte) (s : State) : Host.Outcome State Fault Refusal :=
  .next (s.perform q d 0x41 State.fwActivate)

end Sys2Proof.Machine
end

