-- ==== Sys2Proof/Machine/Responses.lean ====
section
/-! DEFINITION. The answers to requests that the device originates (R86, R87, R101), and the reset packets (R92, R105). -/

namespace Sys2Proof.Machine

/-! ### Responses (R86, R101) -/

/-- STATUS of a response; a reserved value is handled as NO_TARGET (R86). (DEDUCED, log entry 34) -/
def rspStatus (k : Pkt) : Nat := if 5 < k.addr.toNat % 16 then 4 else k.addr.toNat % 16

/-- The granules of a RD's response (R87): none for one that its poison map marks. -/
def rspGrans (status n : Nat) (bs : List Byte) : List (Option (List Byte)) :=
  let map := if status = 1 then fieldB bs 0 8 else 0
  let data := if status = 1 then bs.drop 16 else bs
  (List.range n).map fun i => if map.testBit i then none else some (sliceB data (64 * i) 64)

/-- A read of a COPY is answered (R226, R227): its granules arrive, or it is repeated, or the job stops; a
COPY that has stopped issues nothing further. -/
def State.readAnswered (s : State) (o : Outst) (n status : Nat) (bs : List Byte) : State :=
  if (s.job n).st ≠ .running then s
  else if status = 0 ∨ status = 1 then s.copyArrive n (o.off / 64) (rspGrans status (o.pkt.len.toNat + 1) bs)
  else if status = 5 ∧ s.tmoOver o = false ∧ (s.job n).fail = none then s.resend o
  else (s.jobFail n (o.off / 64) false).copyEnd n

/-- A write of a job is answered (R226): done, repeated, or refused. (DESIGN CHOICE, log entry 60) -/
def State.writeAnswered (s : State) (o : Outst) (n status : Nat) : State :=
  let copy := (s.job n).kind != 0
  if (s.job n).st ≠ .running ∧ (s.job n).st ≠ .emitting then s
  else if status = 0 then
    (if copy then (s.modJob n fun j => { j with done := radd j.done (o.off / 64) }).copyEnd n else s)
  else if status = 5 ∧ s.tmoOver o = false ∧ (copy = false ∨ (s.job n).fail = none) then s.resend o
  else if copy then (s.jobFail n (o.off / 64) false).copyEnd n
  else s.jobFail n (o.off / 2 / 64) (o.off % 2 == 1)

/-- The answer to a request of this device, or its loss (as NO_TARGET), is handed to the part that originated it (R101).
(DESIGN CHOICE, log entry 60) -/
def State.handRsp (s : State) (o : Outst) (status : Nat) (bs : List Byte) : State :=
  let s := { s with lnk := { s.lnk with outst := s.lnk.outst.filter fun x => x.tag != o.tag } }
  match o.origin with
  | .fetch q gen => s.fetchDone q gen status bs
  | .cqWrite q gen =>
    let t := s.queue q
    if status = 0 ∨ t.gen ≠ gen ∨ (t.st ≠ .active ∧ t.st ≠ .draining) then s else s.queueError q 2
  | .program n =>
    if (s.job n).st ≠ .loading then s
    else if status ≠ 0 then s.finishJob n 0xA 1 1
    else if o.off = 0 then s.programHeader n bs
    else s
  | .jobRead n => s.readAnswered o n status bs
  | .jobWrite n => s.writeAnswered o n status
  | .keystone q cid gen =>
    if status = 5 ∧ s.tmoOver o = false then s.resend o else s.ksAnswered q cid gen o.off (status == 0) bs

/-- A response that has come to its requester: matched by TAG alone, or discarded as late (R101).
(DESIGN CHOICE, log entry 33) -/
def State.matchRsp (s : State) (k : Pkt) : State :=
  match s.lnk.outst.find? fun o => o.tag == k.tag.toNat with
  | some o => s.handRsp o (rspStatus k) k.payload
  | none => s.incFld LTC_DROP_LOCAL 1

/-- RSP_RECEIVED (R101): from port `p`, or delivered without entering a port (R93). A response for another endpoint passes
(R93), and a hop-addressed one matches nothing this stack sent (R92). (DESIGN CHOICE, log entry 33) -/
def execRspReceived (p : Fin 4) (k : Pkt) (s : State) : Host.Outcome State Fault Refusal :=
  .next (
    if s.lnk.loop.contains k then { s with lnk := { s.lnk with loop := s.lnk.loop.erase k } }.matchRsp k
    else if s.packetsReach p = false then s
    else if hopsOn k then s.hopOn p k
    else if k.nbr then s.dropLocal p k
    else if s.hasCoord = false ∨ k.dest.toNat ≠ s.me then s.transit p k
    else (s.takeRx p k).matchRsp k)

/-- RESPONSE_TIMEOUT (R101): the response is lost; 0x0210, and the originating block is told.
(DESIGN CHOICE, log entry 3; DESIGN CHOICE, log entry 33; DESIGN CHOICE, log entry 35) -/
def execResponseTimeout (tag : BitVec 16) (s : State) : Host.Outcome State Fault Refusal :=
  .next (
    match s.lnk.outst.find? fun o => o.tag == tag.toNat with
    | none => s
    | some o => (s.post 0x0210 2 0xFF (o.pkt.dest.toNat + 65536 * o.tag)).handRsp o 4 [])

/-! ### Recoveries (R309) -/

/-- KEEP_RECOVERY_DONE (R309): the granule is written recovered or poisoned and the accesses that it held go on. The read of the
slot and the write to the channel cross mortar as the keep mover's (R167). No recovery runs in SAVING. -/
def execKeepRecoveryDone (granule : Nat) (slotOk : Bool) (s : State) : Host.Outcome State Fault Refusal :=
  .next (
    match (s.intg.recov.take 16).find? fun r => r.granule == granule with
    | none => s
    | some r => if s.dev = .saving then s else (s.finishRecovery r (s.keepBusOk (homeOf (granule / 64)) slotOk)).ksRetry.ask 5 0 (.recover granule) (pageUnits (granule / 64)))

/-! ### Reset packets (R105) -/

def rstReach (k : Pkt) : Nat := k.len.toNat % 4
def rstPsel (k : Pkt) : Nat := k.b15.toNat % 4

/-- DATA of 0x020D and 0x020E (R107). -/
def rstData (k : Pkt) : Nat := rstReach k + 4 * rstPsel k + 65536 * k.src.toNat

/-- An RST is refused: NO_TARGET and 0x020E (R92, R105). (DEDUCED, log entry 36) -/
def State.refuseRst (s : State) (p : Nat) (k : Pkt) : State := (s.answer p k 4 0 []).post 0x020E 2 p (rstData k)

/-- The accepted RST takes effect (R105, R282): PORT at once, WARM and COLD as a reset source; a save defers it (R287).
(DEDUCED, log entry 36; DEDUCED, log entry 37) -/
def State.rstStart (s : State) : State :=
  match s.lnk.rst with
  | none => s
  | some (reach, psel) =>
    let src := s.lnk.rstSrc
    let s := { s with lnk := { s.lnk with rst := none } }
    if s.dev = .off then s
    else if reach = 0 then
      (if s.dev = .saving then s.deferReset { source := 3, reach := 2, endpoint := src, port := psel } else s.portReset psel 3 src)
    else s.assertReset 3 (reach + 2) src false

/-- RST_PACKET (R105): checked against the reset authority; accepted it is recorded, posted and answered OK, and its reset
begins with RST_PACKET_RESET_START. An RST accepted before, whose reset has not begun, begins it now. (DEDUCED, log entry 36) -/
def execRstPacket (p : Fin 4) (k : Pkt) (s : State) : Host.Outcome State Fault Refusal :=
  .next (
    if s.packetsReach p = false then s
    else if hopsOn k then s.hopOn p k
    else if k.nbr then (if s.dev = .saving then (s.takeRx p k).answer p k 3 0 [] else (s.takeRx p k).refuseRst p k)
    else if s.hasCoord = false ∨ k.dest.toNat ≠ s.me then s.transit p k
    else
      let s := s.takeRx p k
      if s.dev = .saving then s.answer p k 3 0 []
      else if vcClass k.vc.toNat ≠ 2 ∨ rstReach k = 3 ∨ s.rstAuth k.src.toNat (rstReach k) = false then s.refuseRst p k
      else
        let s := s.rstStart
        let s := (((s.setFld LTC_RSTLAST_VALID 1).setFld LTC_RSTLAST_PSEL (rstPsel k)).setFld LTC_RSTLAST_REACH
          (rstReach k)).setFld LTC_RSTLAST_SRC k.src.toNat
        let s := (s.post 0x020D 1 p (rstData k)).answer p k 0 0 []
        { s with lnk := { s.lnk with rst := some (rstReach k, rstPsel k), rstSrc := k.src.toNat } })

/-- RST_PACKET_RESET_START (R105): its response has been handed to the output port, or 2 µs have passed. -/
def execRstPacketResetStart (s : State) : Host.Outcome State Fault Refusal := .next s.rstStart

/-! ### Coordinate and authority (R90, R108) -/

/-- LTC_COORD_WRITE (R90, R108): VALID becomes 1 with any write of the coordinate. -/
def State.writeCoord (s : State) (v : Nat) : State := (s.writeAcc LTC_COORD v).setFld LTC_COORD_VALID 1

def execLtcCoordWrite (a : Access) (v : Word) (s : State) : Host.Outcome State Fault Refusal :=
  .next (s.cfgWrite a LTC_COORD fun s => s.writeCoord v.toNat)

/-- A write of LTC_RSTAUTH_LOCK: 1 sets LOCK, 0 has no effect (R108). -/
def State.writeAuthLock (s : State) (v : Nat) : State := if bitAt v 0 then s.setFld LTC_RSTAUTH_LOCK_LOCK 1 else s

def execLtcRstauthLockWrite (a : Access) (v : Word) (s : State) : Host.Outcome State Fault Refusal :=
  .next (s.cfgWrite a LTC_RSTAUTH_LOCK fun s => s.writeAuthLock v.toNat)

end Sys2Proof.Machine
end

