-- ==== Sys2Proof/Machine/Thermal.lean ====
section
/-! DEFINITION. Power measurement, sensors, the estimate, refresh bands, throttle steps and shutdown (R21, R22, R157,
R326-R342). Temperatures are in 0.01 °C. -/

namespace Sys2Proof.Machine

/-! ### Power (R22, R326) -/

/-- The position that a current-sense segment feeds (R326). (DEDUCED, log entry 116) -/
def segPos (n : Nat) : Nat := if n < 4 then 0 else (n - 2) / 2

/-- A power shared among the quadrants by weights. Where every weight is 0 the manual gives no shares: they are free.
(DESIGN CHOICE, log entry 111) -/
def State.sharedBy (s : State) (pos p : Nat) (w : List Nat) : List Nat :=
  let w := if w.sum = 0 then (List.range 4).map fun q => Config.freeValue (s.fresh + 4 * pos + q) + 1 else w
  (List.range 4).map fun q => p * w.getD q 0 / w.sum

/-- A port's lanes in use. -/
def State.lanesInUse (s : State) (p : Nat) : Nat := ((List.range 17).filter fun n => s.flag (LNK_LSTAT_INUSE p n)).length

/-- The power of each quadrant of a course whose power is `p` (R327), of which VDDL's is `vddl` in the base course.
(DESIGN CHOICE, log entry 111) -/
def State.quadPower (s : State) (pos p vddl : Nat) : List Nat :=
  if pos = 0 then
    let n := s.lanesInUse
    let pace := (List.range 16).map fun i => s.fld (MTR_PACE_RATE i)
    List.zipWith (· + ·) (s.sharedBy 0 vddl [n 0 + n 2, n 1 + n 2, n 0 + n 3, n 1 + n 3])
      (s.sharedBy 19 (p - vddl) ((List.range 4).map (Config.floorPlan pace)))
  else if 3 ≤ pos ∧ pos < 19 then
    (s.sharedBy pos (3 * p / 4) ((List.range 4).map fun g => s.mc.activity.getD (4 * (pos - 3) + g) 0)).map (· + p / 16)
  else List.replicate 4 (p / 4)

/-- SEGMENT_SAMPLE (R22, R326): mA and mV of each segment, and so µW; ten readings make a course's power,
which its quadrants share (R327). A reading stands for
10 µs, which is 10 pJ for each µW. (DEDUCED, log entry 116) -/
def execSegmentSample (r : List (Nat × Nat)) (s : State) : Host.Outcome State Fault Refusal :=
  .next (
    if s.dev = .off then s
    else
      let t := s.thm
      let r := (List.range 40).map fun n => r.getD n (0, 0)
      let uw := (List.range 20).map fun p => ((List.range 40).map fun n =>
        if segPos n = p then (r.getD n (0, 0)).1 * (r.getD n (0, 0)).2 else 0).sum
      let sums := List.zipWith (· + ·) t.sums uw
      let acc := List.zipWith (fun a x => a + x.1) t.acc r
      let pj := t.pj + 10 * uw.sum
      let vddl := t.vddl + (r.getD 1 (0, 0)).1 * (r.getD 1 (0, 0)).2
      if t.nread + 1 < 10 then { s with thm := { t with sums := sums, acc := acc, vddl := vddl, pj := pj, nread := t.nread + 1 } }
      else { s with
        fresh := s.fresh + 80
        mc := { s.mc with activity := List.replicate 64 0 }
        thm := { t with
          pwr := sums.map (· / 10), segs := List.zipWith (fun a x => (a / 10, x.2)) acc r
          quads := ((List.range 20).map fun p => s.quadPower p (sums.getD p 0 / 10) (vddl / 10)).flatten
          sums := List.replicate 20 0, acc := List.replicate 40 0, vddl := 0, nread := 0, pj := pj } })

/-! ### Sensors (R330-R332) -/

/-- A sensor becomes suspect. (DEDUCED, log entry 109) -/
def State.failSensor (s : State) (n : Nat) : State :=
  if (s.sensor n).failed then s
  else (s.modSensor n fun x => { x with failed := true, suspect := true, agree := 0 }).post 0x0406 2 (sensorPos n) n

/-- One conversion of a sensor (R330, R331): out of range, or a jump of more than 20 °C, fails it; a conversion that is neither
ends a failure. (DEDUCED, log entry 109) -/
def State.convert (s : State) (n : Nat) (v : Int) : State :=
  let x := s.sensor n
  let jump := match x.conv with | w :: _ => decide (2000 < v - w ∨ 2000 < w - v) | [] => false
  let bad := decide (v < -4000 ∨ 15000 < v) || jump
  let s := if bad then s.failSensor n else s.modSensor n fun x => { x with failed := false }
  s.modSensor n fun x => { x with conv := (v :: x.conv).take 4, hot := if 11000 ≤ v then min 2 (x.hot + 1) else 0 }

/-! ### Shutdown (R291, R338, R339) -/

/-- A SHUTDOWN at a position (R338): THERM_TRIP_N, THM_TRIP and 0x0405; a save of an armed part with the COLD reset deferred, or
the COLD reset and THERMAL_HOLD; nothing more in RECOVERY, SAFE and THERMAL_HOLD. `sens` is the comparator's sensor.
(DESIGN CHOICE, log entry 113) -/
def State.shutdown (s : State) (pos : Nat) (sens : Option Nat) : State :=
  let s : State := { s with thm := { s.thm with shut := true }, pins := { s.pins with thermTrip := true } }
  let s := (((s.incFld THM_TRIP_COUNT 1).setFld THM_TRIP_POS pos).setFld THM_TRIP_COMP (b2n sens.isSome))
  let s := s.post 0x0405 4 pos (b2n sens.isSome + 2 * sens.getD 0 + 65536 * tempReg ((s.thm.crs.getD pos {}).est))
  let hold := fun (s : State) => ({ s with pwr := { s.pwr with toHold := true } }).assertReset 8 4 0 false
  if s.inService then
    (if s.keep.arm = .disarmed then hold s else s.startSave.assertReset 8 4 0 false)
  else match s.dev with
    | .saving => s.assertReset 8 4 0 false
    | .sealed => hold s
    | .bringup => hold s
    | _ => s

/-- The comparators (R330): two conversions in a row of 110.0 °C or more at a sensor that is not masked, while VDD is good.
(DESIGN CHOICE, log entry 113) -/
def State.comparators (s : State) : State :=
  if s.thm.shut ∨ bitAt s.pwr.good 1 = false then s
  else match (List.range 88).find? fun n => (s.sensor n).hot == 2 && !s.masked n with
    | some n => s.shutdown (sensorPos n) (some n)
    | none => s

/-- No sensor converts: in OFF and AUX, and from a COLD reset to the bring-up that follows (R334, R340). -/
def State.sensorsRest (s : State) : Bool :=
  s.dev == .off || s.dev == .aux || (s.pwr.interval && s.pwr.taken && decide (4 ≤ s.pwr.reach) && s.dev != .thermalHold)

/-- SENSOR_CONVERSION (R330). -/
def execSensorConversion (r : List (Option Int)) (s : State) : Host.Outcome State Fault Refusal :=
  .next (
    if s.sensorsRest then s
    else
      ((List.range 88).foldl (fun s n => match r.getD n none with
        | some v => s.convert n v
        | none => s) s).comparators)

/-- SENSOR_NO_CONVERSION (R331): no conversion within 100 µs. -/
def execSensorNoConversion (n : Fin 88) (s : State) : Host.Outcome State Fault Refusal :=
  .next (if s.sensorsRest then s else s.failSensor n)

/-- THM_SENSMASK_WRITE (R332): a bit is set only for a suspect sensor; a bit that is set stays so until it is written 0.
(DEDUCED, log entry 115) -/
def State.writeSensmask (s : State) (n v : Nat) : State :=
  let old := s.reg (THM_SENSMASK n)
  s.setReg (THM_SENSMASK n) (((List.range 32).map fun j =>
    if bitAt v j && 32 * n + j < 88 && (bitAt old j || (s.sensor (32 * n + j)).suspect) then 2 ^ j else 0).sum)

def execThmSensmaskWrite (a : Access) (n : Fin 3) (v : Word) (s : State) : Host.Outcome State Fault Refusal :=
  .next (s.cfgWrite a (THM_SENSMASK n) fun s => s.writeSensmask n v.toNat)

/-- The working sensors are held against their nodes (R331): 0x0404 for one that has differed by more than 3.0 °C at every
update for more than 10 ms; one that has agreed within 1.0 °C for 1 s is no longer suspect. (DEDUCED, log entry 109) -/
def State.checkSensors (s : State) : State :=
  (List.range 88).foldl (fun s n =>
    let x := s.sensor n
    let pos := sensorPos n
    let q := sensorQuad n
    match (if x.failed then none else x.reading) with
    | none => s.modSensor n fun x => { x with diverge := 0, agree := 0 }
    | some r =>
      let d := r - s.thm.nodes.getD (4 * pos + q) 0
      let far := decide (300 < d ∨ 300 < -d)
      let near := decide (d ≤ 100 ∧ -d ≤ 100)
      let div := if far then min 102 (x.diverge + 1) else 0
      let agr := if near then min 10000 (x.agree + 1) else 0
      let fresh := div == 102 && !x.suspect
      let s := s.modSensor n fun x => { x with
        diverge := div, agree := agr, suspect := if fresh then true else if agr = 10000 then false else x.suspect }
      if fresh then s.post 0x0404 1 pos (n + 256 * q + 65536 * satTwos 16 (d / 10)) else s) s

/-! ### The estimate (R333, R334) -/

/-- The estimate of a quadrant while the model runs, and whether it is the model's value (R333).
(DESIGN CHOICE, log entry 110) -/
def State.quadModel (s : State) (pos q : Nat) : Option Int × Bool :=
  let node := s.thm.nodes.getD (4 * pos + q) 0
  if pos = 19 then (some node, true)
  else if s.quadSilent pos q then (none, false)
  else match s.quadSensor pos q with
    | some r => (some (max node r), decide (r < node))
    | none => (some (node + 100), true)

/-- The estimates of a course's quadrants, with the model's marks. (DESIGN CHOICE, log entry 110) -/
def State.quadEsts (s : State) (pos : Nat) : List (Option Int × Bool) :=
  if s.thm.model then (List.range 4).map (s.quadModel pos)
  else
    let own := (List.range 4).map fun q => (s.quadSensor pos q).map (· + 200)
    let top := own.foldl optMax none
    (own.zipIdx).map fun e => (if s.quadSilent pos e.2 then none else e.1.orElse fun _ => top, false)

/-- Every estimate is formed anew (R333, R334), and THM_CRSMAX_n with it; a course with a quadrant that has none has none.
(DESIGN CHOICE, log entry 110) -/
def State.estimate (s : State) : State :=
  let qs := (List.range 20).map s.quadEsts
  let s : State := { s with thm := { s.thm with
    crs := (s.thm.crs.zipIdx).map fun c =>
      let q := qs.getD c.2 []
      { c.1 with
        est := if q.any fun x => x.1.isNone then none else q.foldl (fun b x => optMax b x.1) none
        src := (q.zipIdx.map fun x => if x.1.2 then 2 ^ x.2 else 0).sum } } }
  (List.range 20).foldl (fun s n =>
    match (s.thm.crs.getD n {}).est with
    | none => s
    | some e =>
      let t := tempReg (some e)
      let m := s.fld (THM_CRSMAX_MAX n)
      if m = 0x8000 ∨ (m + 32768) % 65536 < (t + 32768) % 65536 then s.setFld (THM_CRSMAX_MAX n) t else s) s

/-! ### Bands (R157) -/

/-- The band that BANDMIN of a course's channels asks for at least. (DEDUCED, log entry 114) -/
def State.bandMin (s : State) (d : Nat) : Nat := max (s.fld (MC_REFCTL_BANDMIN (2 * d))) (s.fld (MC_REFCTL_BANDMIN (2 * d + 1)))

/-- The band of a DRAM course at an update (R157): up at once, down when the estimate has stayed low for 10 updates, and down
only while the model runs (R334). -/
def State.bandUpdate (s : State) (d : Nat) : State :=
  let old := s.mc.band.getD d 1
  match (s.thm.crs.getD (d + 3) {}).est with
  | none => { s with mc := { s.mc with bandLow := setAt s.mc.bandLow d (0, 0) } }
  | some e =>
    let l := s.mc.bandLow.getD d (0, 0)
    let l := (if e < 9300 then min 10 (l.1 + 1) else 0, if e < 8300 then min 10 (l.2 + 1) else 0)
    let s : State := { s with mc := { s.mc with bandLow := setAt s.mc.bandLow d l } }
    let new :=
      if 9500 ≤ e then 3
      else if 8500 ≤ e ∧ old < 2 then 2
      else if old = 3 ∧ l.1 = 10 then (if l.2 = 10 then 1 else 2)
      else if old = 2 ∧ l.2 = 10 then 1
      else old
    let new := max new (s.bandMin d)
    s.setBand d (if s.thm.model then new else max new old) e

/-! ### WARN and throttle steps (R335, R336) -/

/-- WARN, T1, T2 and T3 of a position (R335). -/
def thresholds (pos : Nat) : List Int :=
  if pos = 0 then [10000, 10400, 10600, 10800] else if pos < 3 then [10000] else if pos < 19 then [9500, 10000, 10300, 10600] else []

/-- The dwells of a course at an update: updates in a row at or above each threshold, and below it less 3.0 °C (R335).
(DEDUCED, log entry 108) -/
def Crs.dwell (c : Crs) (ths : List Int) : Crs :=
  match c.est with
  | none => { c with hi := [0, 0, 0, 0], lo := [0, 0, 0, 0] }
  | some e => { c with
    hi := (List.range 4).map fun i => match ths[i]? with
      | some t => if t ≤ e then min 11 (c.hi.getD i 0 + 1) else 0
      | none => 0
    lo := (List.range 4).map fun i => match ths[i]? with
      | some t => if e < t - 300 then min 10 (c.lo.getD i 0 + 1) else 0
      | none => 0 }

/-- A threshold is reached: the estimate has stayed at or above it from one update to the tenth after it, as in the example of
R337, where T1's dwell begins at 13.0 ms and T1 is reached at 14.0 ms. (DEDUCED, log entry 108) -/
def Crs.reached (c : Crs) (i : Nat) : Bool := c.hi.getD i 0 == 11

/-- A threshold is released: the condition has held at each of the last 10 updates (R336). (DEDUCED, log entry 108) -/
def Crs.released (c : Crs) (i : Nat) : Bool := c.lo.getD i 0 == 10

/-- The highest step whose threshold is reached. -/
def Crs.top (c : Crs) : Nat := if c.reached 3 then 3 else if c.reached 2 then 2 else if c.reached 1 then 1 else 0

/-- WARN and the step of a course at an update (R335, R336); a step falls only while the model runs (R334).
(DEDUCED, log entry 114) -/
def State.stepUpdate (s : State) (pos : Nat) : State :=
  let low : Int := if pos = 1 ∨ pos = 2 then 0 else 100 * (s.fld THM_CTL_LOWER : Int)
  let c := (s.thm.crs.getD pos {}).dwell ((thresholds pos).map (· - low))
  let est := tempReg c.est
  let warn := if c.reached 0 then true else if c.released 0 then false else c.warn
  let step := if c.step < c.top then c.top else if 0 < c.step && c.released c.step && s.thm.model then c.step - 1 else c.step
  let s : State := { s with thm := { s.thm with crs := setAt s.thm.crs pos { c with warn := warn, step := step } } }
  let s := if warn && !c.warn then s.post 0x0401 1 pos est else if c.warn && !warn then s.post 0x0402 0 pos est else s
  if step = c.step then s
  else s.post 0x0403 (if c.step < step then 2 else 0) pos (step + 4 * c.step + 65536 * est)

/-- THM_THRMS counts a ms for each 10 updates with a step. -/
def State.countSteps (s : State) : State :=
  if s.thm.crs.any fun c => 0 < c.step then
    (if s.thm.stepUpd + 1 < 10 then { s with thm := { s.thm with stepUpd := s.thm.stepUpd + 1 } }
     else ({ s with thm := { s.thm with stepUpd := 0 } }).incFld THM_THRMS_MS 1)
  else s

/-! ### An update -/

/-- Every course has stayed below 95.0 °C for 10 updates: THERM_TRIP_N is released in RECOVERY and SAFE (R339), and THERMAL_HOLD
may end (R291). (DEDUCED, log entry 114) -/
def State.coolUpdate (s : State) : State :=
  let below := s.thm.crs.all fun c => match c.est with | some e => decide (e < 9500) | none => true
  let n := if below then min 10 (s.thm.tripDwell + 1) else 0
  let h := if below ∧ s.dev = .thermalHold then min 10 (s.thm.holdDwell + 1) else 0
  let s : State := { s with thm := { s.thm with tripDwell := n, holdDwell := h }, pwr := { s.pwr with cool := h == 10 } }
  let s : State := if (s.dev = .recovery ∨ s.dev = .safe) ∧ n = 10 then { s with pins := { s.pins with thermTrip := false } } else s
  s.holdExit

/-- What follows the estimates of an update (R157, R335-R338): bands, then WARN and steps, F_now once, the work that a course
newly at T3 ends, the keep limits, and SHUTDOWN. -/
def State.thermalActs (s : State) : State :=
  let was := s.thm.crs.map (·.step)
  let s := (List.range 16).foldl (fun s d => s.bandUpdate d) s
  let s := (List.range 20).foldl (fun s p => s.stepUpdate p) s
  let s := s.updateScale.countSteps
  let t3 := (List.range 20).filter fun p => (s.thm.crs.getD p {}).step == 3 && was.getD p 0 != 3
  let s := t3.foldl (fun s p => s.thermalJobs p) s
  let s := if t3.isEmpty then s else s.bistThermal
  let s := s.keepHeat.coolUpdate
  match s.maxEst with
  | some (e, pos) =>
    if e < 11000 then
      (if (List.range 88).any fun n => (s.sensor n).hot == 2 && !s.masked n then s
       else { s with thm := { s.thm with shut := false } })
    else if s.thm.shut then s
    else s.shutdown pos none
  | none => s

/-- A sensor is trusted (R328). -/
def State.trusted (s : State) (n : Nat) : Bool := !s.masked n && !(s.sensor n).suspect

/-- The lid at an update (R328): it moves by at most 0.05 °C toward where the trusted sensors of D12-D15 put it, and is held at
85.0 °C while there is none; 0x0408 when the fitted lid rises above 85.0 °C. (DESIGN CHOICE, log entry 111) -/
def State.lidUpdate (s : State) (aim : Int) : State :=
  let any := (List.range 88).any fun n => 15 ≤ sensorPos n && s.trusted n
  if any = false then { s with thm := { s.thm with lid := some 8500, lidDef := true, lidHot := false } }
  else
    let lid := match s.thm.lid with
      | none => aim
      | some l => max (l - 5) (min (l + 5) aim)
    let hot := decide (8500 < lid)
    let fire := hot && !s.thm.lidHot
    let s : State := { s with thm := { s.thm with lid := some lid, lidDef := false, lidHot := hot } }
    if fire then s.post 0x0408 2 0xFF (tempReg (some lid)) else s

/-- THERMAL_MODEL_UPDATE (R328): the nodes as Loesh firmware computes them. (DESIGN CHOICE, log entry 111) -/
def execThermalModelUpdate (nodes : List Int) (lid : Int) (s : State) : Host.Outcome State Fault Refusal :=
  .next (
    if s.thm.model = false ∨ s.dev = .off ∨ s.dev = .aux then s
    else
      let s : State := { s with thm := { s.thm with nodes := (List.range 80).map fun n => nodes.getD n (s.thm.nodes.getD n 0) } }
      (s.lidUpdate lid).checkSensors.estimate.thermalActs)

/-- HW_ESTIMATE_UPDATE (R334): the thermal hardware's estimates while the model does not run. (DESIGN CHOICE, log entry 111) -/
def execHwEstimateUpdate (s : State) : Host.Outcome State Fault Refusal :=
  .next (if s.thm.model ∨ s.dev = .off ∨ s.dev = .aux then s else s.estimate.thermalActs)

end Sys2Proof.Machine
end

