-- ==== Sys2Proof/Machine/Refclk.lean ====
section
/-! DEFINITION. Loss and return of the reference clock (R344, R402). -/

namespace Sys2Proof.Machine

/-- The command clock of a channel stops and the course enters self-refresh by itself (R161 step 6, R402): the channel is DOWN,
requests that were not reported stay queued, and writes that were reported and not written are lost and counted by 0x0881.
(DEDUCED, log entry 126) -/
def State.clockStops (s : State) (c : Nat) : State :=
  let h := s.chan c
  if h.st = .down ∨ h.st = .selfref then s.modChan c fun h => { h with st := .down }
  else
    let lost := h.unwritten
    let s := (s.rowsClose c).modChan c fun h => { h with
      st := .down, hold := none
      pcs := h.pcs.map fun p => { p with
        sref := true, banks := p.banks.map fun b => { b with q := b.q.filter fun u => !u.reported } } }
    if lost.sum = 0 then s else s.post 0x0881 3 c (min 65535 lost.sum + 65536 * b2n (0 < lost.getD 1 0))

/-- REFCLK_LOSS (R402): 0x06C2, every port leaves ACTIVE for want of a lane with lock, and the command clocks stop. A bring-up
in step 5 waits (R344). (DEDUCED, log entry 126) -/
def execRefclkLoss (s : State) : Host.Outcome State Fault Refusal :=
  .next (
    if s.pins.refclk = false then s
    else
      let s : State := { s with pins := { s.pins with refclk := false } }
      if s.dev = .off then s
      else
        let s := s.post 0x06C2 3 0xFF 0
        let s := if s.inStep 5 then s.setFld CAL_STAT_CLKBAD 1 else s
        let s := (List.range 4).foldl (fun s p => if (s.port p).st = .active then s.leaveActive p 2 else s) s
        (List.range 32).foldl (fun s c => s.clockStops c) s)

/-- REFCLK_RETURN (R344): a bring-up that waits at the start of step 5 goes on with its calibration. (DEDUCED, log entry 126) -/
def execRefclkReturn (s : State) : Host.Outcome State Fault Refusal :=
  .next (
    if s.pins.refclk then s
    else
      let s : State := { s with pins := { s.pins with refclk := true } }
      if s.dev = .off then s else s.setFld CAL_STAT_CLKBAD 0)

end Sys2Proof.Machine
end

