-- ==== Sys2Proof/Machine/Semaphores.lean ====
section
/-! DEFINITION. Hardware semaphores (R44, R45), the acknowledgement of events (R47) and event messages held back (R48). -/

namespace Sys2Proof.Machine

/-! ### Semaphores -/

/-- The owner's path of R44: 0 lattice, 1 sideband, 2 Keystone. -/
def pathSrc : Path → Nat
  | .port _ => 0
  | .sideband => 1
  | .keystone => 2

/-- The requester's endpoint as a semaphore records it: 0 for the sideband and the Keystone. -/
def pathOwner (a : Access) : Nat := match a.path with | .port _ => a.requester.toNat | _ => 0

/-- The ingress port of a lattice requester. -/
def pathPort : Path → Nat
  | .port p => p.val
  | _ => 0

/-- A requester owns a held semaphore: the same path kind and endpoint. (DESIGN CHOICE, log entry 17) -/
def Sem.ownedBy (x : Sem) (a : Access) : Bool := x.held && x.src == pathSrc a.path && x.owner == pathOwner a

/-- The clock at which a lease loaded now ends; 0 ms is no lease (R44). (DESIGN CHOICE, log entry 17) -/
def State.leaseEnd (s : State) : Option Nat :=
  let ms := s.fld KS_SEM_LEASE_LEASE_MS
  if ms = 0 then none else some (s.clock + ms * 1000000)

/-- A semaphore after its lease has run out: that is applied before any command of the same nanosecond (R45).
(DESIGN CHOICE, log entry 17) -/
def Sem.expire (x : Sem) (clock : Nat) : Sem :=
  match x.expiry with
  | some t => if x.held ∧ t ≤ clock then { broken := true } else x
  | none => x

/-- A semaphore granted to a requester. -/
def Sem.grant (a : Access) (epoch : Nat) (broken : Bool) (expiry : Option Nat) : Sem where
  held := true
  broken := broken
  src := pathSrc a.path
  owner := pathOwner a
  port := pathPort a.path
  epoch := epoch
  expiry := expiry

/-- A command of KS_SEM_CMD_n on a semaphore (R45): 1 acquire, 2 release, 3 renew. -/
def Sem.command (x : Sem) (a : Access) (cmd epoch : Nat) (expiry : Option Nat) : Sem :=
  let mine := x.ownedBy a
  if cmd = 1 then
    if x.held = false then Sem.grant a epoch x.broken expiry
    else if mine ∧ x.epoch = epoch then { x with expiry := expiry }
    else if mine then Sem.grant a epoch true expiry
    else x
  else if cmd = 2 then (if mine ∧ x.epoch = epoch then {} else x)
  else if cmd = 3 then (if mine ∧ x.epoch = epoch then { x with expiry := expiry } else x)
  else x

/-- A write of KS_SEM_CMD_n. -/
def State.semCommand (s : State) (a : Access) (n cmd epoch : Nat) : State :=
  { s with ks := { s.ks with sems := modAt s.ks.sems n fun x => (x.expire s.clock).command a cmd epoch s.leaseEnd } }

/-- SEM_ACQUIRE (R45). -/
def execSemAcquire (a : Access) (n : Nat) (epoch : BitVec 16) (s : State) : Host.Outcome State Fault Refusal :=
  .next (s.cfgWrite a (KS_SEM_CMD n) fun s => s.semCommand a n 1 epoch.toNat)

/-- SEM_RELEASE (R45). -/
def execSemRelease (a : Access) (n : Nat) (epoch : BitVec 16) (s : State) : Host.Outcome State Fault Refusal :=
  .next (s.cfgWrite a (KS_SEM_CMD n) fun s => s.semCommand a n 2 epoch.toNat)

/-- SEM_RENEW (R45). -/
def execSemRenew (a : Access) (n : Nat) (epoch : BitVec 16) (s : State) : Host.Outcome State Fault Refusal :=
  .next (s.cfgWrite a (KS_SEM_CMD n) fun s => s.semCommand a n 3 epoch.toNat)

/-- SEM_LEASE_EXPIRY (R45). A semaphore that is free, or has no lease, has none to expire.
(DESIGN CHOICE, log entry 3; DESIGN CHOICE, log entry 18) -/
def execSemLeaseExpiry (n : Nat) (s : State) : Host.Outcome State Fault Refusal :=
  .next { s with ks := { s.ks with sems := modAt s.ks.sems n fun x =>
    if x.held && x.expiry.isSome then { broken := true } else x } }

/-- A write of KS_SESSION (R45): what the writer holds under another epoch is freed with BROKEN set. -/
def State.session (s : State) (a : Access) (epoch : Nat) : State := s.breakSems fun x => x.ownedBy a && x.epoch != epoch

/-- KS_SESSION_WRITE (R45). -/
def execKsSessionWrite (a : Access) (epoch : BitVec 16) (s : State) : Host.Outcome State Fault Refusal :=
  .next (s.cfgWrite a KS_SESSION fun s => s.session a epoch.toNat)

/-! ### Events (R47, R48) -/

/-- A write of EVT_ACK_SEQ (R42, R47): it may release the alert or assert it, with an IBI. -/
def State.writeAck (s : State) (v : Nat) : State := State.ibiEdge s.alert (s.setReg EVT_ACK_SEQ v)

/-- EVT_ACK_SEQ_WRITE (R47). -/
def execEvtAckSeqWrite (a : Access) (v : Word) (s : State) : Host.Outcome State Fault Refusal :=
  .next (s.cfgWrite a EVT_ACK_SEQ fun s => s.writeAck v.toNat)

/-- EVENT_MSG_DEFERRED_SEND (R48): the newest event held back for a destination, with the count of the others.
(DESIGN CHOICE, log entry 19) -/
def execEventMsgDeferredSend (n : Nat) (s : State) : Host.Outcome State Fault Refusal :=
  .next (
    let d := s.ks.dests.getD n {}
    match d.newest with
    | none => s
    | some e =>
      let go := s.flag (EVT_MSGDEST_EN n)
      let s : State := { s with ks := { s.ks with
        dests := setAt s.ks.dests n { lastSend := if go then some s.clock else d.lastSend, unsent := 0, newest := none } } }
      if go then s.injectMsg (eventMsg s.me (s.fld (EVT_MSGDEST_DEST n)) e d.unsent) else s)

end Sys2Proof.Machine
end

