-- ==== Sys2Proof/Machine/Registers.lean ====
section
/-! DEFINITION. The register switch: a 32-bit write to any register with the behaviour its chapter gives it, a 32-bit read,
and the two halves of a 64-bit register (R36-R38). -/

namespace Sys2Proof.Machine

/-! ### Writes with behaviour of their own, block by block -/

/-- The index of an address in a table of registers, and whether it lies on one of them. -/
def indexOf? (a base stride count : Nat) : Option Nat :=
  if base ≤ a ∧ (a - base) % stride = 0 ∧ (a - base) / stride < count then some ((a - base) / stride) else none

def State.writeKs (s : State) (a : Access) (r v : Nat) : State :=
  match indexOf? r (KS_SEM_CMD 0) 16 32 with
  | some n => s.semCommand a n (v % 4) (v / 65536)
  | none => if r = KS_SESSION then s.session a (v % 65536) else s.writeAcc r v

def State.writeRst (s : State) (a : Access) (r v : Nat) : State :=
  if r = RST_CMD then s.rstCmd a v
  else if r = RST_RECOVER_EXIT then s.recoverExit a v
  else if r = RST_BLKREQ then s.blkreq a v
  else s.writeAcc r v

def State.writeFus (s : State) (a : Access) (r v : Nat) : State :=
  if r = FUS_LOCK then s.writeLock v
  else if r = FUS_PGDATA then s.setReg r v
  else if r = FUS_PGCMD then s.pgCommand a v
  else if r = FUS_RDADDR then s.rawRead (v % 2048)
  else s.writeAcc r v

def State.writeLnk (s : State) (r v : Nat) : State :=
  match indexOf? r (LNK_CTL 0) 65536 4 with
  | some p => s.lnkCtlWrite p v
  | none => if r = LNK_LINTEL 0 ∨ r = LNK_LINTEL 1 then (s.writeAcc r v).updateLintels else s.writeAcc r v

def State.writeLtc (s : State) (r v : Nat) : State :=
  if r = LTC_COORD then s.writeCoord v
  else if r = LTC_RSTAUTH_LOCK then s.writeAuthLock v
  else if (indexOf? r (LTC_RSTAUTH 0) 4 8).isSome ∧ s.flag LTC_RSTAUTH_LOCK_LOCK then s
  else s.writeAcc r v

def State.writeWq (s : State) (a : Access) (r v : Nat) : State :=
  let q := (r - WQ_CFG 0) / 32
  if r = WQ_CFG q then s.writeCfg q v
  else if r = WQ_SQBASE q ∨ r = WQ_CQBASE q then s.writeBase q r v
  else if r = WQ_SQDB q then s.sqBell a q v
  else if r = WQ_CQDB q then s.cqBell a q v
  else if r = WQ_GCTL then s.writeGctl v
  else s.writeAcc r v

/-- The MC block: MC_DLYAPPLY_c commits; MC_INGRESS_c.PEAK, once cleared, is the fill that stands (R166). -/
def State.writeMc (s : State) (r v : Nat) : State :=
  match indexOf? r (MC_DLYAPPLY 0) 32768 32, indexOf? r (MC_INGRESS 0) 32768 32 with
  | some c, _ => if bitAt v 0 then s.dlyCommit c else s
  | none, some c => if getBits v 22 16 = 0 then s.writeAcc r v
    else (s.writeAcc r v).setFld (MC_INGRESS_PEAK c) (s.chan c).ingress.length
  | none, none => s.writeAcc r v

/-- The CHS block: CHS_SRAM.PEAK, once cleared, is the SRAM that is in use (R239). -/
def State.writeChs (s : State) (r v : Nat) : State :=
  if r = CHS_SRAM ∧ getBits v 29 16 ≠ 0 then (s.writeAcc r v).setFld CHS_SRAM_PEAK s.sramUsed else s.writeAcc r v

def State.writeMtr (s : State) (r v : Nat) : State :=
  if r = MTR_COMMIT then (if bitAt v 0 then s.mtrCommit else s) else s.writeAcc r v

/-- KEEP_CTL: ARMLOCK is set by 1 and not cleared by 0. KEEP_KEYPOL: under KEYPOL1 a policy of 0 is ignored (R274). -/
def State.writeKeep (s : State) (r v : Nat) : State :=
  if r = KEEP_CTL then s.writeAcc r (v ||| (4 * s.fld KEEP_CTL_ARMLOCK))
  else if r = KEEP_HOLDCAP then s.writeHoldcap v
  else if r = KEEP_HOLDVMIN then (s.writeAcc r v).holdSetup
  else if r = KEEP_KEYPOL ∧ bitAt s.fus.opts 1 ∧ bitAt v 0 = false then s
  else s.writeAcc r v

def State.writeInt (s : State) (r v : Nat) : State :=
  match indexOf? r (INT_CELOG_A 0) 16 64 with
  | some n => s.writeCelog n v
  | none => s.writeAcc r v

/-- THM_CRSMAX_n: clearing sets the current estimate (R342). -/
def State.writeThm (s : State) (r v : Nat) : State :=
  match indexOf? r (THM_SENSMASK 0) 4 3, indexOf? r (THM_CRSMAX 0) 4 20 with
  | some n, _ => s.writeSensmask n v
  | none, some n => if v % 65536 = 0 then s else s.setFld (THM_CRSMAX_MAX n) (tempReg ((s.thm.crs.getD n {}).est))
  | none, none => s.writeAcc r v

/-- Host software may still write the calibration values that sub-step `sub` of bring-up step `n` measures; step 3 has none (R351). -/
def State.seedOpen (s : State) (n sub : Nat) : Bool :=
  s.dev == .bringup && !s.pwr.warm && !s.pwr.interval && (s.pwr.step < n || (s.inStep n && decide (s.calStep < sub)))

/-- The CAL value registers (R351), the keep-bus commit (R350), and CAL_EYEMIN_c, whose clearing sets PIN to 0 (R360).
(DEDUCED, log entry 120) -/
def State.writeCal (s : State) (r v : Nat) : State :=
  if r = CAL_ZTSV ∨ (indexOf? r (CAL_ZLANE 0) 4 4).isSome then (if s.seedOpen 5 2 then s.writeAcc r v else s)
  else if (indexOf? r (CAL_SGAIN 0) 4 40).isSome then (if s.seedOpen 5 4 then s.writeAcc r v else s)
  else if (indexOf? r (CAL_SOFF 0) 4 88).isSome then (if s.seedOpen 5 5 then s.writeAcc r v else s)
  else if (indexOf? r (CAL_KDLY 0 0) 4 45).isSome ∨ (indexOf? r (CAL_KDLY 1 0) 4 45).isSome then
    (if s.seedOpen 3 0 then s.writeAcc r v else s)
  else if r = CAL_KAPPLY 0 then (if bitAt v 0 then s.keepCommit 0 else s)
  else if r = CAL_KAPPLY 1 then (if bitAt v 0 then s.keepCommit 1 else s)
  else match indexOf? r (CAL_EYEMIN 0) 32 32 with
    | some c => let s := s.writeAcc r v; if v % 1024 = 0 then s else s.setFld (CAL_EYEMIN_PIN c) 0
    | none => s.writeAcc r v

/-- BST_SCAN.SESSION is set by 1 and not cleared by 0; BST_INC_n holds the targets of R367. -/
def State.writeBst (s : State) (r v : Nat) : State :=
  if r = BST_SCAN then s.writeAcc r (v ||| (2 * s.fld BST_SCAN_SESSION))
  else match indexOf? r (BST_INC 0) 4 16 with
    | some n => { s with bst := { s.bst with inc := setAt (s.bst.inc ++ List.replicate (n + 1 - s.bst.inc.length) 0) n v } }
    | none => s.writeAcc r v

def State.writeEvt (s : State) (r v : Nat) : State := if r = EVT_ACK_SEQ then s.writeAck v else s.writeAcc r v

/-- A 32-bit write to the register at a map address (R36, R37). -/
def State.regWrite (s : State) (a : Access) (r v : Nat) : State :=
  match rowOf r with
  | none => s
  | some _ =>
    match r / 0x100000 with
    | 0 => s.writeKs a r v
    | 1 => s.writeRst a r v
    | 2 => s.writeFus a r v
    | 3 => s.writeLnk r v
    | 4 => s.writeLtc r v
    | 5 => s.writeWq a r v
    | 6 => s.writeMc r v
    | 7 => s.writeMtr r v
    | 8 => s.writeChs r v
    | 9 => s.writeKeep r v
    | 10 => s.writeInt r v
    | 11 => s.writeThm r v
    | 12 => s.writeCal r v
    | 13 => s.writeBst r v
    | 14 => s.writeEvt r v
    | _ => s.writeAcc r v

/-! ### 64-bit registers (R38) -/

/-- The low halves of the 64-bit registers: first address, strides and counts. -/
def loTables : List (Nat × List (Nat × Nat)) := [
  (KS_TIME_LO, []), (RST_CAUSETIME_LO, []), (LTC_TXBYTES_LO 0, [(64, 4)]), (LTC_RXBYTES_LO 0, [(64, 4)]),
  (MC_RD_LO 0, [(32768, 32)]), (MC_WR_LO 0, [(32768, 32)]), (MC_ACT_LO 0, [(32768, 32)]), (MC_HIT_LO 0, [(32768, 32)]),
  (MC_REFPB_LO 0, [(32768, 32)]), (MTR_BYTES_LO 0, [(64, 8)]), (CHS_RDBYTES_LO, []), (CHS_WRBYTES_LO, []), (CHS_ROWS_LO, []),
  (KEEP_SEALSEQ_LO, []), (KEEP_SEALTIME_LO, []), (KEEP_CKPTSEQ_LO, []), (KEEP_COPIES_LO, []), (INT_CECNT_LO, []),
  (THM_ENERGY_LO, []), (CAL_LAST_TIME_LO, [])]

def isLo (r : Nat) : Bool := loTables.any fun t => t.1 ≤ r && matchDims t.2 (r - t.1)

def isHi (r : Nat) : Bool := 4 ≤ r && isLo (r - 4)

/-- The latch of an access's path. -/
def State.latch (s : State) (a : Access) : Option Latch := s.ks.latches.getD (pathIdx a.path) none

def State.setLatch (s : State) (a : Access) (l : Option Latch) : State :=
  { s with ks := { s.ks with latches := setAt s.ks.latches (pathIdx a.path) l } }

/-- The half that a latch holds for an access to the high register of its pair, if its tags match. (DEDUCED, log entry 15) -/
def State.latched (s : State) (a : Access) (r : Nat) (read : Bool) : Option Nat :=
  match s.latch a with
  | some l => if l.lo + 4 = r ∧ l.requester = a.requester ∧ l.isRead = read then some l.half else none
  | none => none

/-- Both halves of a 64-bit register are written at once (R38, R43). (DEDUCED, log entry 15) -/
def State.write64 (s : State) (lo low high : Nat) : State :=
  if lo = KS_TIME_LO then { s with ks := { s.ks with time := high * 2 ^ 32 + low } }
  else (s.writeAcc lo low).writeAcc (lo + 4) high

/-- A read at the register switch: the state, the status and the value. FUS_RDNORM, FUS_RDTIGHT and FUS_RDINFO answer RETRY while
the fuse block is busy (R396). -/
def State.busRead (s : State) (a : Access) (r : Nat) : State × Nat × Nat :=
  if isLo r then
    (s.setLatch a (some { lo := r, requester := a.requester, isRead := true, half := s.view (r + 4) }), 0, s.view r)
  else if isHi r then
    match s.latched a r true with
    | some h => (s, 0, h)
    | none => (s, 5, 0)
  else if (r = FUS_RDNORM ∨ r = FUS_RDTIGHT ∨ r = FUS_RDINFO) ∧ s.fuseBusy then (s, 5, 0)
  else (s, 0, s.view r)

/-- A write at the register switch, and its status. (DEDUCED, log entry 15) -/
def State.busWrite (s : State) (a : Access) (r v : Nat) : State × Nat :=
  if isLo r then (s.setLatch a (some { lo := r, requester := a.requester, isRead := false, half := v }), 0)
  else if isHi r then
    match s.latched a r false with
    | some low => ((s.setLatch a none).write64 (r - 4) low v, 0)
    | none => (s, 5)
  else (s.regWrite a r v, 0)

/-! ### Accesses by local address (R34-R36) -/

/-- A CFG_RD of a local address: NO_TARGET outside the window, unaligned, or in a block that cannot be reached. The register
switch is never busy, so no access is answered RETRY for it (R42). (DESIGN CHOICE, log entry 141) -/
def State.cfgRead (s : State) (a : Access) (addr : Nat) : State :=
  s.portGate a 8 fun s =>
    match winAddr addr with
    | none => s.respond a 8 4 0
    | some r =>
      if s.reachable a.path (r / 0x100000) then
        let x := s.busRead a r
        x.1.respond a 8 x.2.1 (if x.2.1 = 0 then x.2.2 else 0)
      else s.respond a 8 4 0

/-- A CFG_WR of a local address. -/
def State.cfgStore (s : State) (a : Access) (addr v : Nat) : State :=
  match winAddr addr with
  | none => s.portGate a 9 fun s => s.respond a 9 4 0
  | some r => s.cfgWriteSt a r fun s => s.busWrite a r v

/-- REG_LO_READ (R38). (DESIGN CHOICE, log entry 14) -/
def execRegLoRead (a : Access) (addr : Nat) (s : State) : Host.Outcome State Fault Refusal := .next (s.cfgRead a addr)

/-- REG_HI_READ (R38). (DESIGN CHOICE, log entry 14) -/
def execRegHiRead (a : Access) (addr : Nat) (s : State) : Host.Outcome State Fault Refusal := .next (s.cfgRead a addr)

/-- REG_LO_WRITE (R38). (DESIGN CHOICE, log entry 14) -/
def execRegLoWrite (a : Access) (addr : Nat) (v : Word) (s : State) : Host.Outcome State Fault Refusal :=
  .next (s.cfgStore a addr v.toNat)

/-- REG_HI_WRITE (R38). -/
def execRegHiWrite (a : Access) (addr : Nat) (v : Word) (s : State) : Host.Outcome State Fault Refusal :=
  .next (s.cfgStore a addr v.toNat)

/-- REGISTER_WRITE (R36, R37). -/
def execRegisterWrite (a : Access) (addr : Nat) (v : Word) (s : State) : Host.Outcome State Fault Refusal :=
  .next (s.cfgStore a addr v.toNat)

/-! ### Hop-addressed packets (R91, R92, R103) -/

/-- A packet whose HOPS reaches 0 here: CFG_RD and CFG_WR on MGT are served, every other request is answered NO_TARGET, and the
rest is discarded (R82, R92). -/
def State.consumeHop (s : State) (p : Fin 4) (k : Pkt) : State :=
  let opc := k.opc.toNat
  let a : Access := { path := .port p, requester := k.src, tag := k.tag, hop := some k.b15, vc := k.vc }
  if isRequest opc = false then s.dropLocal p k
  else
    let s := s.takeRx p k
    if s.dev = .saving then s.answer p k 3 0 []
    else if opc = 0x0D then s.refuseRst p k
    else if vcClass k.vc.toNat = 2 ∧ opc = 8 then s.cfgRead a k.addr.toNat
    else if vcClass k.vc.toNat = 2 ∧ opc = 9 then s.cfgStore a k.addr.toNat (fieldB k.payload 0 4)
    else s.answer p k 4 0 []

/-- HOP_PACKET_FORWARD (R91): HOPS falls by one and the packet goes on, or is consumed where it reaches 0.
(DEDUCED, log entry 32) -/
def execHopPacketForward (p : Fin 4) (k : Pkt) (s : State) : Host.Outcome State Fault Refusal :=
  .next (
    if k.nbr = false ∨ s.packetsReach p = false then s
    else if k.hops.toNat ≤ 1 then s.consumeHop p k
    else s.hopOn p k)

end Sys2Proof.Machine
end

