-- ==== Sys2Proof/Machine/Sideband.lean ====
section
/-! DEFINITION. The sideband: common command codes, private writes and private reads (R40-R42). The sideband works in every
state but OFF. -/

namespace Sys2Proof.Machine

/-- What a command of the sideband does where the sideband works. -/
def State.onSideband (s : State) (f : State → State) : State := if s.dev = .off then s else f s

def State.setAddr (s : State) (d : Option Nat) : State := { s with ks := { s.ks with dynAddr := d } }

/-- ENTDAA (R41): a target without a dynamic address takes one. -/
def execEntdaa (da : BitVec 7) (s : State) : Host.Outcome State Fault Refusal :=
  .next (s.onSideband fun s => if s.ks.dynAddr.isNone then s.setAddr (some da.toNat) else s)

/-- The static address (R40): 0x50 + SBADDR[2:0] as strapped. -/
def State.staticAddr (s : State) : Nat := 0x50 + s.ks.straps / 2 % 8

/-- SETDASA (R40, R41): the target at the static address takes a dynamic one. -/
def execSetdasa (a : AddrPair) (s : State) : Host.Outcome State Fault Refusal :=
  .next (s.onSideband fun s => if a.sa.toNat = s.staticAddr ∧ s.ks.dynAddr.isNone then s.setAddr (some a.da.toNat) else s)

/-- SETNEWDA (R41): a target with a dynamic address takes another. -/
def execSetnewda (da : BitVec 7) (s : State) : Host.Outcome State Fault Refusal :=
  .next (s.onSideband fun s => if s.ks.dynAddr.isSome then s.setAddr (some da.toNat) else s)

/-- RSTDAA (R41). -/
def execRstdaa (s : State) : Host.Outcome State Fault Refusal := .next (s.onSideband fun s => s.setAddr none)

def State.setIbi (s : State) (b : Bool) : State := { s with ks := { s.ks with ibi := b } }

/-- ENEC (R41). -/
def execEnec (s : State) : Host.Outcome State Fault Refusal := .next (s.onSideband fun s => s.setIbi true)

/-- DISEC (R41). -/
def execDisec (s : State) : Host.Outcome State Fault Refusal := .next (s.onSideband fun s => s.setIbi false)

/-- The 48-bit provisioned ID (R41). -/
def State.pid (s : State) : Nat :=
  0x00C5 * 2 ^ 33 + 0x9600 * 2 ^ 16 + (s.ks.straps / 2 % 8) * 2 ^ 12 + (s.reg KS_REV / 16 % 16) * 2 ^ 8 + (s.reg KS_REV % 16) * 2 ^ 4

/-- The bytes of a value, most significant first, as I3C sends it. (PRESUMED, log entry 11) -/
def beBytes (n v : Nat) : List Byte := (leBytes n v).reverse

/-- GETPID (R41). (PRESUMED, log entry 11) -/
def execGetpid (s : State) : Host.Outcome State Fault Refusal :=
  .next (s.onSideband fun s => s.emit (.sideband (beBytes 6 s.pid)))

/-- GETBCR (R41). -/
def execGetbcr (s : State) : Host.Outcome State Fault Refusal := .next (s.onSideband fun s => s.emit (.sideband [0x06]))

/-- GETDCR (R41). -/
def execGetdcr (s : State) : Host.Outcome State Fault Refusal := .next (s.onSideband fun s => s.emit (.sideband [0x00]))

/-- GETSTATUS (R41, R47): bit 0 while ALERT_N is asserted. (PRESUMED, log entry 11) -/
def execGetstatus (s : State) : Host.Outcome State Fault Refusal :=
  .next (s.onSideband fun s => s.emit (.sideband (beBytes 2 (b2n s.alert))))

/-- SETMWL (R41): accepted; the length is fixed. -/
def execSetmwl (_len : BitVec 16) (s : State) : Host.Outcome State Fault Refusal := .next s

/-- SETMRL (R41): accepted; the length is fixed. -/
def execSetmrl (_len : BitVec 16) (s : State) : Host.Outcome State Fault Refusal := .next s

/-- GETMWL (R41): 8 bytes written. -/
def execGetmwl (s : State) : Host.Outcome State Fault Refusal := .next (s.onSideband fun s => s.emit (.sideband (beBytes 2 8)))

/-- GETMRL (R41): 5 bytes read. -/
def execGetmrl (s : State) : Host.Outcome State Fault Refusal := .next (s.onSideband fun s => s.emit (.sideband (beBytes 2 5)))

/-- RSTACT with defining byte 0x00 (R41). -/
def execRstactNoReset (s : State) : Host.Outcome State Fault Refusal := .next s

/-- RSTACT with defining byte 0x01 (R38, R41, R45): the sideband logic is reset, its latch emptied, its semaphores broken. -/
def execRstactSidebandReset (s : State) : Host.Outcome State Fault Refusal :=
  .next (s.onSideband fun s =>
    ({ s with ks := { s.ks with dynAddr := none, ibi := true, result := none } }.emptyLatch 4).breakSems fun x => x.src == 1)

/-- Any other CCC, or any other RSTACT defining byte (R41). -/
def execCccNotAcknowledged (_code _defining : Byte) (s : State) : Host.Outcome State Fault Refusal :=
  .next (s.onSideband fun s => s.emit .nack)

/-! ### Private writes and reads (R42) -/

/-- The access of the sideband. -/
def sbAccess : Access where
  path := .sideband
  requester := 0
  tag := 0
  hop := none

/-- The local address that a frame names: block and offset. -/
def frameAddr (f : List Byte) : Nat := 0xFF00000000 + fieldB f 1 1 * 0x100000 + fieldB f 2 3

/-- A private write with operation 0x01 that forms a valid access. -/
def frameReads (f : List Byte) : Bool := fieldB f 0 1 == 1 && f.length == 5 && fieldB f 4 1 < 16

/-- A private write with operation 0x02 that forms a valid access. -/
def frameWrites (f : List Byte) : Bool := fieldB f 0 1 == 2 && f.length == 9 && fieldB f 4 1 < 16

/-- A private write (R42): a register read, a register write, or no valid access. -/
def State.privateWrite (s : State) (f : List Byte) : State :=
  s.onSideband fun s =>
    if frameReads f then s.cfgRead sbAccess (frameAddr f)
    else if frameWrites f then s.cfgStore sbAccess (frameAddr f) (fieldB f 5 4)
    else { s with ks := { s.ks with result := some (0, 1) } }

/-- PRIVATE_WRITE_READ_OP (R42). -/
def execPrivateWriteReadOp (frame : List Byte) (s : State) : Host.Outcome State Fault Refusal := .next (s.privateWrite frame)

/-- PRIVATE_WRITE_WRITE_OP (R42). -/
def execPrivateWriteWriteOp (frame : List Byte) (s : State) : Host.Outcome State Fault Refusal := .next (s.privateWrite frame)

/-- PRIVATE_WRITE_INVALID (R42). -/
def execPrivateWriteInvalid (frame : List Byte) (s : State) : Host.Outcome State Fault Refusal := .next (s.privateWrite frame)

/-- PRIVATE_READ (R42): the data and the status of the latest private write; NO_TARGET where there has been none. -/
def execPrivateRead (s : State) : Host.Outcome State Fault Refusal :=
  .next (s.onSideband fun s =>
    let r := s.ks.result.getD (0, 1)
    s.emit (.sideband (leBytes 4 r.1 ++ leBytes 1 r.2)))

end Sys2Proof.Machine
end

