-- ==== Sys2Proof/Machine/Dispatch.lean ====
section
/-! DEFINITION. The dispatch of a command to its meaning. -/

namespace Sys2Proof.Machine

/-- The effect of a command on everything but the queue. (DESIGN CHOICE, log entry 13) -/
def exec (i : Instr) (s : State) : Host.Outcome State Fault Refusal :=
  match i with
  | .lintelForceNChange low => Sys2Proof.Machine.execLintelForceNChange low s
  | .pageProgramComplete k slot ok => Sys2Proof.Machine.execPageProgramComplete k slot ok s
  | .regLoRead a addr => Sys2Proof.Machine.execRegLoRead a addr s
  | .regHiRead a addr => Sys2Proof.Machine.execRegHiRead a addr s
  | .regLoWrite a addr v => Sys2Proof.Machine.execRegLoWrite a addr v s
  | .regHiWrite a addr v => Sys2Proof.Machine.execRegHiWrite a addr v s
  | .registerWrite a addr v => Sys2Proof.Machine.execRegisterWrite a addr v s
  | .entdaa da => Sys2Proof.Machine.execEntdaa da s
  | .setdasa a => Sys2Proof.Machine.execSetdasa a s
  | .setnewda da => Sys2Proof.Machine.execSetnewda da s
  | .rstdaa => Sys2Proof.Machine.execRstdaa s
  | .enec => Sys2Proof.Machine.execEnec s
  | .disec => Sys2Proof.Machine.execDisec s
  | .getpid => Sys2Proof.Machine.execGetpid s
  | .getbcr => Sys2Proof.Machine.execGetbcr s
  | .getdcr => Sys2Proof.Machine.execGetdcr s
  | .getstatus => Sys2Proof.Machine.execGetstatus s
  | .setmwl len => Sys2Proof.Machine.execSetmwl len s
  | .setmrl len => Sys2Proof.Machine.execSetmrl len s
  | .getmwl => Sys2Proof.Machine.execGetmwl s
  | .getmrl => Sys2Proof.Machine.execGetmrl s
  | .rstactNoReset => Sys2Proof.Machine.execRstactNoReset s
  | .rstactSidebandReset => Sys2Proof.Machine.execRstactSidebandReset s
  | .rstactColdReset => Sys2Proof.Machine.execRstactColdReset s
  | .cccNotAcknowledged code defining => Sys2Proof.Machine.execCccNotAcknowledged code defining s
  | .privateWriteReadOp frame => Sys2Proof.Machine.execPrivateWriteReadOp frame s
  | .privateWriteWriteOp frame => Sys2Proof.Machine.execPrivateWriteWriteOp frame s
  | .privateWriteInvalid frame => Sys2Proof.Machine.execPrivateWriteInvalid frame s
  | .privateRead => Sys2Proof.Machine.execPrivateRead s
  | .semAcquire a n epoch => Sys2Proof.Machine.execSemAcquire a n epoch s
  | .semRelease a n epoch => Sys2Proof.Machine.execSemRelease a n epoch s
  | .semRenew a n epoch => Sys2Proof.Machine.execSemRenew a n epoch s
  | .semLeaseExpiry n => Sys2Proof.Machine.execSemLeaseExpiry n s
  | .ksSessionWrite a epoch => Sys2Proof.Machine.execKsSessionWrite a epoch s
  | .evtAckSeqWrite a v => Sys2Proof.Machine.execEvtAckSeqWrite a v s
  | .eventMsgDeferredSend n => Sys2Proof.Machine.execEventMsgDeferredSend n s
  | .signalDetect p => Sys2Proof.Machine.execSignalDetect p s
  | .capabilityMarkerReceived p marker => Sys2Proof.Machine.execCapabilityMarkerReceived p marker s
  | .negotiateTimeout p => Sys2Proof.Machine.execNegotiateTimeout p s
  | .trainGenerationDone p found => Sys2Proof.Machine.execTrainGenerationDone p found s
  | .alignDone p skewPs lane => Sys2Proof.Machine.execAlignDone p skewPs lane s
  | .fomWindowEnd p lane hist step => Sys2Proof.Machine.execFomWindowEnd p lane hist step s
  | .alignmentMarkerReceived p lane marker => Sys2Proof.Machine.execAlignmentMarkerReceived p lane marker s
  | .laneLossOfLock p lane => Sys2Proof.Machine.execLaneLossOfLock p lane s
  | .signalLossTimeout p => Sys2Proof.Machine.execSignalLossTimeout p s
  | .lnkRetrain a p v => Sys2Proof.Machine.execLnkRetrain a p v s
  | .lnkDisable a p v => Sys2Proof.Machine.execLnkDisable a p v s
  | .lnkLintelCloseWrite a ring v => Sys2Proof.Machine.execLnkLintelCloseWrite a ring v s
  | .dataFlitReceived p lanes fec => Sys2Proof.Machine.execDataFlitReceived p lanes fec s
  | .idleFlitReceived p lanes fec => Sys2Proof.Machine.execIdleFlitReceived p lanes fec s
  | .initFlitReceived p lanes fec => Sys2Proof.Machine.execInitFlitReceived p lanes fec s
  | .nakRepeatTimer p => Sys2Proof.Machine.execNakRepeatTimer p s
  | .ackTimer p => Sys2Proof.Machine.execAckTimer p s
  | .initTimer p => Sys2Proof.Machine.execInitTimer p s
  | .replayTimeout p => Sys2Proof.Machine.execReplayTimeout p s
  | .rd p pkt obs => Sys2Proof.Machine.execRd p pkt obs s
  | .wr p pkt obs => Sys2Proof.Machine.execWr p pkt obs s
  | .fadd p pkt obs => Sys2Proof.Machine.execFadd p pkt obs s
  | .cas64 p pkt obs => Sys2Proof.Machine.execCas64 p pkt obs s
  | .cas128 p pkt obs => Sys2Proof.Machine.execCas128 p pkt obs s
  | .msgReceived p pkt => Sys2Proof.Machine.execMsgReceived p pkt s
  | .rstPacket p pkt => Sys2Proof.Machine.execRstPacket p pkt s
  | .rstPacketResetStart => Sys2Proof.Machine.execRstPacketResetStart s
  | .rspReceived p pkt => Sys2Proof.Machine.execRspReceived p pkt s
  | .reservedOpcPacket p pkt => Sys2Proof.Machine.execReservedOpcPacket p pkt s
  | .packetTransit p pkt => Sys2Proof.Machine.execPacketTransit p pkt s
  | .hopPacketForward p pkt => Sys2Proof.Machine.execHopPacketForward p pkt s
  | .responseTimeout tag => Sys2Proof.Machine.execResponseTimeout tag s
  | .linkwaitExpiry p k => Sys2Proof.Machine.execLinkwaitExpiry p k s
  | .masterPortAdmit m mgt => Sys2Proof.Machine.execMasterPortAdmit m mgt s
  | .wqEnable a q v => Sys2Proof.Machine.execWqEnable a q v s
  | .wqDisable a q v => Sys2Proof.Machine.execWqDisable a q v s
  | .sqDoorbell a q v => Sys2Proof.Machine.execSqDoorbell a q v s
  | .cqDoorbell a q v => Sys2Proof.Machine.execCqDoorbell a q v s
  | .descriptorFetchStart q => Sys2Proof.Machine.execDescriptorFetchStart q s
  | .descriptorDispatch => Sys2Proof.Machine.execDescriptorDispatch s
  | .nop q d => Sys2Proof.Machine.execNop q d s
  | .fence q d => Sys2Proof.Machine.execFence q d s
  | .chiselRun q d => Sys2Proof.Machine.execChiselRun q d s
  | .copy q d => Sys2Proof.Machine.execCopy q d s
  | .fill q d => Sys2Proof.Machine.execFill q d s
  | .keepCheckpoint q d => Sys2Proof.Machine.execKeepCheckpoint q d s
  | .keepArm q d => Sys2Proof.Machine.execKeepArm q d s
  | .keepDisarm q d => Sys2Proof.Machine.execKeepDisarm q d s
  | .keepStatus q d => Sys2Proof.Machine.execKeepStatus q d s
  | .keyShareSupply q d => Sys2Proof.Machine.execKeyShareSupply q d s
  | .keyShareClear q d => Sys2Proof.Machine.execKeyShareClear q d s
  | .holdupCharacterize q d => Sys2Proof.Machine.execHoldupCharacterize q d s
  | .characterizeEnd uv2 => Sys2Proof.Machine.execCharacterizeEnd uv2 s
  | .bistRequest q d => Sys2Proof.Machine.execBistRequest q d s
  | .telemetrySnapshot q d => Sys2Proof.Machine.execTelemetrySnapshot q d s
  | .repairQuery q d => Sys2Proof.Machine.execRepairQuery q d s
  | .fwStage q d obs => Sys2Proof.Machine.execFwStage q d obs s
  | .fwActivate q d => Sys2Proof.Machine.execFwActivate q d s
  | .keystoneRestartDone started => Sys2Proof.Machine.execKeystoneRestartDone started s
  | .completionMsgTimer q => Sys2Proof.Machine.execCompletionMsgTimer q s
  | .channelRequestAccept c => Sys2Proof.Machine.execChannelRequestAccept c s
  | .commandSlot c pc obs => Sys2Proof.Machine.execCommandSlot c pc obs s
  | .refreshDue c pc bank => Sys2Proof.Machine.execRefreshDue c pc bank s
  | .openRowIdleTimeout c pc bank => Sys2Proof.Machine.execOpenRowIdleTimeout c pc bank s
  | .channelIdleRequest c => Sys2Proof.Machine.execChannelIdleRequest c s
  | .channelIdleTimeout c => Sys2Proof.Machine.execChannelIdleTimeout c s
  | .selfRefreshExit c => Sys2Proof.Machine.execSelfRefreshExit c s
  | .mcDlyapply a c v => Sys2Proof.Machine.execMcDlyapply a c v s
  | .dlyApplyPullinTimeout c pc => Sys2Proof.Machine.execDlyApplyPullinTimeout c pc s
  | .mortarHeaderHandshake t => Sys2Proof.Machine.execMortarHeaderHandshake t s
  | .mortarDataBeat t => Sys2Proof.Machine.execMortarDataBeat t s
  | .guaranteeMeterTick => Sys2Proof.Machine.execGuaranteeMeterTick s
  | .guaranteeWindowEnd => Sys2Proof.Machine.execGuaranteeWindowEnd s
  | .throttleCapWindow => Sys2Proof.Machine.execThrottleCapWindow s
  | .paceMeterWindow n count => Sys2Proof.Machine.execPaceMeterWindow n count s
  | .mtrCommit a v => Sys2Proof.Machine.execMtrCommit a v s
  | .programReadDone n remote ok obs => Sys2Proof.Machine.execProgramReadDone n remote ok obs s
  | .jobAdmit => Sys2Proof.Machine.execJobAdmit s
  | .sliceIssue => Sys2Proof.Machine.execSliceIssue s
  | .sliceDataArrive n c obs => Sys2Proof.Machine.execSliceDataArrive n c obs s
  | .chiselCycle n => Sys2Proof.Machine.execChiselCycle n s
  | .groupSortDone n => Sys2Proof.Machine.execGroupSortDone n s
  | .outputWritesAnswered n ok gran spill => Sys2Proof.Machine.execOutputWritesAnswered n ok gran spill s
  | .jobCompletionSent n => Sys2Proof.Machine.execJobCompletionSent n s
  | .chiselPaceWindow count => Sys2Proof.Machine.execChiselPaceWindow count s
  | .trickleCopyStart obs => Sys2Proof.Machine.execTrickleCopyStart obs s
  | .sealTimer => Sys2Proof.Machine.execSealTimer s
  | .sealReadbackDone ok0 ok1 => Sys2Proof.Machine.execSealReadbackDone ok0 ok1 s
  | .foldMapWritten => Sys2Proof.Machine.execFoldMapWritten s
  | .holdSenseSample uv => Sys2Proof.Machine.execHoldSenseSample uv s
  | .energyBudgetUpdate => Sys2Proof.Machine.execEnergyBudgetUpdate s
  | .pwrFailNFall => Sys2Proof.Machine.execPwrFailNFall s
  | .pwrFailNRise => Sys2Proof.Machine.execPwrFailNRise s
  | .powerReturn10ms => Sys2Proof.Machine.execPowerReturn10ms s
  | .saveUnitsDrained => Sys2Proof.Machine.execSaveUnitsDrained s
  | .saveHoldTimeout k => Sys2Proof.Machine.execSaveHoldTimeout k s
  | .restoreImageChosen read0 read1 => Sys2Proof.Machine.execRestoreImageChosen read0 read1 s
  | .restoreMapLoaded => Sys2Proof.Machine.execRestoreMapLoaded s
  | .hotPassTimeout => Sys2Proof.Machine.execHotPassTimeout s
  | .restoreUnitDone unit bad => Sys2Proof.Machine.execRestoreUnitDone unit bad s
  | .touchFetchDone unit bad ns => Sys2Proof.Machine.execTouchFetchDone unit bad ns s
  | .vauxRise => Sys2Proof.Machine.execVauxRise s
  | .vauxLoss => Sys2Proof.Machine.execVauxLoss s
  | .porRelease compat sbaddr => Sys2Proof.Machine.execPorRelease compat sbaddr s
  | .railGood r => Sys2Proof.Machine.execRailGood r s
  | .railUndervoltage r => Sys2Proof.Machine.execRailUndervoltage r s
  | .resetNAssert => Sys2Proof.Machine.execResetNAssert s
  | .resetNRelease => Sys2Proof.Machine.execResetNRelease s
  | .rstCmdWarm a v => Sys2Proof.Machine.execRstCmdWarm a v s
  | .rstCmdCold a v => Sys2Proof.Machine.execRstCmdCold a v s
  | .rstRecoverExit a v => Sys2Proof.Machine.execRstRecoverExit a v s
  | .rstBlkreq a v => Sys2Proof.Machine.execRstBlkreq a v s
  | .blockUnitIdle timeout => Sys2Proof.Machine.execBlockUnitIdle timeout s
  | .watchdogExpiry => Sys2Proof.Machine.execWatchdogExpiry s
  | .startTimeout => Sys2Proof.Machine.execStartTimeout s
  | .ready60s => Sys2Proof.Machine.execReady60s s
  | .resetProgramWaitTimeout k => Sys2Proof.Machine.execResetProgramWaitTimeout k s
  | .resetIntervalEnd => Sys2Proof.Machine.execResetIntervalEnd s
  | .powerupSelftestDone result test step ms => Sys2Proof.Machine.execPowerupSelftestDone result test step ms s
  | .fuseLoadCommit => Sys2Proof.Machine.execFuseLoadCommit s
  | .keepBusTrained eyes0 eyes1 => Sys2Proof.Machine.execKeepBusTrained eyes0 eyes1 s
  | .firmwareStart => Sys2Proof.Machine.execFirmwareStart s
  | .powerupCalDone m => Sys2Proof.Machine.execPowerupCalDone m s
  | .channelTrainingDone c eyes stby => Sys2Proof.Machine.execChannelTrainingDone c eyes stby s
  | .keepRecoveryDone granule slotOk => Sys2Proof.Machine.execKeepRecoveryDone granule slotOk s
  | .scrubUnitIssue obs => Sys2Proof.Machine.execScrubUnitIssue obs s
  | .scrubBehindTimeout => Sys2Proof.Machine.execScrubBehindTimeout s
  | .repairFuseRetry => Sys2Proof.Machine.execRepairFuseRetry s
  | .rowRepairHold c pc bank row obs => Sys2Proof.Machine.execRowRepairHold c pc bank row obs s
  | .celogEntryFree a n v => Sys2Proof.Machine.execCelogEntryFree a n v s
  | .segmentSample r => Sys2Proof.Machine.execSegmentSample r s
  | .sensorConversion r => Sys2Proof.Machine.execSensorConversion r s
  | .sensorNoConversion n => Sys2Proof.Machine.execSensorNoConversion n s
  | .thermalModelUpdate nodes lid => Sys2Proof.Machine.execThermalModelUpdate nodes lid s
  | .hwEstimateUpdate => Sys2Proof.Machine.execHwEstimateUpdate s
  | .thmSensmaskWrite a n v => Sys2Proof.Machine.execThmSensmaskWrite a n v s
  | .rollVisitStart u => Sys2Proof.Machine.execRollVisitStart u s
  | .sweepDone u errFree => Sys2Proof.Machine.execSweepDone u errFree s
  | .visitIncompleteTimeout u => Sys2Proof.Machine.execVisitIncompleteTimeout u s
  | .calKapply a k v => Sys2Proof.Machine.execCalKapply a k v s
  | .keepBusGap k => Sys2Proof.Machine.execKeepBusGap k s
  | .trackStepTimer fs trim => Sys2Proof.Machine.execTrackStepTimer fs trim s
  | .trackImpedanceTimer ztsv zlane => Sys2Proof.Machine.execTrackImpedanceTimer ztsv zlane s
  | .trackGainTimer n v => Sys2Proof.Machine.execTrackGainTimer n v s
  | .trackOffsetTimer v => Sys2Proof.Machine.execTrackOffsetTimer v s
  | .sliceTick => Sys2Proof.Machine.execSliceTick s
  | .sliceResourceGranted obs => Sys2Proof.Machine.execSliceResourceGranted obs s
  | .sliceEnd mism overBudget cause errFree => Sys2Proof.Machine.execSliceEnd mism overBudget cause errFree s
  | .sliceBudgetExpiry => Sys2Proof.Machine.execSliceBudgetExpiry s
  | .bypass => Sys2Proof.Machine.execBypass s
  | .idcode => Sys2Proof.Machine.execIdcode s
  | .samplePreload pins => Sys2Proof.Machine.execSamplePreload pins s
  | .extest => Sys2Proof.Machine.execExtest s
  | .clamp => Sys2Proof.Machine.execClamp s
  | .highz => Sys2Proof.Machine.execHighz s
  | .unlockNonce => Sys2Proof.Machine.execUnlockNonce s
  | .unlockLoad token => Sys2Proof.Machine.execUnlockLoad token s
  | .scanEnter zero courses => Sys2Proof.Machine.execScanEnter zero courses s
  | .fuseProgramWord a v => Sys2Proof.Machine.execFuseProgramWord a v s
  | .lifecycleAdvance a v => Sys2Proof.Machine.execLifecycleAdvance a v s
  | .lifecycleRetire a v => Sys2Proof.Machine.execLifecycleRetire a v s
  | .fuseProgramDone outcome read => Sys2Proof.Machine.execFuseProgramDone outcome read s
  | .fusLockWrite a v => Sys2Proof.Machine.execFusLockWrite a v s
  | .fusRdaddrWrite a v => Sys2Proof.Machine.execFusRdaddrWrite a v s
  | .ltcRstauthLockWrite a v => Sys2Proof.Machine.execLtcRstauthLockWrite a v s
  | .refclkLoss => Sys2Proof.Machine.execRefclkLoss s
  | .refclkReturn => Sys2Proof.Machine.execRefclkReturn s
  | .markerMissing p lane => Sys2Proof.Machine.execMarkerMissing p lane s
  | .lnkEnable a p v => Sys2Proof.Machine.execLnkEnable a p v s
  | .keepHoldcapWrite a v => Sys2Proof.Machine.execKeepHoldcapWrite a v s
  | .ltcCoordWrite a v => Sys2Proof.Machine.execLtcCoordWrite a v s

end Sys2Proof.Machine
end

