-- ==== Sys2Proof/WellFormed.lean ====
section
/-! DEFINITION. Well-formed commands: the operands that the manual's tables admit. A command that is not well formed is none of
the table's; the machine gives it a next state all the same, and no statement rests on what that state is. -/

namespace Sys2Proof

/-- A width of at most 256 settings and a centre among them (R347). -/
def Eye.wf (e : Eye) : Bool := decide (e.width ≤ 256) && decide (e.centre < 256)

open Sys2Proof.Machine

/-- The slots of a keep course (R239, R242). -/
def keepSlotCount : Nat := 14155776

/-- The units of 64 KiB and the granules of 64 B of DRAM. -/
def unitCount : Nat := 1572864
def granuleCount : Nat := 1610612736

/-- A local address of 40 bits (R83). -/
def localAddr (addr : Nat) : Bool := decide (addr < 2 ^ 40)

/-- A lane of a port: 0-15, or 16 for LS (R49). -/
def laneNo (lane : Nat) : Bool := decide (lane ≤ 16)

/-- What the lanes deliver of a flit: at most one entry a lane, each slot of 32 B (R50). -/
def laneInsOk (ls : List LaneIn) : Bool :=
  ls.all (fun x => laneNo x.lane && x.slots.all fun b => b.length == 32) && decide (ls.map (·.lane)).Nodup

/-- What their forward error correction finds: at most one entry a lane. -/
def laneFecsOk (fs : List LaneFec) : Bool := fs.all (fun x => laneNo x.lane) && decide (fs.map (·.lane)).Nodup

/-- A private write that is a valid read, or a valid write (R42). -/
def readFrame (f : List Byte) : Bool := fieldB f 0 1 == 1 && f.length == 5 && decide (fieldB f 4 1 < 16)
def writeFrame (f : List Byte) : Bool := fieldB f 0 1 == 2 && f.length == 9 && decide (fieldB f 4 1 < 16)

/-- A packet with one of some opcodes (R82). -/
def pktOf (k : Pkt) (opcs : List Nat) : Bool := opcs.contains k.opc.toNat

/-- A descriptor of 64 B with an opcode (R116). -/
def descOf (d : List Byte) (opc : Nat) : Bool := d.length == 64 && fieldB d 0 1 == opc

/-- A unit of rolling recalibration (R352). -/
def unitOk : CalUnit → Bool
  | .data c pc => decide (c < 32) && decide (pc < 2)
  | .cmd c => decide (c < 32)
  | .keep k => decide (k < 2)

/-- A command is well formed. -/
def Instr.wf : Instr → Bool
  | .lintelForceNChange _ => true
  | .pageProgramComplete k slot _ => decide (k < 2) && decide (slot < keepSlotCount)
  | .regLoRead _ addr => localAddr addr
  | .regHiRead _ addr => localAddr addr
  | .regLoWrite _ addr _ => localAddr addr
  | .regHiWrite _ addr _ => localAddr addr
  | .registerWrite _ addr _ => localAddr addr
  | .entdaa _ => true
  | .setdasa _ => true
  | .setnewda _ => true
  | .rstdaa => true
  | .enec => true
  | .disec => true
  | .getpid => true
  | .getbcr => true
  | .getdcr => true
  | .getstatus => true
  | .setmwl _ => true
  | .setmrl _ => true
  | .getmwl => true
  | .getmrl => true
  | .rstactNoReset => true
  | .rstactSidebandReset => true
  | .rstactColdReset => true
  | .cccNotAcknowledged _ _ => true
  | .privateWriteReadOp frame => readFrame frame
  | .privateWriteWriteOp frame => writeFrame frame
  | .privateWriteInvalid frame => !(readFrame frame || writeFrame frame)
  | .privateRead => true
  | .semAcquire _ n _ => decide (n < 32)
  | .semRelease _ n _ => decide (n < 32)
  | .semRenew _ n _ => decide (n < 32)
  | .semLeaseExpiry n => decide (n < 32)
  | .ksSessionWrite _ _ => true
  | .evtAckSeqWrite _ _ => true
  | .eventMsgDeferredSend n => decide (n < 4)
  | .signalDetect _ => true
  | .capabilityMarkerReceived _ marker => laneNo marker.lane && marker.bytes.length == 8
  | .negotiateTimeout _ => true
  | .trainGenerationDone _ _ => true
  | .alignDone _ _ lane => laneNo lane
  | .fomWindowEnd _ lane hist _ => laneNo lane && hist.length == 32
  | .alignmentMarkerReceived _ lane marker => laneNo lane && marker.length == 8
  | .laneLossOfLock _ lane => laneNo lane
  | .signalLossTimeout _ => true
  | .lnkRetrain _ _ _ => true
  | .lnkDisable _ _ _ => true
  | .lnkLintelCloseWrite _ _ _ => true
  | .dataFlitReceived _ lanes fec => laneInsOk lanes && laneFecsOk fec
  | .idleFlitReceived _ lanes fec => laneInsOk lanes && laneFecsOk fec
  | .initFlitReceived _ lanes fec => laneInsOk lanes && laneFecsOk fec
  | .nakRepeatTimer _ => true
  | .ackTimer _ => true
  | .initTimer _ => true
  | .replayTimeout _ => true
  | .rd _ pkt _ => pktOf pkt [0x01]
  | .wr _ pkt _ => pktOf pkt [0x02]
  | .fadd _ pkt _ => pktOf pkt [0x03]
  | .cas64 _ pkt _ => pktOf pkt [0x04]
  | .cas128 _ pkt _ => pktOf pkt [0x05]
  | .msgReceived _ pkt => pktOf pkt [0x0C]
  | .rstPacket _ pkt => pktOf pkt [0x0D]
  | .rstPacketResetStart => true
  | .rspReceived _ pkt => pktOf pkt [0x10]
  | .reservedOpcPacket _ pkt => !(pktOf pkt [0x00, 0x01, 0x02, 0x03, 0x04, 0x05, 0x08, 0x09, 0x0C, 0x0D, 0x10])
  | .packetTransit _ pkt => !pkt.nbr
  | .hopPacketForward _ pkt => pkt.nbr
  | .responseTimeout _ => true
  | .linkwaitExpiry _ _ => true
  | .masterPortAdmit _ _ => true
  | .wqEnable _ _ _ => true
  | .wqDisable _ _ _ => true
  | .sqDoorbell _ _ _ => true
  | .cqDoorbell _ _ _ => true
  | .descriptorFetchStart _ => true
  | .descriptorDispatch => true
  | .nop _ d => descOf d 0x00
  | .fence _ d => descOf d 0x01
  | .chiselRun _ d => descOf d 0x10
  | .copy _ d => descOf d 0x11
  | .fill _ d => descOf d 0x12
  | .keepCheckpoint _ d => descOf d 0x20
  | .keepArm _ d => descOf d 0x21
  | .keepDisarm _ d => descOf d 0x22
  | .keepStatus _ d => descOf d 0x23
  | .keyShareSupply _ d => descOf d 0x24
  | .keyShareClear _ d => descOf d 0x24
  | .holdupCharacterize _ d => descOf d 0x25
  | .characterizeEnd _ => true
  | .bistRequest _ d => descOf d 0x30
  | .telemetrySnapshot _ d => descOf d 0x31
  | .repairQuery _ d => descOf d 0x32
  | .fwStage _ d _ => descOf d 0x40
  | .fwActivate _ d => descOf d 0x41
  | .keystoneRestartDone _ => true
  | .completionMsgTimer _ => true
  | .channelRequestAccept _ => true
  | .commandSlot _ _ _ => true
  | .refreshDue _ _ _ => true
  | .openRowIdleTimeout _ _ _ => true
  | .channelIdleRequest _ => true
  | .channelIdleTimeout _ => true
  | .selfRefreshExit _ => true
  | .mcDlyapply _ _ _ => true
  | .dlyApplyPullinTimeout _ _ => true
  | .mortarHeaderHandshake _ => true
  | .mortarDataBeat _ => true
  | .guaranteeMeterTick => true
  | .guaranteeWindowEnd => true
  | .throttleCapWindow => true
  | .paceMeterWindow _ _ => true
  | .mtrCommit _ _ => true
  | .programReadDone _ _ _ _ => true
  | .jobAdmit => true
  | .sliceIssue => true
  | .sliceDataArrive _ _ _ => true
  | .chiselCycle _ => true
  | .groupSortDone _ => true
  | .outputWritesAnswered _ _ _ _ => true
  | .jobCompletionSent _ => true
  | .chiselPaceWindow _ => true
  | .trickleCopyStart _ => true
  | .sealTimer => true
  | .sealReadbackDone _ _ => true
  | .foldMapWritten => true
  | .holdSenseSample _ => true
  | .energyBudgetUpdate => true
  | .pwrFailNFall => true
  | .pwrFailNRise => true
  | .powerReturn10ms => true
  | .saveUnitsDrained => true
  | .saveHoldTimeout _ => true
  | .restoreImageChosen _ _ => true
  | .restoreMapLoaded => true
  | .hotPassTimeout => true
  | .restoreUnitDone unit bad => decide (unit < unitCount) && bad.all (fun i => decide (i < 16))
  | .touchFetchDone unit bad _ => decide (unit < unitCount) && bad.all (fun i => decide (i < 16))
  | .vauxRise => true
  | .vauxLoss => true
  | .porRelease _ _ => true
  | .railGood _ => true
  | .railUndervoltage _ => true
  | .resetNAssert => true
  | .resetNRelease => true
  | .rstCmdWarm _ _ => true
  | .rstCmdCold _ _ => true
  | .rstRecoverExit _ _ => true
  | .rstBlkreq _ _ => true
  | .blockUnitIdle _ => true
  | .watchdogExpiry => true
  | .startTimeout => true
  | .ready60s => true
  | .resetProgramWaitTimeout _ => true
  | .resetIntervalEnd => true
  | .powerupSelftestDone _ _ _ _ => true
  | .fuseLoadCommit => true
  | .keepBusTrained eyes0 eyes1 => eyes0.length == 180 && eyes1.length == 180 && (eyes0 ++ eyes1).all Eye.wf
  | .firmwareStart => true
  | .powerupCalDone m => m.zlane.length == 4 && m.sgain.length == 40 && m.soff.length == 88 && m.dtrim.length == 32 &&
    m.ktrim.length == 2 && m.keep.length == 2 && m.keep.all fun es => es.length == 180 && es.all Eye.wf
  | .channelTrainingDone _ eyes stby => eyes.length == 120 && stby.length == 8 && (eyes ++ stby).all Eye.wf
  | .keepRecoveryDone granule _ => decide (granule < granuleCount)
  | .scrubUnitIssue _ => true
  | .scrubBehindTimeout => true
  | .repairFuseRetry => true
  | .rowRepairHold _ _ _ row _ => decide (row < 98304)
  | .celogEntryFree _ _ _ => true
  | .segmentSample r => r.length == 40
  | .sensorConversion r => r.length == 88
  | .sensorNoConversion _ => true
  | .thermalModelUpdate nodes _ => nodes.length == 80
  | .hwEstimateUpdate => true
  | .thmSensmaskWrite _ _ _ => true
  | .rollVisitStart u => unitOk u
  | .sweepDone u _ => unitOk u
  | .visitIncompleteTimeout u => unitOk u
  | .calKapply _ _ _ => true
  | .keepBusGap _ => true
  | .trackStepTimer fs trim => fs.length == 32 && trim.length == 32
  | .trackImpedanceTimer _ zlane => zlane.length == 4
  | .trackGainTimer _ _ => true
  | .trackOffsetTimer v => v.length == 88
  | .sliceTick => true
  | .sliceResourceGranted _ => true
  | .sliceEnd _ _ _ _ => true
  | .sliceBudgetExpiry => true
  | .bypass => true
  | .idcode => true
  | .samplePreload _ => true
  | .extest => true
  | .clamp => true
  | .highz => true
  | .unlockNonce => true
  | .unlockLoad _ => true
  | .scanEnter _ courses => courses.all (fun p => decide (p < 20))
  | .fuseProgramWord _ _ => true
  | .lifecycleAdvance _ _ => true
  | .lifecycleRetire _ _ => true
  | .fuseProgramDone _ _ => true
  | .fusLockWrite _ _ => true
  | .fusRdaddrWrite _ _ => true
  | .ltcRstauthLockWrite _ _ => true
  | .refclkLoss => true
  | .refclkReturn => true
  | .markerMissing _ lane => laneNo lane
  | .lnkEnable _ _ _ => true
  | .keepHoldcapWrite _ _ => true
  | .ltcCoordWrite _ _ => true

end Sys2Proof
end

