-- ==== Sys2Proof/Safety.lean ====
section
/-! DEFINITION. What counts as a safe run, in the terms that the statements use. -/

namespace Sys2Proof.Machine

/-- A step goes on: it neither faults nor refuses. -/
def State.goes (s : State) : Prop := ∃ t, step s = .next t

/-- Every waiting command is well formed. -/
def State.queueWf (s : State) : Bool := s.pending.all Instr.wf

/-- DRAM is in its canonical form: addresses rising, no byte that equals what an unlisted address reads as.
(DESIGN CHOICE, log entry 12) -/
def State.memWf (s : State) : Bool := Memory.wf s.dram.mem

/-- The register file is in its canonical form: addresses rising. -/
def State.regsWf (s : State) : Bool := tsorted s.regs && tsorted s.act

/-- An access arrives and is performed (R34, R35, R82, R90, R103): on a port the state lets packets reach the base course, the
packet travels in class MGT, it is hop-addressed or the stack has its coordinate, and the port's link has restarted since a PORT
reset (R188); the sideband and the Keystone work in every state but OFF. -/
def State.gateOpen (s : State) (a : Access) : Bool :=
  match a.path with
  | .port p => s.packetsReach p && vcClass a.vc.toNat == 2 && (a.hop.isSome || s.hasCoord) && !(s.port p).rstHold
  | _ => s.dev != .off

/-- An access to the register at a map address is served: it arrives, and its block can be reached. -/
def State.served (s : State) (a : Access) (r : Nat) : Bool := s.gateOpen a && s.reachable a.path (r / 0x100000)

/-- The state once the packet that carries an access has left its receive buffer and stands at the register switch (R96,
R167). -/
def State.arrived (s : State) (a : Access) (opc : Nat) : State :=
  match a.path with
  | .port p => (s.takeAccess p a opc).cfgBeat p
  | _ => s.cfgBeat 7

/-- A packet addressed to this stack by its coordinate reaches it (R90, R93, R103). -/
def State.forMe (s : State) (p : Nat) (k : Pkt) : Bool :=
  s.packetsReach p && !k.nbr && s.hasCoord && k.dest.toNat == s.me

/-- A memory request to this stack leaves its master port as it comes (R82, R83, R103, R172, R173, R188): it is well formed,
memory is in service, no cause holds it, nothing waits before it, and its link has restarted since a PORT reset. -/
def State.admitted (s : State) (p : Nat) (k : Pkt) : Bool :=
  s.forMe p k && s.inService && !reqBad k && !s.mustPark p k && !(s.port p).rstHold

/-- A memory request to this stack is performed at once (R169, R264, R309): it leaves its master port, its way through mortar and its
channels is free, and none of its granules is held. -/
def State.performs (s : State) (p : Nat) (k : Pkt) : Bool := s.admitted p k && s.clearWay p k

/-- A granule that no repair fences and that is not poisoned (R303, R317). -/
def State.plainGran (s : State) (g : Nat) : Bool := !s.fencedGran g && !s.poisoned g

/-- A granule that a read by one of the device's own masters meets as it is: plain, of a restored unit, held by no recovery (R235,
R264, R309). -/
def State.readable (s : State) (g : Nat) : Bool := s.plainGran g && !s.unrestored (g / 64) && !s.unitHeld g

/-- A command says of a granule's read that it meets no symbol in error and no address error (R303). -/
def readsClean (obs : List CellObs) (g : Nat) : Bool := (obsOf obs g).syms.isEmpty && !(obsOf obs g).addrErr

/-- The descriptor stands next in its queue, the rotation has come to that queue, and its operation can begin: no host error, an
opcode that the device state lets execute, room in its queue and at its resource (R127, R136, R138). -/
def State.dispatches (s : State) (q : Nat) (d : List Byte) : Bool :=
  d.length == 64 && (s.queue q).fetched.head? == some d && s.nextQueue == some q && s.executes (s.opOf q d) && !(s.opOf q d).bad

/-- The state as the next descriptor of a queue has left it for its resource. -/
def State.given (s : State) (q : Nat) : State :=
  let s := s.modQueue q fun t => { t with fetched := t.fetched.tail, inflight := t.inflight + 1 }
  { s with wq := { s.wq with rot := q } }

/-- The operation that the Keystone takes up next: the first that waits for it, or where none does the one a queue has next. -/
def State.opAt (s : State) (q : Nat) (d : List Byte) : Op := s.wq.ksq.headD (s.opOf q d)

/-- The Keystone can begin a descriptor's operation (R127): it is free, and the descriptor is the first that waits for it, or none
waits and its queue dispatches it. -/
def State.begins (s : State) (q : Nat) (d : List Byte) : Bool :=
  s.ksFree (s.opAt q d) &&
  match s.wq.ksq with
  | [] => s.dispatches q d
  | o :: _ => d.length == 64 && o.q == q && o.desc == d

/-- The state as the operation has left its queue, or those that wait for the Keystone. -/
def State.handed (s : State) (q : Nat) : State :=
  if s.wq.ksq.isEmpty then s.given q else { s with wq := { s.wq with ksq := s.wq.ksq.tail } }

/-- The same, with the operation in the Keystone's hands. -/
def State.inHand (s : State) (q : Nat) (d : List Byte) : State :=
  let t := s.handed q
  { t with wq := { t.wq with ksCur := some (s.opAt q d) } }

/-- What a register holds once a write of a value has acted on it: every field by its access type; an offset that holds no
register keeps what it held (R36, R37). -/
def State.taken (s : State) (r v : Nat) : Nat :=
  match rowOf r with
  | none => s.reg r
  | some row => row.flds.foldl (fun old f => writeField v old f) (s.reg r) % 2 ^ 32

/-- The parts of the state. -/
inductive Part where
  | pending | clock | fresh | dev | prev | act | out | pins | ks | lnk | dram | mc | mtr | wq | chs | intg | keep | thm | pwr
  | fus | bst | cal
deriving DecidableEq, Repr

/-- A part is the same in two states. -/
def Part.same (s t : State) : Part → Prop
  | .pending => t.pending = s.pending
  | .clock => t.clock = s.clock
  | .fresh => t.fresh = s.fresh
  | .dev => t.dev = s.dev
  | .prev => t.prev = s.prev
  | .act => t.act = s.act
  | .out => t.out = s.out
  | .pins => t.pins = s.pins
  | .ks => t.ks = s.ks
  | .lnk => t.lnk = s.lnk
  | .dram => t.dram = s.dram
  | .mc => t.mc = s.mc
  | .mtr => t.mtr = s.mtr
  | .wq => t.wq = s.wq
  | .chs => t.chs = s.chs
  | .intg => t.intg = s.intg
  | .keep => t.keep = s.keep
  | .thm => t.thm = s.thm
  | .pwr => t.pwr = s.pwr
  | .fus => t.fus = s.fus
  | .bst => t.bst = s.bst
  | .cal => t.cal = s.cal

/-- Between two states nothing but the named parts, and registers that satisfy `rs`, has changed. -/
def State.only (s t : State) (ps : List Part) (rs : Nat → Prop) : Prop :=
  (∀ p, p ∈ ps ∨ p.same s t) ∧ ∀ r, rs r ∨ t.reg r = s.reg r

/-- What the log, the alert and a packet that leaves may change beside the registers of the lattice. -/
def wires : List Part := [.out, .ks, .lnk]

/-- A register of the lattice block: the byte and drop counters that a departing packet moves. -/
def inLtc (r : Nat) : Prop := r / 0x100000 = 4

end Sys2Proof.Machine
end

