-- ==== Sys2Proof/Certificates/Slice0/Obligations.lean ====
section
/-! DEFINITION. The statements for the provers, each citing the rules of the spec it formalises. `s.only t fields regs` says
that `t` differs from `s` at most in the fields named and in the registers `regs` admits: it is every statement's frame. -/

open Sys2Proof Sys2Proof.Machine

/-- spec/95_what_each_step_holds.md and log entry 1: step takes the command at the front of the queue and answers exec of
it on the state with the queue's rest. -/
def Obligations.StepRunsFront : Prop :=
  ∀ (c : Instr) (cs : List Instr) (s : State), s.pending = c :: cs → step s = exec c { s with pending := cs }

/-- R43, R75 and the model's choice (log entry 2): on an empty queue one nanosecond passes. Device time counts it in every
state but OFF, modulo 2^64; beside it the clock, the scrub pass's running time (R311) and the waiting times of the master
ports (MTR_HELD_m, R190) move; and each ACTIVE port sends one IDLE (R75, R78), which settles the ACK, the NAK and the credits
that it carries. Nothing else changes. -/
def Obligations.TickOnEmptyQueue : Prop :=
  ∀ s : State, s.pending = [] → ∃ t, step s = .next t ∧
    t.clock = s.clock + 1 ∧
    t.ks = { s.ks with time := if s.dev = .off then s.ks.time else (s.ks.time + 1) % 2 ^ 64 } ∧
    t.intg = { s.intg with scrubRun := s.intg.scrubRun + b2n s.scrubbing } ∧
    (∀ p < 4, let x := s.port p
      (x.st = .active → t.port p = { x with
          unacked := 0
          nakDue := false
          txSlot := (x.txSlot + 8) % 16
          ret := List.zipWith (· - ·) x.ret (x.ret.map (min 255)) } ∧
        ∃ lanes, .flit p (flitBytes 0 15 x.seq x.rxSeq (if x.nakDue = true then 2 else 1) (x.ret.map (min 255)) []) lanes ∈ t.out) ∧
      (x.st ≠ .active → t.port p = x)) ∧
    s.only t [.clock, .ks, .intg, .mtr, .lnk, .out] fun r => ∃ m < 8, r = MTR_HELD m

/-- R36, R37: a served write to a register of the mortar block that is neither MTR_COMMIT nor half of a pair gives the
register what its access types let through, an offset that holds no register ignores it, and nothing else changes; a
write to a block that the present state does not reach is answered NO_TARGET (4) without effect. R38: a served read of
the low half of a 64-bit register answers that half and latches the high half for its path and requester; the read of
the high half with a matching latch answers what was latched, and leaves the latch. Nothing else changes. R38, R43: a
served write of the low half only latches the value; the write of the high half with a matching latch puts both halves
in force at once and empties the latch. KS_TIME then counts on from the value written. R38: an access to a high half
without a matching latch is answered RETRY (status 5) and changes nothing. -/
def Obligations.RegisterAccesses : Prop :=
  (∀ (s : State) (a : Access) (r : Nat) (v : Word), s.gateOpen a = true → r < 0xF00000 → r % 4 = 0 →
     (s.reachable a.path (r / 0x100000) = false →
       exec (.registerWrite a (0xFF00000000 + r) v) s = .next ((s.arrived a 9).respond a 9 4 0)) ∧
     (s.reachable a.path (r / 0x100000) = true → r / 0x100000 = 7 → r ≠ MTR_COMMIT → isLo r = false → isHi r = false →
       ∃ u, exec (.registerWrite a (0xFF00000000 + r) v) s = .next (u.respond a 9 0 0) ∧
         (rowOf r = none → u = s.arrived a 9) ∧ u.reg r = s.taken r v.toNat ∧
         (s.arrived a 9).only u [] fun x => x = r)) ∧
  (∀ (s : State) (a : Access) (r : Nat), s.served a r = true → isLo r = true →
     exec (.regLoRead a (0xFF00000000 + r)) s =
       .next (((s.arrived a 8).setLatch a
         (some { lo := r, requester := a.requester, isRead := true, half := (s.arrived a 8).view (r + 4) })).respond a 8 0
           ((s.arrived a 8).view r)) ∧
     ∀ h, s.latch a = some { lo := r, requester := a.requester, isRead := true, half := h } →
       exec (.regHiRead a (0xFF00000000 + (r + 4))) s = .next ((s.arrived a 8).respond a 8 0 h)) ∧
  (∀ (s : State) (a : Access) (r : Nat) (v : Word), s.served a r = true → isLo r = true →
     exec (.regLoWrite a (0xFF00000000 + r) v) s =
       .next (((s.arrived a 9).setLatch a
         (some { lo := r, requester := a.requester, isRead := false, half := v.toNat })).respond a 9 0 0) ∧
     ∀ h, s.latch a = some { lo := r, requester := a.requester, isRead := false, half := h } →
       ∃ u, exec (.regHiWrite a (0xFF00000000 + (r + 4)) v) s = .next (u.respond a 9 0 0) ∧
         u.latch a = none ∧
         (r = KS_TIME_LO → u.ks.time = v.toNat * 2 ^ 32 + h) ∧
         (r ≠ KS_TIME_LO → u.reg r = (s.arrived a 9).taken r h ∧ u.reg (r + 4) = (s.arrived a 9).taken (r + 4) v.toNat) ∧
         (s.arrived a 9).only u [.ks] fun x => x = r ∨ x = r + 4) ∧
  (∀ (s : State) (a : Access) (r : Nat) (v : Word), s.served a r = true → isLo r = true →
     (s.latched a (r + 4) true = none →
       exec (.regHiRead a (0xFF00000000 + (r + 4))) s = .next ((s.arrived a 8).respond a 8 5 0)) ∧
     (s.latched a (r + 4) false = none →
       exec (.regHiWrite a (0xFF00000000 + (r + 4)) v) s = .next ((s.arrived a 9).respond a 9 5 0)))

/-- R41: the common command codes that change the sideband's own state, in every state but OFF. The dynamic address is
assigned by ENTDAA where there is none, by a SETDASA of the static address 0x50 + SBADDR (R40) where there is none, and
replaced by SETNEWDA where there is one (log entry 11), RSTDAA clears it, ENEC and DISEC set the in-band interrupt enable, SETMWL, SETMRL and RSTACT with defining byte 0x00 are
accepted without effect. R38, R41, R45: RSTACT with defining byte 0x01 resets the sideband's logic: its latch is
emptied and the semaphores owned over it are freed with BROKEN set. That its dynamic address, its result and its
interrupt enable go back to what they are after a power-on is the model's choice (log entry 11). R41, R42, R47: the
codes that return data put their bytes on the sideband and change nothing else. GETSTATUS returns bit 0 while ALERT_N
is asserted; a private read returns the data and the status of the latest private write. The order of the bytes of
GETPID and GETSTATUS is the model's choice (log entry 11). R34, R36, R42: a private write that forms a read of a
register which is no half of a pair leaves its value as the result of the next private read; one that forms a write of
such a register of the mortar block does what a register write does and leaves status 0, and both go by the register
switch as M7 (R167, `State.cfgBeat`); one that forms no valid access leaves NO_TARGET (1 on the sideband). Where an event cannot arise, nothing changes (the model's choice, log
entry 3). -/
def Obligations.SidebandCommands : Prop :=
  (∀ s : State, s.dev ≠ .off →
     (∀ da, s.ks.dynAddr = none → exec (.entdaa da) s = .next { s with ks := { s.ks with dynAddr := some da.toNat } }) ∧
     (∀ sa da, (sa.toNat = 0x50 + s.ks.straps / 2 % 8 ∧ s.ks.dynAddr = none →
         exec (.setdasa ⟨sa, da⟩) s = .next { s with ks := { s.ks with dynAddr := some da.toNat } }) ∧
       (sa.toNat ≠ 0x50 + s.ks.straps / 2 % 8 ∨ s.ks.dynAddr ≠ none → exec (.setdasa ⟨sa, da⟩) s = .next s)) ∧
     (∀ da d, s.ks.dynAddr = some d → exec (.setnewda da) s = .next { s with ks := { s.ks with dynAddr := some da.toNat } }) ∧
     exec .rstdaa s = .next { s with ks := { s.ks with dynAddr := none } } ∧
     exec .enec s = .next { s with ks := { s.ks with ibi := true } } ∧
     exec .disec s = .next { s with ks := { s.ks with ibi := false } } ∧
     (∀ n, exec (.setmwl n) s = .next s) ∧ (∀ n, exec (.setmrl n) s = .next s) ∧ exec .rstactNoReset s = .next s) ∧
  (∀ s : State, s.dev ≠ .off → ∃ t, exec .rstactSidebandReset s = .next t ∧
     t.ks = { s.ks with
       dynAddr := none, ibi := true, result := none, latches := setAt s.ks.latches 4 none,
       sems := s.ks.sems.map fun (x : Sem) => if x.held = true ∧ x.src = 1 then { broken := true } else x } ∧
     s.only t [.ks] fun _ => False) ∧
  (∀ s : State, s.dev ≠ .off →
     exec .getbcr s = .next { s with out := s.out ++ [.sideband [0x06]] } ∧
     exec .getdcr s = .next { s with out := s.out ++ [.sideband [0x00]] } ∧
     exec .getpid s = .next { s with out := s.out ++ [.sideband (leBytes 6 s.pid).reverse] } ∧
     exec .getstatus s = .next { s with out := s.out ++ [.sideband [0, if s.alert then 1 else 0]] } ∧
     exec .getmwl s = .next { s with out := s.out ++ [.sideband [0, 8]] } ∧
     exec .getmrl s = .next { s with out := s.out ++ [.sideband [0, 5]] } ∧
     (∀ c d, exec (.cccNotAcknowledged c d) s = .next { s with out := s.out ++ [.nack] }) ∧
     (∀ w st, s.ks.result = some (w, st) →
       exec .privateRead s = .next { s with out := s.out ++ [.sideband (leBytes 4 w ++ leBytes 1 st)] })) ∧
  (∀ (s : State) (f : List Byte), s.dev ≠ .off →
     (∀ r, frameReads f = true → frameAddr f = 0xFF00000000 + r → r < 0xF00000 → r % 4 = 0 →
       s.reachable .sideband (r / 0x100000) = true → isLo r = false → isHi r = false → s.fuseBusy = false →
       exec (.privateWriteReadOp f) s =
         .next { s.cfgBeat 7 with ks := { s.ks with result := some ((s.cfgBeat 7).view r, 0) } }) ∧
     (∀ r, frameWrites f = true → frameAddr f = 0xFF00000000 + r → r < 0xF00000 → r % 4 = 0 → r / 0x100000 = 7 →
       s.reachable .sideband 7 = true → isLo r = false → isHi r = false → r ≠ MTR_COMMIT →
       ∃ t, exec (.privateWriteWriteOp f) s = .next t ∧ t.ks = { s.ks with result := some (0, 0) } ∧
         t.reg r = s.taken r (fieldB f 5 4) ∧
         (s.cfgBeat 7).only t [.ks] fun x => x = r) ∧
     (frameReads f = false → frameWrites f = false →
       exec (.privateWriteInvalid f) s = .next { s with ks := { s.ks with result := some (0, 1) } }))

/-- R45: what a served command of KS_SEM_CMD_n does to its semaphore, as the semaphore stands once a lease that has run
out is applied: acquire grants a free one and keeps BROKEN, renews the lease of one that the requester holds under the
same epoch, takes it anew with BROKEN under another, and leaves one that another holds; release frees and renew
reloads the lease only for the owner under the same epoch. The other semaphores and everything else stay. R45: a lease
that runs out frees a held semaphore with BROKEN set; a write of KS_SESSION frees in the same way what its writer
holds under another epoch. Nothing else changes. -/
def Obligations.Semaphores : Prop :=
  (∀ (s : State) (a : Access) (n : Nat) (e : BitVec 16) (x : Sem), s.served a (KS_SEM_CMD n) = true →
     s.ks.sems[n]? = some x →
     let y := x.expire s.clock
     let grant := fun b => Sem.grant a e.toNat b s.leaseEnd
     let mine := y.ownedBy a = true ∧ y.epoch = e.toNat
     let done := fun z => ({ s.arrived a 9 with ks := { s.ks with sems := s.ks.sems.set n z } }).respond a 9 0 0
     (y.held = false → exec (.semAcquire a n e) s = .next (done (grant y.broken))) ∧
     (mine → exec (.semAcquire a n e) s = .next (done { y with expiry := s.leaseEnd })) ∧
     (y.ownedBy a = true → y.epoch ≠ e.toNat → exec (.semAcquire a n e) s = .next (done (grant true))) ∧
     (y.held = true → y.ownedBy a = false → exec (.semAcquire a n e) s = .next (done y)) ∧
     (mine → exec (.semRelease a n e) s = .next (done {})) ∧
     (¬mine → exec (.semRelease a n e) s = .next (done y)) ∧
     (mine → exec (.semRenew a n e) s = .next (done { y with expiry := s.leaseEnd })) ∧
     (¬mine → exec (.semRenew a n e) s = .next (done y))) ∧
  ((∀ (s : State) (n : Nat) (x : Sem), s.ks.sems[n]? = some x → x.held = true → x.expiry.isSome = true →
     exec (.semLeaseExpiry n) s = .next { s with ks := { s.ks with sems := s.ks.sems.set n { broken := true } } }) ∧
   ∀ (s : State) (a : Access) (e : BitVec 16), s.served a KS_SESSION = true →
     exec (.ksSessionWrite a e) s = .next (({ s.arrived a 9 with ks := { s.ks with
       sems := s.ks.sems.map fun (x : Sem) => if x.ownedBy a = true ∧ x.epoch ≠ e.toNat then { broken := true } else x } }).respond a 9 0 0))

/-- R46, R47: an event of severity `v` takes the next sequence: its entry stands in the log at the sequence modulo 4,096,
the write sequence rises by one, and the alert's sequence and class become its own exactly when the severity reaches
EVT_ALERT_SEV. R42, R47, R48: a served write of EVT_ACK_SEQ gives the register the value written, and sends an in-band
interrupt exactly when it takes ALERT_N from released to asserted with the interrupt enabled; an event message held
back for an enabled destination leaves as the newest event with the count of the others, and the destination holds
nothing back afterwards. -/
def Obligations.Events : Prop :=
  (∀ (s : State) (c v u d : Nat),
     let t := s.logEvent c v u d
     tget t.ks.log (s.ks.wrSeq % 4096) = some ⟨s.ks.wrSeq, s.ks.time, c, v, u, d % 2 ^ 32⟩ ∧
     (∀ q, q ≠ s.ks.wrSeq % 4096 → tget t.ks.log q = tget s.ks.log q) ∧
     t.ks.wrSeq = (s.ks.wrSeq + 1) % 2 ^ 32 ∧
     t.ks.alertSeq = (if s.fld EVT_ALERT_SEV_SEV ≤ v then s.ks.wrSeq else s.ks.alertSeq) ∧
     s.only t [.ks, .out] fun _ => False) ∧
  ((∀ (s : State) (a : Access) (v : Word), s.served a EVT_ACK_SEQ = true →
     ∃ u, exec (.evtAckSeqWrite a v) s = .next (u.respond a 9 0 0) ∧ u.reg EVT_ACK_SEQ = v.toNat ∧
       u.alert = seqAfter s.ks.alertSeq v.toNat ∧
       u.out = s.out ++ (if s.alert = false ∧ u.alert = true ∧ s.ks.ibi = true then [.ibi s.ks.alertClass] else []) ∧
       (s.arrived a 9).only u [.out] fun r => r = EVT_ACK_SEQ) ∧
   ∀ (s : State) (n : Nat) (d : MsgDest) (e : Ev), s.ks.dests[n]? = some d → d.newest = some e →
     s.flag (EVT_MSGDEST_EN n) = true →
     exec (.eventMsgDeferredSend n) s =
       .next ({ s with ks := { s.ks with dests := s.ks.dests.set n { lastSend := some s.clock } } }.injectMsg
         (eventMsg s.me (s.fld (EVT_MSGDEST_DEST n)) e d.unsent)))

/-- R53, R54, R69, R71: signal takes a port in DETECT to NEGOTIATE, at YXL-1 where COMPAT is strapped or the device is in
RECOVERY, and fixes the GENMAX it offers, 0 as 1; a negotiation that fails falls back to YXL-1; the first good capability
marker at the negotiated encoding fixes the generation, the smallest of both ends' (YXL-1 in RECOVERY, at most 2 with a kind
2 partner), and starts TRAIN with every lane's CLASS 3. R62: one whose CRC fails is counted on its lane and does nothing else in
NEGOTIATE; R58: a good one ends its lane's run of marker errors, and outside NEGOTIATE a bad one is a marker error as any other.
R28, R65: a closed lintel passes the marker on to the other port of its ring. In DISABLED and DETECT, and on a lane that
does not exist, none of them does anything. That a MAXGEN of 0 of the partner counts as 1 is the model's choice (log entry
135), and so is that an event that cannot arise changes nothing (log entry 3). -/
def Obligations.PortNegotiates : Prop :=
  ∀ (s : State) (p : Fin 4) (lane : Nat) (m : List Byte),
    ((s.port p).st = .detect → exec (.signalDetect p) s =
      .next (s.modPort p fun t => { t with
        st := .negotiate, slowNeg := s.ks.compat || s.dev == .recovery, genMax := max 1 (s.fld (LNK_CTL_GENMAX p)) })) ∧
    ((s.port p).st ≠ .detect → exec (.signalDetect p) s = .next s) ∧
    ((s.port p).st = .negotiate → exec (.negotiateTimeout p) s = .next (s.modPort p fun t => { t with slowNeg := true })) ∧
    ((s.port p).st ≠ .negotiate → exec (.negotiateTimeout p) s = .next s) ∧
    let ended := s.modPort p fun t => { t with lanes := modAt t.lanes lane fun ln => { ln with mkRun := 0 } }
    ((s.port p).st = .disabled ∨ (s.port p).st = .detect → exec (.capabilityMarkerReceived p ⟨lane, m⟩) s = .next s) ∧
    (17 ≤ lane → (s.port p).st ≠ .bypassed → exec (.capabilityMarkerReceived p ⟨lane, m⟩) s = .next s) ∧
    (lane < 17 → (s.port p).st = .train ∨ (s.port p).st = .align ∨ (s.port p).st = .active →
      exec (.capabilityMarkerReceived p ⟨lane, m⟩) s = .next (if markerOk m = true then ended else s.markerError p lane)) ∧
    (lane < 17 → (s.port p).st = .bypassed → exec (.capabilityMarkerReceived p ⟨lane, m⟩) s =
      .next { s with out := s.out ++ [.pass (p.val ^^^ 1) lane m] }) ∧
    (lane < 17 → (s.port p).st = .negotiate → markerOk m = false →
      ∃ u, exec (.capabilityMarkerReceived p ⟨lane, m⟩) s = .next u ∧ (u.port p).st = .negotiate ∧
        u.fld (LNK_LMKERR_COUNT p lane) = satAdd 32 (s.fld (LNK_LMKERR_COUNT p lane)) 1 ∧
        s.only u [.lnk] fun r => r = LNK_LMKERR p lane) ∧
    let b1 := fieldB m 1 1
    let cap := fieldB m 3 1
    let kind := cap / 4 % 4
    let common := min (s.port p).genMax (min (max 1 (cap % 4)) (if kind = 2 then 2 else 3))
    let fits := bitAt b1 7 = true ∧ b1 / 32 % 4 = (if (s.port p).slowNeg = true then 1 else 3)
    (lane < 17 → (s.port p).st = .negotiate → markerOk m = true → ¬fits → exec (.capabilityMarkerReceived p ⟨lane, m⟩) s = .next ended) ∧
    (lane < 17 → (s.port p).st = .negotiate → markerOk m = true → fits →
      ∃ u, exec (.capabilityMarkerReceived p ⟨lane, m⟩) s = .next (if kind = 2 then u.post 0x020A 0 p 0 else u) ∧
        (u.port p).st = .train ∧ (u.port p).gen = (if s.dev = .recovery then 1 else common) ∧
        u.fld (LNK_STAT_PARTNER p) = kind ∧ u.fld (LNK_STAT_PGEN p) = cap % 4 ∧ u.fld (LNK_PARTNER_CAP p) = cap ∧
        (∀ n < 17, u.fld (LNK_LSTAT_CLASS p n) = 3) ∧
        s.only u [.lnk, .cal] fun r => r = LNK_STAT p ∨ r = LNK_PARTNER p ∨ r = CAL_ZLANE p ∨ ∃ n < 17, r = LNK_LSTAT p n)

/-- R52, R55, R61, R69: training at a generation ends. Each lane's INV says what polarity training found. Where the whole width
works, alone or with LS in place of one lane, the port aligns at that generation and each lane's FAILED says what training
found; the whole width is 16 lanes, and in RECOVERY the four lanes L0-L3; else it goes on to the next lower generation; when
all are tried it aligns at the tried generation with the highest payload, of two with equal payload at the lower; and where no
group works at any, it goes back to DETECT with 0x0202. Outside TRAIN nothing happens. R53, R63: deskew ends. A skew of up to
40 ns is removed: the port goes ACTIVE, an outage ends (R102), the training is counted and 0x0201 posted (and 0x0206 below the
highest common generation); lanes that failed meanwhile are treated so then (the model's reading, log entry 136). A larger one
gives the worst lane up and trains once more, from the highest common generation (the model's choice, log entry 135); the
second time the port goes back to DETECT with 0x0207. Where an event cannot arise, nothing changes (the model's choice, log
entry 3). That 0x0202 names the skew (5) where such a training finds no group is the model's reading (log entry 135). -/
def Obligations.TrainingResults : Prop :=
  (∀ (s : State) (p : Fin 4) (good inv : BitVec 17),
     let t := s.port p
     let v := s.setPolarity p inv
     let ok := fun n => good.getLsbD n && !s.flag (LNK_LCTL_OUT p n) && t.skewLane != some n
     let failed := (List.range 17).filter fun n => !ok n
     let want := if s.dev = .recovery then 4 else 16
     let best := bestGroup (fun l => ok (s.physOf p l)) (t.partnerLs && ok 16) (if s.dev = .recovery then [(4, 0)] else groupOrder)
     let b := best.getD (0, 0, 16)
     let tried := t.tried ++ [⟨t.gen, b.1, b.2.1, b.2.2, failed⟩]
     let polar := fun u : State => ∀ n < 17, u.flag (LNK_LSTAT_INV p n) = inv.getLsbD n
     polar v ∧ (s.only v [] fun r => r = LNK_PARTNER p ∨ ∃ n < 17, r = LNK_LSTAT p n) ∧
     (t.st ≠ .train → exec (.trainGenerationDone p ⟨good, inv⟩) s = .next s) ∧
     (t.st = .train → ∀ ls, best = some (want, 0, ls) →
       ∃ u, exec (.trainGenerationDone p ⟨good, inv⟩) s = .next u ∧
         u.port p = { t with st := .align, tried := tried } ∧
         u.fld (LNK_STAT_WIDTH p) = widthCode want ∧ u.fld (LNK_STAT_GROUP p) = 0 ∧ u.fld (LNK_STAT_LS_USE p) = ls ∧
         u.fld (LNK_STAT_GEN p) = t.gen % 4 ∧ (∀ l < 17, u.flag (LNK_LSTAT_FAILED p l) = !ok l) ∧ polar u ∧
         v.only u [.lnk] fun r => r = LNK_STAT p ∨ ∃ l < 17, r = LNK_LSTAT p l) ∧
     (t.st = .train → (∀ ls, best ≠ some (want, 0, ls)) → 1 < t.gen →
       exec (.trainGenerationDone p ⟨good, inv⟩) s = .next (v.modPort p fun t => { t with tried := tried, gen := t.gen - 1 })) ∧
     (t.st = .train → (∀ ls, best ≠ some (want, 0, ls)) → t.gen ≤ 1 →
       ∀ y ∈ tried, 0 < y.width → (∀ z ∈ tried, z ≠ y → laneRate z.gen * z.width < laneRate y.gen * y.width ∨
           (laneRate z.gen * z.width = laneRate y.gen * y.width ∧ y.gen < z.gen)) →
         ∃ u, exec (.trainGenerationDone p ⟨good, inv⟩) s = .next u ∧
           u.port p = { t with st := .align, tried := tried, gen := y.gen } ∧
           u.fld (LNK_STAT_WIDTH p) = widthCode y.width ∧ u.fld (LNK_STAT_GROUP p) = y.group % 8 ∧
           u.fld (LNK_STAT_LS_USE p) = y.ls % 32 ∧ u.fld (LNK_STAT_GEN p) = y.gen % 4 ∧
           (∀ l < 17, u.flag (LNK_LSTAT_FAILED p l) = y.failed.contains l) ∧ polar u ∧
           v.only u [.lnk] fun r => r = LNK_STAT p ∨ ∃ l < 17, r = LNK_LSTAT p l) ∧
     (t.st = .train → best = none → t.gen ≤ 1 → (∀ x ∈ t.tried, x.width = 0) →
       exec (.trainGenerationDone p ⟨good, inv⟩) s =
         .next ((v.startOver p .detect).post 0x0202 2 p (if t.skewTried = true then 5 else 2)))) ∧
  (∀ (s : State) (p : Fin 4) (skewPs lane : Nat),
     let t := s.port p
     (t.st ≠ .align → exec (.alignDone p skewPs lane) s = .next s) ∧
     (t.st = .align → skewPs ≤ 40000 → ∃ u,
       let v := u.post 0x0201 0 p (t.gen + 4 * s.fld (LNK_STAT_WIDTH p) + 16 * s.fld (LNK_STAT_GROUP p) + 256 * t.tried.length)
       exec (.alignDone p skewPs lane) s =
         .next ((if t.gen < t.maxCommon then v.post 0x0206 1 p (t.gen + 4 * t.maxCommon) else v).failedInAlign p) ∧
       u.port p = { t with st := .active, initRx := false, expired := 0, outage := false, txSlot := 0, rxSlot := 0,
                           ret := List.replicate 6 0 } ∧
       u.fld (LNK_SKEW_SKEW_PS p) = skewPs ∧
       u.fld (LNK_TRAINCNT_TRAINS p) = satAdd 16 (s.fld (LNK_TRAINCNT_TRAINS p)) 1 ∧ u.fld (LNK_STAT_LIMIT p) = s.genLimit p ∧
       s.only u [.lnk] fun r => r = LNK_SKEW p ∨ r = LNK_TRAINCNT p ∨ r = LNK_STAT p ∨ r = LTC_NBR p ∨ ∃ n < 17, r = LNK_LSTAT p n) ∧
     (t.st = .align → 40000 < skewPs → t.skewTried = true → ∃ u, exec (.alignDone p skewPs lane) s =
         .next (u.post 0x0207 2 p (skewPs / 1000 % 65536 + 65536 * (lane % 32))) ∧
       (u.port p).st = .detect ∧ u.fld (LNK_SKEW_SKEW_PS p) = min skewPs 0xFFFF ∧
       s.only u [.lnk] fun r => r = LNK_SKEW p ∨ r = LNK_STAT p ∨ ∃ n < 17, r = LNK_LSTAT p n) ∧
     (t.st = .align → 40000 < skewPs → t.skewTried = false → ∃ u, exec (.alignDone p skewPs lane) s = .next u ∧
       u.port p = { t with st := .train, skewTried := true, skewLane := some lane, tried := [], gen := t.maxCommon } ∧
       s.only u [.lnk, .cal] fun r => r = LNK_SKEW p ∨ r = CAL_ZLANE p ∨ ∃ n < 17, r = LNK_LSTAT p n)) ∧
  ∀ (s : State) (p : Nat), (∀ n < 17, s.flag (LNK_LSTAT_FAILED p n) = false ∨ s.flag (LNK_LSTAT_INUSE p n) = false) →
    s.failedInAlign p = s

/-- R57, R58, R59: a window of a lane of a port that trains or is ACTIVE gives LNK_LFOM its figure of merit and widens the
extremes; unless HFREEZE holds it, the histogram takes the window's bins, each at most 0xFFFF; an equaliser step that made
the figure worse is undone, and otherwise a setting one step away is taken; then the figure is classed. A lane outside the port, or a port that receives nothing, has no windows. R58: the class of a window is 0
from 96, 1 from 64 and 2 below. The sixteenth marginal window in a row posts 0x0203 once; from the fourth failing one on, a
lane that is not marked failed fails; any other window only moves the lane's class and its runs. R53, R58, R60: a lane in use of an ACTIVE port
that loses lock is failed at once: LS takes its place where the partner has one and it is free; a lane of another port is
marked FAILED alone. Signal lost on all
lanes takes an ACTIVE port back to DETECT with 0x0202; other ports stay as they are. R62: a marker that is due and missing, or
one whose CRC fails, counts one marker error on its lane, and from the second in a row on a lane that is not marked failed
fails, except in NEGOTIATE (the model's reading, log entry 136); a good alignment marker ends the run, and in TRAIN its fields say which lane it carries, the partner's FOM and the partner's wish for
this transmitter's taps. Where an event cannot arise, nothing changes (the model's choice, log entry 3). -/
def Obligations.LaneHealth : Prop :=
  (∀ (s : State) (p : Fin 4) (lane : Nat) (hist : List Nat) (leq : Word) (txeq : BitVec 4),
     ((s.port p).st = .train ∨ (s.port p).st = .align ∨ (s.port p).st = .active → lane < 17 →
       ∃ u, exec (.fomWindowEnd p lane hist ⟨leq, txeq⟩) s = .next (u.laneWindow p lane (fomOf hist)) ∧
       u.fld (LNK_LFOM_FOM p lane) = fomOf hist ∧
       u.fld (LNK_LFOM_MAXFOM p lane) = max (s.fld (LNK_LFOM_MAXFOM p lane)) (fomOf hist) ∧
       u.fld (LNK_LFOM_MINFOM p lane) = min (s.fld (LNK_LFOM_MINFOM p lane)) (fomOf hist) ∧
       (∀ k < 16, u.reg (LNK_HIST p lane k) =
         if s.flag (LNK_LCTL_HFREEZE p lane) = true then s.reg (LNK_HIST p lane k)
         else min 0xFFFF (hist.getD (2 * k) 0) + 65536 * min 0xFFFF (hist.getD (2 * k + 1) 0)) ∧
       (let ln := (s.port p).lanes.getD lane {}
        let worse := ln.stepped = true ∧ fomOf hist < ln.prevFom
        (worse → u.reg (LNK_LEQ p lane) = ln.prevLeq % 2 ^ 32) ∧
        (¬worse → u.reg (LNK_LEQ p lane) = if oneStep (s.reg (LNK_LEQ p lane)) leq.toNat = true then leq.toNat
          else s.reg (LNK_LEQ p lane))) ∧
       s.only u [.lnk] fun r => r = LNK_LFOM p lane ∨ r = LNK_LEQ p lane ∨ ∃ k < 16, r = LNK_HIST p lane k) ∧
     (17 ≤ lane ∨ (s.port p).st = .detect ∨ (s.port p).st = .negotiate ∨ (s.port p).st = .disabled ∨ (s.port p).st = .bypassed →
       exec (.fomWindowEnd p lane hist ⟨leq, txeq⟩) s = .next s)) ∧
  (∀ (s : State) (p : Fin 4) (n f : Nat),
     let ln := (s.port p).lanes.getD n {}
     let class_ := if 96 ≤ f then 0 else if 64 ≤ f then 1 else 2
     ∃ u, u.fld (LNK_LSTAT_CLASS p n) = class_ ∧ (s.only u [.lnk] fun r => r = LNK_LSTAT p n) ∧
       s.laneWindow p n f =
         if class_ = 1 ∧ ln.margRun = 15 ∧ ln.posted = false then u.post 0x0203 1 p (n + 256 * f)
         else if class_ = 2 ∧ 3 ≤ ln.failRun ∧ s.flag (LNK_LSTAT_FAILED p n) = false then u.laneFailed p n
         else u) ∧
  (∀ (s : State) (p : Fin 4) (n : Nat),
     ((s.port p).st = .active → n < 16 → s.flag (LNK_LSTAT_INUSE p n) = true → s.logicalOf p n < 16 →
       (s.port p).partnerLs = true → s.fld (LNK_STAT_LS_USE p) = 16 → (s.port p).rxSwap = none → s.flag (LNK_LSTAT_FAILED p 16) = false →
       exec (.laneLossOfLock p n) s = .next ((s.setFld (LNK_LSTAT_FAILED p n) 1).modPort p fun t =>
         { t with rxSwap := some (s.logicalOf p n, s.fld (LNK_LFOM_FOM p n)) })) ∧
     (17 ≤ n → exec (.laneLossOfLock p n) s = .next s) ∧
     (n < 17 → (s.port p).st ≠ .active → exec (.laneLossOfLock p n) s = .next (s.setFld (LNK_LSTAT_FAILED p n) 1)) ∧
     ((s.port p).st = .active → exec (.signalLossTimeout p) s = .next ((s.startOver p .detect).post 0x0202 2 p 1)) ∧
     ((s.port p).st ≠ .active → exec (.signalLossTimeout p) s = .next s)) ∧
  (∀ (s : State) (p : Fin 4) (n : Nat) (m : List Byte), n < 17 →
     let run := ((s.port p).lanes.getD n {}).mkRun + 1
     let one := (s.incFld (LNK_LMKERR_COUNT p n) 1).modPort p fun t =>
       { t with lanes := modAt t.lanes n fun ln => { ln with mkRun := min run 2 } }
     (s.markerDue p n = false → exec (.markerMissing p n) s = .next s) ∧
     let fails := 2 ≤ run ∧ (s.port p).st ≠ .negotiate ∧ s.flag (LNK_LSTAT_FAILED p n) = false
     (s.markerDue p n = true → exec (.markerMissing p n) s = .next (if fails then one.laneFailed p n else one)) ∧
     ((s.port p).st = .negotiate ∨ (s.port p).st = .train ∨ (s.port p).st = .align ∨ (s.port p).st = .active → markerOk m = false →
       exec (.alignmentMarkerReceived p n m) s = .next (if fails then one.laneFailed p n else one)) ∧
     let l := fieldB m 1 1 % 32
     ((s.port p).st = .train → markerOk m = true → bitAt (fieldB m 1 1) 7 = false → l < 17 →
       ∃ t, exec (.alignmentMarkerReceived p n m) s = .next t ∧
         ((t.port p).lanes.getD n {}).mkRun = 0 ∧
         (n < 16 → l < 16 → t.fld (LNK_LSTAT_LOGICAL p n) = l) ∧
         t.fld (LNK_LFOM_PFOM p l) = fieldB m 5 1 ∧
         t.fld (LNK_LTXEQ_PRE p l) = tapStep (s.fld (LNK_LTXEQ_PRE p l)) (fieldB m 6 1 % 4) ∧
         t.fld (LNK_LTXEQ_POST p l) = tapStep (s.fld (LNK_LTXEQ_POST p l)) (fieldB m 6 1 / 4 % 4) ∧
         s.only t [.lnk] fun r => r = LNK_LSTAT p n ∨ r = LNK_PARTNER p ∨ r = LNK_LFOM p l ∨ r = LNK_LTXEQ p l))

/-- R53, R61, R71: a training that starts over leaves the port in the state named with nothing tried, no lane failed or in
use, and no generation, width or group; the other ports stay as they are. R53, R69: a served write of LNK_CTL_p gives
the register what its access types let through. With ENABLE 0 the port is then DISABLED; with ENABLE 1 a DISABLED port
goes to DETECT (in RECOVERY P1 stays DISABLED); with RETRAIN an ACTIVE port leaves ACTIVE with 0x0202 and one that trains
starts over. The ports of a closed lintel stay BYPASSED. -/
def Obligations.PortControl : Prop :=
  (∀ (s : State) (p : Fin 4) (st : PSt) (x : Port), s.lnk.ports[p.val]? = some x →
     let t := s.startOver p st
     (t.port p).st = st ∧ (t.port p).tried = [] ∧ (t.port p).gen = 0 ∧ (t.port p).initRx = false ∧
     (∀ n < 17, t.flag (LNK_LSTAT_FAILED p n) = false ∧ t.flag (LNK_LSTAT_INUSE p n) = false) ∧
     t.fld (LNK_STAT_GEN p) = 0 ∧ t.fld (LNK_STAT_WIDTH p) = 0 ∧ t.fld (LNK_STAT_GROUP p) = 0 ∧
     t.fld (LNK_STAT_LS_USE p) = 16 ∧
     (∀ q, q ≠ p.val → t.port q = s.port q) ∧
     s.only t [.lnk] fun r => r = LNK_STAT p ∨ ∃ n < 17, r = LNK_LSTAT p n) ∧
  (∀ (s : State) (a : Access) (p : Fin 4) (v : Word), s.served a (LNK_CTL p) = true →
     let w := (s.arrived a 9).writeAcc (LNK_CTL p) v.toNat
     let done := fun u : State => u.respond a 9 0 0
     w.reg (LNK_CTL p) = s.taken (LNK_CTL p) v.toNat ∧
     (s.arrived a 9).only w [] (fun r => r = LNK_CTL p) ∧
     ((s.port p).st = .bypassed → exec (.lnkEnable a p v) s = .next (done w) ∧ exec (.lnkDisable a p v) s = .next (done w) ∧
       exec (.lnkRetrain a p v) s = .next (done w)) ∧
     ((s.port p).st ≠ .bypassed → v.getLsbD 2 = false →
       exec (.lnkDisable a p v) s = .next (done (w.startOver p .disabled))) ∧
     ((s.port p).st = .disabled → v.getLsbD 2 = true →
       exec (.lnkEnable a p v) s =
         .next (done (w.startOver p (if s.dev = .recovery ∧ p = 1 then .disabled else .detect)))) ∧
     ((s.port p).st = .active → v.getLsbD 2 = true → v.getLsbD 3 = true →
       exec (.lnkRetrain a p v) s = .next (done ((w.startOver p .detect).post 0x0202 2 p 4))) ∧
     ((s.port p).st ≠ .active → (s.port p).st ≠ .bypassed → (s.port p).st ≠ .disabled → v.getLsbD 2 = true →
       v.getLsbD 3 = true → exec (.lnkRetrain a p v) s = .next (done (w.startOver p .detect))) ∧
     ((s.port p).st ≠ .bypassed → (s.port p).st ≠ .disabled → v.getLsbD 2 = true → v.getLsbD 3 = false →
       exec (.lnkEnable a p v) s = .next (done w)))

/-- R31, R65: a change of LINTEL_FORCE_N, and a served write of LNK_LINTEL_n, make both lintels follow their conditions: a
lintel one of whose conditions holds is closed, one none of whose conditions holds is open. R53, R65, R66, R79: a
lintel that closes takes both ports of its ring to BYPASSED, with no link state to resume, and posts 0x0208 with its
causes and CLOSED (nothing is posted in OFF); the ports of the other ring stay as they are. One that opens takes them
to DETECT, or to DISABLED where they are not enabled, and posts 0x0209. -/
def Obligations.Lintels : Prop :=
  ((∀ (s : State) (low : Bool), exec (.lintelForceNChange low) s =
     .next { s with pins := { s.pins with lintelForceN := !low } }.updateLintels) ∧
   (∀ (s : State) (a : Access) (ring : Fin 2) (v : Word), s.served a (LNK_LINTEL ring) = true →
     ∃ u, exec (.lnkLintelCloseWrite a ring v) s = .next ((u.updateLintels).respond a 9 0 0) ∧
       u.reg (LNK_LINTEL ring) = s.taken (LNK_LINTEL ring) v.toNat ∧ (s.arrived a 9).only u [] fun r => r = LNK_LINTEL ring) ∧
   ∀ (s : State) (ring : Fin 2),
     s.updateLintel ring =
       if s.lintelMustClose ring = s.lnk.closed.getD ring true then s
       else if s.lintelMustClose ring = true then s.closeLintel ring else s.openLintel ring) ∧
  (∀ (s : State) (ring : Fin 2),
     (∃ u, s.closeLintel ring = (if s.dev = .off then u else u.post 0x0208 0 ring (s.lintelCauses ring + 1)) ∧
       u.lnk.closed = s.lnk.closed.set ring true ∧
       (∀ p, p / 2 = ring.val → (u.port p).st = .bypassed ∧ (u.port p).haveLink = false) ∧
       (∀ p, p / 2 ≠ ring.val → u.port p = s.port p) ∧
       s.only u [.lnk] fun r => ∃ p, p / 2 = ring.val ∧ (r = LNK_STAT p ∨ ∃ n < 17, r = LNK_LSTAT p n)) ∧
     ∃ u, s.openLintel ring = u.post 0x0209 0 ring 0 ∧
       u.lnk.closed = s.lnk.closed.set ring false ∧
       (∀ p x, p / 2 = ring.val → s.lnk.ports[p]? = some x → (u.port p).st =
         if s.flag (LNK_CTL_ENABLE p) = true ∧ ¬(s.dev = .recovery ∧ p = 1) then .detect else .disabled) ∧
       (∀ p, p / 2 ≠ ring.val → u.port p = s.port p) ∧
       s.only u [.lnk] fun r => ∃ p, p / 2 = ring.val ∧ (r = LNK_STAT p ∨ ∃ n < 17, r = LNK_LSTAT p n))

/-- R73, R74: a flit that a port forms has 256 bytes, passes the receiver's checks, and gives back its type, FIRST, SEQ,
ACK, its ACK type, its six credit counts and its payload. R81: a packet's bytes are its 16-byte header and its
payload, and the packet read from them is the packet, with every field at every value; a string of 16 bytes or more
whose two reserved bits are 0 is the bytes of the packet read from it. -/
def Obligations.EncodingsRoundTrip : Prop :=
  (∀ (ftype first seq ack ackType : Nat) (cred : List Nat) (payload : List Byte),
     ftype ≤ 2 → first < 16 → ackType < 256 → cred.length = 6 → (∀ c ∈ cred, c < 256) →
     let f := flitBytes ftype first seq ack ackType cred payload
     f.length = 256 ∧ flitOk f true = true ∧ flitOk f false = false ∧ fieldB f 0 1 % 16 = ftype ∧ fieldB f 0 1 / 16 = first ∧
     fieldB f 1 3 % 4096 = seq % 4096 ∧ fieldB f 1 3 / 4096 = ack % 4096 ∧ fieldB f 4 1 = ackType ∧
     (∀ i < 6, fieldB f (5 + i) 1 = cred.getD i 0) ∧ sliceB f 12 240 = sliceB payload 0 240) ∧
  ((∀ k : Pkt, pktOfBytes (pktBytes k) = k ∧ (pktBytes k).length = 16 + k.payload.length) ∧
   ∀ bs : List Byte, 16 ≤ bs.length → byteB bs 5 < 0x40 → pktBytes (pktOfBytes bs) = bs)

/-- R28, R50, R65, R79: on a port of a closed lintel the slots that arrive leave by the transmit lanes of the other port of its
ring; on any other port that is not ACTIVE they are lost. R50: the eight slots of a flit are the next ones of the stream, slot
i on lane i mod 16 of a port of full width whose lanes are in order. R49, R71: on an ACTIVE port each lane's corrected symbols
and its uncorrectable codewords are counted. R74-R76, R80: a damaged flit is counted and delivers nothing: the receive buffer
and the next expected SEQ stay. Before the link has started a DATA or IDLE flit does nothing more. On a started link a DATA
flit that is not the next in sequence delivers nothing, and the first discard of a row sends a NAK; the next in sequence adds
the whole packets it completes to the receive buffer and counts their bytes. An ACK that names a flit of the replay buffer
removes the flits up to it, and any other ACK removes none. R76, R77: a NAK makes the port send again the flits after the one
it names; the sixteenth in a row for one takes the port out of ACTIVE with 0x0212. Where an event cannot arise, nothing
changes (the model's choice, log entry 3). -/
def Obligations.FlitsInSequence : Prop :=
  (∀ (s : State) (p : Fin 4) (ls : List LaneIn) (fs : List LaneFec), let f := s.gatherFlit p ls
    let ok := s.fecOk p fs
    let v := s.countFec p fs
    let t := s.port p
    let outcome := fun u => exec (.dataFlitReceived p ls fs) s = .next u ∧ exec (.idleFlitReceived p ls fs) s = .next u ∧
      exec (.initFlitReceived p ls fs) s = .next u
    (t.st = .bypassed → outcome { s with
      out := s.out ++ (ls.filter fun x => decide (x.lane < 17)).map fun x => .pass (p.val ^^^ 1) x.lane x.slots.flatten }) ∧
    (t.st ≠ .active → t.st ≠ .bypassed → outcome s) ∧
    (s.laneGroup p = (16, 0) → s.fld (LNK_STAT_LS_USE p) = 16 → (∀ l < 16, s.physOf p l = l) → (ls.map (·.lane)).Nodup →
      ∀ j < 8, ∀ x ∈ ls, x.lane = (t.rxSlot + j) % 16 → ∀ b bs, x.slots = b :: bs → b.length = 32 → sliceB f (32 * j) 32 = b) ∧
    (s.only v [.lnk] fun r => ∃ n < 17, r = LNK_LFECC p n ∨ r = LNK_LFECU p n) ∧
    ((fs.map (·.lane)).Nodup → ∀ x ∈ fs, x.lane < 17 →
      v.fld (LNK_LFECU_COUNT p x.lane) = satAdd 32 (s.fld (LNK_LFECU_COUNT p x.lane)) x.bad ∧
      v.fld (LNK_LFECC_COUNT p x.lane) = satAdd 32 (s.fld (LNK_LFECC_COUNT p x.lane)) (if t.gen ≤ 1 then 0 else x.fixed)) ∧
    (t.st = .active → flitOk f ok = false →
      exec (.idleFlitReceived p ls fs) s = .next (v.incFld (LTC_RETRY_FLITERR p) 1) ∧
      exec (.initFlitReceived p ls fs) s = .next (v.incFld (LTC_RETRY_FLITERR p) 1) ∧
      ∃ u, exec (.dataFlitReceived p ls fs) s = .next u ∧ (u.port p).rx = t.rx ∧ (u.port p).rxSeq = t.rxSeq ∧
        u.fld (LTC_RETRY_FLITERR p) = satAdd 16 (s.fld (LTC_RETRY_FLITERR p)) 1 ∧
        (t.initRx = true → (u.port p).nakOut = true) ∧ v.only u [.lnk, .out] fun r => r = LTC_RETRY p) ∧
    (t.st = .active → t.initRx = false → flitOk f ok = true →
      exec (.dataFlitReceived p ls fs) s = .next v ∧ exec (.idleFlitReceived p ls fs) s = .next v) ∧
    (t.st = .active → t.initRx = true → flitOk f ok = true → fieldB f 0 1 % 16 = 1 →
      (fieldB f 1 3 % 4096 ≠ (t.rxSeq + 1) % 4096 →
        exec (.dataFlitReceived p ls fs) s = .next ((if t.nakOut = true then v
          else (v.modPort p fun t => { t with nakOut := true, nakDue := true }).txIdle p).flitNews p f)) ∧
      (fieldB f 1 3 % 4096 = (t.rxSeq + 1) % 4096 →
        let cut := cutPackets 300 (if t.part.isEmpty = true then (if fieldB f 0 1 / 16 = 15 then []
          else (sliceB f 12 240).drop (16 * (fieldB f 0 1 / 16))) else t.part ++ sliceB f 12 240)
        ∃ u, exec (.dataFlitReceived p ls fs) s =
            .next (if 32 ≤ ((u.flitNews p f).port p).unacked then (u.flitNews p f).txIdle p else u.flitNews p f) ∧
          (u.port p).rxSeq = fieldB f 1 3 % 4096 ∧ (u.port p).nakOut = false ∧ (u.port p).nakDue = false ∧
          (u.port p).unacked = t.unacked + 1 ∧ (u.port p).rx = t.rx ++ cut.1 ∧ (u.port p).part = cut.2 ∧
          u.reg64 (LTC_RXBYTES_LO p) =
            (s.reg64 (LTC_RXBYTES_LO p) + (cut.1.map fun k => 16 + k.payload.length).sum) % 2 ^ 64 ∧
          v.only u [.lnk] fun r => r = LTC_RXBYTES_LO p ∨ r = LTC_RXBYTES_LO p + 4)) ∧
    (t.st = .active → t.initRx = true → flitOk f ok = true → exec (.idleFlitReceived p ls fs) s = .next (v.flitNews p f))) ∧
  (∀ (s : State) (p : Nat) (f : List Byte),
    let n := fieldB f 1 3 / 4096
    let cred := fun (t : Port) => { t with
      txCred := List.zipWith (· + ·) t.txCred ((List.range 6).map fun v => fieldB f (5 + v) 1), replay := ackReplay t.replay n }
    (fieldB f 4 1 % 4 = 1 → s.flitNews p f = (s.modPort p fun t => { cred t with
      nakRun := if n = t.nakSeq then t.nakRun else 0 }).pump p) ∧
    (fieldB f 4 1 % 4 = 2 →
      let run := if (s.port p).nakSeq = n then (s.port p).nakRun + 1 else 1
      let u := (s.modPort p fun t => { cred t with nakSeq := n, nakRun := min run 16 }).incFld (LTC_RETRY_REPLAYS p) 1
      s.flitNews p f = (if run = 16 then ((u.post 0x0212 2 p ((n + 1) % 4096)).startOver p .detect).post 0x0202 2 p 4
        else u.replayFrom p).pump p)) ∧
  ∀ (r : List RFlit) (base n : Nat), base < 4096 → n < 4096 → r.length ≤ 4096 →
    (∀ i x, r[i]? = some x → x.seq = (base + i) % 4096) →
    (∀ i < r.length, n = (base + i) % 4096 → ackReplay r n = r.drop (i + 1)) ∧
    ((∀ i < r.length, n ≠ (base + i) % 4096) → ackReplay r n = r)

/-- R76-R79: what an ACTIVE port does by its timers: a NAK that brought nothing is repeated, flits accepted are acknowledged, an
INIT is sent, and a flit that waits too long for its ACK posts 0x0212 and takes the port out of ACTIVE. The first INIT of the
partner starts the link: it resumes where both ends hold the same link state, and otherwise starts afresh: the replay buffer
is discarded and the packets of which it held a part are counted, the port's epoch rises by one and SEQ starts from 0; either
way the port holds the partner's credits. A later INIT starts the link afresh where the partner has reset, and otherwise says
what the partner holds. Where an event cannot arise, nothing changes (the model's choice, log entry 3). -/
def Obligations.LinkStarts : Prop :=
  ∀ (s : State) (p : Fin 4) (ls : List LaneIn) (fs : List LaneFec) (f : List Byte),
    ((s.port p).st = .active →
      ((s.port p).nakOut = true → exec (.nakRepeatTimer p) s = .next ((s.modPort p fun t => { t with nakDue := true }).txIdle p)) ∧
      ((s.port p).nakOut = false → exec (.nakRepeatTimer p) s = .next s) ∧
      (0 < (s.port p).unacked → exec (.ackTimer p) s = .next (s.txIdle p)) ∧
      ((s.port p).unacked = 0 → exec (.ackTimer p) s = .next s) ∧
      exec (.initTimer p) s = .next (s.txFlit p 2 15 (s.port p).seq (s.initPayload p)) ∧
      ((s.port p).replay = [] → exec (.replayTimeout p) s = .next s) ∧
      (∀ g gs, (s.port p).replay = g :: gs → exec (.replayTimeout p) s =
        .next (((s.post 0x0212 2 p (g.seq % 4096 + 4096)).startOver p .detect).post 0x0202 2 p 4))) ∧
    ((s.port p).st ≠ .active → exec (.nakRepeatTimer p) s = .next s ∧ exec (.ackTimer p) s = .next s ∧
      exec (.initTimer p) s = .next s ∧ exec (.replayTimeout p) s = .next s) ∧
    ((s.port p).st = .active → flitOk (s.gatherFlit p ls) (s.fecOk p fs) = true → fieldB (s.gatherFlit p ls) 0 1 % 16 = 2 →
      let f := s.gatherFlit p ls
      let u := (s.countFec p fs).noteInit p f
      let starts := fun w : State => exec (.initFlitReceived p ls fs) s = .next ((w.modPort p fun t =>
          { t with initRx := true, rstHold := false, txCred := (List.range 6).map fun v => fieldB f (24 + 2 * v) 2 }).pump p)
      ((s.port p).initRx = false → starts (if u.mayResume p f = true then u.resumeLink p f else u.freshStart p f)) ∧
      ((s.port p).initRx = true → u.partnerReset p f = true → starts (u.freshStart p f)) ∧
      ((s.port p).initRx = true → u.partnerReset p f = false →
        exec (.initFlitReceived p ls fs) s = .next ((u.noteHeld p f).flitNews p f))) ∧
    ((s.port p).st = .active →
      let lost := replayPackets (s.port p).replay
      let epoch := (s.fld (LTC_PEPOCH_OWN p) + 1) % 65536
      ∃ v, s.freshStart p f = (if lost = 0 then v else v.post 0x020B 2 p (min lost 65535 + 65536 * epoch)) ∧
        (v.port p).replay = [] ∧ (v.port p).seq = 0 ∧ (v.port p).rxSeq = 4095 ∧ (v.port p).part = [] ∧
        (v.port p).haveLink = true ∧
        v.fld (LTC_PEPOCH_OWN p) = epoch ∧ v.flag (LTC_NBR_RESUMED p) = false ∧
        v.fld (LTC_LOST_DISCARD p) = satAdd 16 (s.fld (LTC_LOST_DISCARD p)) lost ∧
        s.only v [.lnk] fun r => r = LTC_PEPOCH p ∨ r = LTC_NBR p ∨ r = LTC_LOST p)

/-- R82, R83, R103, R173: a memory request for this stack is answered NO_TARGET (4) where its class, its alignment or its range
is wrong; else RETRY (5) in BRINGUP and NO_TARGET in RECOVERY. In service, one that a cause of R173 holds, that comes
behind one that waits, or whose link has not restarted since a PORT reset (R188), waits at its master port and nothing
else changes; one whose way through mortar and its channels is not idle, or of whose granules a recovery or a restore holds one,
is issued into mortar (R169, R172, R264, R309; log entry 55). R83-R87, R243: a memory request whose way is idle is performed
at once. A RD of plain granules answers their bytes and changes no byte of memory. A WR writes exactly the bytes its
masks enable, answers OK and marks its page dirty where it enables any; a WR that writes a granule whole clears its
poison. An atomic on a plain granule answers the operand's old value and writes the new one, and no other byte. Beside
that only the counters and the activity of the channel, what its column commands and bytes move there and in mortar,
and what the answer moves, change: neither memory nor the keep. Where an event cannot arise, nothing changes (the model's choice, log
entry 3). -/
def Obligations.MemoryRequests : Prop :=
  (∀ (s : State) (p : Fin 4) (k : Pkt) (obs : List CellObs) (c : Fin 4 → Pkt → List CellObs → Instr),
     c = .rd ∨ c = .wr ∨ c = .fadd ∨ c = .cas64 ∨ c = .cas128 →
     let answered := fun st => exec (c p k obs) s = .next ((s.takeRx p k).answer p k st 0 [])
     let r := (s.takeRx p k).admitWrite k
     (s.packetsReach p = false → exec (c p k obs) s = .next s) ∧
     (s.forMe p k = true →
       (reqBad k = true → answered 4) ∧
       (reqBad k = false → s.dev = .bringup → answered 5) ∧
       (reqBad k = false → s.dev = .recovery → answered 4) ∧
       (s.inService = true → reqBad k = false → s.mustPark p k = true ∨ (s.port p).rstHold = true →
         exec (c p k obs) s = .next (s.park p k))) ∧
     (s.admitted p k = true →
       s.clearWay p k = false → exec (c p k obs) s = .next (r.1.issue p k r.2))) ∧
  (∀ (s : State) (p : Fin 4) (k : Pkt), s.performs p k = true →
     let a := k.addr.toNat
     let n := k.len.toNat + 1
     let counters := fun r => ∃ c < 32, r = MC_RD_LO c ∨ r = MC_RD_LO c + 4 ∨ r = MC_WR_LO c ∨ r = MC_WR_LO c + 4
     (k.opc = 1 → (∀ i < n, s.plainGran (a / 64 + i) = true) →
       ∃ u, exec (.rd p k []) s = .next ((u.passes p k).answer p k 0 0 (mread s.dram.mem a (64 * n))) ∧
         s.only u [.lnk, .mc] counters) ∧
     (k.opc = 2 → (∀ i < n, wrMask k i = 0 ∨ (s.fencedGran (a / 64 + i) = false ∧
         (wrMask k i = fullMask ∨ s.poisoned (a / 64 + i) = false))) →
       ∃ u, exec (.wr p k []) s = .next ((u.passes p k).answer p k 0 0 []) ∧
         (∀ b, mget u.dram.mem b = if a ≤ b ∧ b < a + 64 * n ∧ (wrMask k ((b - a) / 64)).testBit ((b - a) % 64) = true then
           (wrData k ((b - a) / 64)).getD ((b - a) % 64) 0 else mget s.dram.mem b) ∧
         (∀ i < n, wrMask k i = fullMask → u.poisoned (a / 64 + i) = false) ∧
         u.keep = { s.keep with dirty := if canWrite k = true then radd s.keep.dirty (pageOf a) else s.keep.dirty } ∧
         s.only u [.lnk, .mc, .dram, .keep] counters) ∧
     (∀ c : Fin 4 → Pkt → List CellObs → Instr,
       (c = .fadd ∧ k.opc = 3) ∨ (c = .cas64 ∧ k.opc = 4) ∨ (c = .cas128 ∧ k.opc = 5) → s.plainGran (a / 64) = true →
       let w := atomicSize k.opc.toNat
       let old := leNat (mread s.dram.mem a w)
       ∃ u, exec (c p k []) s = .next ((u.passes p k).answer p k 0 0 (padB 16 (leBytes w old))) ∧
         (∀ b, mget u.dram.mem b = if a ≤ b ∧ b < a + w then
           (leBytes w (atomicNew k.opc.toNat old k.payload)).getD (b - a) 0 else mget s.dram.mem b) ∧
         u.keep = { s.keep with dirty := radd s.keep.dirty (pageOf a) } ∧
         s.only u [.lnk, .mc, .dram, .keep] counters)) ∧
  ∀ (s : State) (p : Fin 4) (k : Pkt), s.only (s.passes p k) [.mc, .mtr, .out, .ks, .lnk] fun r =>
    r / 0x100000 = 4 ∨ r / 0x100000 = 6 ∨ r = MTR_BYTES_LO p ∨ r = MTR_BYTES_LO p + 4

/-- R94: a forwarding endpoint changes only HOPS, VC and LEG, together with DIR when it turns a packet onto the Y ring.
The packet that joins the output queue is the one that came with no other byte changed, whether the stack routes it,
passes it on without a coordinate, or passes on a hop-addressed one. R96: one that comes behind a request that is held on its
virtual channel waits in the receive buffer. -/
def Obligations.ForwardingKeepsThePacket : Prop :=
  ∀ (s : State) (p : Fin 4) (k : Pkt), s.packetsReach p = true →
    (s.behind p k = true →
      (k.nbr = false → exec (.packetTransit p k) s = .next (s.waitRx p k)) ∧
      (k.nbr = true → 1 < k.hops.toNat → exec (.hopPacketForward p k) s = .next (s.waitRx p k))) ∧
    (s.behind p k = false → s.dev ≠ .recovery →
      (∀ p' k', k.nbr = false → s.hasCoord = true → routeReceive s k = .out p' k' →
        exec (.packetTransit p k) s = .next ((s.takeRx p k).enqueue p' k' (srcOf p p')) ∧
        k' = { k with hops := k'.hops, vc := k'.vc, leg := k'.leg, dir := k'.dir } ∧
        (k'.dir ≠ k.dir → k.leg = false ∧ k'.leg = true)) ∧
      (k.nbr = false → s.hasCoord = false → k.hops.toNat < 127 →
        exec (.packetTransit p k) s = .next ((s.takeRx p k).enqueue (p.val ^^^ 1) { k with hops := k.hops + 1 } p)) ∧
      (k.nbr = true → 1 < k.hops.toNat →
        exec (.hopPacketForward p k) s = .next ((s.takeRx p k).enqueue (p.val ^^^ 1) { k with hops := k.hops - 1 } p)))

/-- R82, R88, R93, R102, R103: a packet that its route cannot carry, by a hop limit, an absent destination or an illegal
leg, is answered NO_TARGET if it is a request, discarded if not, and counted, and posted as 0x020F at most once a second for
its port. A MSG and a packet of a reserved opcode for this stack are discarded and counted in LTC_DROP.LOCAL. A packet that
waits LTC_LINKWAIT at a port that is not ACTIVE leaves the queue and is counted in LTC_LOST; a request is answered NO_TARGET
from this stack. Where an event cannot arise, nothing changes (the model's choice, log entry 3). -/
def Obligations.PacketsDiscarded : Prop :=
  (∀ (s : State) (p : Fin 4) (k : Pkt), s.packetsReach p = true → k.nbr = false → s.dev ≠ .recovery → s.hasCoord = true →
    s.behind p k = false → ∀ cause, routeReceive s k = .drop cause →
      exec (.packetTransit p k) s = .next
        (((if isRequest k.opc.toNat = true then (s.takeRx p k).answer p k 4 0 [] else s.takeRx p k)).dropRoute p k cause)) ∧
  (∀ (s : State) (p : Fin 4) (k : Pkt), s.forMe p k = true →
    exec (.msgReceived p k) s = .next ((s.takeRx p k).incFld LTC_DROP_LOCAL 1) ∧
    exec (.reservedOpcPacket p k) s = .next ((s.takeRx p k).incFld LTC_DROP_LOCAL 1)) ∧
  (∀ (s : State) (p : Nat) (k : Pkt) (cause : Nat), ∃ u,
    s.dropRoute p k cause = (if s.dropDue p = true then u.post 0x020F 1 p (k.dest.toNat + 65536 * k.opc.toNat + 2 ^ 24 * cause)
      else u) ∧
    u.fld LTC_DROP_ROUTE = satAdd 16 (s.fld LTC_DROP_ROUTE) 1 ∧ s.only u [.lnk] fun r => r = LTC_DROP) ∧
  ∀ (s : State) (p : Fin 4) (i : Nat) (o : OutPkt), (s.port p).outq[i]? = some o →
    ((s.port p).st = .active → exec (.linkwaitExpiry p i) s = .next s) ∧
    ((s.port p).st ≠ .active → ∃ u,
      (let v := if isRequest o.pkt.opc.toNat = false then u
         else if o.pkt.nbr = true then u.enqueue (p.val ^^^ 1)
           { mkRsp s.me o.pkt 4 0 [] with hops := BitVec.ofNat 7 (o.pkt.b15.toNat - o.pkt.hops.toNat) } 5
         else u.injectRaw (mkRsp s.me o.pkt 4 0 [])
       exec (.linkwaitExpiry p i) s = .next (if (s.port p).outage = true then v else v.post 0x0211 2 p ((s.port p).expired + 1))) ∧
      (u.port p).outq = (s.port p).outq.eraseIdx i ∧
      u.fld (LTC_LOST_EXPIRED p) = satAdd 16 (s.fld (LTC_LOST_EXPIRED p)) 1 ∧ s.only u [.lnk] fun r => r = LTC_LOST p)

/-- R86, R87, R101: a response that comes to this stack is handed to the request of its TAG, a reserved status as
NO_TARGET; one that matches no request is discarded and counted. A request whose response time runs out is handed the
answer NO_TARGET after 0x0210. R90, R108: a served write of LTC_COORD sets the coordinate and VALID; one of
LTC_RSTAUTH_LOCK can only set LOCK. -/
def Obligations.ResponsesMatched : Prop :=
  ∀ (s : State) (p : Fin 4) (k : Pkt), (s.forMe p k = true → k ∉ s.lnk.loop →
      (∀ o, s.lnk.outst.find? (fun o => o.tag == k.tag.toNat) = some o →
        exec (.rspReceived p k) s = .next ((s.takeRx p k).handRsp o (if 5 < k.addr.toNat % 16 then 4 else k.addr.toNat % 16) k.payload)) ∧
      (s.lnk.outst.find? (fun o => o.tag == k.tag.toNat) = none →
        exec (.rspReceived p k) s = .next ((s.takeRx p k).incFld LTC_DROP_LOCAL 1))) ∧
    (∀ (tag : BitVec 16) (o : Outst), s.lnk.outst.find? (fun o => o.tag == tag.toNat) = some o →
      exec (.responseTimeout tag) s =
        .next ((s.post 0x0210 2 0xFF (o.pkt.dest.toNat + 65536 * o.tag)).handRsp o 4 [])) ∧
    ∀ (a : Access) (v : Word),
      (s.served a LTC_COORD = true → ∃ u, exec (.ltcCoordWrite a v) s = .next (u.respond a 9 0 0) ∧
        u.hasCoord = true ∧ u.fld LTC_COORD_X = getBits v.toNat 13 7 ∧ u.fld LTC_COORD_Y = getBits v.toNat 6 0 ∧
        (s.arrived a 9).only u [] fun r => r = LTC_COORD) ∧
      (s.served a LTC_RSTAUTH_LOCK = true → ∃ u, exec (.ltcRstauthLockWrite a v) s = .next (u.respond a 9 0 0) ∧
        u.flag LTC_RSTAUTH_LOCK_LOCK = (s.flag LTC_RSTAUTH_LOCK_LOCK || v.getLsbD 0) ∧
        (s.arrived a 9).only u [] fun r => r = LTC_RSTAUTH_LOCK)

/-- R92, R105: an RST for this stack that does not come in class MGT, names reach 3, or is not authorised is answered NO_TARGET
with 0x020E; any other is recorded in LTC_RSTLAST, posted as 0x020D, and answered OK, and waits for its reset; one accepted
before, whose reset has not begun, begins it now (the model's reading, log entry 36). Its reset then begins: COLD and WARM as a reset
source, PORT at once, or with the end of a save. Where an event cannot arise, nothing changes (the model's choice, log
entry 3). -/
def Obligations.ResetPackets : Prop :=
  ∀ (s : State) (p : Fin 4) (k : Pkt),
    (s.forMe p k = true →
      (vcClass k.vc.toNat ≠ 2 ∨ rstReach k = 3 ∨ (s.takeRx p k).rstAuth k.src.toNat (rstReach k) = false →
        exec (.rstPacket p k) s = .next (((s.takeRx p k).answer p k 4 0 []).post 0x020E 2 p
          (rstReach k + 4 * rstPsel k + 65536 * k.src.toNat))) ∧
      (vcClass k.vc.toNat = 2 → rstReach k ≠ 3 → (s.takeRx p k).rstAuth k.src.toNat (rstReach k) = true →
        ∃ u, exec (.rstPacket p k) s = .next
            (let t := (u.post 0x020D 1 p (rstReach k + 4 * rstPsel k + 65536 * k.src.toNat)).answer p k 0 0 []
             { t with lnk := { t.lnk with rst := some (rstReach k, rstPsel k), rstSrc := k.src.toNat } }) ∧
          u.fld LTC_RSTLAST_SRC = k.src.toNat ∧ u.fld LTC_RSTLAST_REACH = rstReach k ∧
          u.fld LTC_RSTLAST_PSEL = rstPsel k ∧ u.flag LTC_RSTLAST_VALID = true ∧
          (s.takeRx p k).rstStart.only u [] fun r => r = LTC_RSTLAST)) ∧
    (∀ reach psel, s.lnk.rst = some (reach, psel) → s.dev ≠ .off →
      let t := { s with lnk := { s.lnk with rst := none } }
      exec .rstPacketResetStart s = .next
        (if reach ≠ 0 then t.assertReset 3 (reach + 2) s.lnk.rstSrc false
         else if s.dev = .saving then t.deferReset { source := 3, reach := 2, endpoint := s.lnk.rstSrc, port := psel }
         else t.portReset psel 3 s.lnk.rstSrc)) ∧
    (s.lnk.rst = none → exec .rstPacketResetStart s = .next s)

/-- R134, R139: a served write of WQ_CFG_q with EN 1 makes a DISABLED queue ACTIVE with its heads, tails, doorbells and
error at 0 and phase 1; with EN 0 an ACTIVE queue keeps no descriptor that is not dispatched, and is DISABLED at once
when nothing is in flight, else DRAINING. R110, R111: a doorbell that the queue's HOST writes over a port while EN is
1 takes the index written, within the ring; while EN is 0 it is ignored. An index that R110 or R111 forbids leaves a free
value there (R138; the model's choice, log entry 43). -/
def Obligations.QueueControl : Prop :=
  ∀ (s : State) (a : Access) (q : Fin 64) (v : Word) (t : Queue), s.wq.queues[q.val]? = some t →
    (s.served a (WQ_CFG q) = true → t.st = .disabled → v.getLsbD 31 = true →
      ∃ u, exec (.wqEnable a q v) s = .next (u.respond a 9 0 0) ∧
        u.queue q = { st := .active, gen := t.gen + 1 } ∧ u.reg (WQ_CFG q) = s.taken (WQ_CFG q) v.toNat ∧
        u.reg (WQ_SQDB q) = 0 ∧ u.reg (WQ_CQDB q) = 0 ∧ (∀ p, p ≠ q.val → u.queue p = s.queue p) ∧
        (s.arrived a 9).only u [.wq] fun r => r = WQ_CFG q ∨ r = WQ_SQDB q ∨ r = WQ_CQDB q) ∧
    (s.served a (WQ_CFG q) = true → t.st = .active → v.getLsbD 31 = false →
      ∃ u, exec (.wqDisable a q v) s = .next (u.respond a 9 0 0) ∧
        (u.queue q).st = (if t.inflight = 0 then .disabled else .draining) ∧ (u.queue q).fetched = [] ∧
        u.flag (WQ_CFG_EN q) = false ∧ u.fld (WQ_CFG_DEPTH q) = getBits v.toNat 30 27 ∧
        (∀ p, p ≠ q.val → u.queue p = s.queue p) ∧ (s.arrived a 9).only u [.wq] fun r => r = WQ_CFG q) ∧
    (∀ p : Fin 4, a.path = .port p → a.hop = none → a.requester.toNat = s.qHost q →
      (s.served a (WQ_SQDB q) = true → s.flag (WQ_CFG_EN q) = true → ∃ u, exec (.sqDoorbell a q v) s = .next (u.respond a 9 0 0) ∧
        u.fld (WQ_SQDB_TAIL q) = (if s.tailOk q (v.toNat % 65536 % s.sqLen q) = true then v.toNat % 65536 else s.free) % s.sqLen q ∧
        (s.arrived a 9).only u [.fresh] fun r => r = WQ_SQDB q) ∧
      (s.served a (WQ_CQDB q) = true → s.flag (WQ_CFG_EN q) = true → ∃ u, exec (.cqDoorbell a q v) s = .next (u.respond a 9 0 0) ∧
        u.fld (WQ_CQDB_HEAD q) = (if s.headOk q (v.toNat % 65536 % s.cqLen q) = true then v.toNat % 65536 else s.free) % s.cqLen q ∧
        (s.arrived a 9).only u [.fresh] fun r => r = WQ_CQDB q) ∧
      (s.served a (WQ_SQDB q) = true → s.flag (WQ_CFG_EN q) = false →
        exec (.sqDoorbell a q v) s = .next ((s.arrived a 9).respond a 9 0 0)) ∧
      (s.served a (WQ_CQDB q) = true → s.flag (WQ_CFG_EN q) = false →
        exec (.cqDoorbell a q v) s = .next ((s.arrived a 9).respond a 9 0 0)))

/-- R135: a doorbell write accepted from any path other than the lattice endpoint HOST is answered OK and ignored, and
counted in WQ_PROG_q.IGNDB. -/
def Obligations.DoorbellsIgnored : Prop :=
  ∀ (s : State) (a : Access) (q : Fin 64) (v : Word),
    ¬(∃ p, a.path = .port p ∧ a.hop = none ∧ a.requester.toNat = s.qHost q) →
    let ignored : Host.Outcome State Fault Refusal := .next (((s.arrived a 9).incFld (WQ_PROG_IGNDB q) 1).respond a 9 0 0)
    (s.served a (WQ_SQDB q) = true → exec (.sqDoorbell a q v) s = ignored) ∧
    (s.served a (WQ_CQDB q) = true → exec (.cqDoorbell a q v) s = ignored)

/-- R110-R114, R127: a fetch asks the queue's host for the descriptors that wait, inside one 256 B block, for which there
are completion entries and in-flight places, and reserves them; its data becomes the queue's next descriptors and
moves the head. Dispatch takes the first queue after the last one served that can dispatch. NOP completes DONE at
dispatch; so does a FENCE, and it is not dispatched while an earlier operation of its queue is in flight. R118-R120,
R127, R215: CHISEL_RUN, COPY and FILL take the lowest free chisel slot: a job LOADING, its program asked for when it
is remote, or a transfer RUNNING over the whole granules of its length. Where an event cannot arise, nothing changes
(the model's choice, log entry 3). -/
def Obligations.FetchAndDispatch : Prop :=
  ((∀ (s : State) (q : Fin 64), s.fetchable q = 0 → exec (.descriptorFetchStart q) s = .next s) ∧
   (∀ (s : State) (q : Fin 64), 0 < s.fetchable q →
     exec (.descriptorFetchStart q) s = .next ((s.modQueue q fun t =>
       { t with fetching := s.fetchable q, resv := t.resv + s.fetchable q }).sendReq 7 1 (s.qHost q)
         (s.fld (WQ_SQBASE_ADDR q) * 4096 + 64 * (s.queue q).head) (s.fetchable q - 1) true false [] 0
         (.fetch q (s.queue q).gen)) ∧
     s.fetchable q + (s.queue q).head % 4 ≤ 4 ∧
     s.fetchable q + (s.queue q).fetched.length + (s.queue q).inflight ≤ s.depth q) ∧
   (∀ (s : State) (q : Nat) (t : Queue) (data : List Byte), s.wq.queues[q]? = some t → t.st = .active → 0 < t.fetching →
     s.fetchDone q t.gen 0 data = s.modQueue q fun _ => { t with
       fetched := t.fetched ++ (List.range t.fetching).map (fun i => sliceB data (64 * i) 64), fetching := 0,
       head := (t.head + t.fetching) % s.sqLen q }) ∧
   (∀ s : State, (∀ q < 64, s.mayDispatch q = false) → exec .descriptorDispatch s = .next s) ∧
   (∀ (s : State) (i : Nat), i < 64 → s.mayDispatch ((s.wq.rot + 1 + i) % 64) = true →
     (∀ j < i, s.mayDispatch ((s.wq.rot + 1 + j) % 64) = false) →
     exec .descriptorDispatch s = .next (s.dispatch ((s.wq.rot + 1 + i) % 64))) ∧
   (∀ (s : State) (q : Fin 64) (d : List Byte), s.dispatches q d = true →
     (fieldB d 0 1 = 0 → exec (.nop q d) s = .next ((s.given q).complete (s.opOf q d) 0 0)) ∧
     (fieldB d 0 1 = 1 → exec (.fence q d) s = .next ((s.given q).complete (s.opOf q d) 0 0) ∧ (s.queue q).inflight = 0))) ∧
  (∀ (s : State) (q : Fin 64) (d : List Byte) (n : Nat), s.dispatches q d = true → s.freeSlot = some n →
     let o := s.opOf q d
     let t := s.given q
     (fieldB d 0 1 = 0x10 → let u := t.modJob n fun _ => { op := o, st := .loading, kind := 0, start := o.resume, next := o.resume }
       exec (.chiselRun q d) s = .next (if baRemote o.prog = true then
         u.sendReq 4 1 (baEndpoint o.prog) (baAddr o.prog) 0 false false [] 0 (.program n) else u)) ∧
     (fieldB d 0 1 = 0x11 → let u := t.modJob n fun _ => { op := o, st := .running, kind := 1, total := o.grans }
       exec (.copy q d) s = .next (if o.grans = 0 then u.finishCopy n else u)) ∧
     (fieldB d 0 1 = 0x12 → let u := t.modJob n fun _ => { op := o, st := .running, kind := 2, total := o.grans }
       exec (.fill q d) s = .next (if o.grans = 0 then u.finishCopy n else u)))

/-- R130, R133, R134: a completion entry gives back the result, the head, the identifier, the status, the opcode and the
phase it was formed from. It goes to the queue's next ring position as a masked WR, and the tail and, at the ring's
end, the phase move on. An operation of an earlier life of its queue completes to nothing. Where messages are on, the
timer sends one for the entries not reported. Where an event cannot arise, nothing changes (the model's choice, log
entry 3). -/
def Obligations.CompletionEntries : Prop :=
  (∀ (result head cid status opc : Nat) (phase : Bool), status < 256 → opc < 256 →
    let e := entryOf result head cid status opc phase
    e.length = 16 ∧ fieldB e 0 8 = result % 2 ^ 64 ∧ fieldB e 8 2 = head % 65536 ∧ fieldB e 10 2 = cid % 65536 ∧
    fieldB e 12 1 = status ∧ fieldB e 13 1 = opc ∧ fieldB e 14 2 = 0x8000 * b2n phase) ∧
  (∀ (s : State) (q cid status opc result : Nat) (now : Bool), s.flag (WQ_COAL_MSGEN q) = false →
    let t := s.queue q
    let addr := s.fld (WQ_CQBASE_ADDR q) * 4096 + 16 * t.cqTail
    let tail := (t.cqTail + 1) % s.cqLen q
    s.writeEntry q cid status opc result now =
      (s.modQueue q fun t => { t with cqTail := tail, phase := if tail = 0 then !t.phase else t.phase }).sendReq 7 2 (s.qHost q)
        (addr - addr % 64) 0 true true (leBytes 8 (0xFFFF * 2 ^ (addr % 64)) ++ leBytes 8 0 ++
          putB (List.replicate 64 0) (addr % 64) (entryOf result t.head cid status opc t.phase)) 0 (.cqWrite q t.gen)) ∧
  (∀ (s : State) (o : Op) (status result : Nat), (s.queue o.q).gen ≠ o.gen → s.complete o status result = s) ∧
  (∀ (s : State) (q : Fin 64), 0 < (s.queue q).msgN → (s.queue q).st = .active → s.flag (WQ_COAL_MSGEN q) = true →
    0 < s.fld (WQ_COAL_TIME_US q) → exec (.completionMsgTimer q) s = .next (s.sendCplMsg q)) ∧
  ∀ (s : State) (q : Fin 64), (s.queue q).msgN = 0 → exec (.completionMsgTimer q) s = .next s

/-- R122, R249, R252, R253, R272: the keep operations that the Keystone takes up. KEEP_CHECKPOINT needs a key, unfenced
courses and no open epoch change (else 6), a measured hold-up store (else 7) and cool courses (else 9). KEEP_ARM
completes at once where the stack is ARMED and waits where it is ARMING. KEEP_DISARM is refused under ARMLOCK and
disarms otherwise. KEEP_STATUS writes its 256 B record. HOLDUP_CHARACTERIZE needs a valid measurement (else 7) and
records V1. -/
def Obligations.KeepOperations : Prop :=
  ∀ (s : State) (q : Fin 64) (d : List Byte), s.begins q d = true →
    let o := s.opAt q d
    let h := s.inHand q d
    (fieldB d 0 1 = 0x20 →
      (s.keep.keyHeld = false ∨ s.keepFenced = true ∨ s.keep.epochOpen = true →
        exec (.keepCheckpoint q d) s = .next (h.ksEnds o 6 0)) ∧
      (s.keep.keyHeld = true → s.keepFenced = false → s.keep.epochOpen = false →
        (s.keep.arm = .suspended → exec (.keepCheckpoint q d) s = .next (h.ksEnds o 7 0)) ∧
        (s.keep.arm ≠ .suspended → s.keepHot = true → exec (.keepCheckpoint q d) s = .next (h.ksEnds o 9 0)) ∧
        (s.keep.arm ≠ .suspended → s.keepHot = false → s.keep.copiesSince = 0 →
          exec (.keepCheckpoint q d) s = .next ((h.modKeep fun k => { k with
            copies := k.copies.map (fun c => { c with cover := !rmem k.dirty c.page }),
            ckpt := some (o, s.keep.dirtySet) }).ckptGoes)) ∧
        (s.keep.arm ≠ .suspended → s.keepHot = false → 0 < s.keep.copiesSince →
          exec (.keepCheckpoint q d) s = .next ((h.modKeep fun k => { k with
            copies := k.copies.map (fun c => { c with cover := !rmem k.dirty c.page }) }).sealAsk 1 0
              (.checkpoint1 o s.keep.dirtySet))))) ∧
    (fieldB d 0 1 = 0x21 →
      (s.keep.arm = .armed → exec (.keepArm q d) s = .next (h.ksEnds o 0 0)) ∧
      (s.keep.arm = .suspended → exec (.keepArm q d) s = .next (h.ksEnds o 7 0)) ∧
      (s.keep.arm = .arming → s.fus.life ≠ 4 → s.keep.keyHeld = true → s.keepFenced = false →
        exec (.keepArm q d) s = .next ((s.handed q).modKeep fun k => { k with armOps := k.armOps ++ [o] })) ∧
      (s.keep.arm = .disarmed → s.fus.life ≠ 4 → s.keep.keyHeld = true → s.keepFenced = false → s.epochDue = false →
        (s.measValid = false ∨ s.keep.dmax < 262144 → exec (.keepArm q d) s = .next (h.ksEnds o 7 0)) ∧
        (s.measValid = true → 262144 ≤ s.keep.dmax → exec (.keepArm q d) s =
          .next ((s.handed q).modKeep fun k => { k with arm := .arming, armOps := k.armOps ++ [o] }).armFollows))) ∧
    (fieldB d 0 1 = 0x22 → exec (.keepDisarm q d) s =
      .next (if s.flag KEEP_CTL_ARMLOCK = true then h.ksEnds o 6 0 else (h.disarm 1 1 6).ksEnds o 0 0)) ∧
    (fieldB d 0 1 = 0x23 → exec (.keepStatus q d) s = .next (h.ksWrite o (fieldB d 8 8) h.statusRecord 0 0 0 0) ∧
      h.statusRecord.length = 256 ∧ fieldB h.statusRecord 16 8 = s.keep.dirtyCount % 2 ^ 64 ∧
      fieldB h.statusRecord 24 8 = s.keep.dmax % 2 ^ 64) ∧
    (fieldB d 0 1 = 0x25 →
      (s.measValid = false → exec (.holdupCharacterize q d) s = .next (h.ksEnds o 7 0)) ∧
      (s.measValid = true → s.keep.keyHeld = true → s.keepFenced = false → s.keepHot = false →
        exec (.holdupCharacterize q d) s = .next
          ((h.modKeep fun k => { k with charac := some { op := o, uv1 := s.holdV, pj1 := s.thm.pj } }).moverFill)))

/-- R252, R268: the end of a characterisation computes the store from its two voltages and the energy between; one that
fell by less than 2 % measures nothing. A share that fits an epoch is taken, one already held or pending is DONE, one
offered while DISARMED under POLICY 1 waits for the next epoch, and any other is counted and refused; the shares are
zeroised only while DISARMED and outside RESTORING; a RETIRED part refuses both (8). Where an event cannot arise,
nothing changes (the model's choice, log entry 3). -/
def Obligations.KeysAndCharacterization : Prop :=
  (∀ (s : State) (q : Fin 64) (d : List Byte), s.begins q d = true → fieldB d 0 1 = 0x24 →
    let o := s.opAt q d
    let h := s.inHand q d
    (o.action = 0 →
      (s.fus.life = 4 → exec (.keyShareSupply q d) s = .next (h.ksEnds o 8 0)) ∧
      (s.fus.life ≠ 4 → s.keep.shareMatch o.share = none → s.keep.pendShare ≠ some o.share →
        (∀ x ∈ s.keep.shares, x.2 ≠ o.share) →
        (s.keep.arm = .disarmed → s.keyPolicy = 1 → exec (.keyShareSupply q d) s =
          .next ((h.modKeep fun k => { k with pendShare := some o.share }).ksEnds o 0 0)) ∧
        (¬(s.keep.arm = .disarmed ∧ s.keyPolicy = 1) → exec (.keyShareSupply q d) s =
          .next (((h.incFld KEEP_KEYSTAT_BADSHARE 1).post 0x050B 2 0xFF 0).ksEnds o 6 0))) ∧
      (s.fus.life ≠ 4 → s.keep.shareMatch o.share = none →
        (s.keep.pendShare = some o.share ∨ ∃ x ∈ s.keep.shares, x.2 = o.share) →
        exec (.keyShareSupply q d) s = .next (h.ksEnds o 0 0)) ∧
      (∀ e, s.fus.life ≠ 4 → s.keep.shareMatch o.share = some e → exec (.keyShareSupply q d) s =
        .next (((h.modKeep fun k => { k with shares := tset k.shares e.num o.share }).sharesCome).ksEnds o 0 0))) ∧
    (o.action = 1 →
      (s.fus.life = 4 → exec (.keyShareClear q d) s = .next (h.ksEnds o 8 0)) ∧
      (s.fus.life ≠ 4 → s.keep.arm = .disarmed → s.dev ≠ .restoring → exec (.keyShareClear q d) s =
        .next ((h.modKeep fun k => { k with shares := [], pendShare := none }).ksEnds o 0 0)) ∧
      (s.fus.life ≠ 4 → s.keep.arm ≠ .disarmed ∨ s.dev = .restoring →
        exec (.keyShareClear q d) s = .next (h.ksEnds o 6 0)))) ∧
  ∀ (s : State) (uv2 : Nat),
    (s.keep.charac = none → exec (.characterizeEnd uv2) s = .next s) ∧
    ∀ c, s.keep.charac = some c →
      (98 * c.uv1 < 100 * (8 * uv2) → exec (.characterizeEnd uv2) s = .next (s.characEnds 7 0)) ∧
      (100 * (8 * uv2) ≤ 98 * c.uv1 → 0 < c.uv1 →
        let cm := min (2 ^ 31 - 1) (2 * (s.thm.pj - c.pj1) * 10 ^ 9 / (s.eta * (c.uv1 * c.uv1 - 8 * uv2 * (8 * uv2))))
        ∃ u, exec (.characterizeEnd uv2) s = .next
            (let t := u.post 0x050C 0 0xFF (cm / 1000)
             let t := if 10 * cm < 9 * t.reg KEEP_HOLDCAP then t.post 0x050D 2 0xFF 0 else t
             t.energy.characEnds 0 (cm % 2 ^ 32 + 2 ^ 32 * twos 32 t.energy.keep.eavail)) ∧
          u.fld KEEP_HOLDCHK_UF = cm ∧ u.flag KEEP_HOLDCHK_VALID = (cm != 0) ∧ s.only u [] fun r => r = KEEP_HOLDCHK)

/-- R123-R126, R322, R371: the Keystone's other operations. BIST_REQUEST enters the slicer's queue, and ends REFUSED (0xA)
for a target outside the part or a full queue and ABORTED_THERMAL (9) for a hot one. TELEMETRY_SNAPSHOT and
REPAIR_QUERY write a record behind a 64 B header, truncated to the buffer. FW_STAGE reads its image (here: in this stack at once where
nothing is in its way and its granules read clean), refuses one that is not newer (8), takes one whose digest and signature hold, and marks any other. FW_ACTIVATE takes the Keystone down where a
newer image is staged; its restart runs that image, or keeps the old one where it does not start. Where an event
cannot arise, nothing changes (the model's choice, log entry 3). -/
def Obligations.MaintenanceOperations : Prop :=
  (∀ (s : State) (q : Fin 64) (d : List Byte), s.begins q d = true →
    let o := s.opAt q d
    let h := s.inHand q d
    (fieldB d 0 1 = 0x30 →
      (s.targetOut o.target = true ∨ 16 ≤ s.bst.queue.length → exec (.bistRequest q d) s = .next (h.ksEnds o 0xA 0)) ∧
      (s.targetOut o.target = false → s.bst.queue.length < 16 → 3 ≤ s.tStep o.target →
        exec (.bistRequest q d) s = .next (h.ksEnds o 9 0)) ∧
      (s.targetOut o.target = false → s.bst.queue.length < 16 → s.tStep o.target < 3 → exec (.bistRequest q d) s =
        .next { h with bst := { s.bst with queue := s.bst.queue ++ [(o.target, 2, some o)] } })) ∧
    (fieldB d 0 1 = 0x31 → ∃ data all, let n := min all ((o.blen - 64) / 8)
      exec (.telemetrySnapshot q d) s = .next (h.bump.ksWrite o (fieldB d 8 8) data
        (if n < all ∨ o.blen < 64 then 2 else 0) n 64 8) ∧
      data.length ≤ o.blen ∧ (64 ≤ o.blen → fieldB data 0 8 = s.ks.time % 2 ^ 64 ∧ fieldB data 16 2 = fieldB d 20 2)) ∧
    (fieldB d 0 1 = 0x32 → let all := s.repairOrder.length
      let n := min all ((o.blen - 64) / 8)
      ∃ data, exec (.repairQuery q d) s = .next (h.ksWrite o (fieldB d 8 8) data
          (if n < all ∨ o.blen < 64 then 2 else 0) n 64 8) ∧
        data.length ≤ o.blen ∧ (64 ≤ o.blen → fieldB data 0 8 = s.ks.time % 2 ^ 64 ∧ fieldB data 8 4 = n % 2 ^ 32)) ∧
    (fieldB d 0 1 = 0x40 →
      (∀ obs, (s.fus.life = 4 → exec (.fwStage q d obs) s = .next (h.ksEnds o 8 0)) ∧
        (s.fus.life ≠ 4 → exec (.fwStage q d obs) s = .next (h.ksRead obs o (fieldB d 8 8) (fieldB d 16 4)))) ∧
      (let b := fieldB d 8 8
       let n := fieldB d 16 4 / 64
       let data := fun i => let g := baAddr b / 64 + i
         (s.queuedData g).getD (s.granData g)
       ∀ obs, s.fus.life ≠ 4 → s.inService = true → baRemote b = false → baAddr b / 64 + n ≤ dramEnd / 64 →
         (∀ i < n, s.readable (baAddr b / 64 + i) = true ∧ readsClean obs (baAddr b / 64 + i)) →
         ∃ u : State, exec (.fwStage q d obs) s = .next (u.fwEnd o ⟨(List.range n).map fun i => some (data i), [], false⟩) ∧
           u.dram = s.dram ∧ u.ks.fw = s.ks.fw ∧ u.fus = s.fus)) ∧
    (fieldB d 0 1 = 0x41 → ∀ v, s.bestFw = some v → s.ks.fwRun / 2 < v / 2 → s.dev = .ready →
      ∃ t, exec (.fwActivate q d) s = .next t ∧ t.pwr = { s.pwr with ksDown := true, ksOp := some o } ∧
        t.thm = { s.thm with model := false } ∧ s.only t [.ks, .wq, .pwr, .thm] fun _ => False)) ∧
  (∀ (s : State) (o : Op) (r : FwRead) (image : List Byte), image = (r.got.map fun x => x.getD []).flatten →
    let v := Config.fwVersion image % 2 ^ 32
    let digest := leBytes 48 (Config.fwDigest image)
    let good := Config.sha384 image % 2 ^ 384 = Config.fwDigest image % 2 ^ 384 ∧ bitAt (s.fld FUS_STAT_INVALID) 9 = false ∧
      Config.ecdsaOk s.fus.fwKey digest (Config.fwSig image) = true
    (r.bad = true → s.fwEnd o r = (s.putFw { present := true }).ksEnds o 0xF 0) ∧
    (r.bad = false →
      (v / 2 ≤ s.ks.fwRun / 2 → s.fwEnd o r = s.ksEnds o 8 0) ∧
      (s.ks.fwRun / 2 < v / 2 → s.keepHot = true → s.fwEnd o r = s.ksEnds o 9 0) ∧
      (s.ks.fwRun / 2 < v / 2 → s.keepHot = false →
        (good → s.fwEnd o r = (s.putFw { present := true, version := v, digestOk := true, digest := digest
                                         sig := Config.fwSig image, key := some s.fus.fwKey, image := image }).ksEnds o 0
            (fwverOf v (1 - s.ks.fwRun % 2))) ∧
        (¬good → ∃ f, f.digestOk = false ∧ s.fwEnd o r = (s.putFw f).ksEnds o 0xF 0)))) ∧
  ∀ (s : State) (started : Bool),
    (s.pwr.ksDown = false → exec (.keystoneRestartDone started) s = .next s) ∧
    (s.pwr.ksDown = true → s.dev = .ready →
      let new := if started = true ∧ s.pwr.ksOp.isSome = true then s.bestFw.getD s.ks.fwRun
        else if s.fwStill s.ks.fwRun = true then s.ks.fwRun else 0
      let u := ({ s with pwr := { s.pwr with ksDown := false, ksOp := none } }.runFw new).modelStart
      exec (.keystoneRestartDone started) s =
        .next (match s.pwr.ksOp with | some o => u.ksEnds o 0 new | none => u))

/-- R142, R170: a header at the door of a channel that is ACTIVE enters the ingress buffer while it has a place, of which
the last eight are kept for class P, and the door is free again; otherwise it stays at the door. R147, R154, R161: a slot of
a channel that is neither ACTIVE nor DRAINING passes without a command; one of another channel passes, and its command is a
refresh that goes first, else the command of the best request, else a refresh pulled in; a DRAINING channel that has nothing left
to write then enters self-refresh. A reset that waits for the channels goes on after the last (R285). Where an event cannot arise, nothing changes
(the model's choice, log entry 3). -/
def Obligations.ChannelsAcceptAndSlot : Prop :=
  ∀ (s : State) (c : Fin 32),
    ((s.tgt c).door = none → exec (.channelRequestAccept c) s = .next s) ∧
    (∀ u, (s.tgt c).door = some u →
      let h := s.chan c
      let others := (h.ingress.filter fun v => !privileged v.master).length
      (h.st ≠ .active ∨ 64 ≤ h.ingress.length ∨ (privileged u.master = false ∧ 56 ≤ others) →
        exec (.channelRequestAccept c) s = .next s) ∧
      (h.st = .active → h.ingress.length < 64 → privileged u.master = true ∨ others < 56 →
        ∃ v, exec (.channelRequestAccept c) s = .next (v.fillBanks c) ∧
          (v.chan c).ingress = h.ingress ++ [{ u with ord := h.ord, acc := (h.pc (decodeAddr u.addr).pc).now }] ∧
          (v.tgt c).door = none ∧ s.only v [.mc, .mtr, .keep] fun r => r = MC_INGRESS c ∨ r = KEEP_TOUCH)) ∧
    ∀ (pc : Fin 2) (obs : List CellObs),
      ((s.chan c).st ≠ .active → (s.chan c).st ≠ .draining → exec (.commandSlot c pc obs) s = .next s.waitCheck) ∧
      ((s.chan c).st = .active ∨ (s.chan c).st = .draining → let t := s.slotOpens c pc
        exec (.commandSlot c pc obs) s = .next
          (((match t.pickRefresh c pc, t.pickRequest c pc, t.pickPullIn c pc with
            | some (i, cmd, forced), _, _ => t.issueCmd c pc obs forced false i cmd
            | none, some (i, cmd), _ => t.issueCmd c pc obs false false i cmd
            | none, none, some (i, cmd, _) => t.issueCmd c pc obs false true i cmd
            | none, none, none => t).modPc c pc fun p => { p with now := p.now + 1 }).drained c).waitCheck)

/-- R151, R155, R160: whatever a slot picks, the timing allows: an activate goes to a closed bank with tRC, tRP, tRRD and
tFAW kept and no targeted refresh pending; a column command to the open row that its request needs, with tRCD, tCCD
and the data bus's turn kept; a precharge and a refresh when their bank may close or refresh. -/
def Obligations.CommandsKeepTiming : Prop :=
  ∀ (s : State) (c pc : Nat),
    let p := (s.chan c).pc pc
    (∀ i cmd, s.pickRequest c pc = some (i, cmd) → i < 16 ∧
      match cmd with
      | .act _ => (p.bank i).row = none ∧ canAct p i = true ∧ (p.bank i).trr = none
      | .col u => u ∈ (p.bank i).q ∧ (p.bank i).row = some (decodeAddr u.addr).row ∧ canCol p i (u.op != 0) = true
      | .pre => (p.bank i).row.isSome = true ∧ canPre p (p.bank i) = true
      | _ => False) ∧
    (∀ i cmd forced, s.pickRefresh c pc = some (i, cmd, forced) →
      match cmd with
      | .ref => canRef p i = true
      | .refAb => canRefAb p = true
      | .pre => canPre p (p.bank i) = true
      | _ => False) ∧
    ∀ i cmd forced, s.pickPullIn c pc = some (i, cmd, forced) → cmd = .ref ∧ canRef p i = true ∧ (p.bank i).q = []

/-- R149, R153, R154, R159: a refresh that falls due raises the bank's debt by 1, and is counted as postponed where
requests wait and the debt, above 0, is within the cap; a channel that is not ACTIVE or DRAINING refreshes itself. Under the
adaptive policy a kept row that stays idle closes and lowers the predictor. A row that closes raises its group's activation counter, at most to
65,535, and at THRESH leaves a targeted refresh pending; an activate opens its row and a refresh of a bank lowers its
debt by 1 and takes 160 ns. Where an event cannot arise, nothing changes (the model's choice, log entry 3). -/
def Obligations.RowsAndRefresh : Prop :=
  (∀ (s : State) (c : Fin 32) (pc : Fin 2) (bank : Fin 16),
    let b := s.bank c pc bank
    let up := s.modBank c pc bank fun b => { b with debt := b.debt + 1 }
    ((s.chan c).st ≠ .active → (s.chan c).st ≠ .draining → exec (.refreshDue c pc bank) s = .next s) ∧
    ((s.chan c).st = .active ∨ (s.chan c).st = .draining → exec (.refreshDue c pc bank) s =
      .next (if b.q = [] ∨ b.debt + 1 ≤ 0 ∨ (s.refCap c : Int) < b.debt + 1 then up else up.incFld (MC_POSTPONE_COUNT c) 1)) ∧
    (∀ row, b.kept = true → b.row = some row → b.q = [] → s.adaptive c = true → ∃ t, exec (.openRowIdleTimeout c pc bank) s = .next t ∧
      (t.bank c pc bank).row = none ∧ (t.bank c pc bank).pred = b.pred - 1 ∧
      tgetD t.mc.acts (actKey c pc bank row) 0 = min 65535 (tgetD s.mc.acts (actKey c pc bank row) 0 + 1) ∧
      s.only t [.mc] fun _ => False) ∧
    (b.kept = false ∨ b.q ≠ [] ∨ s.adaptive c = false → exec (.openRowIdleTimeout c pc bank) s = .next s)) ∧
  ∀ (s : State) (c pc i row at_ : Nat) (h : Chan) (p : Pc) (b : Bank),
    s.mc.chans[c]? = some h → h.pcs[pc]? = some p → p.banks[i]? = some b →
    (b.row = some row → let n := min 65535 (tgetD s.mc.acts (actKey c pc i row) 0 + 1)
      let t := s.closeRow c pc i at_
      (t.bank c pc i).row = none ∧ (t.bank c pc i).lastPre = at_ ∧ tgetD t.mc.acts (actKey c pc i row) 0 = n ∧
      (t.bank c pc i).trr = (if max 256 (s.fld (MC_TRRCTL_THRESH c)) ≤ n then some (row / 4 * 4) else b.trr)) ∧
    ((s.issueAct c pc i row).bank c pc i).row = some row ∧ ((s.issueAct c pc i row).bank c pc i).lastAct = p.now ∧
    (∀ forced pulled, ((s.issueRef c pc i forced pulled).bank c pc i).debt = b.debt - 1 ∧
      ((s.issueRef c pc i forced pulled).bank c pc i).refUntil = p.now + 160)

/-- R161-R163, R354: an idle request abandons the visits of the channel's pins and takes an ACTIVE channel into self-refresh, with
every row closed, no debt left and the entry counted (a targeted refresh that a closing row makes due issues with it), or into
DRAINING while its queued writes are not written or a self-test slice holds a bank of it (the model's reading, log entry 53); a
channel that cannot reach self-refresh in time goes DOWN and 0x0881 says how many reported writes are lost; a channel leaves
self-refresh with every debt 0. R39, R158: MC_DLYAPPLY captures the delay registers as they stand for the next all-bank refresh,
which a pseudo-channel pulls in after 100 µs, as it does for a pin switch that waits for it (R316). Where an event cannot arise, nothing changes (the model's choice, log entry 3). -/
def Obligations.IdleAndDelays : Prop :=
  ∀ (s : State) (c : Fin 32),
    exec (.channelIdleRequest c) s = .next ((s.abandonVisits (CalUnit.onChan c)).idleChannel c) ∧
    ((∀ v ∈ s.cal.visits, CalUnit.onChan c v.unit = false) → s.abandonVisits (CalUnit.onChan c) = s) ∧
    ((s.chan c).st = .active → (s.chan c).hold = none → (s.chan c).undrained = false →
      (∀ i < 2, ((s.chan c).pc i).dlyPend = false ∧ s.switchWaits c i = false) →
      ∃ t, s.idleChannel c = t ∧ (t.chan c).st = .selfref ∧
        (∀ p ∈ (t.chan c).pcs, p.sref = true ∧ ∀ b ∈ p.banks, b.debt ≤ 0) ∧
        (∀ i k, i < 2 → k < 16 → (t.bank c i k).row = none) ∧
        t.fld (MC_SRCNT_COUNT c) = satAdd 32 (s.fld (MC_SRCNT_COUNT c)) 1 ∧
        s.only t (.mc :: wires) fun r => inLtc r ∨ r = MC_REFAB c ∨ r = MC_SRCNT c ∨ r = MC_TRRSTAT c ∨ r = MC_TRRLAST c) ∧
    ((s.chan c).st = .active → (s.chan c).hold ≠ none ∨ (s.chan c).undrained = true →
      s.idleChannel c = s.modChan c fun h => { h with st := .draining }) ∧
    ((s.chan c).st ≠ .active → s.idleChannel c = s) ∧
    ((s.chan c).st = .draining → ∃ u n bit,
      exec (.channelIdleTimeout c) s = .next (u.post 0x0881 3 c (min 65535 n + 65536 * bit)).waitCheck ∧
      n = ((s.chan c).pcs.map fun p => (p.banks.map fun b => (b.q.filter fun x => x.reported && x.own.isNone).length).sum).sum ∧
      (u.chan c).st = .down ∧ (∀ p ∈ (u.chan c).pcs, p.sref = true ∧ ∀ b ∈ p.banks, ∀ x ∈ b.q, x.owed = false) ∧
      (∀ i k, i < 2 → k < 16 → (u.bank c i k).row = none) ∧
      s.only u [.mc] fun _ => False) ∧
    ((s.chan c).st ≠ .draining → exec (.channelIdleTimeout c) s = .next s) ∧
    ((s.chan c).st = .selfref → ∃ t, exec (.selfRefreshExit c) s = .next t ∧ (t.chan c).st = .active ∧
      (∀ p ∈ (t.chan c).pcs, p.sref = false ∧ ∀ b ∈ p.banks, b.row = none ∧ b.debt = 0) ∧
      t.fld (MC_REFAB_COUNT c) = satAdd 32 (s.fld (MC_REFAB_COUNT c)) 2 ∧ s.only t [.mc] fun r => r = MC_REFAB c) ∧
    ((s.chan c).st ≠ .selfref → exec (.selfRefreshExit c) s = .next s) ∧
    (∀ (a : Access) (v : Word), s.served a (MC_DLYAPPLY c) = true → v.getLsbD 0 = true →
      exec (.mcDlyapply a c v) s = .next (((s.arrived a 9).modChan c fun h => { h with
        dlyCap := (List.range 30).map fun n => s.reg (MC_DLY c n)
        pcs := h.pcs.map fun p => { p with dlyPend := true, dlyArmed := false } }).respond a 9 0 0)) ∧
    ∀ pc : Fin 2, exec (.dlyApplyPullinTimeout c pc) s =
      .next (if ((s.chan c).pc pc).dlyPend = true ∨ s.switchWaits c pc = true then s.modPc c pc (fun p => { p with pullAb := true }) else s)

/-- R169, R172, R173: a request at the head of its queue that no cause holds leaves the queue and its receive buffer and
is issued; the accesses of the device's own masters M4 to M7 go from the one queue of their port in order, as far as no cause
holds them, and their granules are outstanding until they return. A request is cut at 256 B boundaries into units of at most
four granules that cover it once, in order. Where an event cannot arise, nothing changes (the model's choice, log entry 3). -/
def Obligations.RequestsIssued : Prop :=
  (∀ (s : State) (m : Fin 8) (mgt : Bool),
    let line := fun t : State => if mgt = true then (t.master m).mgt else (t.master m).req
    (line s = [] → (s.master m).asks = [] → exec (.masterPortAdmit m mgt) s = .next s) ∧
    (line s = [] → ∀ a rest, (s.master m).asks = a :: rest →
      (s.ownCause m a.grans ≠ 0 → exec (.masterPortAdmit m mgt) s = .next s) ∧
      (s.ownCause m a.grans = 0 → exec (.masterPortAdmit m mgt) s =
        .next (((s.modMaster m fun x => { x with asks := rest }).follow m a).serve m rest.length))) ∧
    ∀ h rest, line s = h :: rest →
      (s.inService = false ∨ s.holdCause m h.pkt ≠ 0 ∨ (m.val < 4 ∧ (s.port m).rstHold = true) →
        exec (.masterPortAdmit m mgt) s = .next s) ∧
      (s.inService = true → s.holdCause m h.pkt = 0 → 4 ≤ m.val ∨ (s.port m).rstHold = false →
        ∃ u, exec (.masterPortAdmit m mgt) s = .next (u.issue h.port h.pkt (s.keep.isDirty (pageOf h.pkt.addr.toNat))) ∧
          line u = rest ∧ u.lnk = (s.takeRx h.port h.pkt).lnk ∧
          u.keep = (if canWrite h.pkt = true then { s.keep with dirty := radd s.keep.dirty (pageOf h.pkt.addr.toNat) } else s.keep) ∧
          s.only u [.mtr, .lnk, .keep] fun _ => False)) ∧
  (∀ (s : State) (m : Nat) (a : Ask) (x : Master), s.mtr.masters[m]? = some x → s.mtr.targets.length = 34 →
    let t := s.follow m a
    (t.master m).ost = x.ost + a.grans ∧ (t.master m).asks = x.asks ∧
    (∀ u ∈ a.units, a.own.target u.1 < 34 → ∃ h ∈ (t.tgt (a.own.target u.1)).hdrs,
      h.master = m ∧ h.addr = 64 * u.1 ∧ h.gran = u.2 ∧ h.op = a.op ∧ h.own = some a.own) ∧
    s.only t [.mtr] fun _ => False) ∧
  ∀ (g0 n : Nat), let us := cutUnits (n + 1) g0 0 n
    us.flatMap (fun u => (List.range u.2).map fun i => g0 + u.1 + i) = (List.range n).map (g0 + ·) ∧
    ∀ u ∈ us, 1 ≤ u.2 ∧ u.2 ≤ 4 ∧ (g0 + u.1) / 4 = (g0 + u.1 + u.2 - 1) / 4

/-- R175-R178: the arbiter's winner asks, and no other asker has a higher class of service, of equals a higher rank, of
equals an earlier turn. At a free target the first header of the master picked one handshake ahead, or of the winner where none
is, enters: a channel's goes to its door, a header of the keep controller's or the register switch's target goes straight to
the data path, and the next master is picked from those then present. The owner of a data path that nobody may preempt
moves one beat of its transfer, whose bytes its meter pays. Where an event cannot arise, nothing changes (the model's choice, log entry 3). -/
def Obligations.MortarHandshakes : Prop :=
  (∀ (s : State) (rank : List Nat) (last : Nat) (ms : List Nat) (w : Nat), (∀ m ∈ ms, m < 8) → (∀ r ∈ rank, r < 8) → last < 8 →
    s.arbWin rank last ms = some w → w ∈ ms ∧ ∀ m ∈ ms, s.arbKey m < s.arbKey w ∨ (s.arbKey m = s.arbKey w ∧
      (rank.getD m 0 < rank.getD w 0 ∨ (rank.getD m 0 = rank.getD w 0 ∧ cycDist last w ≤ cycDist last m)))) ∧
  (∀ (s : State) (t : Fin 34), (s.tgt t).door.isSome = true → exec (.mortarHeaderHandshake t) s = .next s) ∧
  (∀ (s : State) (t : Fin 34), (s.tgt t).pick = none → s.askers t = [] → exec (.mortarHeaderHandshake t) s = .next s) ∧
  (∀ (s : State) (t : Fin 34) (m : Nat) (u : MUnit), (s.tgt t).door = none →
    (s.tgt t).pick = some m ∨ ((s.tgt t).pick = none ∧ s.arbWin (s.tgt t).rank (s.tgt t).last (s.askers t) = some m) →
    (s.tgt t).hdrs.find? (fun u => u.master == m) = some u →
    ∃ v, exec (.mortarHeaderHandshake t) s = .next v ∧ (v.tgt t).hdrs = (s.tgt t).hdrs.erase u ∧
      (t.val < 32 → (v.tgt t).door = some u ∧ (v.tgt t).xfers = (s.tgt t).xfers) ∧
      (32 ≤ t.val → (v.tgt t).door = none ∧ (v.tgt t).xfers = (s.tgt t).xfers ++ [{ unit := u, beats := beatsAt t u, out := false }]) ∧
      (∀ w, (v.tgt t).pick = some w → w ∈ v.askers t) ∧ s.only v [.mtr] fun _ => False) ∧
  (∀ (s : State) (t : Fin 34), (s.tgt t).owner = none → (s.tgt t).movers t = [] → exec (.mortarDataBeat t) s = .next s) ∧
  ∀ (s : State) (t : Fin 34) (o : Nat) (x : Xfer), (s.tgt t).owner = some o → o ∈ (s.tgt t).movers t →
    (∀ m ∈ (s.tgt t).movers t, s.arbKey m ≤ s.arbKey o) → (s.tgt t).xferOf o = some x → x.moved + 1 < x.beats →
    privileged o = false → let n := beatBytes t
    (s.tgt t).burst + max 1 (n / 64) < max 1 (min 64 (s.actFld (MTR_BURST_GRAN o))) →
    ∃ u, exec (.mortarDataBeat t) s = .next (if t = 33 then u.add64 (MTR_BYTES_LO o) n else u.moved o n) ∧
      (u.tgt t).owner = some o ∧ (u.tgt t).xferOf o = some { x with moved := x.moved + 1 } ∧
      (u.tgt t).burst = (s.tgt t).burst + max 1 (n / 64) ∧
      (u.tgt t).capLeft = (if t.val < 32 then (s.tgt t).capLeft - n else (s.tgt t).capLeft) ∧ s.only u [.mtr] fun _ => False

/-- R181-R183, R187: each tenth of a microsecond a meter with a guarantee rises by it, up to its bound; one without stays
at 0. A window of 10 µs starts the byte counts anew and counts, in MTR_GSHORT_m, each master that had something to
move and fell more than 16 KiB short. A microsecond renews the cap of every channel's target. A pace window gives the
meter its rate and keeps its smallest, and two low windows in a row post 0x0805 once. R184, R185, R190: a served write
of MTR_COMMIT with COMMIT 1 sums the guarantees within their range. Above the floor admission uses
it is rejected (2) with 0x0801 and every active copy and every shadow stays; otherwise it is accepted (1): the shadows are
limited to their ranges and the active copies become the shadows. The effective guarantee of a master is its active one, scaled down where all together exceed the present
floor. -/
def Obligations.MortarMeters : Prop :=
  (∀ s : State,
     (∃ t, exec .guaranteeMeterTick s = .next t ∧
       (∀ m x, m < 8 → s.mtr.masters[m]? = some x → t.master m = { x with
         meter := if s.gEff m = 0 ∨ s.meterHolds m = true then 0 else min (1000 * s.gEff m) (x.meter + (100 * s.gEff m : Nat))
         waited := x.waited && s.masterBusy m x }) ∧
       s.only t [.mtr] fun _ => False) ∧
     (let short := fun m => (s.master m).waited = true ∧ s.masterBusy m (s.master m) = true ∧
         (s.master m).winBytes + 16384 < s.gEff m * 10000
       ∃ t, exec .guaranteeWindowEnd s = .next t ∧
         (∀ m x, m < 8 → s.mtr.masters[m]? = some x → (t.master m).winBytes = 0 ∧ (t.master m).waited = s.masterBusy m x) ∧
         (∀ m < 8, (short m → t.fld (MTR_GSHORT_COUNT m) = satAdd 32 (s.fld (MTR_GSHORT_COUNT m)) 1) ∧
           (¬short m → t.fld (MTR_GSHORT_COUNT m) = s.fld (MTR_GSHORT_COUNT m))) ∧
         s.only t (.mtr :: wires) fun r => inLtc r ∨ ∃ m < 8, r = MTR_GSHORT m) ∧
     (∃ t, exec .throttleCapWindow s = .next t ∧
       (∀ c g, c < 32 → s.mtr.targets[c]? = some g → t.tgt c = { g with capLeft := s.theta4 c * s.fBand * 1000 / 128 }) ∧
       s.only t [.mtr] fun _ => False) ∧
     ∀ (n : Fin 16) (count : Nat),
       let c := min count 4095
       let fire := c < 1111 ∧ 1 ≤ s.mtr.low.getD n 0 ∧ s.mtr.lowPosted.getD n false = false
       ∃ u, exec (.paceMeterWindow n count) s = .next (if fire then u.post 0x0805 2 0xFF (n + 65536 * c) else u) ∧
         u.fld (MTR_PACE_RATE n) = c ∧ u.fld (MTR_PACE_MIN n) = min (s.fld (MTR_PACE_MIN n)) c ∧
         s.only u [.mtr] fun r => r = MTR_PACE n) ∧
  ((∀ (s : State) (a : Access) (v : Word), s.served a MTR_COMMIT = true →
     let sum := ((List.range 8).map fun m => min 2048 (s.fld (MTR_MINBW_GBPS m))).sum
     let floor := if s.flag MTR_CTL_ADMIT_STRICT = true then 1480 else s.fBand
     (v.getLsbD 0 = false → exec (.mtrCommit a v) s = .next ((s.arrived a 9).respond a 9 0 0)) ∧
     (v.getLsbD 0 = true → floor < sum → ∃ u, exec (.mtrCommit a v) s =
         .next ((u.post 0x0801 1 0xFF (sum + 65536 * floor)).respond a 9 0 0) ∧
       u.fld MTR_COMMIT_STAT_RESULT = 2 ∧ u.fld MTR_COMMIT_STAT_FLOOR = floor ∧
       (s.arrived a 9).only u [] fun r => r = MTR_COMMIT_STAT) ∧
     (v.getLsbD 0 = true → sum ≤ floor → ∃ u, exec (.mtrCommit a v) s = .next (u.updateScale.respond a 9 0 0) ∧
       u.fld MTR_COMMIT_STAT_RESULT = 1 ∧
       (∀ m < 8, u.gAct m = min 2048 (s.fld (MTR_MINBW_GBPS m)) ∧ u.actReg (MTR_OSTD m) = u.reg (MTR_OSTD m) ∧
         u.fld (MTR_OSTD_GRAN m) = max 1 (min 4096 (s.fld (MTR_OSTD_GRAN m))) ∧
         u.actReg (MTR_BURST m) = u.reg (MTR_BURST m) ∧ u.fld (MTR_BURST_GRAN m) = max 1 (min 64 (s.fld (MTR_BURST_GRAN m)))) ∧
       (s.arrived a 9).only u [.act] fun r => r = MTR_COMMIT_STAT ∨ ∃ m < 8, r = MTR_OSTD m ∨ r = MTR_MINBW m ∨ r = MTR_BURST m)) ∧
   ∀ (s : State) (m : Nat), (s.gSum ≤ s.fNow → s.gEff m = s.gAct m) ∧
     (s.fNow < s.gSum → s.gEff m = s.gAct m * s.fNow / s.gSum) ∧ s.gEff m ≤ s.gAct m)

/-- R191, R193, R215, R216, R232: the program block of a LOADING job comes from its endpoint or, for a local one, from memory, where
its header is read first and then, once, the rest as the header gives its length; while transfers of it are under way nothing
changes. A read that fails or meets poison refuses the job. A job whose block is read waits with the need, the rows and the place
in line that R215 gives it; the first in line runs once its need fits into the job-state SRAM, and the others wait
behind it. Where an event cannot arise, nothing changes (the model's choice, log entry 3). -/
def Obligations.JobsLoadAndStart : Prop :=
  (∀ (s : State) (n : Fin 16) (remote : List Byte) (ok : Bool) (obs : List CellObs), let j := s.job n
    (j.st ≠ .loading → exec (.programReadDone n remote ok obs) s = .next s) ∧
    (j.st = .loading → exec (.programReadDone n remote false obs) s = .next (s.finishJob n 0xA 1 1)) ∧
    (j.st = .loading → baRemote j.op.prog = true → 64 * pGrans remote ≤ remote.length →
      exec (.programReadDone n remote true obs) s = .next (s.programLoaded n (remote.take (64 * pGrans remote)))) ∧
    (j.st = .loading → baRemote j.op.prog = false → let g0 := baAddr j.op.prog / 64
      let header := s.granData g0
      (s.onWay (.prog n) = true → exec (.programReadDone n remote true obs) s = .next s) ∧
      (s.onWay (.prog n) = false → j.prog = [] → g0 < dramEnd / 64 → s.readable g0 = true → readsClean obs g0 →
        exec (.programReadDone n remote true obs) s = .next (if pGrans header ≤ 1 then s.programLoaded n (header.take (64 * pGrans header))
          else (s.modJob n fun j => { j with prog := header }).ask 4 0 (.prog n) (unitsOf (g0 + 1) (pGrans header - 1)))) ∧
      (∀ h, s.onWay (.prog n) = false → j.prog.length = 64 * h → 1 ≤ h → h ≤ pGrans j.prog → g0 + pGrans j.prog ≤ dramEnd / 64 →
        (∀ i, h ≤ i → i < pGrans j.prog → s.readable (g0 + i) = true ∧ readsClean obs (g0 + i)) →
        exec (.programReadDone n remote true obs) s =
          .next (s.programLoaded n (j.prog ++ mread s.dram.mem (64 * (g0 + h)) (64 * (pGrans j.prog - h))))))) ∧
  (∀ (s : State) (n : Nat) (g : List Byte), progBad g = false → s.progChanged n g = false → s.outClash n g = false → (s.job n).st = .loading →
    let t := s.programLoaded n g
    (t.job n).st = .waiting ∧ (t.job n).prog = g ∧ (t.job n).need = pNeed g ∧ (t.job n).total = pRows g ∧
    (t.job n).ord = s.chs.ord ∧ t.chs.ord = s.chs.ord + 1 ∧ s.only t [.chs] fun _ => False) ∧
  ∀ s : State,
    ((∀ n < 16, (s.job n).st ≠ .waiting) → exec .jobAdmit s = .next s) ∧
    ∀ n < 16, (s.job n).st = .waiting → (∀ m < 16, m ≠ n → (s.job m).st = .waiting → (s.job n).ord < (s.job m).ord) →
      (12288 < s.sramUsed + (s.job n).need → exec .jobAdmit s = .next s) ∧
      (s.sramUsed + (s.job n).need ≤ 12288 → ¬(oKind (s.job n).prog = 3 ∧ (s.job n).op.outLen < aggRoom (s.job n).prog) →
        ∃ t, exec .jobAdmit s = .next t ∧ t.job n = { s.job n with st := .running } ∧
          s.only t [.chs] fun r => r = CHS_SRAM)

/-- R217-R219, R232-R235: a slice takes at most 64 unread granules of one channel of one job: the channel has the highest
credit of those with work, the lowest of those with that credit, and pays the work of all; the job is the next with work
on it after the channel's last. Its granules count as asked. While a request of M4 waits at its port no local slice is issued, while
the chisel is paused (the remote reads of a COPY with it: the model's choice, log entry 151) or memory is not in service none.
A slice arrives once its transfers have returned. Each granule of a CHISEL_RUN's slice that is readable and reads clean is staged with
the bytes that memory holds. Where M4 may write there, a granule of a FILL becomes its pattern and a readable granule of a local COPY
goes to its local destination as memory holds it; the page is dirty and the granule handled. What arrives for a
COPY or FILL that has stopped is dropped. Where an event cannot arise, nothing changes (the model's choice, log entry 3). -/
def Obligations.SlicesFeedJobs : Prop :=
  (∀ s : State, s.flag CHS_CTL_PAUSE = true ∨ s.inService = false → exec .sliceIssue s = .next s) ∧
  (∀ s : State, s.flag CHS_CTL_PAUSE = false → s.inService = true →
    exec .sliceIssue s = .next ((List.range 16).foldl (fun s n => s.remoteReads n) (if s.m4Free = true then s.nextSlice else s))) ∧
  (∀ (s : State) (c : Nat), let w := (List.range 32).map s.chW
    let credit := (List.range 32).map fun c => if w.getD c 0 = 0 then (0 : Int) else s.chs.credit.getD c 0 + w.getD c 0
    bestChan w credit = some c → c < 32 ∧ 0 < w.getD c 0 ∧
      (∀ k < 32, 0 < w.getD k 0 → credit.getD k 0 ≤ credit.getD c 0 ∧ (credit.getD k 0 = credit.getD c 0 → c ≤ k)) ∧
      ∀ n, findFrom 16 (s.chs.last.getD c 15 + 1) (fun n => !((s.job n).unreadOn c).isEmpty) = some n → n < s.chs.jobs.length →
        let xs := ((s.job n).unreadOn c).take 64
        let t := s.nextSlice
        (t.job n).flight = (s.job n).flight ++ [(c, xs)] ∧ (∀ x ∈ xs, rmem (t.job n).asked x = true) ∧
        t.chs.credit = setAt credit c (credit.getD c 0 - w.sum) ∧ t.chs.last = setAt s.chs.last c n ∧
        s.only t [.chs, .mtr] (fun r => r = CHS_CHW c) ∧
        (s.flag CHS_CTL_PAUSE = false → s.inService = true → s.m4Free = true →
          (∀ m < 16, (s.job m).kind = 1 → baRemote (s.job m).op.src = false) → exec .sliceIssue s = .next t)) ∧
  (∀ s : State, (∀ c < 32, s.chW c = 0) → s.nextSlice = s) ∧
  (∀ (s : State) (n : Fin 16) (x : Nat) (obs : List CellObs), let j := s.job n
    let d := baAddr j.op.dst / 64 + x
    let g := j.localGran x
    let t := s.sliceGran n x obs
    let lands := fun bs => t.2 = true ∧ t.1.granData d = bs ∧ t.1.poisoned d = false ∧
      (∀ y ≠ d, t.1.granData y = s.granData y ∧ t.1.poisoned y = s.poisoned y) ∧
      rmem t.1.keep.dirty (d / 64) = true ∧ rmem (t.1.job n).done x = true
    j.fail = none → s.inService = true → baRemote j.op.dst = false → s.m4May d = true → d < dramEnd / 64 → s.fencedGran d = false →
    n.val < s.chs.jobs.length →
    (j.kind = 2 → lands (sliceB j.op.pattern 0 64)) ∧
    (j.kind = 1 → baRemote j.op.src = false → tget j.have_ x = none → s.readable g = true → readsClean obs g = true →
      lands (s.granData g))) ∧
  ∀ (s : State) (n : Fin 16) (c : Fin 32) (obs : List CellObs),
    ((∀ f ∈ (s.job n).flight, f.1 ≠ c.val) → exec (.sliceDataArrive n c obs) s = .next s) ∧
    ∀ f, (s.job n).flight.find? (fun f => f.1 == c.val) = some f →
      (s.onWay (sliceOwn n f) = true → exec (.sliceDataArrive n c obs) s = .next s) ∧
      (s.onWay (sliceOwn n f) = false → (s.job n).kind = 0 → s.inService = true →
        (∀ x ∈ f.2, s.readable x = true ∧ readsClean obs x) →
        ∃ t, exec (.sliceDataArrive n c obs) s = .next t ∧ (t.job n).flight = (s.job n).flight.erase f ∧
          (∀ x ∈ f.2, tget (t.job n).have_ x = some (some (s.granData x))) ∧
          (∀ x, x ∉ f.2 → tget (t.job n).have_ x = tget (s.job n).have_ x) ∧
          t.reg64 CHS_RDBYTES_LO = (s.reg64 CHS_RDBYTES_LO + 64 * f.2.length) % 2 ^ 64 ∧
          s.only t [.chs] fun r => r = CHS_RDBYTES_LO ∨ r = CHS_RDBYTES_LO + 4) ∧
      (s.onWay (sliceOwn n f) = false → let goes := fun (u : State) (x : Nat) => (u.sliceGran n x obs).1
        let u := s.modJob n fun j => { j with held := j.held.filter fun g => (decodeAddr (64 * g)).ch != c.val }
        (∀ k x, f.2[k]? = some x → (((f.2.take k).foldl goes u).sliceGran n x obs).2 = true) →
        exec (.sliceDataArrive n c obs) s =
          .next (((f.2.foldl goes u).modJob n fun j => { j with flight := j.flight.erase f }).copyEnd n)) ∧
      (s.onWay (sliceOwn n f) = false → (s.job n).kind ≠ 0 → (s.job n).fail.isSome = true →
        ∃ u, exec (.sliceDataArrive n c obs) s = .next (u.copyEnd n) ∧ (u.job n).flight = (s.job n).flight.erase f ∧
          s.only u [.chs] fun _ => False)

/-- R208, R220, R223-R225, R232: a cycle takes 16 granules and evaluates the rows of a running CHISEL_RUN that end in them (what is left begins the
next row), counts them, lets what is staged leave,
and ends the scan where nothing is left to scan or a write has failed. A row that touches a poisoned granule is
counted as scanned and as poisoned and is not selected; a row that is not selected is scanned and changes no output
but its bit of a bitmap; a row whose data is not staged waits. Where an event cannot arise, nothing changes (the
model's choice, log entry 3). -/
def Obligations.RowsEvaluated : Prop :=
  (∀ (s : State) (n : Fin 16), (s.job n).st ≠ .running ∨ (s.job n).kind ≠ 0 → exec (.chiselCycle n) s = .next s) ∧
  (∀ (s : State) (n : Fin 16), let j := s.job n
    j.st = .running → j.kind = 0 → let j' := j.evalRows 1024 (j.eaten + 16)
      ∃ u, u.job n = j' ∧ u.reg64 CHS_ROWS_LO = (s.reg64 CHS_ROWS_LO + (j'.scanned - j.scanned)) % 2 ^ 64 ∧
        (s.only u [.chs] fun r => r = CHS_ROWS_LO ∨ r = CHS_ROWS_LO + 4 ∨ r = CHS_PROWS) ∧
        exec (.chiselCycle n) s = .next (if ((u.flushJob n).job n).scanOver = true ∨ ((u.flushJob n).job n).fail.isSome = true then
          (u.flushJob n).scanEnd n else u.flushJob n)) ∧
  (∀ (j : Job) (fuel n : Nat), let cost := rowCost j.prog j.start j.next
    (j.scanOver = true → j.evalRows (fuel + 1) n = j) ∧
    (j.scanOver = false → (j.evalRow = none → j.evalRows (fuel + 1) n = { j with eaten := 0 }) ∧
      ∀ j', j.evalRow = some j' → j.evalRows (fuel + 1) n =
        if n < cost then { j with eaten := n } else { j' with eaten := 0 }.evalRows fuel (n - cost))) ∧
  ∀ j : Job, let g := j.prog
    let i := j.next
    let gs := rowGrans g i
    rowFits g i = true → (oKind g = 0 → i < j.start + 512 * (j.op.outLen / 64)) →
    ((∃ x ∈ gs, tget j.have_ x = none) → j.evalRow = none) ∧
    ((∀ x ∈ gs, tget j.have_ x ≠ none) → (∃ x ∈ gs, tget j.have_ x = some none) → ∃ j', j.evalRow = some j' ∧
      j'.poison = j.poison + 1 ∧ j'.scanned = j.scanned + 1 ∧ j'.next = i + 1 ∧ j'.sel = j.sel ∧
      j'.first = some (min i (j.first.getD i)) ∧ (oKind g ≠ 0 → j'.out = j.out)) ∧
    ((∀ x ∈ gs, ∃ bs, tget j.have_ x = some (some bs)) → selected g j.mem i = false → ∃ j', j.evalRow = some j' ∧
      j'.scanned = j.scanned + 1 ∧ j'.next = i + 1 ∧ j'.sel = j.sel ∧ j'.poison = j.poison ∧ (oKind g ≠ 0 → j'.out = j.out)) ∧
    ((∀ x ∈ gs, ∃ bs, tget j.have_ x = some (some bs)) → selected g j.mem i = true → oKind g = 1 →
      let r := rowId g (if oId64 g then 8 else 4) i
      j.evalRow = some (if j.op.outLen < j.outAt + j.out.length + r.length then { j with stop := some i }
        else { j with out := j.out ++ r, pend := j.pend ++ [(i, j.outAt + j.out.length + r.length)], sel := j.sel + 1,
                      scanned := j.scanned + 1, next := i + 1 }))

/-- R210, R215, R226, R229-R231, R236: the groups of an AGG job are sorted once and queued for writing. A job that is
EMITTING and has nothing left to write completes; one that is not EMITTING stays as it is, but that a RUNNING one writes
what it has staged. A COMPLETING job's entry is
sent, its summary is logged under its sequence, CHS_JOBS counts it and its slot is free. A pace window gives its rate
and two low ones in a row post 0x0806 once. Where an event cannot arise, nothing changes (the model's choice, log
entry 3). -/
def Obligations.JobsComplete : Prop :=
  (∀ (s : State) (n : Fin 16), let j := s.job n
    (j.st = .emitting → j.kind = 0 → oKind j.prog = 3 → j.sorted = false → exec (.groupSortDone n) s = .next ((s.modJob n fun j =>
      { j with sorted := true, out := aggBytes j.prog j.groups (0 < j.spillRows || j.spStop) j.sel j.scanned j.spillRows }).flushJob n)) ∧
    (j.st ≠ .emitting ∨ j.sorted = true → exec (.groupSortDone n) s = .next s) ∧
    (j.st = .emitting → j.kind = 0 → j.fail = none → j.out = [] → j.sp = [] → oKind j.prog ≠ 3 ∨ j.sorted = true →
      s.jobWaits n = false → s.onWay (.out n) = false → ∃ u, s.only u [.chs] (fun _ => False) ∧
        u.job n = { j with held := none } ∧
        ∀ gran spill, exec (.outputWritesAnswered n true gran spill) s = .next (u.finishRun n)) ∧
    (j.st = .emitting → j.kind = 1 ∨ j.kind = 2 → s.jobWaits n = false → s.onWay (.out n) = false → ∀ gran spill,
      exec (.outputWritesAnswered n true gran spill) s = .next (s.finishCopy n)) ∧
    (j.st = .emitting → j.kind ≠ 0 → s.jobWaits n = true ∨ s.onWay (.out n) = true → ∀ gran spill,
      exec (.outputWritesAnswered n true gran spill) s = .next s) ∧
    (j.st ≠ .emitting → ∀ ok gran spill, exec (.outputWritesAnswered n ok gran spill) s =
      .next (if j.st = .running then s.flushJob n else s)) ∧
    (j.st = .completing → let t := (s.complete j.op j.status j.result).incFld CHS_JOBS_COUNT 1
      exec (.jobCompletionSent n) s = .next (({ t with chs := { t.chs with
        log := tset t.chs.log (j.seq % 256) (j.seq, summaryOf j) } }.orphan n).modJob n fun _ => {})) ∧
    (j.st ≠ .completing → exec (.jobCompletionSent n) s = .next s)) ∧
  (∀ j : Job, j.kind = 0 → let b := summaryOf j
    b.length = 64 ∧ fieldB b 0 8 = j.sel % 2 ^ 64 ∧ fieldB b 8 8 = j.scanned % 2 ^ 64 ∧ fieldB b 32 8 = j.poison % 2 ^ 64) ∧
  ∀ (s : State) (count : Nat), let c := min count 4095
    let fire := c < 1075 ∧ 1 ≤ s.chs.low ∧ s.chs.lowPosted = false
    ∃ u, exec (.chiselPaceWindow count) s = .next (if fire then u.post 0x0806 2 0xFF c else u) ∧
      u.fld CHS_PACE_RATE = c ∧ u.fld CHS_PACE_MIN = min (s.fld CHS_PACE_MIN) c ∧ s.only u [.chs] fun r => r = CHS_PACE

/-- R243-R245, R270, R319: while memory is in service and the trickle's rate leaves room, the next dirty page from where the
trickle stands is copied: a free slot is taken, the dirty bit is cleared and, where no write to the page is on its way and its granules
are plain and read clean, its bytes as they are now make the version; the page's 16 units go to the keep controller through the port
of M5 (R167, R169). A program completes
only once they are there. When it does, and no beat of it met more failed TSVs than the keep bus's code carries, the map entry names
the new slot, the old one waits for a seal, KEEP_COPIES counts, and a slot that has reached its last program is retired. A program
that fails retires its slot, and the page is dirty again and copied anew where it may be. One that a reset waits for ends
without a swap. Where an event cannot arise, nothing changes (the model's choice, log entry 3). -/
def Obligations.CopiesSwapEntries : Prop :=
  (∀ (s : State) (obs : List CellObs), s.inService = false ∨ s.flag KEEP_CTL_PAUSE = true ∨ s.pwr.interval = true →
    exec (.trickleCopyStart obs) s = .next s) ∧
  (∀ (s : State) (obs : List CellObs), let k := s.keep
    let fuel := rcount k.dirty + k.dirty.length + 1
    let fresh := decide (k.winStart + 1000000 ≤ s.clock)
    let start := if fresh = true then s.clock else k.winStart
    let pages := if fresh = true then 0 else k.winPages
    let next := (rnextFrom fuel k.dirty k.ptr s.trickleOk).orElse fun _ => rnextFrom fuel k.dirty 0 s.trickleOk
    s.inService = true → s.flag KEEP_CTL_PAUSE = false → s.pwr.interval = false →
    (100000 * s.trickleRate < 4096 * (pages + 1) ∨ next = none → exec (.trickleCopyStart obs) s =
      .next (s.modKeep fun k => { k with winStart := start, winPages := pages })) ∧
    ∀ p slot key, let c := k.course (homeOf p)
      4096 * (pages + 1) ≤ 100000 * s.trickleRate → next = some p → k.keyOf k.epoch = some key → c.pickSlot = some slot →
      s.writesOnWay p = false →
      (∀ i < 64, s.plainGran (64 * p + i) = true ∧ s.queuedData (64 * p + i) = none ∧ readsClean obs (64 * p + i)) →
      ∃ u, exec (.trickleCopyStart obs) s = .next (u.ask 5 0 (.copy p) (pageUnits p)) ∧
        u = s.modKeep fun k => { k with
          ptr := p + 1
          winStart := start
          winPages := pages + 1
          dirty := rdel k.dirty p
          courses := modAt k.courses (homeOf p) fun c => c.takeSlot slot
          copies := k.copies ++ [{ page := p, course := homeOf p, slot := slot, cover := true, ver := {
            index := indexOf p, seq := k.seq, epoch := k.epoch.num, count := c.count slot + 1, mask := 0, key := key
            data := mcut s.dram.mem (4096 * p) 4096 } }] }) ∧
  ∀ (s : State) (k slot : Nat) (ok : Bool), let found := s.keep.copies.find? fun x => x.course == k && x.slot == slot
    (found = none → exec (.pageProgramComplete k slot ok) s = .next s) ∧
    ∀ x c, found = some x → s.keep.courses[x.course]? = some c →
      let goesOn := fun u : State => (if u.keep.charac.isSome = true then u.moverFill else u).ckptGoes.saveGoes
      let regs := fun r => inLtc r ∨ r = KEEP_COPIES_LO ∨ r = KEEP_COPIES_LO + 4
      (s.unstarted x = true → exec (.pageProgramComplete k slot ok) s = .next s) ∧
      (s.unstarted x = false → s.pwr.waiting = true → exec (.pageProgramComplete k slot ok) s =
        .next (if ok = true then s.dropCopy x true else (s.dropCopy x false).retireSlot x.course x.slot).waitCheck) ∧
      (s.unstarted x = false → s.pwr.waiting = false → s.keepBusOk k ok = true → let old := mapAt c.cur (indexOf x.page)
        ∃ u, exec (.pageProgramComplete k slot ok) s = .next (goesOn u) ∧ u.keep.copies = s.keep.copies.erase x ∧
          mapAt (u.keep.course x.course).cur (indexOf x.page) =
            { slot := x.slot, heat := min 3 (old.heat + 1), zero := false, poison := x.ver.mask != 0 } ∧
          tget (u.keep.course x.course).slots x.slot = some x.ver ∧
          (s.dev ≠ .saving → c.pend.length < 786432 → (u.keep.course x.course).pend = c.pend ++ [old.slot]) ∧
          (wearLimit ≤ x.ver.count → x.slot ∈ (u.keep.course x.course).retired) ∧
          (x.ver.count < wearLimit → (u.keep.course x.course).retired = c.retired) ∧
          u.reg64 KEEP_COPIES_LO = (s.reg64 KEEP_COPIES_LO + 1) % 2 ^ 64 ∧
          s.only u (.keep :: .mtr :: wires) regs) ∧
      (s.unstarted x = false → s.pwr.waiting = false → s.keepBusOk k ok = false →
        ∃ u, exec (.pageProgramComplete k slot ok) s = .next (goesOn
          (if u.mayCopy x.course = true ∧ (if u.dev = .saving then (u.keep.course x.course).hold.isSome
            else (u.keep.course x.course).hotPosted) = false then u.copyStart x.page [] else u)) ∧
        u.keep.copies = s.keep.copies.erase x ∧ rmem u.keep.dirty x.page = true ∧
        x.slot ∈ (u.keep.course x.course).retired ∧ (u.keep.course x.course).spares = c.spares - 1 ∧
        s.only u (.keep :: wires) inLtc)

/-- R246-R248: every KEEP_SEAL_MS a record seals what has been copied since the last one: it takes the next sequence and
carries the entries that changed. When the records of both courses read back, the slots they covered are free again
and KEEP_SEALSEQ and KEEP_SEALTIME name the record; when one does not, a new record with the next sequence carries the
same entries; while the records are on their way to the keep controller nothing reads back, and copies that waited for a free
slot go on. A fold's map, once written into the copy that is not in force, is sealed by a FOLD record that names
that copy. The pages of journal and map are taken as not worn out (R270). Where an event cannot arise, nothing changes (the model's choice, log entry 3). -/
def Obligations.SealsCover : Prop :=
  (∀ s : State, (s.inService = false ∨ s.keep.copiesSince = 0 ∨ s.pwr.interval = true → exec .sealTimer s = .next s) ∧
    ∀ c0 c1, s.keep.courses = [c0, c1] → s.inService = true → 0 < s.keep.copiesSince → s.pwr.interval = false →
      s.keep.sealing = none → s.keep.folding ≠ some true →
      ∃ t r0 r1, exec .sealTimer s = .next t ∧ t.keep.sealing = some (r0, r1, .none) ∧ t.keep.seq = s.keep.seq + 1 ∧
        r0.seq = s.keep.seq + 1 ∧ r1.seq = s.keep.seq + 1 ∧ r0.kind = 1 ∧ r1.kind = 1 ∧ r0.time = s.ks.time ∧
        r0.deltas = c0.deltas.map (fun i => (i, mapAt c0.cur i)) ∧ r1.deltas = c1.deltas.map (fun i => (i, mapAt c1.cur i)) ∧
        r0.single = (c1.fenced && !c0.fenced) ∧ r1.single = (c0.fenced && !c1.fenced) ∧
        (t.keep.course 0).pendS = c0.pend ∧ (t.keep.course 1).pendS = c1.pend ∧ s.only t [.keep, .mtr] fun _ => False) ∧
  (∀ s : State, (s.keep.sealing = none ∨ s.onWay .record = true → ∀ a b, exec (.sealReadbackDone a b) s = .next s) ∧
    ∀ c0 c1 r0 r1, s.keep.courses = [c0, c1] → c0.fenced = false → c1.fenced = false → s.keep.sealing = some (r0, r1, .none) →
      r0.kind ≠ 6 → s.onWay .record = false → let fresh := fun (c : Course) (r : SealRec) => c.jprog + recBytes r / 4096 < 32768 * 9999998
      fresh c0 r0 → fresh c1 r1 →
      (s.keep.folding = none → s.keep.sealQ = [] → s.keep.poisonPg = [] → c0.jbytes + recBytes r0 ≤ 8 * 2 ^ 20 → c1.jbytes + recBytes r1 ≤ 8 * 2 ^ 20 →
        ∃ t, exec (.sealReadbackDone true true) s = .next (if s.dev = .saving then t.saveGoes else t.moverFill) ∧
          (s.dev ≠ .saving → s.keep.ckpt = none → s.keep.charac = none → t.moverFill = t) ∧
          t.keep = { s.keep with sealing := none, copiedS := [], courses := [
            { c0 with journal := ringJournal (c0.journal ++ [{ r0 with ok := true }]), jbytes := c0.jbytes + recBytes r0,
                      jprog := c0.jprog + recBytes r0 / 4096, freed := c0.freed ++ c0.pendS, deltaS := [], pendS := [] },
            { c1 with journal := ringJournal (c1.journal ++ [{ r1 with ok := true }]), jbytes := c1.jbytes + recBytes r1,
                      jprog := c1.jprog + recBytes r1 / 4096, freed := c1.freed ++ c1.pendS, deltaS := [], pendS := [] }] } ∧
          t.reg64 KEEP_SEALSEQ_LO = r0.seq % 2 ^ 64 ∧ t.reg64 KEEP_SEALTIME_LO = r0.time % 2 ^ 64 ∧
          s.only t [.keep] fun r => r = KEEP_SEALSEQ_LO ∨ r = KEEP_SEALSEQ_LO + 4 ∨ r = KEEP_SEALTIME_LO ∨
            r = KEEP_SEALTIME_LO + 4) ∧
      ∀ a b, (a && b) = false → ∃ t q0 q1, exec (.sealReadbackDone a b) s = .next t ∧
        t.keep.sealing = some (q0, q1, .none) ∧ q0.seq = s.keep.seq + 1 ∧ q0.kind = r0.kind ∧
        (∀ i ∈ c0.deltaS, ∃ e, (i, e) ∈ q0.deltas) ∧ (∀ i ∈ c1.deltaS, ∃ e, (i, e) ∈ q1.deltas) ∧
        s.only t [.keep, .mtr] fun _ => False) ∧
  ∀ s : State, (s.keep.folding = none ∨ s.pwr.interval = true → exec .foldMapWritten s = .next s) ∧
    ∀ c0 c1, s.keep.courses = [c0, c1] → c0.fenced = false → c1.fenced = false → s.keep.folding ≠ none → s.pwr.interval = false →
      s.dev ≠ .recovery → s.keep.sealing = none → (∀ x ∈ s.keep.sealQ, x.2.2 ≠ .fold) →
      c0.mapProg.getD (1 - c0.force) 0 < 9999998 → c1.mapProg.getD (1 - c1.force) 0 < 9999998 →
      ∃ t q0 q1, exec .foldMapWritten s = .next t ∧ t.keep.sealing = some (q0, q1, .fold) ∧ q0.kind = 6 ∧ q1.kind = 6 ∧
        q0.copy = 1 - c0.force ∧ q1.copy = 1 - c1.force ∧
        (t.keep.course 0).maps = setAt c0.maps (1 - c0.force) c0.foldMap ∧
        (t.keep.course 1).maps = setAt c1.maps (1 - c1.force) c1.foldMap ∧ s.only t [.keep, .mtr] fun _ => False

/-- R250-R255: from the end of the power-on reset a sample enters the last hundred, and one outside 0.4 V to 14 V suspends an armed part with 0x0504. An
update computes the budget and what it allows to be dirty; an ARMING part whose measurement is valid and whose dirty
pages fit becomes ARMED with 0x0501; KEEP_ADMHOLD counts 100 µs while a write waits under admission. A write of
KEEP_HOLDCAP discards the measured capacitance, and a measurement that it makes invalid takes effect at once. Where an event cannot arise, nothing changes (the model's choice, log
entry 3). -/
def Obligations.EnergyAndArming : Prop :=
  (∀ (s : State) (uv : Nat), (s.dev = .off ∨ 1 ∈ s.pwr.levels → exec (.holdSenseSample uv) s = .next s) ∧
    (s.dev ≠ .off → 1 ∉ s.pwr.levels → s.keep.charac = none → s.keep.arm = .disarmed → ∃ t, exec (.holdSenseSample uv) s = .next t ∧
      t.keep = { s.keep with samples := (uv :: s.keep.samples).take 100, lastUv := uv } ∧ s.only t [.keep] fun _ => False) ∧
    (s.dev ≠ .off → 1 ∉ s.pwr.levels → s.keep.charac = none → s.keep.arm = .armed → s.flag KEEP_CTL_INVDISARM = false → uv < 50000 ∨ 1750000 < uv →
      ∃ t, exec (.holdSenseSample uv) s = .next t ∧ t.keep = { s.keep with
          samples := (uv :: s.keep.samples).take 100, lastUv := uv, arm := .suspended, dmax := 0 } ∧
        s.only t (.keep :: wires) inLtc)) ∧
  (∀ s : State, let e := s.energyMj s.holdV
    (s.dev = .off → exec .energyBudgetUpdate s = .next s) ∧
    (s.dev ≠ .off → s.keep.arm = .disarmed → ∃ u,
      exec .energyBudgetUpdate s = .next (if u.admHold = true then u.incFld KEEP_ADMHOLD_US 100 else u) ∧
      u.keep = { s.keep with vmv := s.holdV / 1000, eavail := e, ceff := s.ceff, dmax := dmaxOf e, below := false } ∧
      s.only u [.keep] fun _ => False) ∧
    (s.dev ≠ .off → s.keep.arm = .arming → s.measValid = true → s.keep.armOps = [] → s.keep.dirtyCount ≤ dmaxOf e → ∃ u w : State,
      w = u.post 0x0501 0 0xFF (dmaxOf e / 256) ∧
      exec .energyBudgetUpdate s = .next (if w.admHold = true then w.incFld KEEP_ADMHOLD_US 100 else w) ∧
      u.keep = { s.keep with
        vmv := s.holdV / 1000, eavail := e, ceff := s.ceff, dmax := dmaxOf e, arm := .armed, below := false } ∧
      s.only u [.keep] fun _ => False)) ∧
  ∀ (s : State) (a : Access) (v : Word), s.served a KEEP_HOLDCAP = true →
    ∃ u, exec (.keepHoldcapWrite a v) s = .next (u.holdSetup.respond a 9 0 0) ∧ (s.keep.arm = .disarmed → u.holdSetup = u) ∧ u.reg KEEP_HOLDCAP = v.toNat ∧ u.reg KEEP_HOLDCHK = 0 ∧
      (s.arrived a 9).only u [] fun r => r = KEEP_HOLDCAP ∨ r = KEEP_HOLDCHK

/-- R256-R260, R279, R411: PWR_FAIL_N falling starts a save where one may start: the device is SAVING, at step 1 of the
save, and no request waits any more. Once the units issued have completed, and no channel is on its way into self-refresh, the
channels that are there return and SAVE_OPEN is sealed, or without a key, where the keep is barred, the save ends. A save held for a course's temperature ends without SAVE_FINAL when power is back. Elsewhere a change of
PWR_FAIL_N is noted. Where an event cannot arise, nothing changes (the model's choice, log entry 3). -/
def Obligations.SaveRuns : Prop :=
  (∀ s : State,
    (s.pins.pwrFailN = false → exec .pwrFailNFall s = .next s ∧ exec .powerReturn10ms s = .next s) ∧
    (s.pins.pwrFailN = true → s.maySave = true → ∃ t, exec .pwrFailNFall s = .next t ∧ t.dev = .saving ∧ t.keep.saveStep = 1 ∧
      t.pins.pwrFailN = false ∧ t.pwr.highFor10 = false ∧ t.keep.armOps = [] ∧ t.keep.ckpt = none ∧
      (∀ m < 8, (t.master m).req = [] ∧ (t.master m).mgt = []) ∧ (t.master 4).asks = [] ∧ (t.master 6).asks = []) ∧
    (s.pins.pwrFailN = true → s.maySave = false → s.dev ≠ .bringup → exec .pwrFailNFall s = .next { s with
      pins := { s.pins with pwrFailN := false }, pwr := { s.pwr with highFor10 := false } }) ∧
    (s.pins.pwrFailN = true → s.maySave = false → s.dev = .bringup → s.pwr.step = (if s.pwr.warm = true then 5 else 8) →
      s.pwr.paused = false →
      ∃ u, exec .pwrFailNFall s = .next (u.post 0x010F 1 0xFF s.pwr.step) ∧ u.pwr.fell = true ∧ u.pwr.paused = true ∧ s.only u [.pins, .pwr] fun _ => False) ∧
    (s.pwr.boot = 0 → exec .pwrFailNRise s = .next { s with pins := { s.pins with pwrFailN := true } }) ∧
    (s.pins.pwrFailN = true → s.dev ≠ .bringup → s.dev ≠ .sealed → s.dev ≠ .thermalHold →
      exec .powerReturn10ms s = .next { s with pwr := { s.pwr with highFor10 := true, fell := false } })) ∧
  (∀ s : State, (s.dev ≠ .saving ∨ s.keep.saveStep ≠ 1 ∨ s.unitsLeft = true ∨ s.draining = true →
      exec .saveUnitsDrained s = .next s) ∧
    (s.dev = .saving → s.keep.saveStep = 1 → s.unitsLeft = false → s.draining = false → ∃ u : State,
      exec .saveUnitsDrained s = .next (if s.keep.saveKey = false ∧ s.keepBarred = true then u.saveNoKey else u.sealAsk 3 0 .saveOpen) ∧
      u.keep = { s.keep with saveStep := 4 } ∧
      (∀ c < 32, (s.chan c).st = .selfref → s.chanFenced c = false → (u.chan c).st = .active) ∧
      s.only u [.keep, .mc] fun r => ∃ c < 32, r = MC_REFAB c)) ∧
  ∀ (s : State) (k : Fin 2), let may := s.dev = .saving ∧ s.keep.saveStep = 5 ∧ (s.keep.course k).hold.isSome = true ∧
      s.pwr.highFor10 = true ∧ s.pwr.good = 0x3F ∧ s.keep.copies = [] ∧ s.pageLeft = false
    (¬may → exec (.saveHoldTimeout k) s = .next s) ∧
    (may → exec (.saveHoldTimeout k) s = .next ((s.modKeep fun y => { y with saveStep := 6 }).sealAsk 4 0 (.saveEnd k)))

/-- R262-R265: the image that a restore takes is the newest record valid in both courses, or sealed while the other course
was fenced. With the maps loaded and KEEP_OPEN_MS 0, host access opens at once. A restore unit's pages are then
written from their versions: each page's bytes and poison are the version's, a page of a fenced course or one that waits for its
version with POISON set is poisoned, other pages stay, and the unit counts as restored; a touch fetch also leaves its latency. Where an event cannot arise, nothing changes (the model's choice, log
entry 3). -/
def Obligations.RestoreSteps : Prop :=
  (∀ v0 v1 : List SealRec, let n := imageSeq v0 v1 true
    (n = 0 ∨ ∃ r ∈ v0 ++ v1, r.seq = n ∧ (r.single = true ∨ ((∃ a ∈ v0, a.seq = n) ∧ ∃ b ∈ v1, b.seq = n))) ∧
    (∀ a ∈ v0, ∀ b ∈ v1, a.seq = b.seq → a.seq ≤ n) ∧ ∀ r ∈ v0 ++ v1, r.single = true → r.seq ≤ n) ∧
  (∀ (s : State) (r0 r1 : Bool), let may := s.dev = .bringup ∧ s.keep.phase = 3 ∧ s.pwr.interval = false ∧ s.pwr.paused = false
    (¬may → exec (.restoreImageChosen r0 r1) s = .next s) ∧
    (may → s.keepBarred = true → ∃ t, exec (.restoreImageChosen r0 r1) s = .next t ∧ t.keep.phase = 4 ∧
      s.only t [.keep] fun _ => False) ∧
    (may → s.keepBarred = false → (s.keep.course 0).fenced = false → (s.keep.course 1).fenced = false →
      ∃ t, exec (.restoreImageChosen r0 r1) s = .next t ∧ t.keep.phase = 4 ∧ t.dev = .bringup ∧
      t.keep.chosen = imageSeq ((s.keep.course 0).valid r0) ((s.keep.course 1).valid r1) (r0 && r1))) ∧
  (∀ s : State, let may := fun n => s.dev = .bringup ∧ s.keep.phase = n ∧ s.pwr.interval = false ∧ s.pwr.paused = false
    (¬may 4 → exec .restoreMapLoaded s = .next s) ∧ (¬may 5 → exec .hotPassTimeout s = .next s) ∧
    (may 4 → s.keepBarred = false → s.keep.epochChange = false → s.keep.poisonPg = [] → s.fld KEEP_OPEN_MS_MS = 0 →
      ∃ t, exec .restoreMapLoaded s = .next t ∧ t.dev = .restoring ∧ t.keep.phase = 6 ∧ t.keep.restMap = true ∧
        t.keep.restored = [] ∧ t.keep.seq = s.keep.seq + 1 ∧ t.pwr.full = false) ∧
    (may 5 → ∃ t, exec .hotPassTimeout s = .next t ∧ t.dev = .restoring ∧ t.keep = { s.keep with phase := 6 } ∧
      s.only t ([.dev, .prev, .pwr, .keep] ++ wires) fun r => inLtc r ∨ ∃ n, r = RST_STEPMS n)) ∧
  (∀ (s : State) (page mask : Nat) (data : List Host.Cell), s.memWf = true → Memory.wf data = true → (∀ x ∈ data, x.1 < 4096) →
    let t := s.restorePage page false
    ((s.keep.course (homeOf page)).fenced = true ∨ rmem s.keep.poisonPg page = true →
      ∀ i < 64, t.poisoned (64 * page + i) = true) ∧
    ((s.keep.course (homeOf page)).fenced = false → rmem s.keep.poisonPg page = false → s.keepBarred = false →
      s.keep.version page = some (data, mask) →
    mcut t.dram.mem (4096 * page) 4096 = data ∧ (∀ a, a / 4096 ≠ page → mget t.dram.mem a = mget s.dram.mem a) ∧
    (∀ i < 64, t.poisoned (64 * page + i) = bitAt mask i) ∧ (∀ g, g / 64 ≠ page → t.poisoned g = s.poisoned g)) ∧
    t.keep = s.keep) ∧
  ∀ (s : State) (unit : Nat), let t0 := (List.range 16).foldl (fun s i => s.restorePage (16 * unit + i) false) s
    (rmem s.keep.restored unit = true ∨ allUnits ≤ unit ∨ s.pwr.interval = true → ∀ bad, exec (.restoreUnitDone unit bad) s = .next s) ∧
    (s.dev ≠ .restoring → ∀ bad ns, exec (.touchFetchDone unit bad ns) s = .next s) ∧
    (s.dev = .restoring → s.keep.phase = 6 → s.pwr.interval = false → s.pwr.paused = false → unit < allUnits →
      rmem s.keep.restored unit = false → s.wq.waits = [] → rcount (radd s.keep.restored unit) ≠ allUnits →
      ∃ t, exec (.restoreUnitDone unit []) s = .next t ∧ t.dram = t0.dram ∧ t.dev = .restoring ∧
        t.keep.restored = radd s.keep.restored unit ∧ ∀ x ∈ t.keep.touch, x.1 ≠ unit) ∧
    (s.dev = .restoring → s.pwr.interval = false → (∃ x ∈ s.keep.touch.take 64, x.1 = unit) → ∀ bad ns,
      ∃ u, exec (.touchFetchDone unit bad ns) s = .next (u.restoreUnit unit bad) ∧
        u.fld KEEP_TOUCHLAT_NS = max (s.fld KEEP_TOUCHLAT_NS) (min ns 65535) ∧ u.keep.restTouch = s.keep.restTouch + 1 ∧
        s.only u [.keep] fun r => r = KEEP_TOUCHLAT)

/-- R275, R277, R278, R280-R282, R289: a loss of VAUX is OFF with every register at its reset value
and DRAM contents lost, and the key-wrap and start records are those chosen of their copies (R20); VAUX opens a FULL
reset in AUX, which RESET_N joins where it is low, and its release latches the straps and begins the samples of HOLD_SENSE anew. A rail that becomes good is noted, and one that becomes good before
its predecessors is noted as early. An undervoltage counts, is kept in RST_RAILHIST, and saves or asserts a COLD
reset. Where an event cannot arise, nothing changes (the model's choice, log entry 3). -/
def Obligations.SuppliesFollow : Prop :=
  ∀ s : State,
    (s.dev = .off → exec .vauxLoss s = .next s) ∧
    (s.dev ≠ .off → ∃ t : State, exec .vauxLoss s = .next t ∧ t.dev = .off ∧ t.regs = [] ∧ t.act = [] ∧ t.keep.dirty = [] ∧
      t.ks.time = 0 ∧ t.pwr.interval = false ∧ t.dram.mem = [] ∧ t.dram.poison = [] ∧ t.keep.epochs = s.wrapChosen ∧
      t.pwr.record = s.startChosen ∧ t.pending = s.pending) ∧
    (s.dev ≠ .off → exec .vauxRise s = .next s) ∧
    (s.dev = .off → ∃ t : State, exec .vauxRise s = .next t ∧ t.dev = .aux ∧ t.regs = [] ∧ t.pwr.interval = true ∧ t.pwr.reach = 5 ∧
      t.pwr.source = 1 ∧ t.pwr.levels = (if s.pins.resetN = true then [1] else [1, 2]) ∧ t.keep.epochs = s.wrapChosen) ∧
    (∀ compat sb, (s.dev ≠ .aux ∨ 1 ∉ s.pwr.levels → exec (.porRelease compat sb) s = .next s) ∧
      (s.dev = .aux → 1 ∈ s.pwr.levels → ∃ t : State, exec (.porRelease compat sb) s = .next t ∧ 1 ∉ t.pwr.levels ∧
        t.reg KS_STRAP = b2n compat + 2 * sb.toNat ∧ t.ks.compat = compat ∧ t.pins.compat = compat ∧ t.pins.sbaddr = sb.toNat ∧
        t.keep = { s.keep with samples := [] } ∧ s.only t [.ks, .pins, .pwr, .keep] fun r => r = KS_STRAP)) ∧
    ∀ r : Rail, let b := railBit r
      (r = .vaux ∨ bitAt s.pwr.good b = true → exec (.railGood r) s = .next s) ∧
      (r ≠ .vaux → bitAt s.pwr.good b = false → s.pwr.good ||| 2 ^ b ≠ 0x3F → exec (.railGood r) s = .next { s with pwr := { s.pwr with
        good := s.pwr.good ||| 2 ^ b
        early := if s.pwr.good &&& railPred r = railPred r then s.pwr.early else s.pwr.early ||| 2 ^ b } }) ∧
      (r = .vaux → exec (.railUndervoltage r) s = .next s) ∧
      (r ≠ .vaux → s.dev = .off → exec (.railUndervoltage r) s =
        .next { s with pwr := { s.pwr with good := s.pwr.good &&& (0x3F - 2 ^ b) } }) ∧
      (r ≠ .vaux → s.dev ≠ .off → ∃ u : State, u.pwr.good = s.pwr.good &&& (0x3F - 2 ^ b) ∧ bitAt (u.reg RST_RAILHIST) b = true ∧
        u.fld RST_UVCNT_COUNT = satAdd 32 (s.fld RST_UVCNT_COUNT) 1 ∧
        (s.only u (.pwr :: wires) fun r => inLtc r ∨ r = RST_RAILHIST ∨ r = RST_UVCNT) ∧
        (s.maySave = true → exec (.railUndervoltage r) s = .next u.startSave) ∧
        (s.maySave = false → s.dev ≠ .sealed → exec (.railUndervoltage r) s = .next ({ u with pwr := { u.pwr with
          resume := u.pwr.resume && !(b == 3 || b == 4) } }.assertReset 0xC 4 0 true)) ∧
        (s.maySave = false → s.dev = .sealed → exec (.railUndervoltage r) s = .next ({ u with pwr := { u.pwr with
          resume := u.pwr.resume && !(b == 3 || b == 4) } }.actReset 0xC 4 0 true)))

/-- R41, R45, R282-R284, R287, R288, R296-R298: what asserts a reset, with its source and reach. A source outside OFF and
SAVING opens an interval of its own reach, or joins the open one; in SAVING it waits and 0x0108 says so once. The
sideband's key is needed for RST_CMD. A second watchdog expiry within 10 s escalates to COLD; in
RECOVERY the Keystone restarts and nothing more. Where an event cannot
arise, nothing changes (the model's choice, log entry 3). -/
def Obligations.ResetSources : Prop :=
  (∀ (s : State) (src reach ep : Nat) (level : Bool), src < 16 → 3 ≤ reach → reach ≤ 5 → let t := s.assertReset src reach ep level
    (s.dev = .off → t = s) ∧
    (s.dev = .saving → { source := src, reach := reach, endpoint := ep } ∈ t.pwr.deferred ∧ t.pwr.interval = s.pwr.interval ∧
      s.only t (.pwr :: wires) inLtc) ∧
    (s.dev ≠ .off → s.dev ≠ .saving → s.pwr.interval = false → t.pwr.interval = true ∧ t.pwr.reach = reach ∧ t.pwr.source = src ∧
      t.pwr.mask = 2 ^ src ∧ t.pwr.levels = (if level = true then (if src ∈ s.pwr.levels then s.pwr.levels else s.pwr.levels ++ [src])
        else s.pwr.levels)) ∧
    (s.dev ≠ .off → s.dev ≠ .saving → s.pwr.interval = true → reach ≤ s.pwr.reach → t.pwr.mask = s.pwr.mask ||| 2 ^ src ∧
      t.pwr.reach = s.pwr.reach ∧ t.pwr.source = s.pwr.source ∧ s.only t [.pwr, .thm] fun _ => False)) ∧
  (∀ s : State,
    (s.pins.resetN = false → exec .resetNAssert s = .next s) ∧
    (s.pins.resetN = true →
      exec .resetNAssert s = .next ({ s with pins := { s.pins with resetN := false } }.assertReset 2 4 0 true)) ∧
    (s.pins.resetN = true → exec .resetNRelease s = .next s) ∧
    (s.pins.resetN = false → ∃ t : State, exec .resetNRelease s = .next t ∧ t.pins.resetN = true ∧ 2 ∉ t.pwr.levels ∧
      (∀ x ∈ s.pwr.levels, x ≠ 2 → x ∈ t.pwr.levels) ∧ t.bst.ir ≠ 0x20 ∧ s.only t [.pins, .pwr, .bst] fun _ => False) ∧
    (s.dev = .off → exec .rstactColdReset s = .next s) ∧
    (s.dev ≠ .off → ∃ u : State, exec .rstactColdReset s = .next (u.assertReset 4 4 0 false) ∧
      (∀ (n : Nat) (x : Sem), s.ks.sems[n]? = some x → u.ks.sems[n]? = some (if x.held = true ∧ x.src = 1 then { broken := true } else x)) ∧
      s.only u [.ks] fun _ => False) ∧
    (s.dev = .off ∨ s.dev = .aux ∨ s.dev = .safe → exec .watchdogExpiry s = .next s) ∧
    (s.dev ≠ .off → s.dev ≠ .aux → s.dev ≠ .safe →
      let again := match s.pwr.wdogLast with | some t => decide (s.clock ≤ t + 10 ^ 10) | none => false
      ∃ u : State, exec .watchdogExpiry s = .next (if s.dev = .recovery then (u.emptyLatch 5).ksAborted else if again = true then u.assertReset 7 4 0 false else u.assertReset 6 3 0 false) ∧
        u.fld RST_WDOG_COUNT = satAdd 16 (s.fld RST_WDOG_COUNT) 1 ∧ u.pwr.wdogLast = some s.clock ∧
        s.only u (.pwr :: wires) fun r => inLtc r ∨ r = RST_WDOG) ∧
    ((s.dev = .bringup ∨ s.dev = .restoring) → s.pwr.waitAt = none → s.pwr.interval = false →
      exec .startTimeout s = .next ((s.post 0x010D 2 0xFF 0).assertReset 9 4 0 false)) ∧
    ((s.dev ≠ .bringup ∧ s.dev ≠ .restoring) ∨ s.pwr.waitAt ≠ none ∨ s.pwr.interval = true → exec .startTimeout s = .next s) ∧
    (s.dev ≠ .ready ∨ s.pwr.readyAt = none → exec .ready60s s = .next s) ∧
    (s.dev = .ready → s.pwr.readyAt ≠ none → ∃ t : State, exec .ready60s s = .next t ∧ t.pwr.record.fails = 0 ∧
      t.fld RST_START_FAILS = 0 ∧ t.pwr.readyAt = none ∧ s.only t [.pwr, .keep, .mtr] fun r => r = RST_START)) ∧
  ∀ (s : State) (a : Access) (v : Word), s.served a RST_CMD = true →
    (a.path = .sideband → v.toNat / 65536 = 0xA5C3 →
      (v.toNat % 4 = 1 → exec (.rstCmdWarm a v) s = .next (((s.arrived a 9).assertReset 5 3 0 false).respond a 9 0 0)) ∧
      (v.toNat % 4 = 2 → exec (.rstCmdCold a v) s = .next (((s.arrived a 9).assertReset 5 4 0 false).respond a 9 0 0))) ∧
    (a.path ≠ .sideband ∨ v.toNat / 65536 ≠ 0xA5C3 → exec (.rstCmdWarm a v) s = .next ((s.arrived a 9).respond a 9 0 0) ∧
      exec (.rstCmdCold a v) s = .next ((s.arrived a 9).respond a 9 0 0))

/-- R284-R286, R289, R298, R299: an interval ends when no level is asserted, the reset has been taken and waits for no program;
RST_CAUSE then names the first source and the widest reach and RST_SRCMASK every source, and what R289 gives for the device state
follows: a bring-up, THERMAL_HOLD, the exit from SEALED, or nothing. The copies whose programs have not ended
after 60 µs are given up, and the reset goes on once none is left. A BLOCK reset is asked for over the sideband, by the Keystone or by
an authorised endpoint and asks a channel to go idle, or it is refused; it takes
place when the unit is idle, which a channel is not while it drains, or when its time has passed with 0x010A, and one of the repointer
stops its pass. RST_RECOVER_EXIT, over the sideband or by an authorised endpoint, leaves RECOVERY through a COLD reset, and in
READY starts the count of failed starts anew. Where an event cannot arise, nothing changes
(the model's choice, log entry 3). -/
def Obligations.ResetsEnd : Prop :=
  (∀ s : State, let ends := s.pwr.interval = true ∧ s.pwr.levels = [] ∧ s.pwr.taken = true ∧ s.pwr.waiting = false
    (¬ends → exec .resetIntervalEnd s = .next s) ∧
    (ends → ∃ u : State,
      (s.dev = .ready ∨ s.dev = .restoring ∨ s.dev = .bringup →
        exec .resetIntervalEnd s = .next (if s.pwr.toHold = true then u.enterHold else u.tryBoot (if 4 ≤ s.pwr.reach then 4 else 3))) ∧
      (s.dev = .aux → exec .resetIntervalEnd s = .next (u.tryBoot 4)) ∧
      (s.dev = .recovery ∨ s.dev = .safe → exec .resetIntervalEnd s = .next (if 4 ≤ s.pwr.reach then u.tryBoot 4 else u)) ∧
      (s.dev = .sealed → let w := if s.pwr.restartKs = true ∧ s.pwr.reach < 4 then u.modelStart else u
        exec .resetIntervalEnd s = .next (if w.pwr.toHold = true then w.enterHold else if bitAt s.pwr.mask 0xA = true then w.tryBoot 4
          else w.sealedExit)) ∧
      (s.dev = .off ∨ s.dev = .saving ∨ s.dev = .thermalHold → exec .resetIntervalEnd s = .next u) ∧
      (s.pwr.reach < 8 → s.pwr.source < 16 → u.fld RST_CAUSE_VALID = 1 ∧ u.fld RST_CAUSE_REACH = s.pwr.reach ∧
        u.fld RST_CAUSE_SOURCE = s.pwr.source) ∧
      u.fld RST_SRCMASK_MASK = s.pwr.mask % 65536 ∧ u.pwr.interval = false ∧ u.pwr.toHold = s.pwr.toHold ∧
      s.only u (.pwr :: wires) fun r => inLtc r ∨ r = RST_CAUSE ∨ r = RST_SRCMASK ∨ r = RST_CAUSETIME_LO ∨ r = RST_CAUSETIME_LO + 4)) ∧
  (∀ (s : State) (k : Fin 2),
    (s.pwr.waiting = false ∨ (∀ x ∈ s.keep.copies, x.course ≠ k.val) → exec (.resetProgramWaitTimeout k) s = .next s) ∧
    (s.pwr.waiting = true → (∃ x ∈ s.keep.copies, x.course = k.val) → ∃ u : State,
      exec (.resetProgramWaitTimeout k) s = .next (if u.keep.copies = [] ∧ s.draining = false then u.resetStep5 else u) ∧
      (∀ x, x ∈ u.keep.copies ↔ x ∈ s.keep.copies ∧ x.course ≠ k.val) ∧ s.only u (.keep :: wires) inLtc)) ∧
  (∀ (s : State) (a : Access) (v : Word), s.served a RST_BLKREQ = true →
    let fw := a.path == .keystone
    let may := fw = true ∨ a.path = .sideband ∨ ∃ p, a.path = .port p ∧ a.hop = none ∧ s.rstAuth a.requester.toNat 0 = true
    let free := v.toNat % 256 ≤ 0x25 ∧ ¬(fw = true ∧ v.toNat % 256 = 0x25) ∧ s.dev ≠ .saving ∧ s.dev ≠ .sealed ∧ s.pwr.blk = none ∧
      s.pwr.interval = false
    (¬may → exec (.rstBlkreq a v) s = .next ((s.arrived a 9).respond a 9 0 0)) ∧
    (may → v.getLsbD 31 = false → ∃ u : State, exec (.rstBlkreq a v) s = .next (u.respond a 9 0 0) ∧
      u.fld RST_BLKREQ_TARGET = v.toNat % 256 ∧ (s.arrived a 9).only u [] fun r => r = RST_BLKREQ) ∧
    (may → v.getLsbD 31 = true → free → ∃ u : State,
      exec (.rstBlkreq a v) s = .next ((if v.toNat % 256 < 32 then u.idleAsked (v.toNat % 256) else u).respond a 9 0 0) ∧
      u.pwr.blk = some { target := v.toNat % 256, byFw := fw } ∧
      u.fld RST_BLKREQ_TARGET = v.toNat % 256 ∧ (s.arrived a 9).only u [.pwr] fun r => r = RST_BLKREQ) ∧
    (may → v.getLsbD 31 = true → ¬free → ∃ u : State, exec (.rstBlkreq a v) s = .next (u.respond a 9 0 0) ∧
      u.fld RST_BLKREQ_RESULT = 3 ∧ (s.arrived a 9).only u [] fun r => r = RST_BLKREQ)) ∧
  (∀ (s : State) (timeout : Bool), (s.pwr.blk = none → exec (.blockUnitIdle timeout) s = .next s) ∧
    ∀ b, s.pwr.blk = some b → let drains := b.target < 32 ∧ (s.chan b.target).st = .draining
      (timeout = false → drains → exec (.blockUnitIdle timeout) s = .next s) ∧
      (timeout = true ∨ ¬drains → ∃ (u : State) (n : Nat), exec (.blockUnitIdle timeout) s =
        .next (if timeout = true then u.post 0x010A 1 0xFF (b.target + 65536 * min 65535 n) else u) ∧
      u.fld RST_BLKREQ_RESULT = (if timeout = true then 2 else 1) ∧ u.fld RST_BLKSTAT_TARGET = b.target % 256 ∧
      u.fld RST_BLKSTAT_ABORTED = min 65535 n ∧
      (b.target = 0x23 → n = 0 ∧ u.reg INT_SCRUB_STAT = 0 ∧ u.pwr.blk = none))) ∧
  ∀ (s : State) (a : Access) (v : Word), s.served a RST_RECOVER_EXIT = true →
    let may := a.path = .sideband ∨ ∃ p, a.path = .port p ∧ a.hop = none ∧ s.rstAuth a.requester.toNat 2 = true
    (¬may ∨ v.toNat / 65536 ≠ 0xA5C3 ∨ v.toNat % 2 = 0 ∨ (s.dev ≠ .recovery ∧ s.dev ≠ .ready) →
      exec (.rstRecoverExit a v) s = .next ((s.arrived a 9).respond a 9 0 0)) ∧
    (may → v.toNat / 65536 = 0xA5C3 → v.toNat % 2 = 1 → ∃ u : State, u.pwr.record.fails = 0 ∧ u.fld RST_START_FAILS = 0 ∧
      (s.dev = .recovery → u.pwr.record.inprog = false ∧
        exec (.rstRecoverExit a v) s = .next (((u.post 0x0105 1 0xFF 0).assertReset 0xB 4 0 false).respond a 9 0 0)) ∧
      (s.dev = .ready → exec (.rstRecoverExit a v) s = .next (u.respond a 9 0 0)) ∧
      (s.arrived a 9).only u [.pwr, .keep, .mtr] fun r => r = RST_START)

/-- R279, R289, R291, R293, R296, R344-R346, R386: each event of a cold bring-up acts in its own step only, and then the next step
begins, or bring-up pauses where PWR_FAIL_N has fallen and has not been high for 10 ms since. A failed power-up self-test is SAFE,
and one that finds a sensor hot is THERMAL_HOLD; a start that follows three failed ones is RECOVERY with cause 1, one without
a valid image RECOVERY with cause 3, each with one write of the start record. A fuse load gives the higher of the two copies of the
lifecycle state, and an invalid TRIM region is RECOVERY with cause 2. Step 5 waits for REFCLK, gives its values and renews the
placement of both keep buses; in RECOVERY only P0 is calibrated. A channel that has trained becomes ACTIVE, and a fenced one
stays down. Where an event cannot arise, nothing changes (the model's choice, log entry 3). -/
def Obligations.BringupSteps : Prop :=
  (∀ s : State, s.inStep s.pwr.step = true → 1 ≤ s.pwr.step →
    (s.pwr.fell = false → s.pwr.step < 5 → s.stepEnds.pwr.step = s.pwr.step + 1 ∧ s.stepEnds.pwr.stepDone = false ∧
      s.stepEnds.dev = .bringup ∧ (s.pwr.step = 1 → s.stepEnds.fus.loading = true)) ∧
    (s.pwr.fell = true → s.stepEnds.pwr.paused = true ∧ s.stepEnds.pwr.step = s.pwr.step) ∧
    (s.pwr.step < 5 → s.stepEnds.fld (RST_STEPMS_MS (s.pwr.step - 1)) = min 65535 ((s.clock - s.pwr.stepAt) / 1000000))) ∧
  (∀ (s : State) (r : Fin 4) (test : Byte) (step : BitVec 24) (ms : BitVec 16),
    (s.inStep 1 = false → exec (.powerupSelftestDone r test step ms) s = .next s) ∧
    (s.inStep 1 = true → r.val = 0 → ∃ u : State,
      exec (.powerupSelftestDone r test step ms) s = .next (if s.sensorHot = true then u.enterHold else u.stepEnds) ∧
      u.fld BST_POWERUP_VALID = 1 ∧ u.fld BST_POWERUP_RESULT = 0 ∧ u.fld BST_POWERUP_MS = ms.toNat ∧
      s.only u [] fun r => r = BST_POWERUP) ∧
    (s.inStep 1 = true → r.val = 2 → s.fld BST_POWERUP_RUNS = 0 → ∃ t : State,
      exec (.powerupSelftestDone r test step ms) s = .next t ∧ t.fld BST_POWERUP_RUNS = 1 ∧ s.only t [] fun r => r = BST_POWERUP) ∧
    (s.inStep 1 = true → r.val = 1 ∨ r.val = 3 ∨ (r.val = 2 ∧ 1 ≤ s.fld BST_POWERUP_RUNS) → ∃ t : State,
      exec (.powerupSelftestDone r test step ms) s = .next t ∧ t.dev = .safe ∧
      t.thm.model = false ∧ t.fld RST_BRINGUP_FAILSTEP = 1)) ∧
  (∀ s : State, ((s.inStep 2 = false ∧ s.warmLoads = false) ∨ s.fus.loading = false → exec .fuseLoadCommit s = .next s) ∧
    (s.inStep 2 = true ∨ s.warmLoads = true → s.fus.loading = true → ∃ u : State,
      exec .fuseLoadCommit s = .next (if bitAt (u.fld FUS_STAT_INVALID) 1 = true then u.enterRecovery 2 2 id else u.stepEnds) ∧
      u.fus.loaded = true ∧ u.fus.loading = false ∧ u.fus.life = max (lifeOf (s.lifeSet 0x730)) (lifeOf (s.lifeSet 0x738)))) ∧
  (∀ (s : State) (f g : List Eye),
    (s.inStep 3 = false → exec (.keepBusTrained f g) s = .next s) ∧
    (s.inStep 3 = true → exec (.keepBusTrained f g) s = .next (((s.trainKeep 0 f).trainKeep 1 g).countStart 3 State.stepEnds))) ∧
  (∀ s : State, let r := s.startChosen
    let fails := if r.inprog = true then min 15 (r.fails + 1) else r.fails
    s.inStep 3 = true → let t := s.countStart 3 State.stepEnds
      t.pwr.record.starts = (r.starts + 1) % 2 ^ 32 ∧ t.pwr.record.fails = fails ∧ t.pwr.record.seq = r.seq + 1 ∧
      (fails < 3 → t.pwr.record.inprog = true ∧ t.dev = .bringup) ∧
      (3 ≤ fails → t.pwr.record.inprog = false ∧ t.pwr.record.cause = 1 ∧ t.dev = .recovery ∧ t.fld RST_BRINGUP_RECCAUSE = 1)) ∧
  (∀ s : State, (s.inStep 4 = false → exec .firmwareStart s = .next s) ∧
    (s.inStep 4 = true → s.bestFw = none → ∃ t : State, exec .firmwareStart s = .next t ∧ t.dev = .recovery ∧
      t.fld RST_BRINGUP_RECCAUSE = 3 ∧ t.reg KS_FWVER = 0 ∧ t.pwr.record.cause = 3 ∧
      t.pwr.record.fails = min 15 (s.pwr.record.fails + 1) ∧ t.pwr.record.seq = s.pwr.record.seq + 1) ∧
    ∀ v, s.inStep 4 = true → s.bestFw = some v → ∃ u : State, exec .firmwareStart s = .next u.stepEnds ∧ u.reg KS_FWVER = v % 2 ^ 32 ∧
      u.ks.fwRun = v ∧ u.thm.model = true) ∧
  (∀ (s : State) (m : CalResult), (s.dev ≠ .recovery → s.inStep 5 = false → exec (.powerupCalDone m) s = .next s) ∧
    (s.dev = .recovery → exec (.powerupCalDone m) s = .next (((s.calRefs m).calClock m).calValues m [0] false)) ∧
    (s.inStep 5 = true → clkOff m = true ∨ s.pins.refclk = false → ∃ t : State, exec (.powerupCalDone m) s = .next t ∧
      t.fld CAL_STAT_CLKBAD = 1 ∧ t.pwr = s.pwr) ∧
    (s.inStep 5 = true → clkOff m = false → s.pins.refclk = true → ∃ u : State, u.fld CAL_STAT_CLKBAD = 0 ∧ u.pwr = s.pwr ∧
      let v := (((u.trainKeep 0 (m.keep.getD 0 [])).trainKeep 1 (m.keep.getD 1 [])).calRise.setFld CAL_STAT_DONE 1).post 0x06C0 0 0xFF m.ms
      exec (.powerupCalDone m) s = .next ({ v with cal := { v.cal with started := true } } : State).stepEnds)) ∧
  ∀ (s : State) (c : Fin 32),
    (s.mayTrain = false ∨ (s.chan c).st ≠ .training → ∀ eyes stby, exec (.channelTrainingDone c eyes stby) s = .next s) ∧
    (s.mayTrain = true → (s.chan c).st = .training → ∀ eyes stby, let v := s.trainChan c eyes stby
      let u := if v.chanFenced c = true then v.modChan c fun h => { h with st := .down } else v.trained c
      exec (.channelTrainingDone c eyes stby) s =
        .next (if u.stepTrains = false ∨ u.mc.chans.any (fun h => h.st == .training) = true then u else u.stepEnds)) ∧
    (c.val < s.mc.chans.length → ((s.trained c).chan c).st = .active ∧ (∀ k ≠ c.val, (s.trained c).chan k = s.chan k) ∧
      ∀ p ∈ ((s.trained c).chan c).pcs, p.ptr = 0 ∧ p.sref = false ∧ ∀ b ∈ p.banks, b.pred = 2 ∧ b.debt = 0)

/-- R306, R309-R311, R319: a keep slot reads where no beat met more failed TSVs than the code of the keep bus carries, and those left
to it by repair are at most one. A recovery that ends writes the granule of the keep version, or poisons it where there is none, and
counts, and none ends in SAVING; the repointer reads the next unit, which crosses mortar, and rewrites what it must, counts its
passes and says once that it is behind; while a request of it waits at its port, or a recovery holds the unit, it issues none; a 1 written to VALID frees an entry of the correctable log. Where an event cannot arise, nothing changes (the
model's choice, log entry 3). -/
def Obligations.RecoveryAndScrub : Prop :=
  (∀ (s : State) (k : Nat) (ok : Bool), s.keepBusOk k ok = (ok && decide (s.keepCoded k ≤ 1))) ∧
  (∀ (s : State) (g : Nat) (ok : Bool), let found := (s.intg.recov.take 16).find? fun r => r.granule == g
    (found = none ∨ s.dev = .saving → exec (.keepRecoveryDone g ok) s = .next s) ∧
    ∀ r, found = some r → s.dev ≠ .saving → s.wq.waits = [] → let reads := s.keepBusOk (homeOf (g / 64)) ok
      (∀ v, reads = true → s.keep.version (g / 64) = some v → bitAt v.2 (g % 64) = false → ∃ t : State, exec (.keepRecoveryDone g ok) s = .next t ∧
        t.granData g = mread v.1 (64 * (g % 64)) 64 ∧ t.poisoned g = false ∧
        (∀ x ≠ g, t.granData x = s.granData x ∧ t.poisoned x = s.poisoned x) ∧ t.intg.recov = s.intg.recov.erase r ∧
        t.fld INT_RECOVCNT_COUNT = satAdd 32 (s.fld INT_RECOVCNT_COUNT) 1) ∧
      (reads = false ∨ s.keep.version (g / 64) = none → ∃ t : State, exec (.keepRecoveryDone g ok) s = .next t ∧ t.poisoned g = true ∧
        (∀ x ≠ g, t.granData x = s.granData x ∧ t.poisoned x = s.poisoned x) ∧ t.intg.recov = s.intg.recov.erase r ∧
        t.fld INT_POISCNT_COUNT = satAdd 32 (s.fld INT_POISCNT_COUNT) 1)) ∧
  (∀ s : State, let u := s.fld INT_SCRUB_POS_UNIT % scrubUnits
    (s.scrubbing = false ∨ s.pwr.interval = true ∨ s.blocked 0x23 = true ∨ (s.master 6).asks ≠ [] ∨ s.unitHeld (4 * u) = true →
      ∀ obs, exec (.scrubUnitIssue obs) s = .next s) ∧
    (∀ obs, s.scrubbing = true → s.pwr.interval = false → s.blocked 0x23 = false → (s.master 6).asks = [] → s.unitHeld (4 * u) = false →
      s.scrubSkips u = true ∨ (∀ i < 4, s.plainGran (4 * u + i) = true ∧ readsClean obs (4 * u + i)) →
      ∃ t : State, exec (.scrubUnitIssue obs) s = .next t ∧
        t.dram = s.dram ∧ t.fld INT_SCRUB_POS_UNIT = (u + 1) % scrubUnits ∧
        t.fld INT_SCRUB_PASS_PASSES = (if u + 1 = scrubUnits then satAdd 16 (s.fld INT_SCRUB_PASS_PASSES) 1
          else s.fld INT_SCRUB_PASS_PASSES) ∧
        s.only t (.intg :: .mtr :: wires) fun r => inLtc r ∨ r = INT_SCRUB_POS ∨ r = INT_SCRUB_PASS ∨ r = INT_SCRUB_STAT) ∧
    (s.scrubbing = false ∨ s.flag INT_SCRUB_STAT_BEHIND = true → exec .scrubBehindTimeout s = .next s) ∧
    (s.scrubbing = true → s.flag INT_SCRUB_STAT_BEHIND = false → ∃ u : State,
      exec .scrubBehindTimeout s = .next (u.post 0x0306 1 0xFF 0) ∧ u.flag INT_SCRUB_STAT_BEHIND = true ∧
      s.only u [] fun r => r = INT_SCRUB_STAT)) ∧
  ∀ (s : State) (a : Access) (n : Fin 64) (v : Word), s.served a (INT_CELOG_A n) = true → ∃ u : State,
    exec (.celogEntryFree a n v) s = .next (u.respond a 9 0 0) ∧
    (v.getLsbD 31 = true → u.flag (INT_CELOG_A_VALID n) = false ∧ u.intg = { s.intg with ovfPosted := false }) ∧
    (v.getLsbD 31 = false → u.flag (INT_CELOG_A_VALID n) = s.flag (INT_CELOG_A_VALID n) ∧ u.intg = s.intg) ∧
    u.fld (INT_CELOG_A_GADDR n) = v.toNat % 2 ^ 31 ∧ (s.arrived a 9).only u [.intg] fun r => r = INT_CELOG_A n

/-- R315, R318: a failed row is copied into its spare in one hold of its bank: no byte of memory changes, the hold ends, the repair is in force and
0x0681 says so. A repair that cannot be fused is said once by 0x0689; what waits to be fused is programmed when VPP
and the array allow. Where an event cannot arise, nothing changes (the model's choice, log entry 3). -/
def Obligations.RepairsMade : Prop :=
  (∀ (s : State) (c : Fin 32) (pc : Fin 2) (bank : Fin 16) (row : Nat),
    let tgt := 2 ^ 28 + c.val * 2 ^ 23 + pc.val * 2 ^ 22 + bank.val * 2 ^ 18 + row
    let w := rowWord 1 c pc bank row
    (tgt ∉ s.intg.todo ∨ (s.chan c).st ≠ .active ∨ (s.chan c).hold ≠ none ∨ s.blocked 0x24 = true ∨ s.bankOwes c pc bank = true → ∀ obs,
      exec (.rowRepairHold c pc bank row obs) s = .next s) ∧
    ∀ x obs, tgt ∈ s.intg.todo → (s.chan c).st = .active → (s.chan c).hold = none → s.blocked 0x24 = false →
      s.bankOwes c pc bank = false → s.spareNext w = some x →
      (∀ g ∈ bankRowGrans c pc bank row, s.plainGran g = true ∧ readsClean obs g ∧ ∀ r ∈ s.intg.recov, r.granule ≠ g) →
      ∃ u : State, exec (.rowRepairHold c pc bank row obs) s = .next (u.post 0x0681 1 c (row + 2 ^ 17 * bank + 2 ^ 21 * pc + 2 ^ 24 * x)) ∧
        u.dram = s.dram ∧ u.intg.todo = s.intg.todo.erase tgt ∧ (∃ r ∈ u.intg.repairs, r.word = w ∧ r.spare = x) ∧
        (∀ r ∈ s.intg.repairs, r ∈ u.intg.repairs) ∧
        (u.chan c).hold = none ∧
        s.only u (.intg :: .mc :: .fus :: wires) fun r =>
          inLtc r ∨ r / 0x100000 = 6 ∨ r = FUS_PGSTAT ∨ ∃ n < 16, r = INT_PEND n) ∧
  ∀ s : State,
    (s.vppOk = false → (∀ r ∈ s.intg.repairs, r.src = 2 → r.posted = true) → exec .repairFuseRetry s = .next s) ∧
    (∀ r, s.vppOk = false → s.fus.cmd = none → (s.intg.repairs.find? fun r => r.src == 2 && !r.posted) = some r →
      ∃ u : State, exec .repairFuseRetry s = .next (u.post 0x0689 2 (if wKind r.word = 3 then 0xFF else wChan r.word) r.word) ∧
        u.intg.repairs = s.intg.repairs.map (fun x => if x = r then { x with posted := true } else x) ∧
        s.only u [.intg] fun _ => False) ∧
    ∀ c, s.fuseBusy = false → s.vppOk = true → s.fus.loaded = true → s.inService = true → s.ksFuse = some c →
      (∀ r ∈ s.intg.repairs, r.src = 2 → r.posted = true) → ∃ t : State, exec .repairFuseRetry s = .next t ∧
        t.fus = { s.fus with cmd := some c } ∧ t.fld FUS_PGSTAT_BUSY = 1 ∧ s.only t [.fus] fun r => r = FUS_PGSTAT

/-- R22, R326, R330-R332, R338: a sample adds each segment's power to its course and its energy to the sum; ten make a
reading, which starts the counts of the bank groups' activity anew. A conversion, which no sensor makes in OFF, in AUX or in a COLD reset, joins the last four; one out of range makes its sensor failed and suspect; two in a row of 110
°C or more at a sensor that is not masked shut the part down, with THERM_TRIP_N. A mask bit can be set only for a
suspect sensor. Where an event cannot arise, nothing changes (the model's choice, log entry 3). -/
def Obligations.SensorsRead : Prop :=
  (∀ (s : State) (r : List (Nat × Nat)), (s.dev = .off → exec (.segmentSample r) s = .next s) ∧
    (s.dev ≠ .off → s.thm.sums.length = 20 → r.length = 40 → let uw := fun p => ((r.zipIdx.filter fun x => segPos x.2 == p).map
        fun x => x.1.1 * x.1.2).sum
      ∃ t : State, exec (.segmentSample r) s = .next t ∧ t.thm.pj = s.thm.pj + 10 * (r.map fun x => x.1 * x.2).sum ∧
        (s.thm.nread < 9 → t.thm.nread = s.thm.nread + 1 ∧ t.thm.pwr = s.thm.pwr ∧
          s.only t [.thm] (fun _ => False) ∧ ∀ p < 20, t.thm.sums.getD p 0 = s.thm.sums.getD p 0 + uw p) ∧
        (9 ≤ s.thm.nread → t.thm.nread = 0 ∧ t.mc = { s.mc with activity := List.replicate 64 0 } ∧
          s.only t [.thm, .mc, .fresh] (fun _ => False) ∧ ∀ p < 20, t.thm.pwr.getD p 0 = (s.thm.sums.getD p 0 + uw p) / 10))) ∧
  (∀ (s : State) (r : List (Option Int)), (s.sensorsRest = true → exec (.sensorConversion r) s = .next s) ∧
    (s.sensorsRest = false → s.thm.sensors.length = 88 →
      (∀ n < 88, ∃ v, r.getD n none = some v ∧ -4000 ≤ v ∧ v < 11000 ∧
        ∀ w ∈ (s.sensor n).conv.head?, v - w ≤ 2000 ∧ w - v ≤ 2000) →
      ∃ t : State, exec (.sensorConversion r) s = .next t ∧ s.only t [.thm] (fun _ => False) ∧
        ∀ n < 88, ∀ v, r.getD n none = some v → t.sensor n = { s.sensor n with
          conv := (v :: (s.sensor n).conv).take 4, hot := 0, failed := false }) ∧
    ∀ n v, n < 88 → s.sensorsRest = false → s.thm.sensors.length = 88 → s.thm.shut = false → bitAt s.pwr.good 1 = true →
      r.getD n none = some v → 11000 ≤ v → 1 ≤ (s.sensor n).hot → s.masked n = false →
      ∃ t : State, exec (.sensorConversion r) s = .next t ∧ t.pins.thermTrip = true ∧ t.thm.shut = true) ∧
  (∀ (s : State) (n : Fin 88), (s.sensorsRest = true ∨ (s.sensor n).failed = true → exec (.sensorNoConversion n) s = .next s) ∧
    (s.sensorsRest = false → s.thm.sensors.length = 88 → (s.sensor n).failed = false → ∃ u : State,
      exec (.sensorNoConversion n) s = .next (u.post 0x0406 2 (sensorPos n) n) ∧
      u.sensor n = { s.sensor n with failed := true, suspect := true, agree := 0 } ∧
      (∀ m ≠ n.val, u.sensor m = s.sensor m) ∧ s.only u [.thm] fun _ => False)) ∧
  (∀ (s : State) (n : Nat) (v : Int), n < s.thm.sensors.length → v < -4000 ∨ 15000 < v →
    ((s.convert n v).sensor n).failed = true ∧ ((s.sensor n).failed = false → ((s.convert n v).sensor n).suspect = true)) ∧
  ∀ (s : State) (a : Access) (n : Fin 3) (v : Word), s.served a (THM_SENSMASK n) = true → ∃ u : State,
    exec (.thmSensmaskWrite a n v) s = .next (u.respond a 9 0 0) ∧
    (∀ j < 32, bitAt (u.reg (THM_SENSMASK n)) j = (v.getLsbD j && decide (32 * n.val + j < 88) &&
      (bitAt (s.reg (THM_SENSMASK n)) j || (s.sensor (32 * n + j)).suspect))) ∧
    (s.arrived a 9).only u [] fun r => r = THM_SENSMASK n

/-- R157, R328, R333-R336: an update takes the nodes and moves the lid by at most 0.05 °C, and a course's estimate is the
highest of its quadrants', none where a quadrant has none; it then moves bands and throttle steps. While the model does not run, the thermal hardware
forms the estimates. The refresh band is at least 2 from 85 °C up and 3 from 95 °C up. A throttle step rises to the
highest threshold reached and falls by one step at a time; neither falls while the model does not run. Where an event
cannot arise, nothing changes (the model's choice, log entry 3). -/
def Obligations.EstimatesAct : Prop :=
  (∀ (s : State) (nodes : List Int) (lid : Int),
    (s.thm.model = false ∨ s.dev = .off ∨ s.dev = .aux → exec (.thermalModelUpdate nodes lid) s = .next s) ∧
    (s.thm.model = true ∨ s.dev = .off ∨ s.dev = .aux → exec .hwEstimateUpdate s = .next s) ∧
    (s.thm.model = true → s.dev ≠ .off → s.dev ≠ .aux → s.thm.crs.length = 20 → ∃ u : State,
      exec (.thermalModelUpdate nodes lid) s = .next u.thermalActs ∧ (∀ n < 80, ∀ x, nodes[n]? = some x → u.thm.nodes.getD n 0 = x) ∧
      (∀ l, s.thm.lid = some l → (∃ n < 88, 15 ≤ sensorPos n ∧ s.trusted n = true) →
        ∃ l', u.thm.lid = some l' ∧ l' - l ≤ 5 ∧ l - l' ≤ 5) ∧
      ∀ p < 20, (u.thm.crs.getD p {}).est = if (u.quadEsts p).any (fun x => x.1.isNone) = true then none
        else ((u.quadEsts p).map (·.1)).foldl optMax none) ∧
    (s.thm.model = false → s.dev ≠ .off → s.dev ≠ .aux → s.thm.crs.length = 20 → ∃ u : State,
      exec .hwEstimateUpdate s = .next u.thermalActs ∧
      (∀ p < 20, (u.thm.crs.getD p {}).est = if (s.quadEsts p).any (fun x => x.1.isNone) = true then none
        else ((s.quadEsts p).map (·.1)).foldl optMax none) ∧
      s.only u [.thm] fun r => ∃ n < 20, r = THM_CRSMAX n)) ∧
  (∀ (s : State) (d : Nat) (e : Int), d < 16 → s.mc.band.length = 16 → (s.thm.crs.getD (d + 3) {}).est = some e →
    let b := s.mc.band.getD d 1
    let b' := (s.bandUpdate d).mc.band.getD d 1
    (9500 ≤ e → 3 ≤ b') ∧ (8500 ≤ e → 2 ≤ b') ∧ (s.thm.model = false → b ≤ b') ∧ s.bandMin d ≤ b' ∧ (9300 ≤ e → b = 3 → 3 ≤ b')) ∧
  ∀ (s : State) (p : Nat), p < s.thm.crs.length →
    let c := s.thm.crs.getD p {}
    let c' := (s.stepUpdate p).thm.crs.getD p {}
    c'.step ≤ max c.step c'.top ∧ c.step ≤ c'.step + 1 ∧ c'.top ≤ c'.step ∧ (s.thm.model = false → c.step ≤ c'.step) ∧
    (c'.reached 0 = true → c'.warn = true) ∧
    ∀ m, m ≠ p → (s.stepUpdate p).thm.crs.getD m {} = s.thm.crs.getD m {}

/-- R347: a run of error-free settings that holds a coarse point is an eye with its edges, its width and its centre; one
that holds none gives no eye. R350, R352-R355: a visit starts at the unit's next pin with the standby pin it borrows;
a swept eye of the standby pin that works starts the second sweep; the second sweep's centre becomes the delay
of the line that carries the pin (the model's reading, log entry 117) and the visit ends, and a timeout ends it with 0x06C4. A captured keep-bus group takes effect at the gap. Where an
event cannot arise, nothing changes (the model's choice, log entry 3). -/
def Obligations.VisitsPlaceDelays : Prop :=
  (∀ l r : Nat, l ≤ r → r ≤ 255 → let run := (List.range (r + 1 - l)).map (l + ·)
     ((∃ i, l ≤ 4 * i ∧ 4 * i ≤ r) → eyeOf run = (r - l + 1, (l + r + 1) / 2)) ∧
     ((∀ i, 4 * i < l ∨ r < 4 * i) → eyeOf run = (0, 0))) ∧
  ((∀ (s : State) (u : CalUnit),
     (s.unitRuns u = false ∨ s.flag CAL_CTL_ROLLEN = false ∨ s.visitOf u ≠ none ∨ s.pwr.interval = true →
       exec (.rollVisitStart u) s = .next s) ∧
     (s.unitRuns u = true → s.flag CAL_CTL_ROLLEN = true → s.visitOf u = none → s.pwr.interval = false → let pins := unitPins u
       ∀ i, findFrom pins.length (tgetD s.cal.next (calKey u) 0 % pins.length) (fun i => !s.unvisited u (pins.getD i 0)) = some i →
         ∃ t : State, exec (.rollVisitStart u) s = .next t ∧ t.visitOf u = some {
             unit := u, pin := pins.getD i 0, stby := (if s.inPlace u = true then none else s.unitStby u)
             second := (if s.inPlace u = true then none else s.unitStby u).isNone } ∧
           tgetD t.cal.next (calKey u) 0 = (i + 1) % pins.length ∧ s.only t [.cal] fun _ => False)) ∧
   (∀ (s : State) (u : CalUnit) (errFree : List Nat), let e := eyeOf errFree
     (s.visitOf u = none → exec (.sweepDone u errFree) s = .next s ∧ exec (.visitIncompleteTimeout u) s = .next s) ∧
     ∀ v, s.visitOf u = some v →
       (v.slice = true → exec (.sweepDone u errFree) s = .next s ∧ exec (.visitIncompleteTimeout u) s = .next s) ∧
       (v.slice = false → v.second = false → s.working u e.1 e.2 = true → ∃ t : State, exec (.sweepDone u errFree) s = .next t ∧
         t.visitOf u = some { v with second := true, again := false }) ∧
       (v.slice = false → s.minEye u ≤ e.1 → centreOk e.2 = false → v.again = false → ∃ t : State,
         exec (.sweepDone u errFree) s = .next t ∧ t.visitOf u = some { v with again := true }) ∧
       (v.slice = false → v.second = false → s.working u e.1 e.2 = false → e.1 < s.minEye u ∨ v.again = true →
         ∃ t : State, exec (.sweepDone u errFree) s = .next t ∧ t.visitOf u = none) ∧
       (v.slice = false → v.second = true → s.working u e.1 e.2 = true ∨ e.1 < s.minEye u ∨ v.again = true →
         ∃ t : State, exec (.sweepDone u errFree) s = .next t ∧ t.visitOf u = none) ∧
       (∀ c pc, u = .data c pc → v.slice = false → v.second = true → s.working u e.1 e.2 = true → s.dlyHold u = false →
         s.flag CAL_CTL_STRBTRK = false → c < 32 → ∀ x < 120, s.linePin u v.pin = x → ∃ t : State,
         exec (.sweepDone u errFree) s = .next t ∧ getBits (t.reg (MC_DLY c (x / 4))) (8 * (x % 4) + 7) (8 * (x % 4)) = e.2) ∧
       (v.slice = false → ∃ t : State, exec (.visitIncompleteTimeout u) s = .next t ∧ t.visitOf u = none)) ∧
   (∀ (s : State) (a : Access) (k : Fin 2) (v : Word), s.served a (CAL_KAPPLY k) = true →
     (v.getLsbD 0 = false → exec (.calKapply a k v) s = .next ((s.arrived a 9).respond a 9 0 0)) ∧
     (v.getLsbD 0 = true → s.cal.kcap.length = 2 → s.cal.kpend.length = 2 → ∃ u : State,
       exec (.calKapply a k v) s = .next (u.respond a 9 0 0) ∧ u.cal.kpend.getD k false = true ∧
       (∀ n < 45, (u.cal.kcap.getD k [])[n]? = some (s.reg (CAL_KDLY k n))) ∧ (s.arrived a 9).only u [.cal] fun _ => False)) ∧
   ∀ (s : State) (k : Fin 2),
     (s.cal.kpend.getD k false = false → tget s.cal.pend (110 + k.val) = none → exec (.keepBusGap k) s = .next s) ∧
     (s.cal.kpend.getD k false = true → ∃ t : State, exec (.keepBusGap k) s = .next t ∧ t.cal.kpend.getD k false = false ∧
       (∀ n w, n < 45 → (s.cal.kcap.getD k [])[n]? = some w → t.actReg (CAL_KDLY k n) = w) ∧ tget t.cal.pend (110 + k.val) = none ∧
       s.only t [.act, .cal] fun _ => False))

/-- R344, R356, R402: background tracking works while memory is in service and TRACKEN is set: segment gains and sensor
offsets take effect at once, trims and TSV codes that move wait for a commit boundary; with a bad reference what traces to it is
not tracked. A loss of REFCLK makes every
port leave ACTIVE and every channel DOWN; its return is noted. Where an event cannot arise, nothing changes (the
model's choice, log entry 3). -/
def Obligations.TrackingAndClock : Prop :=
  (∀ s : State, (s.tracking = false → (∀ fs trim, exec (.trackStepTimer fs trim) s = .next s) ∧
      (∀ z l, exec (.trackImpedanceTimer z l) s = .next s) ∧ (∀ n v, exec (.trackGainTimer n v) s = .next s) ∧
      ∀ v, exec (.trackOffsetTimer v) s = .next s) ∧
    (s.tracking = true →
      (∀ fs trim, ∃ t : State, exec (.trackStepTimer fs trim) s = .next t ∧
        (∀ c < 32, ∀ v, fs[c]? = some v → t.fld (CAL_DSTEP_FS c) = v % 65536) ∧
        (∀ c < 32, ∀ v, trim[c]? = some v → v % 256 ≠ s.fld (CAL_DSTEP_TRIM c) → tget t.cal.pend c = some (v % 256)) ∧
        s.only t [.cal] fun r => ∃ c < 32, r = CAL_DSTEP c) ∧
      (s.flag CAL_STAT_REFBAD = true → (∀ z l, exec (.trackImpedanceTimer z l) s = .next s) ∧
        (∀ n v, exec (.trackGainTimer n v) s = .next s) ∧ ∀ v, exec (.trackOffsetTimer v) s = .next s) ∧
      (∀ z l, s.flag CAL_STAT_REFBAD = false → ∃ t : State, exec (.trackImpedanceTimer z l) s = .next t ∧
        (1 < codeMove (z.toNat &&& 0x3F3F3F) (s.reg CAL_ZTSV) → tget t.cal.pend 100 = some (z.toNat &&& 0x3F3F3F)) ∧
        s.only t [.cal] fun _ => False) ∧
      (∀ (n : Fin 40) (v : Word), s.flag CAL_STAT_REFBAD = false → ∃ t : State, exec (.trackGainTimer n v) s = .next t ∧ t.reg (CAL_SGAIN n) = v.toNat ∧
        s.only t [] fun r => r = CAL_SGAIN n) ∧
      ∀ v : List Word, s.flag CAL_STAT_REFBAD = false → ∃ t : State, exec (.trackOffsetTimer v) s = .next t ∧
        (∀ n < 88, ∀ w, v[n]? = some w → t.reg (CAL_SOFF n) = w.toNat % 65536) ∧
        s.only t [] fun r => ∃ n < 88, r = CAL_SOFF n)) ∧
  ∀ s : State,
    (s.pins.refclk = false → exec .refclkLoss s = .next s) ∧ (s.pins.refclk = true → exec .refclkReturn s = .next s) ∧
    (s.pins.refclk = true → s.dev ≠ .off → ∃ t : State, exec .refclkLoss s = .next t ∧ t.pins.refclk = false ∧
      (∀ p < 4, (t.port p).st ≠ .active) ∧ ∀ c < 32, (t.chan c).st = .down ∧
        ((s.chan c).st = .active → (t.chan c).hold = none)) ∧
    (s.pins.refclk = false → s.dev ≠ .off → ∃ t : State, exec .refclkReturn s = .next t ∧ t.pins.refclk = true ∧
      t.fld CAL_STAT_CLKBAD = 0 ∧ s.only t [.pins] fun r => r = CAL_STAT)

/-- R362-R367, R370: a tick gives the slicer the first queued target whose course is below T3; a slice that runs obtains
its resource and starts at the device's time. A slice of a row whose steps meet no mismatch passes, counts and leaves
its record in the log under the next sequence; one that has not started when its budget ends is deferred, and a target
goes back to the queue. A bank's hold comes after the writes reported complete in its queue. Where an event cannot arise, nothing changes (the model's choice, log entry 3). -/
def Obligations.SlicesRun : Prop :=
  (∀ s : State, (s.inService = false ∨ s.bst.cur ≠ none ∨ s.pwr.interval = true ∨ s.blocked 0x24 = true → exec .sliceTick s = .next s) ∧
    ∀ x rest, s.inService = true → s.bst.cur = none → s.pwr.interval = false → s.blocked 0x24 = false →
      s.bst.queue = x :: rest → s.intg.tests = [] → (∀ y ∈ s.bst.queue, s.tStep y.1 < 3) →
      (s.targetHeld x.1 = false → exec .sliceTick s = .next { s with bst := { s.bst with
        queue := rest, cur := some { target := x.1, origin := x.2.1, op := x.2.2 } } }) ∧
      (s.targetHeld x.1 = true → exec .sliceTick s = .next (s.incFld BST_CNT_DEFER_COUNT 1))) ∧
  (∀ s : State, s.bst.queue = [] →
    (s.bst.cur = none → (∀ obs, exec (.sliceResourceGranted obs) s = .next s) ∧ exec .sliceBudgetExpiry s = .next s ∧
      ∀ m b k f, exec (.sliceEnd m b k f) s = .next s) ∧
    ∀ c, s.bst.cur = some c → s.tStep c.target < 3 →
      (c.started = true ∨ s.inService = false → ∀ obs, exec (.sliceResourceGranted obs) s = .next s) ∧
      (c.started = false → tKind c.target = 1 → let l := tLoc c.target
        (s.chan l.ch).st ≠ .active ∨ (s.chan l.ch).hold ≠ none ∨ s.bankOwes l.ch l.pc l.bank = true →
        ∀ obs, exec (.sliceResourceGranted obs) s = .next s) ∧
      (∀ obs, c.started = false → c.origin ≠ 0 → tKind c.target = 1 → s.inService = true →
        s.bankOwes (tLoc c.target).ch (tLoc c.target).pc (tLoc c.target).bank = false →
        (s.chan (tChan c.target)).st = .active → (s.chan (tChan c.target)).hold = none →
        (∀ g ∈ bankRowGrans (tLoc c.target).ch (tLoc c.target).pc (tLoc c.target).bank (tLoc c.target).row,
          s.plainGran g = true ∧ readsClean obs g) →
        ∃ t : State, exec (.sliceResourceGranted obs) s = .next t ∧
          t.bst.cur = some { c with started := true, n := 160, t0 := s.ks.time } ∧
          (t.chan (tChan c.target)).hold = some ((tLoc c.target).pc, (tLoc c.target).bank) ∧ t.dram = s.dram ∧
          s.only t (.bst :: .mc :: wires) fun r => inLtc r ∨ r / 0x100000 = 6) ∧
      (c.started = false → c.origin ≠ 0 → exec .sliceBudgetExpiry s = .next { s.incFld BST_CNT_DEFER_COUNT 1 with
        bst := { s.bst with cur := none, queue := [(c.target, c.origin, c.op)] } }) ∧
      (c.started = true → c.op = none → tKind c.target = 1 → c.n = 160 → (s.chan (tChan c.target)).st = .active →
        (s.chan (tChan c.target)).hold = some ((tLoc c.target).pc, (tLoc c.target).bank) → ∀ k f, ∃ t : State, exec (.sliceEnd (List.replicate 160 0) false k f) s = .next t ∧ t.bst.cur = none ∧
          (t.chan (tChan c.target)).hold = none ∧ t.bst.seq = (s.bst.seq + 1) % 2 ^ 32 ∧
          t.fld BST_CNT_PASS_COUNT = satAdd 32 (s.fld BST_CNT_PASS_COUNT) 1 ∧ c.target ∉ t.bst.inc ∧
          ∃ rec_, tget t.bst.log (s.bst.seq % 64) = some (s.bst.seq, rec_) ∧ fieldB rec_ 0 4 = c.target % 2 ^ 32 ∧ fieldB rec_ 4 1 = 0 ∧
            fieldB rec_ 6 2 = 160 ∧ fieldB rec_ 12 4 = sliceExpected 160 ∧ fieldB rec_ 16 4 = sliceExpected 160)) ∧
  ∀ i : Nat, (i < rowIndexes → targetOk (rowIndexTarget i) = true ∧ targetIndex (rowIndexTarget i) = i) ∧
    (i < tsvIndexes → targetOk (tsvIndexTarget i) = true ∧ targetIndex (tsvIndexTarget i) = i)

/-- R29, R374-R376: the port works in every state but OFF, unless TRST_N holds it reset, which selects IDCODE (the model's
reading, log entry 139). BYPASS and IDCODE select themselves, and IDCODE shifts out the
device's number; SAMPLE/PRELOAD loads the boundary register; EXTEST, CLAMP and HIGHZ act only inside a reset that
RESET_N holds, and are BYPASS elsewhere. UNLOCK_NONCE shifts out the nonce, and UNLOCK_LOAD renews it and opens a
scope for a token that verifies. Scan needs the lifecycle or the unlock, and drops the keys. Where an event cannot
arise, nothing changes (the model's choice, log entry 3). -/
def Obligations.TestAccessPort : Prop :=
  ∀ s : State,
    (s.dev = .off ∨ s.pins.trstN = false → exec .bypass s = .next s ∧ exec .idcode s = .next s ∧ exec .extest s = .next s ∧ exec .clamp s = .next s ∧
      exec .highz s = .next s ∧ exec .unlockNonce s = .next s ∧ (∀ x, exec (.samplePreload (.preload x)) s = .next s) ∧
      (∀ x, exec (.unlockLoad x) s = .next s) ∧ ∀ z c, exec (.scanEnter z c) s = .next s) ∧
    (∀ low, (s.dev = .off → exec (.samplePreload (.trst low)) s = .next s) ∧
      (s.dev ≠ .off → exec (.samplePreload (.trst low)) s = .next { s with
        pins := { s.pins with trstN := !low }, bst := { s.bst with ir := if low = true then 0x01 else s.bst.ir } })) ∧
    (s.dev ≠ .off → s.pins.trstN = true →
      exec .bypass s = .next { s with bst := { s.bst with ir := 0xFF } } ∧
      exec .idcode s = .next { s with
        bst := { s.bst with ir := 0x01 }, out := s.out ++ [.tdo 32 (s.fld KS_REV_BASE * 2 ^ 28 + 0x0960098B)] } ∧
      exec .unlockNonce s = .next { s with bst := { s.bst with ir := 0x10 }, out := s.out ++ [.tdo 128 s.bst.nonce] } ∧
      (∀ b, ∃ t : State, exec (.samplePreload (.preload (some b))) s = .next t ∧ t.bst = { s.bst with ir := 0x02, boundary := b } ∧
        s.only t [.fresh, .out, .bst] fun _ => False) ∧
      (∃ t : State, exec (.samplePreload (.preload none)) s = .next t ∧ t.bst.boundary.length = 12 ∧
        t.bst.boundary.take 6 = [s.pins.resetN, s.pins.pwrFailN, !s.pins.keepSealed, !s.alert, !s.pins.thermTrip, s.pins.compat] ∧
        t.bst.boundary.drop 8 = [bitAt s.pins.sbaddr 0, bitAt s.pins.sbaddr 1, bitAt s.pins.sbaddr 2, s.pins.lintelForceN]) ∧
      (let held := s.pwr.interval && !s.pins.resetN;
        exec .extest s = .next { s with bst := { s.bst with ir := if held then 0x00 else 0xFF } } ∧
        exec .clamp s = .next { s with bst := { s.bst with ir := if held then 0x03 else 0xFF } } ∧
        exec .highz s = .next { s with bst := { s.bst with ir := if held then 0x04 else 0xFF } }) ∧
      (∀ token : List Byte,
        let ok := s.tokensTaken = true ∧ token.length = 128 ∧ fieldB token 0 8 = s.fus.ident ∧ fieldB token 8 16 = s.bst.nonce ∧
          fieldB token 28 4 = 0 ∧ Config.ecdsaOk s.fus.unlockKey (token.take 32) (token.drop 32) = true
        ∃ u : State, (ok → exec (.unlockLoad token) s = .next (u.post 0x0607 1 0xFF (fieldB token 24 4))) ∧
          (¬ok → exec (.unlockLoad token) s = .next u) ∧ u.bst.unlock = (if ok then some (fieldB token 24 4) else s.bst.unlock) ∧
          u.bst.ir = 0x11 ∧ u.fresh = s.fresh + 1 ∧ s.only u [.fresh, .bst] fun _ => False) ∧
      ∀ (zero : Bool) (courses : List Nat), let held := s.pwr.interval && !s.pins.resetN
        let may := s.fus.life = 1 ∨ s.fus.life = 2 ∨ s.bst.unlock ≠ none
        (held = false → exec (.scanEnter zero courses) s = .next { s with bst := { s.bst with ir := 0xFF } }) ∧
        (held = true → ¬may → ∃ u : State, exec (.scanEnter zero courses) s = .next (u.post 0x0605 2 0xFF 0) ∧
          u = { s with bst := { s.bst with ir := 0xFF } }) ∧
        (held = true → may → ∃ t : State, exec (.scanEnter zero courses) s = .next t ∧ t.keep.secret = none ∧ t.keep.shares = [] ∧
          t.keep.arm = .disarmed ∧ (∀ j ∈ t.chs.jobs, j = {}) ∧ t.bst.ir = (if zero = true then 0x20 else 0xFF) ∧
          (zero = true → t.bst.scan = true) ∧ t.wq.ksq = [] ∧ t.wq.waits = [] ∧
          t.pwr.mayResume = (s.pwr.mayResume && !(zero && courses.any fun p => decide (3 ≤ p) && s.scanMay p))))

/-- R387, R388, R391: commands to the fuse controller are ignored over the lattice and without the key. A word program is
refused in this order: by the lifecycle state (2), by a lock (3), by VPP (4), by a word that is not blank (5), by a
busy controller (9); each refusal posts 0x0706. Otherwise the program is under way. A
lifecycle command is refused by VPP (4), by its transition word where it is not blank (5), by conditions that do not
hold (8), by a busy controller (9); one that names no step has no word (the model's reading, log entry 100). -/
def Obligations.FuseCommands : Prop :=
  ∀ (s : State) (a : Access) (v : Word), s.served a FUS_PGCMD = true → let w := v.toNat
    let addr := s.fld FUS_PGADDR_ADDR
    let reg := regionOf addr
    let byKs := match a.path with | .keystone => true | _ => false
    let locked := if bankLockWord addr = true then !(s.fus.life == 3 && byKs) && s.lockBlown reg
      else s.lockBlown reg || bitAt (s.fld FUS_LOCK_LOCK) reg
    let refuse := fun x n => ((s.arrived a 9).pgResult x n).respond a 9 0 0
    let goes := fun (k x d st : Nat) => ((s.arrived a 9).pgStart { kind := k, addr := x, data := d, state := st, byKs := k == 1 && byKs }).respond a 9 0 0
    ((∃ p, a.path = .port p) ∨ w / 65536 ≠ 0xF05A ∨ w % 4 = 0 →
      exec (.fuseProgramWord a v) s = .next ((s.arrived a 9).respond a 9 0 0) ∧
      exec (.lifecycleAdvance a v) s = .next ((s.arrived a 9).respond a 9 0 0) ∧
      exec (.lifecycleRetire a v) s = .next ((s.arrived a 9).respond a 9 0 0)) ∧
    ((∀ p, a.path ≠ .port p) → w / 65536 = 0xF05A →
      (w % 4 = 1 →
        (lifePermits s.fus.life reg addr byKs = false → exec (.fuseProgramWord a v) s = .next (refuse addr 2)) ∧
        (lifePermits s.fus.life reg addr byKs = true →
          (locked = true → exec (.fuseProgramWord a v) s = .next (refuse addr 3)) ∧
          (locked = false → s.vppOk = false → exec (.fuseProgramWord a v) s = .next (refuse addr 4)) ∧
          (locked = false → s.vppOk = true → s.blankAt addr = false → exec (.fuseProgramWord a v) s = .next (refuse addr 5)) ∧
          (locked = false → s.vppOk = true → s.blankAt addr = true → s.fuseBusy = true →
            exec (.fuseProgramWord a v) s = .next (refuse addr 9)) ∧
          (locked = false → s.vppOk = true → s.blankAt addr = true → s.fuseBusy = false →
            exec (.fuseProgramWord a v) s = .next (goes 1 addr (s.reg FUS_PGDATA) 0)))) ∧
      (let k := w / 256 % 8; let r := fun n => exec (.lifecycleAdvance a v) s = .next (refuse (0x72F + k) n);
        w % 4 = 2 → k ≠ 0 → (s.vppOk = false → r 4) ∧
          (s.vppOk = true → s.lifeStep k false = true → s.blankAt (0x72F + k) = false → r 5) ∧
          (s.vppOk = true → s.lifeStep k false = false ∨ s.blankAt (0x72F + k) = true →
            (s.lifePrereq k false = false → r 8) ∧
            (s.lifePrereq k false = true → s.fuseBusy = true → r 9) ∧
            (s.lifePrereq k false = true → s.fuseBusy = false →
              exec (.lifecycleAdvance a v) s = .next (goes 2 (0x72F + k) 0xFFFFFFFF k)))) ∧
      (let r := fun n => exec (.lifecycleRetire a v) s = .next (refuse 0x733 n);
        w % 4 = 3 → (s.vppOk = false → r 4) ∧
          (s.vppOk = true → s.lifeStep 0 true = true → s.blankAt 0x733 = false → r 5) ∧
          (s.vppOk = true → s.lifeStep 0 true = false → r 8) ∧
          (s.vppOk = true → s.lifeStep 0 true = true → s.blankAt 0x733 = true →
            (s.fuseBusy = true → r 9) ∧
            (s.fuseBusy = false → exec (.lifecycleRetire a v) s = .next (goes 2 0x733 0xFFFFFFFF 4)))))

/-- R387, R390, R391, R393, R394: a verified word reads back clean; a verified lifecycle word starts the other copy's.
Only the programmed word changes. A write of FUS_LOCK sets bits and clears none, and bit 8 stays 0. A raw read
presents both references of a word, and hides a KEY word. Where an event cannot arise, nothing changes (the model's
choice, log entry 3). -/
def Obligations.FuseWords : Prop :=
  (∀ (s : State) (o : Fin 3) (r : Word), (s.fus.cmd = none → exec (.fuseProgramDone o r) s = .next s) ∧
    ∀ c, s.fus.cmd = some c → ∃ t : State, exec (.fuseProgramDone o r) s = .next t ∧ (∀ x ≠ c.addr, t.fword x = s.fword x) ∧
      (o = 0 → c.data ≠ 0 → t.fword c.addr = cleanWord c.data) ∧
      (o = 0 → c.kind = 2 → s.vppOk = true → t.fus.cmd = some { c with kind := 3, addr := c.addr + 8 } ∧
        t.fld FUS_PGSTAT_BUSY = 1) ∧
      (o ≠ 0 → (t.fword c.addr).norm.raw = r.toNat ∧ t.fus.cmd = none ∧ (c.kind = 1 →
        t.fld FUS_PGSTAT_RESULT = (if o = 1 then 6 else 7) ∧ t.fld FUS_PGSTAT_BUSY = 0))) ∧
  (∀ (s : State) (a : Access) (v : Word), s.served a FUS_LOCK = true → ∃ u : State,
    exec (.fusLockWrite a v) s = .next (u.respond a 9 0 0) ∧
    (∀ n < 11, bitAt (u.fld FUS_LOCK_LOCK) n = (n != 8 && (bitAt (s.fld FUS_LOCK_LOCK) n || v.getLsbD n))) ∧
    (s.arrived a 9).only u [] fun r => r = FUS_LOCK) ∧
  ∀ (s : State) (a : Access) (v : Word), s.served a FUS_RDADDR = true → let x := v.toNat % 2048
    ∃ u : State, exec (.fusRdaddrWrite a v) s = .next (u.respond a 9 0 0) ∧
      u.fld FUS_RDADDR_ADDR = x ∧
      (regionOf x = 7 → u.reg FUS_RDNORM = 0 ∧ u.reg FUS_RDTIGHT = 0 ∧ u.fld FUS_RDINFO_HIDDEN = 1) ∧
      (regionOf x ≠ 7 → u.reg FUS_RDNORM = (s.fword x).norm.data % 2 ^ 32 ∧ u.reg FUS_RDTIGHT = (s.fword x).tight.data % 2 ^ 32) ∧
      (s.arrived a 9).only u [] fun r => r = FUS_RDADDR ∨ r = FUS_RDNORM ∨ r = FUS_RDTIGHT ∨ r = FUS_RDINFO

/-- R140: the decode of a local address and the encode of a location are inverse over the 96 GiB, so that no two addresses
share a byte of DRAM and no byte lacks an address; the four granules of a 256 B unit lie in one row of one bank. -/
def Obligations.AddressMap : Prop :=
  (∀ a < dramEnd, let l := decodeAddr a
    encodeAddr l = a ∧ l.ch < 32 ∧ l.pc < 2 ∧ l.bank < 16 ∧ l.row < 98304 ∧ l.gran < 16 ∧ l.byte < 64) ∧
  (∀ l : Loc, l.ch < 32 → l.pc < 2 → l.bank < 16 → l.row < 98304 → l.gran < 16 → l.byte < 64 →
    encodeAddr l < dramEnd ∧ decodeAddr (encodeAddr l) = l) ∧
  ∀ a b, a / 256 = b / 256 → (decodeAddr a).ch = (decodeAddr b).ch ∧ (decodeAddr a).pc = (decodeAddr b).pc ∧
    (decodeAddr a).bank = (decodeAddr b).bank ∧ (decodeAddr a).row = (decodeAddr b).row

/-- R280, R281, R289: after a FULL reset bring-up is at step 1, every register holds its reset value, both lintels are
closed, the part is disarmed, no key is held, no semaphore is held, no job slot, recovery or visit is taken, and the
invariants hold. -/
def Obligations.ResetState : Prop :=
  let s := State.reset
  s.pending = [] ∧ s.dev = .bringup ∧ s.pwr.step = 1 ∧ (∀ r, s.reg r = resetOf r ∧ s.actReg r = resetOf r) ∧
  s.lnk.closed = [true, true] ∧ (∀ p < 4, (s.port p).st = .bypassed) ∧ s.keep.arm = .disarmed ∧ s.keep.keyHeld = false ∧
  (∀ x ∈ s.ks.sems, x.held = false) ∧ s.ks.time = 0 ∧ (∀ j ∈ s.chs.jobs, j.st = .free) ∧ s.intg.recov = [] ∧ s.cal.visits = [] ∧
  (∀ c < 32, (s.chan c).st = .down) ∧ s.memWf = true ∧ s.regsWf = true

/-- The invariant of the canonical forms (the model's own, log entry 12): every step keeps the canonical form of DRAM and
of the register file, and takes exactly the command at the front of the queue: what it leaves waiting is the rest. -/
def Obligations.StepKeepsForm : Prop :=
  ∀ s t : State, step s = .next t →
    (s.memWf = true → t.memWf = true) ∧ (s.regsWf = true → t.regsWf = true) ∧ t.pending = s.pending.tail
end

