-- ==== Sys2Proof/Laws/Table.lean ====
section
/-! SUPPORT. Laws of sparse tables, of lists with an entry replaced, and of DRAM bytes: what a read gives after a write, and
that every memory operation keeps the canonical form. -/

namespace Sys2Proof.Machine

variable {α : Type}

/-! ### Tables -/

/-- A key reads as it was set, and every other key as before. -/
theorem tget_tset (t : Tab α) (k j : Nat) (v : α) : tget (tset t k v) j = if j = k then some v else tget t j := by
  induction t with
  | nil => simp [tset, tget, eq_comm]
  | cons e t ih =>
    obtain ⟨a, x⟩ := e
    simp only [tset]
    split
    · by_cases h : j = k
      · simp [tget, h]
      · simp [tget, h, Ne.symm h]
    · split
      · rename_i h
        subst h
        by_cases h : j = a
        · simp [tget, h]
        · simp [tget, h, Ne.symm h]
      · rename_i h
        by_cases hj : a = j
        · subst hj; simp [tget, h]
        · simp [tget, hj, ih]

@[simp] theorem tget_tset_self (t : Tab α) (k : Nat) (v : α) : tget (tset t k v) k = some v := by simp [tget_tset]

theorem tget_tset_ne (t : Tab α) {k j : Nat} (v : α) (h : j ≠ k) : tget (tset t k v) j = tget t j := by simp [tget_tset, h]

@[simp] theorem tgetD_tset_self (t : Tab α) (k : Nat) (v d : α) : tgetD (tset t k v) k d = v := by simp [tgetD]

theorem tgetD_tset_ne (t : Tab α) {k j : Nat} (v d : α) (h : j ≠ k) : tgetD (tset t k v) j d = tgetD t j d := by
  simp [tgetD, tget_tset_ne t v h]

/-- A table filtered by its keys reads as before at the keys that stay. -/
theorem tget_filter (t : Tab α) (p : Nat → Bool) (j : Nat) :
    tget (t.filter fun e => p e.1) j = if p j then tget t j else none := by
  induction t with
  | nil => simp [tget]
  | cons e t ih =>
    obtain ⟨a, x⟩ := e
    by_cases hp : p a = true
    · by_cases ha : a = j
      · subst ha; simp [tget, hp]
      · simp [tget, hp, ha, ih]
    · by_cases ha : a = j
      · subst ha; simp [hp, ih]
      · simp [tget, hp, ha, ih]

/-- A removed key reads as absent, every other as before. -/
theorem tget_tdel (t : Tab α) (k j : Nat) : tget (tdel t k) j = if j = k then none else tget t j := by
  have := tget_filter t (fun a => a != k) j
  by_cases h : j = k <;> simp_all [tdel]

theorem tgetD_tdel_ne (t : Tab α) {k j : Nat} (d : α) (h : j ≠ k) : tgetD (tdel t k) j d = tgetD t j d := by
  simp [tgetD, tget_tdel, h]

@[simp] theorem tgetD_tdel_self (t : Tab α) (k : Nat) (d : α) : tgetD (tdel t k) k d = d := by simp [tgetD, tget_tdel]

/-! ### Order of the keys -/

/-- The keys rise strictly: the form in which the induction goes through. -/
theorem tsorted_cons (a : Nat) (x : α) (t : Tab α) :
    tsorted ((a, x) :: t) = true ↔ (∀ e ∈ t, a < e.1) ∧ tsorted t = true := by
  induction t generalizing a x with
  | nil => simp [tsorted]
  | cons e t ih =>
    obtain ⟨b, y⟩ := e
    simp only [tsorted, Bool.and_eq_true, decide_eq_true_eq, List.mem_cons, forall_eq_or_imp]
    constructor
    · rintro ⟨h, hs⟩
      exact ⟨⟨h, fun e he => lt_trans h (((ih b y).1 hs).1 e he)⟩, hs⟩
    · rintro ⟨⟨h, -⟩, hs⟩
      exact ⟨h, hs⟩

theorem mem_tset {t : Tab α} {k : Nat} {v : α} {e : Nat × α} (h : e ∈ tset t k v) : e = (k, v) ∨ e ∈ t := by
  induction t with
  | nil => simpa [tset] using h
  | cons c t ih =>
    obtain ⟨a, x⟩ := c
    simp only [tset] at h
    split at h
    · simpa [or_assoc] using h
    · split at h
      · rcases List.mem_cons.1 h with h | h
        · exact .inl h
        · exact .inr (List.mem_cons_of_mem _ h)
      · rcases List.mem_cons.1 h with h | h
        · exact .inr (h ▸ List.mem_cons_self)
        · exact (ih h).imp_right (List.mem_cons_of_mem _)

/-- Setting a key keeps the keys rising. -/
theorem tsorted_tset {t : Tab α} (h : tsorted t = true) (k : Nat) (v : α) : tsorted (tset t k v) = true := by
  induction t with
  | nil => rfl
  | cons e t ih =>
    obtain ⟨a, x⟩ := e
    have hc := (tsorted_cons a x t).1 h
    simp only [tset]
    split
    · rename_i hk
      exact (tsorted_cons _ _ _).2 ⟨fun e he => by
        rcases List.mem_cons.1 he with he | he
        · exact he ▸ hk
        · exact lt_trans hk (hc.1 e he), h⟩
    · split
      · rename_i hk; subst hk; exact (tsorted_cons _ _ _).2 hc
      · rename_i h1 h2
        refine (tsorted_cons _ _ _).2 ⟨fun e he => ?_, ih hc.2⟩
        rcases mem_tset he with he | he
        · subst he; simp only; omega
        · exact hc.1 e he

/-- Dropping entries keeps the keys rising. -/
theorem tsorted_filter {t : Tab α} (h : tsorted t = true) (p : Nat × α → Bool) : tsorted (t.filter p) = true := by
  induction t with
  | nil => rfl
  | cons e t ih =>
    obtain ⟨a, x⟩ := e
    have hc := (tsorted_cons a x t).1 h
    rw [List.filter_cons]
    split
    · exact (tsorted_cons _ _ _).2 ⟨fun e he => hc.1 e (List.mem_filter.1 he).1, ih hc.2⟩
    · exact ih hc.2

/-! ### Bytes of DRAM -/

/-- A byte reads as it was written, and every other as before. -/
theorem mget_mset (m : List Host.Cell) (a b : Nat) (v : Byte) : mget (mset m a v) b = if b = a then v else mget m b := by
  unfold mget mset tgetD
  split
  · rename_i hv; subst hv
    by_cases h : b = a <;> simp [tget_tdel, h]
  · by_cases h : b = a <;> simp [tget_tset, h]

/-- A byte written keeps the canonical form. -/
theorem Memory.wf_mset {m : List Host.Cell} (h : Memory.wf m = true) (a : Nat) (v : Byte) : Memory.wf (mset m a v) = true := by
  simp only [Memory.wf, Bool.and_eq_true, List.all_eq_true] at h ⊢
  unfold mset
  split
  · exact ⟨tsorted_filter h.1 _, fun c hc => h.2 c (List.mem_filter.1 hc).1⟩
  · rename_i hv
    refine ⟨tsorted_tset h.1 _ _, fun c hc => ?_⟩
    rcases mem_tset hc with hc | hc
    · subst hc; simpa using hv
    · exact h.2 c hc

theorem Memory.wf_mput (bs : List Byte) {m : List Host.Cell} (h : Memory.wf m = true) (a : Nat) :
    Memory.wf (mput m a bs) = true := by
  induction bs generalizing m a with
  | nil => exact h
  | cons b bs ih => exact ih (Memory.wf_mset h a b) _

theorem Memory.wf_mputMask (bs : List Byte) {m : List Host.Cell} (h : Memory.wf m = true) (a k : Nat) :
    Memory.wf (mputMask m a k bs) = true := by
  induction bs generalizing m a k with
  | nil => exact h
  | cons b bs ih =>
    unfold mputMask
    split
    · exact ih (Memory.wf_mset h a b) _ _
    · exact ih h _ _

theorem Memory.wf_tdelRange {m : List Host.Cell} (h : Memory.wf m = true) (lo n : Nat) :
    Memory.wf (tdelRange m lo n) = true := by
  simp only [Memory.wf, Bool.and_eq_true, List.all_eq_true] at h ⊢
  exact ⟨tsorted_filter h.1 _, fun c hc => h.2 c (List.mem_filter.1 hc).1⟩

theorem Memory.wf_mpaste (cs : List Host.Cell) {m : List Host.Cell} (h : Memory.wf m = true) (a n : Nat) :
    Memory.wf (mpaste m a n cs) = true := by
  unfold mpaste
  have h := Memory.wf_tdelRange h a n
  generalize tdelRange m a n = m' at h
  induction cs generalizing m' with
  | nil => exact h
  | cons c cs ih => exact ih _ (Memory.wf_mset h _ _)

/-- A string written from an address up: inside it reads as written, outside as before. -/
theorem mget_mput (bs : List Byte) (m : List Host.Cell) (a b : Nat) :
    mget (mput m a bs) b = if a ≤ b ∧ b < a + bs.length then bs.getD (b - a) 0 else mget m b := by
  induction bs generalizing m a with
  | nil =>
    have : ¬(a ≤ b ∧ b < a + ([] : List Byte).length) := by simp
    rw [if_neg this]; rfl
  | cons c bs ih =>
    rw [mput, ih, mget_mset]
    by_cases h1 : b = a
    · subst h1; simp
    · by_cases h2 : a + 1 ≤ b ∧ b < a + 1 + bs.length
      · have h3 : a ≤ b ∧ b < a + (c :: bs).length := by simp only [List.length_cons]; omega
        rw [if_pos h2, if_pos h3]
        have : b - a = b - (a + 1) + 1 := by omega
        rw [this]; rfl
      · have h3 : ¬(a ≤ b ∧ b < a + (c :: bs).length) := by simp only [List.length_cons]; omega
        rw [if_neg h2, if_neg h3, if_neg h1]

/-! ### Entries of a list -/

@[simp] theorem length_setAt (l : List α) (i : Nat) (x : α) : (setAt l i x).length = l.length := by simp [setAt]

@[simp] theorem length_modAt (l : List α) (i : Nat) (f : α → α) : (modAt l i f).length = l.length := by simp [modAt]

theorem getD_setAt (l : List α) (i j : Nat) (x d : α) (h : i < l.length) :
    (setAt l i x).getD j d = if j = i then x else l.getD j d := by
  by_cases hj : j = i
  · subst hj; simp [setAt, h]
  · simp [setAt, hj, List.getD_eq_getElem?_getD, Ne.symm hj]

theorem getD_modAt (l : List α) (i j : Nat) (f : α → α) (d : α) (h : i < l.length) :
    (modAt l i f).getD j d = if j = i then f (l.getD j d) else l.getD j d := by
  by_cases hj : j = i
  · subst hj; simp [modAt, h, List.getD_eq_getElem?_getD]
  · simp [modAt, hj, List.getD_eq_getElem?_getD, Ne.symm hj]

end Sys2Proof.Machine
end

