-- ==== Sys2Proof/Laws/State.lean ====
section
/-! SUPPORT. For every update of the state, what it leaves as it was: one equation for each part that it does not touch. -/

namespace Sys2Proof.Machine

@[simp] theorem State.setReg_same (s : State) (a v : Nat) :
    (s.setReg a v).pending = s.pending ∧ (s.setReg a v).clock = s.clock ∧ (s.setReg a v).fresh = s.fresh ∧
    (s.setReg a v).dev = s.dev ∧ (s.setReg a v).prev = s.prev ∧ (s.setReg a v).act = s.act ∧
    (s.setReg a v).out = s.out ∧ (s.setReg a v).pins = s.pins ∧ (s.setReg a v).ks = s.ks ∧
    (s.setReg a v).lnk = s.lnk ∧ (s.setReg a v).dram = s.dram ∧ (s.setReg a v).mc = s.mc ∧
    (s.setReg a v).mtr = s.mtr ∧ (s.setReg a v).wq = s.wq ∧ (s.setReg a v).chs = s.chs ∧
    (s.setReg a v).intg = s.intg ∧ (s.setReg a v).keep = s.keep ∧ (s.setReg a v).thm = s.thm ∧
    (s.setReg a v).pwr = s.pwr ∧ (s.setReg a v).fus = s.fus ∧ (s.setReg a v).bst = s.bst ∧
    (s.setReg a v).cal = s.cal ∧ (s.setReg a v).actReg = s.actReg := by
  and_intros <;> rfl

@[simp] theorem State.clearReg_same (s : State) (a : Nat) :
    (s.clearReg a).pending = s.pending ∧ (s.clearReg a).clock = s.clock ∧ (s.clearReg a).fresh = s.fresh ∧
    (s.clearReg a).dev = s.dev ∧ (s.clearReg a).prev = s.prev ∧ (s.clearReg a).act = s.act ∧
    (s.clearReg a).out = s.out ∧ (s.clearReg a).pins = s.pins ∧ (s.clearReg a).ks = s.ks ∧
    (s.clearReg a).lnk = s.lnk ∧ (s.clearReg a).dram = s.dram ∧ (s.clearReg a).mc = s.mc ∧
    (s.clearReg a).mtr = s.mtr ∧ (s.clearReg a).wq = s.wq ∧ (s.clearReg a).chs = s.chs ∧
    (s.clearReg a).intg = s.intg ∧ (s.clearReg a).keep = s.keep ∧ (s.clearReg a).thm = s.thm ∧
    (s.clearReg a).pwr = s.pwr ∧ (s.clearReg a).fus = s.fus ∧ (s.clearReg a).bst = s.bst ∧
    (s.clearReg a).cal = s.cal ∧ (s.clearReg a).actReg = s.actReg := by
  and_intros <;> rfl

@[simp] theorem State.setFld_same (s : State) (f : Fld) (v : Nat) :
    (s.setFld f v).pending = s.pending ∧ (s.setFld f v).clock = s.clock ∧ (s.setFld f v).fresh = s.fresh ∧
    (s.setFld f v).dev = s.dev ∧ (s.setFld f v).prev = s.prev ∧ (s.setFld f v).act = s.act ∧
    (s.setFld f v).out = s.out ∧ (s.setFld f v).pins = s.pins ∧ (s.setFld f v).ks = s.ks ∧
    (s.setFld f v).lnk = s.lnk ∧ (s.setFld f v).dram = s.dram ∧ (s.setFld f v).mc = s.mc ∧
    (s.setFld f v).mtr = s.mtr ∧ (s.setFld f v).wq = s.wq ∧ (s.setFld f v).chs = s.chs ∧
    (s.setFld f v).intg = s.intg ∧ (s.setFld f v).keep = s.keep ∧ (s.setFld f v).thm = s.thm ∧
    (s.setFld f v).pwr = s.pwr ∧ (s.setFld f v).fus = s.fus ∧ (s.setFld f v).bst = s.bst ∧
    (s.setFld f v).cal = s.cal ∧ (s.setFld f v).actReg = s.actReg := by
  and_intros <;> rfl

@[simp] theorem State.incFld_same (s : State) (f : Fld) (d : Nat) :
    (s.incFld f d).pending = s.pending ∧ (s.incFld f d).clock = s.clock ∧ (s.incFld f d).fresh = s.fresh ∧
    (s.incFld f d).dev = s.dev ∧ (s.incFld f d).prev = s.prev ∧ (s.incFld f d).act = s.act ∧
    (s.incFld f d).out = s.out ∧ (s.incFld f d).pins = s.pins ∧ (s.incFld f d).ks = s.ks ∧
    (s.incFld f d).lnk = s.lnk ∧ (s.incFld f d).dram = s.dram ∧ (s.incFld f d).mc = s.mc ∧
    (s.incFld f d).mtr = s.mtr ∧ (s.incFld f d).wq = s.wq ∧ (s.incFld f d).chs = s.chs ∧
    (s.incFld f d).intg = s.intg ∧ (s.incFld f d).keep = s.keep ∧ (s.incFld f d).thm = s.thm ∧
    (s.incFld f d).pwr = s.pwr ∧ (s.incFld f d).fus = s.fus ∧ (s.incFld f d).bst = s.bst ∧
    (s.incFld f d).cal = s.cal ∧ (s.incFld f d).actReg = s.actReg := by
  and_intros <;> rfl

@[simp] theorem State.maxFld_same (s : State) (f : Fld) (v : Nat) :
    (s.maxFld f v).pending = s.pending ∧ (s.maxFld f v).clock = s.clock ∧ (s.maxFld f v).fresh = s.fresh ∧
    (s.maxFld f v).dev = s.dev ∧ (s.maxFld f v).prev = s.prev ∧ (s.maxFld f v).act = s.act ∧
    (s.maxFld f v).out = s.out ∧ (s.maxFld f v).pins = s.pins ∧ (s.maxFld f v).ks = s.ks ∧
    (s.maxFld f v).lnk = s.lnk ∧ (s.maxFld f v).dram = s.dram ∧ (s.maxFld f v).mc = s.mc ∧
    (s.maxFld f v).mtr = s.mtr ∧ (s.maxFld f v).wq = s.wq ∧ (s.maxFld f v).chs = s.chs ∧
    (s.maxFld f v).intg = s.intg ∧ (s.maxFld f v).keep = s.keep ∧ (s.maxFld f v).thm = s.thm ∧
    (s.maxFld f v).pwr = s.pwr ∧ (s.maxFld f v).fus = s.fus ∧ (s.maxFld f v).bst = s.bst ∧
    (s.maxFld f v).cal = s.cal ∧ (s.maxFld f v).actReg = s.actReg := by
  and_intros <;> rfl

@[simp] theorem State.minFld_same (s : State) (f : Fld) (v : Nat) :
    (s.minFld f v).pending = s.pending ∧ (s.minFld f v).clock = s.clock ∧ (s.minFld f v).fresh = s.fresh ∧
    (s.minFld f v).dev = s.dev ∧ (s.minFld f v).prev = s.prev ∧ (s.minFld f v).act = s.act ∧
    (s.minFld f v).out = s.out ∧ (s.minFld f v).pins = s.pins ∧ (s.minFld f v).ks = s.ks ∧
    (s.minFld f v).lnk = s.lnk ∧ (s.minFld f v).dram = s.dram ∧ (s.minFld f v).mc = s.mc ∧
    (s.minFld f v).mtr = s.mtr ∧ (s.minFld f v).wq = s.wq ∧ (s.minFld f v).chs = s.chs ∧
    (s.minFld f v).intg = s.intg ∧ (s.minFld f v).keep = s.keep ∧ (s.minFld f v).thm = s.thm ∧
    (s.minFld f v).pwr = s.pwr ∧ (s.minFld f v).fus = s.fus ∧ (s.minFld f v).bst = s.bst ∧
    (s.minFld f v).cal = s.cal ∧ (s.minFld f v).actReg = s.actReg := by
  and_intros <;> rfl

@[simp] theorem State.setReg64_same (s : State) (a v : Nat) :
    (s.setReg64 a v).pending = s.pending ∧ (s.setReg64 a v).clock = s.clock ∧ (s.setReg64 a v).fresh = s.fresh ∧
    (s.setReg64 a v).dev = s.dev ∧ (s.setReg64 a v).prev = s.prev ∧ (s.setReg64 a v).act = s.act ∧
    (s.setReg64 a v).out = s.out ∧ (s.setReg64 a v).pins = s.pins ∧ (s.setReg64 a v).ks = s.ks ∧
    (s.setReg64 a v).lnk = s.lnk ∧ (s.setReg64 a v).dram = s.dram ∧ (s.setReg64 a v).mc = s.mc ∧
    (s.setReg64 a v).mtr = s.mtr ∧ (s.setReg64 a v).wq = s.wq ∧ (s.setReg64 a v).chs = s.chs ∧
    (s.setReg64 a v).intg = s.intg ∧ (s.setReg64 a v).keep = s.keep ∧ (s.setReg64 a v).thm = s.thm ∧
    (s.setReg64 a v).pwr = s.pwr ∧ (s.setReg64 a v).fus = s.fus ∧ (s.setReg64 a v).bst = s.bst ∧
    (s.setReg64 a v).cal = s.cal ∧ (s.setReg64 a v).actReg = s.actReg := by
  and_intros <;> rfl

@[simp] theorem State.add64_same (s : State) (a v : Nat) :
    (s.add64 a v).pending = s.pending ∧ (s.add64 a v).clock = s.clock ∧ (s.add64 a v).fresh = s.fresh ∧
    (s.add64 a v).dev = s.dev ∧ (s.add64 a v).prev = s.prev ∧ (s.add64 a v).act = s.act ∧ (s.add64 a v).out = s.out ∧
    (s.add64 a v).pins = s.pins ∧ (s.add64 a v).ks = s.ks ∧ (s.add64 a v).lnk = s.lnk ∧ (s.add64 a v).dram = s.dram ∧
    (s.add64 a v).mc = s.mc ∧ (s.add64 a v).mtr = s.mtr ∧ (s.add64 a v).wq = s.wq ∧ (s.add64 a v).chs = s.chs ∧
    (s.add64 a v).intg = s.intg ∧ (s.add64 a v).keep = s.keep ∧ (s.add64 a v).thm = s.thm ∧
    (s.add64 a v).pwr = s.pwr ∧ (s.add64 a v).fus = s.fus ∧ (s.add64 a v).bst = s.bst ∧ (s.add64 a v).cal = s.cal ∧
    (s.add64 a v).actReg = s.actReg := by
  and_intros <;> rfl

@[simp] theorem State.commitReg_same (s : State) (a : Nat) :
    (s.commitReg a).pending = s.pending ∧ (s.commitReg a).clock = s.clock ∧ (s.commitReg a).fresh = s.fresh ∧
    (s.commitReg a).dev = s.dev ∧ (s.commitReg a).prev = s.prev ∧ (s.commitReg a).regs = s.regs ∧
    (s.commitReg a).out = s.out ∧ (s.commitReg a).pins = s.pins ∧ (s.commitReg a).ks = s.ks ∧
    (s.commitReg a).lnk = s.lnk ∧ (s.commitReg a).dram = s.dram ∧ (s.commitReg a).mc = s.mc ∧
    (s.commitReg a).mtr = s.mtr ∧ (s.commitReg a).wq = s.wq ∧ (s.commitReg a).chs = s.chs ∧
    (s.commitReg a).intg = s.intg ∧ (s.commitReg a).keep = s.keep ∧ (s.commitReg a).thm = s.thm ∧
    (s.commitReg a).pwr = s.pwr ∧ (s.commitReg a).fus = s.fus ∧ (s.commitReg a).bst = s.bst ∧
    (s.commitReg a).cal = s.cal ∧ (s.commitReg a).reg = s.reg ∧ (s.commitReg a).fld = s.fld ∧
    (s.commitReg a).flag = s.flag := by
  and_intros <;> rfl

@[simp] theorem State.bump_same (s : State) :
    (s.bump).pending = s.pending ∧ (s.bump).clock = s.clock ∧ (s.bump).dev = s.dev ∧ (s.bump).prev = s.prev ∧
    (s.bump).regs = s.regs ∧ (s.bump).act = s.act ∧ (s.bump).out = s.out ∧ (s.bump).pins = s.pins ∧
    (s.bump).ks = s.ks ∧ (s.bump).lnk = s.lnk ∧ (s.bump).dram = s.dram ∧ (s.bump).mc = s.mc ∧ (s.bump).mtr = s.mtr ∧
    (s.bump).wq = s.wq ∧ (s.bump).chs = s.chs ∧ (s.bump).intg = s.intg ∧ (s.bump).keep = s.keep ∧
    (s.bump).thm = s.thm ∧ (s.bump).pwr = s.pwr ∧ (s.bump).fus = s.fus ∧ (s.bump).bst = s.bst ∧
    (s.bump).cal = s.cal ∧ (s.bump).reg = s.reg ∧ (s.bump).fld = s.fld ∧ (s.bump).flag = s.flag ∧
    (s.bump).actReg = s.actReg := by
  and_intros <;> rfl

@[simp] theorem State.emit_same (s : State) (o : Out) :
    (s.emit o).pending = s.pending ∧ (s.emit o).clock = s.clock ∧ (s.emit o).fresh = s.fresh ∧
    (s.emit o).dev = s.dev ∧ (s.emit o).prev = s.prev ∧ (s.emit o).regs = s.regs ∧ (s.emit o).act = s.act ∧
    (s.emit o).pins = s.pins ∧ (s.emit o).ks = s.ks ∧ (s.emit o).lnk = s.lnk ∧ (s.emit o).dram = s.dram ∧
    (s.emit o).mc = s.mc ∧ (s.emit o).mtr = s.mtr ∧ (s.emit o).wq = s.wq ∧ (s.emit o).chs = s.chs ∧
    (s.emit o).intg = s.intg ∧ (s.emit o).keep = s.keep ∧ (s.emit o).thm = s.thm ∧ (s.emit o).pwr = s.pwr ∧
    (s.emit o).fus = s.fus ∧ (s.emit o).bst = s.bst ∧ (s.emit o).cal = s.cal ∧ (s.emit o).reg = s.reg ∧
    (s.emit o).fld = s.fld ∧ (s.emit o).flag = s.flag ∧ (s.emit o).actReg = s.actReg := by
  and_intros <;> rfl

@[simp] theorem State.modPort_same (s : State) (p : Nat) (f : Port → Port) :
    (s.modPort p f).pending = s.pending ∧ (s.modPort p f).clock = s.clock ∧ (s.modPort p f).fresh = s.fresh ∧
    (s.modPort p f).dev = s.dev ∧ (s.modPort p f).prev = s.prev ∧ (s.modPort p f).regs = s.regs ∧
    (s.modPort p f).act = s.act ∧ (s.modPort p f).out = s.out ∧ (s.modPort p f).pins = s.pins ∧
    (s.modPort p f).ks = s.ks ∧ (s.modPort p f).dram = s.dram ∧ (s.modPort p f).mc = s.mc ∧
    (s.modPort p f).mtr = s.mtr ∧ (s.modPort p f).wq = s.wq ∧ (s.modPort p f).chs = s.chs ∧
    (s.modPort p f).intg = s.intg ∧ (s.modPort p f).keep = s.keep ∧ (s.modPort p f).thm = s.thm ∧
    (s.modPort p f).pwr = s.pwr ∧ (s.modPort p f).fus = s.fus ∧ (s.modPort p f).bst = s.bst ∧
    (s.modPort p f).cal = s.cal ∧ (s.modPort p f).reg = s.reg ∧ (s.modPort p f).fld = s.fld ∧
    (s.modPort p f).flag = s.flag ∧ (s.modPort p f).actReg = s.actReg := by
  and_intros <;> rfl

@[simp] theorem State.writeAcc_same (s : State) (a v : Nat) :
    (s.writeAcc a v).pending = s.pending ∧ (s.writeAcc a v).clock = s.clock ∧ (s.writeAcc a v).fresh = s.fresh ∧
    (s.writeAcc a v).dev = s.dev ∧ (s.writeAcc a v).prev = s.prev ∧ (s.writeAcc a v).act = s.act ∧
    (s.writeAcc a v).out = s.out ∧ (s.writeAcc a v).pins = s.pins ∧ (s.writeAcc a v).ks = s.ks ∧
    (s.writeAcc a v).lnk = s.lnk ∧ (s.writeAcc a v).dram = s.dram ∧ (s.writeAcc a v).mc = s.mc ∧
    (s.writeAcc a v).mtr = s.mtr ∧ (s.writeAcc a v).wq = s.wq ∧ (s.writeAcc a v).chs = s.chs ∧
    (s.writeAcc a v).intg = s.intg ∧ (s.writeAcc a v).keep = s.keep ∧ (s.writeAcc a v).thm = s.thm ∧
    (s.writeAcc a v).pwr = s.pwr ∧ (s.writeAcc a v).fus = s.fus ∧ (s.writeAcc a v).bst = s.bst ∧
    (s.writeAcc a v).cal = s.cal ∧ (s.writeAcc a v).actReg = s.actReg := by
  unfold State.writeAcc; generalize rowOf a = r; cases r <;> and_intros <;> rfl

@[simp] theorem State.setDev_same (s : State) (d : Dev) :
    (s.setDev d).pending = s.pending ∧ (s.setDev d).clock = s.clock ∧ (s.setDev d).fresh = s.fresh ∧
    (s.setDev d).regs = s.regs ∧ (s.setDev d).act = s.act ∧ (s.setDev d).out = s.out ∧ (s.setDev d).pins = s.pins ∧
    (s.setDev d).ks = s.ks ∧ (s.setDev d).lnk = s.lnk ∧ (s.setDev d).dram = s.dram ∧ (s.setDev d).mc = s.mc ∧
    (s.setDev d).mtr = s.mtr ∧ (s.setDev d).wq = s.wq ∧ (s.setDev d).chs = s.chs ∧ (s.setDev d).intg = s.intg ∧
    (s.setDev d).keep = s.keep ∧ (s.setDev d).thm = s.thm ∧ (s.setDev d).pwr = s.pwr ∧ (s.setDev d).fus = s.fus ∧
    (s.setDev d).bst = s.bst ∧ (s.setDev d).cal = s.cal ∧ (s.setDev d).reg = s.reg ∧ (s.setDev d).fld = s.fld ∧
    (s.setDev d).flag = s.flag ∧ (s.setDev d).actReg = s.actReg := by
  unfold State.setDev; split <;> and_intros <;> rfl

@[simp] theorem State.modKeep_same (s : State) (f : Keep → Keep) :
    (s.modKeep f).pending = s.pending ∧ (s.modKeep f).clock = s.clock ∧ (s.modKeep f).fresh = s.fresh ∧
    (s.modKeep f).dev = s.dev ∧ (s.modKeep f).prev = s.prev ∧ (s.modKeep f).regs = s.regs ∧
    (s.modKeep f).act = s.act ∧ (s.modKeep f).out = s.out ∧ (s.modKeep f).pins = s.pins ∧ (s.modKeep f).ks = s.ks ∧
    (s.modKeep f).lnk = s.lnk ∧ (s.modKeep f).dram = s.dram ∧ (s.modKeep f).mc = s.mc ∧ (s.modKeep f).mtr = s.mtr ∧
    (s.modKeep f).wq = s.wq ∧ (s.modKeep f).chs = s.chs ∧ (s.modKeep f).intg = s.intg ∧ (s.modKeep f).thm = s.thm ∧
    (s.modKeep f).pwr = s.pwr ∧ (s.modKeep f).fus = s.fus ∧ (s.modKeep f).bst = s.bst ∧ (s.modKeep f).cal = s.cal ∧
    (s.modKeep f).reg = s.reg ∧ (s.modKeep f).fld = s.fld ∧ (s.modKeep f).flag = s.flag ∧
    (s.modKeep f).actReg = s.actReg := by
  and_intros <;> rfl

@[simp] theorem State.modCourse_same (s : State) (c : Nat) (f : Course → Course) :
    (s.modCourse c f).pending = s.pending ∧ (s.modCourse c f).clock = s.clock ∧ (s.modCourse c f).fresh = s.fresh ∧
    (s.modCourse c f).dev = s.dev ∧ (s.modCourse c f).prev = s.prev ∧ (s.modCourse c f).regs = s.regs ∧
    (s.modCourse c f).act = s.act ∧ (s.modCourse c f).out = s.out ∧ (s.modCourse c f).pins = s.pins ∧
    (s.modCourse c f).ks = s.ks ∧ (s.modCourse c f).lnk = s.lnk ∧ (s.modCourse c f).dram = s.dram ∧
    (s.modCourse c f).mc = s.mc ∧ (s.modCourse c f).mtr = s.mtr ∧ (s.modCourse c f).wq = s.wq ∧
    (s.modCourse c f).chs = s.chs ∧ (s.modCourse c f).intg = s.intg ∧ (s.modCourse c f).thm = s.thm ∧
    (s.modCourse c f).pwr = s.pwr ∧ (s.modCourse c f).fus = s.fus ∧ (s.modCourse c f).bst = s.bst ∧
    (s.modCourse c f).cal = s.cal ∧ (s.modCourse c f).reg = s.reg ∧ (s.modCourse c f).fld = s.fld ∧
    (s.modCourse c f).flag = s.flag ∧ (s.modCourse c f).actReg = s.actReg := by
  and_intros <;> rfl

@[simp] theorem State.markDirty_same (s : State) (p : Nat) :
    (s.markDirty p).pending = s.pending ∧ (s.markDirty p).clock = s.clock ∧ (s.markDirty p).fresh = s.fresh ∧
    (s.markDirty p).dev = s.dev ∧ (s.markDirty p).prev = s.prev ∧ (s.markDirty p).regs = s.regs ∧
    (s.markDirty p).act = s.act ∧ (s.markDirty p).out = s.out ∧ (s.markDirty p).pins = s.pins ∧
    (s.markDirty p).ks = s.ks ∧ (s.markDirty p).lnk = s.lnk ∧ (s.markDirty p).dram = s.dram ∧
    (s.markDirty p).mc = s.mc ∧ (s.markDirty p).mtr = s.mtr ∧ (s.markDirty p).wq = s.wq ∧
    (s.markDirty p).chs = s.chs ∧ (s.markDirty p).intg = s.intg ∧ (s.markDirty p).thm = s.thm ∧
    (s.markDirty p).pwr = s.pwr ∧ (s.markDirty p).fus = s.fus ∧ (s.markDirty p).bst = s.bst ∧
    (s.markDirty p).cal = s.cal ∧ (s.markDirty p).reg = s.reg ∧ (s.markDirty p).fld = s.fld ∧
    (s.markDirty p).flag = s.flag ∧ (s.markDirty p).actReg = s.actReg := by
  and_intros <;> rfl

@[simp] theorem State.poisonGran_same (s : State) (g : Nat) :
    (s.poisonGran g).pending = s.pending ∧ (s.poisonGran g).clock = s.clock ∧ (s.poisonGran g).fresh = s.fresh ∧
    (s.poisonGran g).dev = s.dev ∧ (s.poisonGran g).prev = s.prev ∧ (s.poisonGran g).regs = s.regs ∧
    (s.poisonGran g).act = s.act ∧ (s.poisonGran g).out = s.out ∧ (s.poisonGran g).pins = s.pins ∧
    (s.poisonGran g).ks = s.ks ∧ (s.poisonGran g).lnk = s.lnk ∧ (s.poisonGran g).mc = s.mc ∧
    (s.poisonGran g).mtr = s.mtr ∧ (s.poisonGran g).wq = s.wq ∧ (s.poisonGran g).chs = s.chs ∧
    (s.poisonGran g).intg = s.intg ∧ (s.poisonGran g).keep = s.keep ∧ (s.poisonGran g).thm = s.thm ∧
    (s.poisonGran g).pwr = s.pwr ∧ (s.poisonGran g).fus = s.fus ∧ (s.poisonGran g).bst = s.bst ∧
    (s.poisonGran g).cal = s.cal ∧ (s.poisonGran g).reg = s.reg ∧ (s.poisonGran g).fld = s.fld ∧
    (s.poisonGran g).flag = s.flag ∧ (s.poisonGran g).actReg = s.actReg := by
  and_intros <;> first | (simp only [State.poisonGran]; done) |
    (funext a; simp only [State.reg, State.fld, State.flag, State.actReg, State.poisonGran])

@[simp] theorem State.putGran_same (s : State) (g : Nat) (bs : List Byte) :
    (s.putGran g bs).pending = s.pending ∧ (s.putGran g bs).clock = s.clock ∧ (s.putGran g bs).fresh = s.fresh ∧
    (s.putGran g bs).dev = s.dev ∧ (s.putGran g bs).prev = s.prev ∧ (s.putGran g bs).regs = s.regs ∧
    (s.putGran g bs).act = s.act ∧ (s.putGran g bs).out = s.out ∧ (s.putGran g bs).pins = s.pins ∧
    (s.putGran g bs).ks = s.ks ∧ (s.putGran g bs).lnk = s.lnk ∧ (s.putGran g bs).mc = s.mc ∧
    (s.putGran g bs).mtr = s.mtr ∧ (s.putGran g bs).wq = s.wq ∧ (s.putGran g bs).chs = s.chs ∧
    (s.putGran g bs).intg = s.intg ∧ (s.putGran g bs).keep = s.keep ∧ (s.putGran g bs).thm = s.thm ∧
    (s.putGran g bs).pwr = s.pwr ∧ (s.putGran g bs).fus = s.fus ∧ (s.putGran g bs).bst = s.bst ∧
    (s.putGran g bs).cal = s.cal ∧ (s.putGran g bs).reg = s.reg ∧ (s.putGran g bs).fld = s.fld ∧
    (s.putGran g bs).flag = s.flag ∧ (s.putGran g bs).actReg = s.actReg := by
  and_intros <;> first | (simp only [State.putGran]; done) |
    (funext a; simp only [State.reg, State.fld, State.flag, State.actReg, State.putGran])

@[simp] theorem State.putMasked_same (s : State) (g m : Nat) (bs : List Byte) :
    (s.putMasked g m bs).pending = s.pending ∧ (s.putMasked g m bs).clock = s.clock ∧
    (s.putMasked g m bs).fresh = s.fresh ∧ (s.putMasked g m bs).dev = s.dev ∧ (s.putMasked g m bs).prev = s.prev ∧
    (s.putMasked g m bs).regs = s.regs ∧ (s.putMasked g m bs).act = s.act ∧ (s.putMasked g m bs).out = s.out ∧
    (s.putMasked g m bs).pins = s.pins ∧ (s.putMasked g m bs).ks = s.ks ∧ (s.putMasked g m bs).lnk = s.lnk ∧
    (s.putMasked g m bs).mc = s.mc ∧ (s.putMasked g m bs).mtr = s.mtr ∧ (s.putMasked g m bs).wq = s.wq ∧
    (s.putMasked g m bs).chs = s.chs ∧ (s.putMasked g m bs).intg = s.intg ∧ (s.putMasked g m bs).keep = s.keep ∧
    (s.putMasked g m bs).thm = s.thm ∧ (s.putMasked g m bs).pwr = s.pwr ∧ (s.putMasked g m bs).fus = s.fus ∧
    (s.putMasked g m bs).bst = s.bst ∧ (s.putMasked g m bs).cal = s.cal ∧ (s.putMasked g m bs).reg = s.reg ∧
    (s.putMasked g m bs).fld = s.fld ∧ (s.putMasked g m bs).flag = s.flag ∧ (s.putMasked g m bs).actReg = s.actReg := by
  and_intros <;> first | (simp only [State.putMasked]; done) |
    (funext a; simp only [State.reg, State.fld, State.flag, State.actReg, State.putMasked])

/-! ### Registers -/

/-- A register reads as it was set, every other as before. -/
theorem State.reg_setReg (s : State) (a b v : Nat) :
    (s.setReg a v).reg b = if b = a then v % 2 ^ 32 else s.reg b := by
  by_cases h : b = a
  · subst h; simp [State.reg, State.setReg]
  · simp [State.reg, State.setReg, tgetD_tset_ne _ _ _ h, h]

@[simp] theorem State.reg_setReg_self (s : State) (a v : Nat) : (s.setReg a v).reg a = v % 2 ^ 32 := by
  simp [State.reg_setReg]

theorem State.reg_setReg_ne (s : State) {a b : Nat} (v : Nat) (h : b ≠ a) : (s.setReg a v).reg b = s.reg b := by
  simp [State.reg_setReg, h]

theorem State.reg_clearReg (s : State) (a b : Nat) : (s.clearReg a).reg b = if b = a then resetOf b else s.reg b := by
  by_cases h : b = a
  · subst h; simp [State.reg, State.clearReg]
  · simp [State.reg, State.clearReg, tgetD_tdel_ne _ _ h, h]

theorem State.reg_setFld_ne (s : State) (f : Fld) {b : Nat} (v : Nat) (h : b ≠ f.addr) : (s.setFld f v).reg b = s.reg b :=
  s.reg_setReg_ne _ h

theorem State.reg_incFld_ne (s : State) (f : Fld) {b : Nat} (d : Nat) (h : b ≠ f.addr) : (s.incFld f d).reg b = s.reg b :=
  s.reg_setFld_ne f _ h

theorem State.reg_setReg64_ne (s : State) {lo b : Nat} (v : Nat) (h : b ≠ lo) (h' : b ≠ lo + 4) :
    (s.setReg64 lo v).reg b = s.reg b := by
  rw [State.setReg64, State.reg_setReg_ne _ _ h', State.reg_setReg_ne _ _ h]

theorem State.reg_add64_ne (s : State) {lo b : Nat} (d : Nat) (h : b ≠ lo) (h' : b ≠ lo + 4) :
    (s.add64 lo d).reg b = s.reg b := s.reg_setReg64_ne _ h h'

/-- Bits that were replaced read as they were set. -/
theorem getBits_setBits (x hi lo v : Nat) : getBits (setBits x hi lo v) hi lo = v % 2 ^ (hi + 1 - lo) := by
  unfold getBits setBits
  by_cases h : lo ≤ hi + 1
  · obtain ⟨k, hk⟩ := Nat.exists_eq_add_of_le h
    have hk' : hi + 1 - lo = k := by omega
    rw [hk', hk, Nat.pow_add]
    have h0 : 0 < 2 ^ lo := by positivity
    have e : x % 2 ^ lo + v % 2 ^ k * 2 ^ lo + x / (2 ^ lo * 2 ^ k) * (2 ^ lo * 2 ^ k) =
        x % 2 ^ lo + 2 ^ lo * (v % 2 ^ k + 2 ^ k * (x / (2 ^ lo * 2 ^ k))) := by ring
    rw [e, Nat.add_mul_div_left _ _ h0, Nat.div_eq_of_lt (Nat.mod_lt _ h0), Nat.zero_add, Nat.add_mul_mod_self_left,
      Nat.mod_mod]
  · have : hi + 1 - lo = 0 := by omega
    simp [this, Nat.mod_one]

/-- Bits below or above those replaced read as before. -/
theorem getBits_setBits_low (x hi lo v h l : Nat) (hlo : lo ≤ hi + 1) (hh : h < lo) (hl : l ≤ h) :
    getBits (setBits x hi lo v) h l = getBits x h l := by
  have e : ∀ y, getBits y h l = y % 2 ^ lo / 2 ^ l % 2 ^ (h + 1 - l) := by
    intro y
    obtain ⟨a, ha⟩ := Nat.exists_eq_add_of_le (show l ≤ lo by omega)
    unfold getBits
    rw [ha, Nat.pow_add, Nat.mod_mul_right_div_self, Nat.mod_mod_of_dvd]
    exact Nat.pow_dvd_pow 2 (by omega)
  rw [e, e]
  congr 2
  unfold setBits
  obtain ⟨k, hk⟩ := Nat.exists_eq_add_of_le hlo
  have : x % 2 ^ lo + v % 2 ^ (hi + 1 - lo) * 2 ^ lo + x / 2 ^ (hi + 1) * 2 ^ (hi + 1) =
      x % 2 ^ lo + 2 ^ lo * (v % 2 ^ (hi + 1 - lo) + x / 2 ^ (hi + 1) * 2 ^ k) := by
    rw [hk, Nat.pow_add]; ring
  rw [this, Nat.add_mul_mod_self_left, Nat.mod_mod]

theorem getBits_setBits_high (x hi lo v h l : Nat) (hlo : lo ≤ hi + 1) (hh : hi < l) :
    getBits (setBits x hi lo v) h l = getBits x h l := by
  have e : ∀ y, getBits y h l = y / 2 ^ (hi + 1) / 2 ^ (l - (hi + 1)) % 2 ^ (h + 1 - l) := by
    intro y
    unfold getBits
    rw [Nat.div_div_eq_div_mul, ← Nat.pow_add, Nat.add_sub_cancel' (by omega)]
  rw [e, e]
  congr 2
  unfold setBits
  have h1 : x % 2 ^ lo + v % 2 ^ (hi + 1 - lo) * 2 ^ lo < 2 ^ (hi + 1) := by
    obtain ⟨k, hk⟩ := Nat.exists_eq_add_of_le hlo
    have hk' : hi + 1 - lo = k := by omega
    have a := Nat.mod_lt x (show 0 < 2 ^ lo by positivity)
    have b := Nat.mod_lt v (show 0 < 2 ^ k by positivity)
    rw [hk', hk, Nat.pow_add]
    have c := Nat.mul_le_mul_right (2 ^ lo) (Nat.succ_le_of_lt b)
    rw [Nat.succ_mul] at c
    rw [Nat.mul_comm (2 ^ lo)]
    omega
  rw [Nat.add_mul_div_right _ _ (by positivity), Nat.div_eq_of_lt h1, Nat.zero_add]

/-- A field reads as it was set. -/
theorem State.fld_setFld (s : State) (f : Fld) (v : Nat) (hl : f.lo ≤ f.hi) (hh : f.hi < 32) :
    (s.setFld f v).fld f = v % 2 ^ (f.hi + 1 - f.lo) := by
  unfold State.fld State.setFld
  rw [State.reg_setReg_self]
  have e : ∀ y, getBits (y % 2 ^ 32) f.hi f.lo = getBits y f.hi f.lo := by
    intro y
    unfold getBits
    obtain ⟨a, ha⟩ := Nat.exists_eq_add_of_le (show f.lo ≤ 32 by omega)
    rw [ha, Nat.pow_add, Nat.mod_mul_right_div_self, Nat.mod_mod_of_dvd]
    exact Nat.pow_dvd_pow 2 (by omega)
  rw [e, getBits_setBits]

theorem State.fld_setReg_ne (s : State) (f : Fld) {a : Nat} (v : Nat) (h : f.addr ≠ a) :
    (s.setReg a v).fld f = s.fld f := by simp [State.fld, State.reg_setReg_ne _ _ h]

theorem State.fld_setFld_ne (s : State) (f g : Fld) (v : Nat) (h : f.addr ≠ g.addr) :
    (s.setFld g v).fld f = s.fld f := s.fld_setReg_ne f _ h

theorem State.fld_incFld_ne (s : State) (f g : Fld) (v : Nat) (h : f.addr ≠ g.addr) :
    (s.incFld g v).fld f = s.fld f := s.fld_setReg_ne f _ h

end Sys2Proof.Machine
end

