-- ==== Sys2Proof/Laws/Frames.lean ====
section
/-! SUPPORT. What the log, a packet that leaves and an answer can change: the log and the sideband, the lattice, what leaves
the block, and the registers of the lattice block; nothing else. -/

namespace Sys2Proof.Machine

/-- What every round of a loop keeps, the loop keeps. -/
theorem foldl_keeps {α β γ : Type} (g : α → γ) (f : α → β → α) (h : ∀ a b, g (f a b) = g a) (l : List β) (a : α) :
    g (l.foldl f a) = g a := by
  induction l generalizing a with
  | nil => rfl
  | cons b l ih => rw [List.foldl_cons, ih, h]

/-- What both branches of a choice keep, the choice keeps. -/
theorem ite_keeps {α γ : Type} (g : α → γ) {p : Prop} [Decidable p] {a b : α} {c : γ} (ha : g a = c) (hb : g b = c) :
    g (if p then a else b) = c := by
  split <;> assumption

/-- The state without the lattice and without what has left the block. -/
def State.offWire (s : State) : State := { s with lnk := {}, out := [] }

/-- The same without the registers. -/
def State.offLink (s : State) : State := { s with lnk := {}, out := [], regs := [] }

/-- The same without the log and the sideband: what no packet, event or answer touches. -/
def State.units (s : State) : State := { s with lnk := {}, out := [], regs := [], ks := {} }

theorem State.offLink_of {s t : State} (h : t.offWire = s.offWire) : t.offLink = s.offLink := (congrArg State.offLink h :)

theorem State.units_of {s t : State} (h : t.offLink = s.offLink) : t.units = s.units := (congrArg State.units h :)

theorem offWire_fields {s t : State} (h : t.offWire = s.offWire) :
    t.pending = s.pending ∧ t.clock = s.clock ∧ t.fresh = s.fresh ∧ t.dev = s.dev ∧ t.prev = s.prev ∧ t.regs = s.regs ∧
    t.act = s.act ∧ t.pins = s.pins ∧ t.ks = s.ks ∧ t.dram = s.dram ∧ t.mc = s.mc ∧ t.mtr = s.mtr ∧ t.wq = s.wq ∧
    t.chs = s.chs ∧ t.intg = s.intg ∧ t.keep = s.keep ∧ t.thm = s.thm ∧ t.pwr = s.pwr ∧ t.fus = s.fus ∧ t.bst = s.bst ∧
    t.cal = s.cal ∧ t.reg = s.reg ∧ t.fld = s.fld ∧ t.flag = s.flag ∧ t.actReg = s.actReg :=
  ⟨(congrArg State.pending h :), (congrArg State.clock h :), (congrArg State.fresh h :), (congrArg State.dev h :),
    (congrArg State.prev h :), (congrArg State.regs h :), (congrArg State.act h :), (congrArg State.pins h :),
    (congrArg State.ks h :), (congrArg State.dram h :), (congrArg State.mc h :), (congrArg State.mtr h :),
    (congrArg State.wq h :), (congrArg State.chs h :), (congrArg State.intg h :), (congrArg State.keep h :),
    (congrArg State.thm h :), (congrArg State.pwr h :), (congrArg State.fus h :), (congrArg State.bst h :),
    (congrArg State.cal h :), (congrArg State.reg h :), (congrArg State.fld h :), (congrArg State.flag h :),
    (congrArg State.actReg h :)⟩

theorem offLink_fields {s t : State} (h : t.offLink = s.offLink) :
    t.pending = s.pending ∧ t.clock = s.clock ∧ t.fresh = s.fresh ∧ t.dev = s.dev ∧ t.prev = s.prev ∧ t.act = s.act ∧
    t.pins = s.pins ∧ t.ks = s.ks ∧ t.dram = s.dram ∧ t.mc = s.mc ∧ t.mtr = s.mtr ∧ t.wq = s.wq ∧ t.chs = s.chs ∧
    t.intg = s.intg ∧ t.keep = s.keep ∧ t.thm = s.thm ∧ t.pwr = s.pwr ∧ t.fus = s.fus ∧ t.bst = s.bst ∧ t.cal = s.cal ∧
    t.actReg = s.actReg :=
  ⟨(congrArg State.pending h :), (congrArg State.clock h :), (congrArg State.fresh h :), (congrArg State.dev h :),
    (congrArg State.prev h :), (congrArg State.act h :), (congrArg State.pins h :), (congrArg State.ks h :),
    (congrArg State.dram h :), (congrArg State.mc h :), (congrArg State.mtr h :), (congrArg State.wq h :),
    (congrArg State.chs h :), (congrArg State.intg h :), (congrArg State.keep h :), (congrArg State.thm h :),
    (congrArg State.pwr h :), (congrArg State.fus h :), (congrArg State.bst h :), (congrArg State.cal h :),
    (congrArg State.actReg h :)⟩

theorem units_fields {s t : State} (h : t.units = s.units) :
    t.pending = s.pending ∧ t.clock = s.clock ∧ t.fresh = s.fresh ∧ t.dev = s.dev ∧ t.prev = s.prev ∧ t.act = s.act ∧
    t.pins = s.pins ∧ t.dram = s.dram ∧ t.mc = s.mc ∧ t.mtr = s.mtr ∧ t.wq = s.wq ∧ t.chs = s.chs ∧ t.intg = s.intg ∧
    t.keep = s.keep ∧ t.thm = s.thm ∧ t.pwr = s.pwr ∧ t.fus = s.fus ∧ t.bst = s.bst ∧ t.cal = s.cal ∧
    t.actReg = s.actReg :=
  ⟨(congrArg State.pending h :), (congrArg State.clock h :), (congrArg State.fresh h :), (congrArg State.dev h :),
    (congrArg State.prev h :), (congrArg State.act h :), (congrArg State.pins h :), (congrArg State.dram h :),
    (congrArg State.mc h :), (congrArg State.mtr h :), (congrArg State.wq h :), (congrArg State.chs h :),
    (congrArg State.intg h :), (congrArg State.keep h :), (congrArg State.thm h :), (congrArg State.pwr h :),
    (congrArg State.fus h :), (congrArg State.bst h :), (congrArg State.cal h :), (congrArg State.actReg h :)⟩

theorem State.modPort_offWire (s : State) (p : Nat) (f : Port → Port) : (s.modPort p f).offWire = s.offWire := rfl

theorem State.add64_offLink (s : State) (a d : Nat) : (s.add64 a d).offLink = s.offLink := rfl

theorem State.incFld_offLink (s : State) (f : Fld) (d : Nat) : (s.incFld f d).offLink = s.offLink := rfl

theorem State.ibiEdge_units (s : State) (b : Bool) : (State.ibiEdge b s).units = s.units := by
  unfold State.ibiEdge; split <;> rfl

theorem State.txFlit_offWire (s : State) (p a b c : Nat) (pl : List Byte) : (s.txFlit p a b c pl).offWire = s.offWire := by
  rfl

@[simp] theorem State.txFlit_same (s : State) (p a b c : Nat) (pl : List Byte) :
    (s.txFlit p a b c pl).pending = s.pending ∧ (s.txFlit p a b c pl).clock = s.clock ∧
    (s.txFlit p a b c pl).fresh = s.fresh ∧ (s.txFlit p a b c pl).dev = s.dev ∧ (s.txFlit p a b c pl).prev = s.prev ∧
    (s.txFlit p a b c pl).regs = s.regs ∧ (s.txFlit p a b c pl).act = s.act ∧ (s.txFlit p a b c pl).pins = s.pins ∧
    (s.txFlit p a b c pl).ks = s.ks ∧ (s.txFlit p a b c pl).dram = s.dram ∧ (s.txFlit p a b c pl).mc = s.mc ∧
    (s.txFlit p a b c pl).mtr = s.mtr ∧ (s.txFlit p a b c pl).wq = s.wq ∧ (s.txFlit p a b c pl).chs = s.chs ∧
    (s.txFlit p a b c pl).intg = s.intg ∧ (s.txFlit p a b c pl).keep = s.keep ∧ (s.txFlit p a b c pl).thm = s.thm ∧
    (s.txFlit p a b c pl).pwr = s.pwr ∧ (s.txFlit p a b c pl).fus = s.fus ∧ (s.txFlit p a b c pl).bst = s.bst ∧
    (s.txFlit p a b c pl).cal = s.cal ∧ (s.txFlit p a b c pl).reg = s.reg ∧ (s.txFlit p a b c pl).fld = s.fld ∧
    (s.txFlit p a b c pl).flag = s.flag ∧ (s.txFlit p a b c pl).actReg = s.actReg :=
  offWire_fields (State.txFlit_offWire s p a b c pl)

theorem State.txData_offWire (s : State) (p : Nat) (l : List (Nat × Nat × List Byte)) : (s.txData p l).offWire = s.offWire := by
  induction l generalizing s with
  | nil => rfl
  | cons x l ih => obtain ⟨a, b, c⟩ := x; rw [State.txData, ih, State.txFlit_offWire]; rfl

@[simp] theorem State.txData_same (s : State) (p : Nat) (l : List (Nat × Nat × List Byte)) :
    (s.txData p l).pending = s.pending ∧ (s.txData p l).clock = s.clock ∧ (s.txData p l).fresh = s.fresh ∧
    (s.txData p l).dev = s.dev ∧ (s.txData p l).prev = s.prev ∧ (s.txData p l).regs = s.regs ∧
    (s.txData p l).act = s.act ∧ (s.txData p l).pins = s.pins ∧ (s.txData p l).ks = s.ks ∧
    (s.txData p l).dram = s.dram ∧ (s.txData p l).mc = s.mc ∧ (s.txData p l).mtr = s.mtr ∧ (s.txData p l).wq = s.wq ∧
    (s.txData p l).chs = s.chs ∧ (s.txData p l).intg = s.intg ∧ (s.txData p l).keep = s.keep ∧
    (s.txData p l).thm = s.thm ∧ (s.txData p l).pwr = s.pwr ∧ (s.txData p l).fus = s.fus ∧ (s.txData p l).bst = s.bst ∧
    (s.txData p l).cal = s.cal ∧ (s.txData p l).reg = s.reg ∧ (s.txData p l).fld = s.fld ∧
    (s.txData p l).flag = s.flag ∧ (s.txData p l).actReg = s.actReg :=
  offWire_fields (State.txData_offWire s p l)

theorem State.takeRx_offWire (s : State) (p : Nat) (k : Pkt) : (s.takeRx p k).offWire = s.offWire := by
  unfold State.takeRx
  split <;> rfl

@[simp] theorem State.takeRx_same (s : State) (p : Nat) (k : Pkt) :
    (s.takeRx p k).pending = s.pending ∧ (s.takeRx p k).clock = s.clock ∧ (s.takeRx p k).fresh = s.fresh ∧
    (s.takeRx p k).dev = s.dev ∧ (s.takeRx p k).prev = s.prev ∧ (s.takeRx p k).regs = s.regs ∧
    (s.takeRx p k).act = s.act ∧ (s.takeRx p k).pins = s.pins ∧ (s.takeRx p k).ks = s.ks ∧
    (s.takeRx p k).dram = s.dram ∧ (s.takeRx p k).mc = s.mc ∧ (s.takeRx p k).mtr = s.mtr ∧ (s.takeRx p k).wq = s.wq ∧
    (s.takeRx p k).chs = s.chs ∧ (s.takeRx p k).intg = s.intg ∧ (s.takeRx p k).keep = s.keep ∧
    (s.takeRx p k).thm = s.thm ∧ (s.takeRx p k).pwr = s.pwr ∧ (s.takeRx p k).fus = s.fus ∧ (s.takeRx p k).bst = s.bst ∧
    (s.takeRx p k).cal = s.cal ∧ (s.takeRx p k).reg = s.reg ∧ (s.takeRx p k).fld = s.fld ∧
    (s.takeRx p k).flag = s.flag ∧ (s.takeRx p k).actReg = s.actReg :=
  offWire_fields (State.takeRx_offWire s p k)

theorem State.takeAccess_offWire (s : State) (p : Nat) (a : Access) (o : Nat) : (s.takeAccess p a o).offWire = s.offWire := by
  unfold State.takeAccess
  split
  · split
    · exact s.takeRx_offWire _ _
    · rfl
  · rfl

@[simp] theorem State.takeAccess_same (s : State) (p : Nat) (a : Access) (o : Nat) :
    (s.takeAccess p a o).pending = s.pending ∧ (s.takeAccess p a o).clock = s.clock ∧
    (s.takeAccess p a o).fresh = s.fresh ∧ (s.takeAccess p a o).dev = s.dev ∧ (s.takeAccess p a o).prev = s.prev ∧
    (s.takeAccess p a o).regs = s.regs ∧ (s.takeAccess p a o).act = s.act ∧ (s.takeAccess p a o).pins = s.pins ∧
    (s.takeAccess p a o).ks = s.ks ∧ (s.takeAccess p a o).dram = s.dram ∧ (s.takeAccess p a o).mc = s.mc ∧
    (s.takeAccess p a o).mtr = s.mtr ∧ (s.takeAccess p a o).wq = s.wq ∧ (s.takeAccess p a o).chs = s.chs ∧
    (s.takeAccess p a o).intg = s.intg ∧ (s.takeAccess p a o).keep = s.keep ∧ (s.takeAccess p a o).thm = s.thm ∧
    (s.takeAccess p a o).pwr = s.pwr ∧ (s.takeAccess p a o).fus = s.fus ∧ (s.takeAccess p a o).bst = s.bst ∧
    (s.takeAccess p a o).cal = s.cal ∧ (s.takeAccess p a o).reg = s.reg ∧ (s.takeAccess p a o).fld = s.fld ∧
    (s.takeAccess p a o).flag = s.flag ∧ (s.takeAccess p a o).actReg = s.actReg :=
  offWire_fields (State.takeAccess_offWire s p a o)

theorem State.pump_offLink (s : State) (p : Nat) : (s.pump p).offLink = s.offLink := by
  unfold State.pump
  dsimp only
  split
  · split
    · exact State.offLink_of (State.modPort_offWire _ _ _)
    · rw [State.add64_offLink, State.offLink_of (State.txData_offWire _ _ _), State.offLink_of (State.modPort_offWire _ _ _)]
  · rfl

@[simp] theorem State.pump_same (s : State) (p : Nat) :
    (s.pump p).pending = s.pending ∧ (s.pump p).clock = s.clock ∧ (s.pump p).fresh = s.fresh ∧ (s.pump p).dev = s.dev ∧
    (s.pump p).prev = s.prev ∧ (s.pump p).act = s.act ∧ (s.pump p).pins = s.pins ∧ (s.pump p).ks = s.ks ∧
    (s.pump p).dram = s.dram ∧ (s.pump p).mc = s.mc ∧ (s.pump p).mtr = s.mtr ∧ (s.pump p).wq = s.wq ∧
    (s.pump p).chs = s.chs ∧ (s.pump p).intg = s.intg ∧ (s.pump p).keep = s.keep ∧ (s.pump p).thm = s.thm ∧
    (s.pump p).pwr = s.pwr ∧ (s.pump p).fus = s.fus ∧ (s.pump p).bst = s.bst ∧ (s.pump p).cal = s.cal ∧
    (s.pump p).actReg = s.actReg :=
  offLink_fields (State.pump_offLink s p)

theorem State.enqueue_offLink (s : State) (p : Nat) (k : Pkt) (src : Nat) : (s.enqueue p k src).offLink = s.offLink := by
  exact (State.pump_offLink _ p).trans (State.offLink_of (State.modPort_offWire _ _ _))

@[simp] theorem State.enqueue_same (s : State) (p : Nat) (k : Pkt) (src : Nat) :
    (s.enqueue p k src).pending = s.pending ∧ (s.enqueue p k src).clock = s.clock ∧
    (s.enqueue p k src).fresh = s.fresh ∧ (s.enqueue p k src).dev = s.dev ∧ (s.enqueue p k src).prev = s.prev ∧
    (s.enqueue p k src).act = s.act ∧ (s.enqueue p k src).pins = s.pins ∧ (s.enqueue p k src).ks = s.ks ∧
    (s.enqueue p k src).dram = s.dram ∧ (s.enqueue p k src).mc = s.mc ∧ (s.enqueue p k src).mtr = s.mtr ∧
    (s.enqueue p k src).wq = s.wq ∧ (s.enqueue p k src).chs = s.chs ∧ (s.enqueue p k src).intg = s.intg ∧
    (s.enqueue p k src).keep = s.keep ∧ (s.enqueue p k src).thm = s.thm ∧ (s.enqueue p k src).pwr = s.pwr ∧
    (s.enqueue p k src).fus = s.fus ∧ (s.enqueue p k src).bst = s.bst ∧ (s.enqueue p k src).cal = s.cal ∧
    (s.enqueue p k src).actReg = s.actReg :=
  offLink_fields (State.enqueue_offLink s p k src)

theorem State.logEvent_units (s : State) (c v u d : Nat) : (s.logEvent c v u d).units = s.units := by
  exact (State.ibiEdge_units _ _).trans rfl

@[simp] theorem State.logEvent_same (s : State) (c v u d : Nat) :
    (s.logEvent c v u d).pending = s.pending ∧ (s.logEvent c v u d).clock = s.clock ∧
    (s.logEvent c v u d).fresh = s.fresh ∧ (s.logEvent c v u d).dev = s.dev ∧ (s.logEvent c v u d).prev = s.prev ∧
    (s.logEvent c v u d).act = s.act ∧ (s.logEvent c v u d).pins = s.pins ∧ (s.logEvent c v u d).dram = s.dram ∧
    (s.logEvent c v u d).mc = s.mc ∧ (s.logEvent c v u d).mtr = s.mtr ∧ (s.logEvent c v u d).wq = s.wq ∧
    (s.logEvent c v u d).chs = s.chs ∧ (s.logEvent c v u d).intg = s.intg ∧ (s.logEvent c v u d).keep = s.keep ∧
    (s.logEvent c v u d).thm = s.thm ∧ (s.logEvent c v u d).pwr = s.pwr ∧ (s.logEvent c v u d).fus = s.fus ∧
    (s.logEvent c v u d).bst = s.bst ∧ (s.logEvent c v u d).cal = s.cal ∧ (s.logEvent c v u d).actReg = s.actReg :=
  units_fields (State.logEvent_units s c v u d)

theorem State.holdEvent_units (s : State) (n : Nat) (e : Ev) : (s.holdEvent n e).units = s.units := by
  unfold State.holdEvent; split <;> rfl

theorem State.postHeld_units (s : State) (c v u d : Nat) : (s.postHeld c v u d).units = s.units := by
  unfold State.postHeld
  exact (foldl_keeps State.units (fun s n => s.holdEvent n _) (fun s n => s.holdEvent_units n _) _ _).trans
    (s.logEvent_units c v u d)

/-- A packet that is counted as dropped changes nothing that its event does not change. -/
theorem State.dropCount_units (s : State) (u : Nat) (k : Pkt) (c : Nat) (say : State → Nat → Nat → Nat → Nat → State)
    (h : ∀ s a b c d, (say s a b c d).units = State.units s) : (s.dropCount u k c say).units = s.units := by
  exact ite_keeps State.units ((h _ _ _ _ _).trans rfl) rfl

theorem State.injectMsg_units (s : State) (k : Pkt) : (s.injectMsg k).units = s.units := by
  unfold State.injectMsg
  split
  · split
    · rfl
    · exact State.units_of (s.enqueue_offLink _ _ _)
    · exact s.dropCount_units _ _ _ _ State.postHeld_units
  · rfl

theorem State.noteEvent_units (s : State) (e : Ev) (n : Nat) : (s.noteEvent e n).units = s.units := by
  unfold State.noteEvent
  split
  · rfl
  · exact s.holdEvent_units _ _

theorem State.post_units (s : State) (c v u d : Nat) : (s.post c v u d).units = s.units := by
  unfold State.post
  exact (foldl_keeps State.units (fun s n => s.sendEvent _ n) (fun s _ => s.injectMsg_units _) _ _).trans
    ((foldl_keeps State.units (fun s n => s.noteEvent _ n) (fun s n => s.noteEvent_units _ n) _ _).trans
      (s.logEvent_units c v u d))

theorem State.dropRoute_units (s : State) (u : Nat) (k : Pkt) (c : Nat) : (s.dropRoute u k c).units = s.units :=
  s.dropCount_units _ _ _ _ State.post_units

@[simp] theorem State.dropRoute_same (s : State) (u : Nat) (k : Pkt) (c : Nat) :
    (s.dropRoute u k c).pending = s.pending ∧ (s.dropRoute u k c).clock = s.clock ∧
    (s.dropRoute u k c).fresh = s.fresh ∧ (s.dropRoute u k c).dev = s.dev ∧ (s.dropRoute u k c).prev = s.prev ∧
    (s.dropRoute u k c).act = s.act ∧ (s.dropRoute u k c).pins = s.pins ∧ (s.dropRoute u k c).dram = s.dram ∧
    (s.dropRoute u k c).mc = s.mc ∧ (s.dropRoute u k c).mtr = s.mtr ∧ (s.dropRoute u k c).wq = s.wq ∧
    (s.dropRoute u k c).chs = s.chs ∧ (s.dropRoute u k c).intg = s.intg ∧ (s.dropRoute u k c).keep = s.keep ∧
    (s.dropRoute u k c).thm = s.thm ∧ (s.dropRoute u k c).pwr = s.pwr ∧ (s.dropRoute u k c).fus = s.fus ∧
    (s.dropRoute u k c).bst = s.bst ∧ (s.dropRoute u k c).cal = s.cal ∧ (s.dropRoute u k c).actReg = s.actReg :=
  units_fields (State.dropRoute_units s u k c)

theorem State.injectRaw_units (s : State) (k : Pkt) : (s.injectRaw k).units = s.units := by
  unfold State.injectRaw
  split
  · split
    · split <;> rfl
    · exact State.units_of (s.enqueue_offLink _ _ _)
    · exact s.dropRoute_units _ _ _
  · rfl

@[simp] theorem State.injectRaw_same (s : State) (k : Pkt) :
    (s.injectRaw k).pending = s.pending ∧ (s.injectRaw k).clock = s.clock ∧ (s.injectRaw k).fresh = s.fresh ∧
    (s.injectRaw k).dev = s.dev ∧ (s.injectRaw k).prev = s.prev ∧ (s.injectRaw k).act = s.act ∧
    (s.injectRaw k).pins = s.pins ∧ (s.injectRaw k).dram = s.dram ∧ (s.injectRaw k).mc = s.mc ∧
    (s.injectRaw k).mtr = s.mtr ∧ (s.injectRaw k).wq = s.wq ∧ (s.injectRaw k).chs = s.chs ∧
    (s.injectRaw k).intg = s.intg ∧ (s.injectRaw k).keep = s.keep ∧ (s.injectRaw k).thm = s.thm ∧
    (s.injectRaw k).pwr = s.pwr ∧ (s.injectRaw k).fus = s.fus ∧ (s.injectRaw k).bst = s.bst ∧
    (s.injectRaw k).cal = s.cal ∧ (s.injectRaw k).actReg = s.actReg :=
  units_fields (State.injectRaw_units s k)

@[simp] theorem State.post_same (s : State) (c v u d : Nat) :
    (s.post c v u d).pending = s.pending ∧ (s.post c v u d).clock = s.clock ∧ (s.post c v u d).fresh = s.fresh ∧
    (s.post c v u d).dev = s.dev ∧ (s.post c v u d).prev = s.prev ∧ (s.post c v u d).act = s.act ∧
    (s.post c v u d).pins = s.pins ∧ (s.post c v u d).dram = s.dram ∧ (s.post c v u d).mc = s.mc ∧
    (s.post c v u d).mtr = s.mtr ∧ (s.post c v u d).wq = s.wq ∧ (s.post c v u d).chs = s.chs ∧
    (s.post c v u d).intg = s.intg ∧ (s.post c v u d).keep = s.keep ∧ (s.post c v u d).thm = s.thm ∧
    (s.post c v u d).pwr = s.pwr ∧ (s.post c v u d).fus = s.fus ∧ (s.post c v u d).bst = s.bst ∧
    (s.post c v u d).cal = s.cal ∧ (s.post c v u d).actReg = s.actReg :=
  units_fields (State.post_units s c v u d)

theorem State.sendRsp_units (s : State) (p : Nat) (k : Pkt) : (s.sendRsp p k).units = s.units := by
  unfold State.sendRsp
  split
  · exact State.units_of (s.enqueue_offLink _ _ _)
  · exact s.injectRaw_units _

@[simp] theorem State.sendRsp_same (s : State) (p : Nat) (k : Pkt) :
    (s.sendRsp p k).pending = s.pending ∧ (s.sendRsp p k).clock = s.clock ∧ (s.sendRsp p k).fresh = s.fresh ∧
    (s.sendRsp p k).dev = s.dev ∧ (s.sendRsp p k).prev = s.prev ∧ (s.sendRsp p k).act = s.act ∧
    (s.sendRsp p k).pins = s.pins ∧ (s.sendRsp p k).dram = s.dram ∧ (s.sendRsp p k).mc = s.mc ∧
    (s.sendRsp p k).mtr = s.mtr ∧ (s.sendRsp p k).wq = s.wq ∧ (s.sendRsp p k).chs = s.chs ∧
    (s.sendRsp p k).intg = s.intg ∧ (s.sendRsp p k).keep = s.keep ∧ (s.sendRsp p k).thm = s.thm ∧
    (s.sendRsp p k).pwr = s.pwr ∧ (s.sendRsp p k).fus = s.fus ∧ (s.sendRsp p k).bst = s.bst ∧
    (s.sendRsp p k).cal = s.cal ∧ (s.sendRsp p k).actReg = s.actReg :=
  units_fields (State.sendRsp_units s p k)

theorem State.answer_units (s : State) (p : Nat) (k : Pkt) (a b : Nat) (d : List Byte) : (s.answer p k a b d).units = s.units := by
  exact s.sendRsp_units _ _

@[simp] theorem State.answer_same (s : State) (p : Nat) (k : Pkt) (a b : Nat) (d : List Byte) :
    (s.answer p k a b d).pending = s.pending ∧ (s.answer p k a b d).clock = s.clock ∧
    (s.answer p k a b d).fresh = s.fresh ∧ (s.answer p k a b d).dev = s.dev ∧ (s.answer p k a b d).prev = s.prev ∧
    (s.answer p k a b d).act = s.act ∧ (s.answer p k a b d).pins = s.pins ∧ (s.answer p k a b d).dram = s.dram ∧
    (s.answer p k a b d).mc = s.mc ∧ (s.answer p k a b d).mtr = s.mtr ∧ (s.answer p k a b d).wq = s.wq ∧
    (s.answer p k a b d).chs = s.chs ∧ (s.answer p k a b d).intg = s.intg ∧ (s.answer p k a b d).keep = s.keep ∧
    (s.answer p k a b d).thm = s.thm ∧ (s.answer p k a b d).pwr = s.pwr ∧ (s.answer p k a b d).fus = s.fus ∧
    (s.answer p k a b d).bst = s.bst ∧ (s.answer p k a b d).cal = s.cal ∧ (s.answer p k a b d).actReg = s.actReg :=
  units_fields (State.answer_units s p k a b d)

theorem State.discardOrRefuse_units (s : State) (p : Nat) (k : Pkt) (c : Nat) : (s.discardOrRefuse p k c).units = s.units := by
  unfold State.discardOrRefuse
  dsimp only
  rw [State.dropRoute_units]
  split
  · exact s.answer_units _ _ _ _ _
  · rfl

@[simp] theorem State.discardOrRefuse_same (s : State) (p : Nat) (k : Pkt) (c : Nat) :
    (s.discardOrRefuse p k c).pending = s.pending ∧ (s.discardOrRefuse p k c).clock = s.clock ∧
    (s.discardOrRefuse p k c).fresh = s.fresh ∧ (s.discardOrRefuse p k c).dev = s.dev ∧
    (s.discardOrRefuse p k c).prev = s.prev ∧ (s.discardOrRefuse p k c).act = s.act ∧
    (s.discardOrRefuse p k c).pins = s.pins ∧ (s.discardOrRefuse p k c).dram = s.dram ∧
    (s.discardOrRefuse p k c).mc = s.mc ∧ (s.discardOrRefuse p k c).mtr = s.mtr ∧ (s.discardOrRefuse p k c).wq = s.wq ∧
    (s.discardOrRefuse p k c).chs = s.chs ∧ (s.discardOrRefuse p k c).intg = s.intg ∧
    (s.discardOrRefuse p k c).keep = s.keep ∧ (s.discardOrRefuse p k c).thm = s.thm ∧
    (s.discardOrRefuse p k c).pwr = s.pwr ∧ (s.discardOrRefuse p k c).fus = s.fus ∧
    (s.discardOrRefuse p k c).bst = s.bst ∧ (s.discardOrRefuse p k c).cal = s.cal ∧
    (s.discardOrRefuse p k c).actReg = s.actReg :=
  units_fields (State.discardOrRefuse_units s p k c)

theorem State.respond_units (s : State) (a : Access) (o st w : Nat) : (s.respond a o st w).units = s.units := by
  unfold State.respond
  split
  · exact s.answer_units _ _ _ _ _
  · rfl
  · rfl

@[simp] theorem State.respond_same (s : State) (a : Access) (o st w : Nat) :
    (s.respond a o st w).pending = s.pending ∧ (s.respond a o st w).clock = s.clock ∧
    (s.respond a o st w).fresh = s.fresh ∧ (s.respond a o st w).dev = s.dev ∧ (s.respond a o st w).prev = s.prev ∧
    (s.respond a o st w).act = s.act ∧ (s.respond a o st w).pins = s.pins ∧ (s.respond a o st w).dram = s.dram ∧
    (s.respond a o st w).mc = s.mc ∧ (s.respond a o st w).mtr = s.mtr ∧ (s.respond a o st w).wq = s.wq ∧
    (s.respond a o st w).chs = s.chs ∧ (s.respond a o st w).intg = s.intg ∧ (s.respond a o st w).keep = s.keep ∧
    (s.respond a o st w).thm = s.thm ∧ (s.respond a o st w).pwr = s.pwr ∧ (s.respond a o st w).fus = s.fus ∧
    (s.respond a o st w).bst = s.bst ∧ (s.respond a o st w).cal = s.cal ∧ (s.respond a o st w).actReg = s.actReg :=
  units_fields (State.respond_units s a o st w)

/-! ### Registers beside those of the lattice -/

theorem State.reg_pump (s : State) (p : Nat) {r : Nat} (h : r / 0x100000 ≠ 4) (hp : p < 4) : (s.pump p).reg r = s.reg r := by
  have h1 : r ≠ LTC_TXBYTES_LO p := by unfold LTC_TXBYTES_LO; omega
  have h2 : r ≠ LTC_TXBYTES_LO p + 4 := by unfold LTC_TXBYTES_LO; omega
  unfold State.pump
  dsimp only
  split
  · split
    · simp
    · rw [State.reg_add64_ne _ _ h1 h2]; simp
  · rfl

theorem State.reg_enqueue (s : State) (p : Nat) (k : Pkt) (src : Nat) {r : Nat} (h : r / 0x100000 ≠ 4) (hp : p < 4) :
    (s.enqueue p k src).reg r = s.reg r := (State.reg_pump _ _ h hp).trans (by simp)

@[simp] theorem State.ibiEdge_reg (s : State) (b : Bool) : (State.ibiEdge b s).reg = s.reg := by
  unfold State.ibiEdge; split <;> rfl

@[simp] theorem State.ibiEdge_regs (s : State) (b : Bool) : (State.ibiEdge b s).regs = s.regs := by
  unfold State.ibiEdge; split <;> rfl

@[simp] theorem State.logEvent_regs (s : State) (c v u d : Nat) : (s.logEvent c v u d).regs = s.regs :=
  (State.ibiEdge_regs _ _).trans rfl

@[simp] theorem State.logEvent_reg (s : State) (c v u d : Nat) : (s.logEvent c v u d).reg = s.reg := by
  funext r; simp only [State.reg, State.logEvent_regs]

@[simp] theorem State.holdEvent_reg (s : State) (n : Nat) (e : Ev) : (s.holdEvent n e).reg = s.reg := by
  unfold State.holdEvent; split <;> rfl

@[simp] theorem State.postHeld_reg (s : State) (c v u d : Nat) : (s.postHeld c v u d).reg = s.reg := by
  unfold State.postHeld
  exact (foldl_keeps State.reg (fun s n => s.holdEvent n _) (fun s n => s.holdEvent_reg n _) _ _).trans (by simp)

theorem State.reg_dropCount (s : State) (u : Nat) (k : Pkt) (c : Nat) (say : State → Nat → Nat → Nat → Nat → State) {r : Nat}
    (h : r / 0x100000 ≠ 4) (hs : ∀ s a b c d, (say s a b c d).reg r = State.reg s r) :
    (s.dropCount u k c say).reg r = s.reg r := by
  have h1 : r ≠ LTC_DROP_ROUTE.addr := by intro e; subst e; exact h rfl
  exact ite_keeps (fun s : State => s.reg r) ((hs _ _ _ _ _).trans (s.reg_incFld_ne _ _ h1)) (s.reg_incFld_ne _ _ h1)

theorem outPort_lt (leg down : Bool) : outPort leg down < 4 := by cases leg <;> cases down <;> decide

theorem ite_has {α : Type} (P : α → Prop) {p : Prop} [Decidable p] {a b : α} (ha : P a) (hb : P b) :
    P (if p then a else b) := by
  split <;> assumption

/-- A route that leaves does so by one of the four ports. -/
def Route.legal (r : Route) : Prop := ∀ p k, r = .out p k → p < 4

theorem routeSend_legal (s : State) (k : Pkt) : (routeSend s k).legal := by
  have hp := outPort_lt k.leg k.dir
  have ho : ∀ k', Route.legal (.out (outPort k.leg k.dir) k') := fun k' p k'' h => by cases h; exact hp
  have hd : ∀ c, Route.legal (.drop c) := fun c p k'' h => by cases h
  unfold routeSend
  exact ite_has _ (ite_has _ (hd 2) (ite_has _ (ho _) (ho _))) (ho _)

theorem routeInject_legal (s : State) (k : Pkt) : (routeInject s k).legal := by
  unfold routeInject routeEnter
  exact ite_has _ (fun p k h => by cases h) (ite_has _ (routeSend_legal _ _) (routeSend_legal _ _))

theorem State.reg_injectMsg (s : State) (k : Pkt) {r : Nat} (h : r / 0x100000 ≠ 4) : (s.injectMsg k).reg r = s.reg r := by
  have h1 : r ≠ LTC_DROP_LOCAL.addr := by intro e; subst e; exact h rfl
  unfold State.injectMsg
  split
  · split
    · exact s.reg_incFld_ne _ _ h1
    · rename_i p k' e
      exact s.reg_enqueue _ _ _ h (routeInject_legal _ _ _ _ e)
    · exact s.reg_dropCount _ _ _ _ h fun s a b c d => congrFun (s.postHeld_reg a b c d) r
  · rfl

theorem State.noteEvent_reg (s : State) (e : Ev) (n : Nat) : (s.noteEvent e n).reg = s.reg := by
  unfold State.noteEvent
  split
  · rfl
  · exact s.holdEvent_reg n e

/-- An event moves no register outside the lattice block. -/
theorem State.reg_post (s : State) (c v u d : Nat) {r : Nat} (h : r / 0x100000 ≠ 4) :
    (s.post c v u d).reg r = s.reg r := by
  unfold State.post
  exact (foldl_keeps (fun s : State => s.reg r) (fun s n => s.sendEvent _ n) (fun s _ => s.reg_injectMsg _ h) _ _).trans
    ((foldl_keeps (fun s : State => s.reg r) (fun s n => s.noteEvent _ n) (fun s n => congrFun (s.noteEvent_reg _ n) r) _ _).trans
      (by simp))

theorem State.reg_dropRoute (s : State) (u : Nat) (k : Pkt) (c : Nat) {r : Nat} (h : r / 0x100000 ≠ 4) :
    (s.dropRoute u k c).reg r = s.reg r := s.reg_dropCount _ _ _ _ h fun s a b c d => s.reg_post a b c d h

theorem State.reg_injectRaw (s : State) (k : Pkt) {r : Nat} (h : r / 0x100000 ≠ 4) : (s.injectRaw k).reg r = s.reg r := by
  have h1 : r ≠ LTC_DROP_LOCAL.addr := by intro e; subst e; exact h rfl
  unfold State.injectRaw
  split
  · split
    · split
      · rfl
      · exact s.reg_incFld_ne _ _ h1
    · rename_i p k' e
      exact s.reg_enqueue _ _ _ h (routeInject_legal _ _ _ _ e)
    · exact s.reg_dropRoute _ _ _ h
  · rfl

theorem State.reg_sendRsp (s : State) (p : Nat) (k : Pkt) {r : Nat} (h : r / 0x100000 ≠ 4) (hp : p < 4) :
    (s.sendRsp p k).reg r = s.reg r := by
  unfold State.sendRsp
  split
  · exact s.reg_enqueue _ _ _ h hp
  · exact s.reg_injectRaw _ h

theorem State.reg_answer (s : State) (p : Nat) (k : Pkt) (st w : Nat) (d : List Byte) {r : Nat} (h : r / 0x100000 ≠ 4)
    (hp : p < 4) : (s.answer p k st w d).reg r = s.reg r := s.reg_sendRsp _ _ h hp

/-- An answer moves no register outside the lattice block. -/
theorem State.reg_respond (s : State) (a : Access) (o st w : Nat) {r : Nat} (h : r / 0x100000 ≠ 4) :
    (s.respond a o st w).reg r = s.reg r := by
  unfold State.respond
  split
  · exact s.reg_answer _ _ _ _ _ h (by omega)
  · rfl
  · rfl

/-- A field of a register outside the lattice block reads the same after an event. -/
theorem State.fld_post (s : State) (c v u d : Nat) {f : Fld} (h : f.addr / 0x100000 ≠ 4) :
    (s.post c v u d).fld f = s.fld f := by simp only [State.fld, State.reg_post _ _ _ _ _ h]

theorem State.fld_respond (s : State) (a : Access) (o st w : Nat) {f : Fld} (h : f.addr / 0x100000 ≠ 4) :
    (s.respond a o st w).fld f = s.fld f := by simp only [State.fld, State.reg_respond _ _ _ _ _ h]

end Sys2Proof.Machine
end

