-- ==== Sys2Proof/Laws/Only.lean ====
section
/-! SUPPORT. Frames: how `State.only` is composed, and the frames of the shared operations. -/

namespace Sys2Proof.Machine

theorem State.only_refl (s : State) (ps : List Part) (rs : Nat → Prop) : s.only s ps rs :=
  ⟨fun p => .inr (by cases p <;> rfl), fun _ => .inr rfl⟩

theorem Part.same_trans {s t u : State} {p : Part} (h : p.same s t) (h' : p.same t u) : p.same s u := by
  cases p <;> exact Eq.trans h' h

theorem State.only_trans {s t u : State} {ps : List Part} {rs : Nat → Prop} (h : s.only t ps rs) (h' : t.only u ps rs) :
    s.only u ps rs :=
  ⟨fun p => (h.1 p).elim .inl fun x => (h'.1 p).imp_right fun y => Part.same_trans x y,
    fun r => (h.2 r).elim .inl fun x => (h'.2 r).imp_right fun y => y.trans x⟩

theorem State.only_mono {s t : State} {ps qs : List Part} {rs ts : Nat → Prop} (h : s.only t ps rs) (hp : ∀ p ∈ ps, p ∈ qs)
    (hr : ∀ r, rs r → ts r) : s.only t qs ts :=
  ⟨fun p => (h.1 p).imp_left (hp p), fun r => (h.2 r).imp_left (hr r)⟩

/-- What a loop's rounds leave alone, the loop leaves alone. -/
theorem State.only_foldl {β : Type} {ps : List Part} {rs : Nat → Prop} (f : State → β → State) (l : List β) (s : State)
    (h : ∀ s : State, ∀ b ∈ l, s.only (f s b) ps rs) : s.only (l.foldl f s) ps rs := by
  induction l generalizing s with
  | nil => exact s.only_refl _ _
  | cons b l ih =>
    exact State.only_trans (h s b List.mem_cons_self) (ih _ fun s b hb => h s b (List.mem_cons_of_mem _ hb))

/-- A register written. -/
theorem State.setReg_only (s : State) (a v : Nat) : s.only (s.setReg a v) [] fun r => r = a :=
  ⟨fun p => .inr (by cases p <;> rfl), fun r => (em (r = a)).imp_right fun h => s.reg_setReg_ne _ h⟩

theorem State.setFld_only (s : State) (f : Fld) (v : Nat) : s.only (s.setFld f v) [] fun r => r = f.addr := s.setReg_only _ _

theorem State.incFld_only (s : State) (f : Fld) (d : Nat) : s.only (s.incFld f d) [] fun r => r = f.addr := s.setReg_only _ _

theorem State.writeAcc_only (s : State) (a v : Nat) : s.only (s.writeAcc a v) [] fun r => r = a := by
  unfold State.writeAcc
  generalize rowOf a = o
  cases o
  · exact s.only_refl _ _
  · exact s.setReg_only _ _

theorem State.setReg64_only (s : State) (a v : Nat) : s.only (s.setReg64 a v) [] fun r => r = a ∨ r = a + 4 :=
  State.only_trans (State.only_mono (s.setReg_only _ _) (by simp) fun _ h => .inl h)
    (State.only_mono (State.setReg_only _ _ _) (by simp) fun _ h => .inr h)

/-- An event: the log and the sideband, what leaves, and the lattice with its registers. -/
theorem State.post_only (s : State) (c v u d : Nat) : s.only (s.post c v u d) wires inLtc :=
  ⟨fun p => by cases p <;> simp [wires, Part.same],
    fun r => (em (inLtc r)).imp_right fun h => s.reg_post _ _ _ _ h⟩

theorem State.respond_only (s : State) (a : Access) (o st w : Nat) : s.only (s.respond a o st w) wires inLtc :=
  ⟨fun p => by cases p <;> simp [wires, Part.same],
    fun r => (em (inLtc r)).imp_right fun h => s.reg_respond _ _ _ _ h⟩

theorem State.answer_only (s : State) (p : Nat) (k : Pkt) (st w : Nat) (d : List Byte) (hp : p < 4) :
    s.only (s.answer p k st w d) wires inLtc :=
  ⟨fun q => by cases q <;> simp [wires, Part.same],
    fun r => (em (inLtc r)).imp_right fun h => s.reg_answer _ _ _ _ _ h hp⟩

theorem State.takeRx_out (s : State) (p : Nat) (k : Pkt) : (s.takeRx p k).out = s.out := by
  unfold State.takeRx
  split <;> rfl

theorem State.takeAccess_out (s : State) (p : Nat) (a : Access) (o : Nat) : (s.takeAccess p a o).out = s.out := by
  unfold State.takeAccess
  split
  · split
    · exact s.takeRx_out _ _
    · rfl
  · rfl

/-! ### The packet that carries an access -/

theorem State.modTgt_only (s : State) (i : Nat) (f : Tgt → Tgt) : s.only (s.modTgt i f) [.mtr] fun _ => False := by
  refine ⟨fun p => ?_, fun _ => Or.inr rfl⟩
  cases p <;> first | exact Or.inr rfl | exact Or.inl (by simp)

theorem State.add64_only (s : State) (a d : Nat) : s.only (s.add64 a d) [] fun r => r = a ∨ r = a + 4 := s.setReg64_only _ _

/-- A register access moves the mortar part and the byte counter of its master, nothing else (R167, R190). -/
theorem State.cfgBeat_only (s : State) (m : Nat) :
    s.only (s.cfgBeat m) [.mtr] fun r => r = MTR_BYTES_LO m ∨ r = MTR_BYTES_LO m + 4 := by
  have h : s.only (s.cfgEnds m) [.mtr] fun r => r = MTR_BYTES_LO m ∨ r = MTR_BYTES_LO m + 4 := by
    unfold State.cfgEnds
    dsimp only
    split
    · exact State.only_trans (State.only_mono (s.modTgt_only _ _) (by simp) fun _ h => h.elim)
        (State.only_mono (State.add64_only _ _ _) (by simp) fun _ h => h)
    · exact s.only_refl _ _
  exact State.only_trans h (State.only_mono (State.modTgt_only _ _ _) (by simp) fun _ h => h.elim)

/-- An access that arrives touches the lattice's buffers, mortar and the byte counters of the masters, nothing else. -/
theorem State.arrived_only (s : State) (a : Access) (o : Nat) :
    s.only (s.arrived a o) [.lnk, .mtr] fun r => ∃ m < 8, r = MTR_BYTES_LO m ∨ r = MTR_BYTES_LO m + 4 := by
  unfold State.arrived
  split
  · rename_i p _
    refine State.only_trans (t := s.takeAccess p a o) ⟨fun q => ?_, fun r => .inr (congrFun (by simp) r)⟩
      (State.only_mono (State.cfgBeat_only _ _) (by simp) fun r h => ⟨p, by omega, h⟩)
    cases q <;> simp [Part.same, State.takeAccess_out]
  · exact State.only_mono (s.cfgBeat_only _) (by simp) fun r h => ⟨7, by omega, h⟩

/-! ### A nanosecond of waiting at the master ports -/

theorem State.heldTick_only (s : State) : s.only s.heldTick [.mtr] fun r => ∃ m < 8, r = MTR_HELD m := by
  unfold State.heldTick
  refine State.only_foldl _ _ s fun s m hm => ?_
  have hm := List.mem_range.1 hm
  dsimp only
  split
  · split
    · refine State.only_trans (t := { s with mtr := { s.mtr with masters := modAt s.mtr.masters m fun x =>
        { x with heldNs := (x.heldNs + 1) % 1000 } } }) ⟨fun p => ?_, fun r => .inr rfl⟩
        (State.only_mono (State.incFld_only _ _ _) (by simp) fun r h => ⟨m, hm, h⟩)
      cases p <;> first | (left; simp; done) | (right; rfl)
    · refine ⟨fun p => ?_, fun r => .inr rfl⟩
      cases p <;> first | (left; simp; done) | (right; rfl)
  · exact s.only_refl _ _

end Sys2Proof.Machine
end

