-- ==== Sys2Proof/Laws/Access.lean ====
section
/-! SUPPORT. A register access that is served: the state it acts on and the answer it leaves, said once for every command that
carries one. -/

namespace Sys2Proof.Machine

theorem State.reachable_of {s t : State} (h : t.dev = s.dev) (p : Path) (b : Nat) : t.reachable p b = s.reachable p b := by
  simp only [State.reachable, h]

/-- A served access reaches its effect. -/
theorem State.portGate_open {s : State} {a : Access} (h : s.gateOpen a = true) (o : Nat) (go : State → State) :
    s.portGate a o go = go (s.arrived a o) := by
  unfold State.gateOpen at h
  unfold State.portGate State.arrived
  cases hp : a.path with
  | port p =>
    simp only [hp, Bool.and_eq_true, ne_eq, beq_iff_eq, Bool.or_eq_true] at h ⊢
    obtain ⟨⟨⟨h1, h3⟩, h4⟩, h6⟩ := h
    have h5 : ¬(s.packetsReach p = false ∨ a.hop.isNone = true ∧ s.hasCoord = false ∨ (s.port p).rstHold = true) := by
      rintro (h | ⟨h, h'⟩ | h)
      · simp [h] at h1
      rotate_left
      · simp [h] at h6
      · rcases h4 with h4 | h4
        · cases hh : a.hop <;> simp_all
        · simp [h'] at h4
    rw [if_neg h5, if_neg (not_not.2 h3)]
  | sideband => simp only [hp, bne_iff_ne, ne_eq] at h ⊢; rw [if_neg h]
  | keystone => simp only [hp, bne_iff_ne, ne_eq] at h ⊢; rw [if_neg h]

theorem State.reachable_arrived (s : State) (a : Access) (o : Nat) (p : Path) (b : Nat) :
    (s.arrived a o).reachable p b = s.reachable p b :=
  State.reachable_of (((s.arrived_only a o).1 .dev).resolve_left (by simp)) p b

/-- A served write has its effect and is answered. -/
theorem State.cfgWriteSt_served {s : State} {a : Access} {r : Nat} (h : s.served a r = true) (eff : State → State × Nat) :
    s.cfgWriteSt a r eff = (eff (s.arrived a 9)).1.respond a 9 (eff (s.arrived a 9)).2 0 := by
  simp only [State.served, Bool.and_eq_true] at h
  unfold State.cfgWriteSt
  rw [State.portGate_open h.1]
  simp only [State.reachable_arrived, h.2, if_true]

theorem State.cfgWrite_served {s : State} {a : Access} {r : Nat} (h : s.served a r = true) (eff : State → State) :
    s.cfgWrite a r eff = (eff (s.arrived a 9)).respond a 9 0 0 := State.cfgWriteSt_served h _

/-- A write to a block that cannot be reached is answered NO_TARGET and changes nothing else (R34, R36). -/
theorem State.cfgWrite_refused {s : State} {a : Access} {r : Nat} (h : s.gateOpen a = true)
    (hr : s.reachable a.path (r / 0x100000) = false) (eff : State → State) :
    s.cfgWrite a r eff = (s.arrived a 9).respond a 9 4 0 := by
  unfold State.cfgWrite State.cfgWriteSt
  rw [State.portGate_open h]
  simp only [State.reachable_arrived, hr, Bool.false_eq_true, if_false]

/-- The window of R34 gives back the map address. -/
theorem winAddr_of {r : Nat} (h : r < 0xF00000) (h4 : r % 4 = 0) : winAddr (0xFF00000000 + r) = some r := by
  unfold winAddr
  rw [if_pos ⟨by omega, by omega, by omega⟩]
  simp

/-- A served read of a local address answers what the register switch gives. -/
theorem State.cfgRead_served {s : State} {a : Access} {r : Nat} (h : s.served a r = true) (hr : r < 0xF00000)
    (h4 : r % 4 = 0) :
    s.cfgRead a (0xFF00000000 + r) =
      ((s.arrived a 8).busRead a r).1.respond a 8 ((s.arrived a 8).busRead a r).2.1
        (if ((s.arrived a 8).busRead a r).2.1 = 0 then ((s.arrived a 8).busRead a r).2.2 else 0) := by
  simp only [State.served, Bool.and_eq_true] at h
  unfold State.cfgRead
  rw [State.portGate_open h.1, winAddr_of hr h4]
  simp only [State.reachable_arrived, h.2, if_true]

/-- A served write of a local address. -/
theorem State.cfgStore_served {s : State} {a : Access} {r : Nat} (h : s.served a r = true) (hr : r < 0xF00000)
    (h4 : r % 4 = 0) (v : Nat) :
    s.cfgStore a (0xFF00000000 + r) v =
      ((s.arrived a 9).busWrite a r v).1.respond a 9 ((s.arrived a 9).busWrite a r v).2 0 := by
  unfold State.cfgStore
  rw [winAddr_of hr h4]
  exact State.cfgWriteSt_served h _

/-! ### 64-bit pairs -/

/-- The addresses of the low halves of the 64-bit registers. -/
def loList : List Nat :=
  (loTables.map fun t => match t.2 with
    | [] => [t.1]
    | (st, n) :: _ => (List.range n).map fun i => t.1 + st * i).flatten

theorem isLo_mem {r : Nat} (h : isLo r = true) : r ∈ loList := by
  obtain ⟨⟨b, dims⟩, ht, hh⟩ := List.any_eq_true.1 h
  simp only [Bool.and_eq_true, decide_eq_true_eq] at hh
  have hd : dims.length ≤ 1 := (by decide : ∀ t ∈ loTables, t.2.length ≤ 1) _ ht
  refine List.mem_flatten.2 ⟨_, List.mem_map.2 ⟨(b, dims), ht, rfl⟩, ?_⟩
  match dims, hd with
  | [], _ =>
    simp only [matchDims, beq_iff_eq] at hh
    exact List.mem_singleton.2 (by omega)
  | [(st, n)], _ =>
    simp only [matchDims, Bool.and_eq_true, decide_eq_true_eq, beq_iff_eq] at hh
    refine List.mem_map.2 ⟨(r - b) / st, by simpa using hh.2.1, ?_⟩
    have := Nat.div_add_mod (r - b) st
    omega

/-- The low half of a pair is an aligned register of the map, its high half lies beside it, and is no low half. -/
theorem isLo_props {r : Nat} (h : isLo r = true) :
    r < 0xF00000 ∧ r % 4 = 0 ∧ isLo (r + 4) = false ∧ (r + 4) / 0x100000 = r / 0x100000 := by
  have key : ∀ r ∈ loList, r < 0xF00000 ∧ r % 4 = 0 ∧ isLo (r + 4) = false ∧ (r + 4) / 0x100000 = r / 0x100000 := by
    decide +kernel
  exact key r (isLo_mem h)

end Sys2Proof.Machine
end

