-- ==== Sys2Proof/Laws/Parts.lean ====
section
/-! SUPPORT. The numbered parts of the state (ports, channels, queues, job slots, masters, targets, sensors, keep courses): what an
update of one leaves in it, in the others, and in the rest of the state. -/

namespace Sys2Proof.Machine

theorem State.port_modPort (s : State) (i j : Nat) (f : Port → Port) (h : i < s.lnk.ports.length) :
    (s.modPort i f).port j = if j = i then f (s.port j) else s.port j := getD_modAt _ _ _ _ _ h

/-- A part whose number does not exist is not made by an update. -/
theorem State.port_modPort_out (s : State) (i j : Nat) (f : Port → Port) (h : s.lnk.ports.length ≤ i) :
    (s.modPort i f).port j = s.port j := by
  unfold State.port State.modPort; dsimp only; rw [modAt, List.modify_eq_self]; omega

theorem State.modPort_only (s : State) (i : Nat) (f : Port → Port) : s.only (s.modPort i f) [.lnk] fun _ => False := by
  refine ⟨fun p => ?_, fun _ => Or.inr rfl⟩
  cases p <;> first | exact Or.inr rfl | exact Or.inl (by simp)

@[simp] theorem State.modChan_same (s : State) (i : Nat) (f : Chan → Chan) :
    (s.modChan i f).pending = s.pending ∧ (s.modChan i f).clock = s.clock ∧ (s.modChan i f).fresh = s.fresh ∧
    (s.modChan i f).dev = s.dev ∧ (s.modChan i f).prev = s.prev ∧ (s.modChan i f).regs = s.regs ∧
    (s.modChan i f).act = s.act ∧ (s.modChan i f).out = s.out ∧ (s.modChan i f).pins = s.pins ∧ (s.modChan i f).ks = s.ks ∧
    (s.modChan i f).lnk = s.lnk ∧ (s.modChan i f).dram = s.dram ∧ (s.modChan i f).mtr = s.mtr ∧ (s.modChan i f).wq = s.wq ∧
    (s.modChan i f).chs = s.chs ∧ (s.modChan i f).intg = s.intg ∧ (s.modChan i f).keep = s.keep ∧
    (s.modChan i f).thm = s.thm ∧ (s.modChan i f).pwr = s.pwr ∧ (s.modChan i f).fus = s.fus ∧ (s.modChan i f).bst = s.bst ∧
    (s.modChan i f).cal = s.cal ∧ (s.modChan i f).reg = s.reg ∧ (s.modChan i f).fld = s.fld ∧
    (s.modChan i f).flag = s.flag ∧ (s.modChan i f).actReg = s.actReg := by
  and_intros <;> rfl

theorem State.chan_modChan (s : State) (i j : Nat) (f : Chan → Chan) (h : i < s.mc.chans.length) :
    (s.modChan i f).chan j = if j = i then f (s.chan j) else s.chan j := getD_modAt _ _ _ _ _ h

/-- A part whose number does not exist is not made by an update. -/
theorem State.chan_modChan_out (s : State) (i j : Nat) (f : Chan → Chan) (h : s.mc.chans.length ≤ i) :
    (s.modChan i f).chan j = s.chan j := by
  unfold State.chan State.modChan; dsimp only; rw [modAt, List.modify_eq_self]; omega

theorem State.modChan_only (s : State) (i : Nat) (f : Chan → Chan) : s.only (s.modChan i f) [.mc] fun _ => False := by
  refine ⟨fun p => ?_, fun _ => Or.inr rfl⟩
  cases p <;> first | exact Or.inr rfl | exact Or.inl (by simp)

@[simp] theorem State.modJob_same (s : State) (i : Nat) (f : Job → Job) :
    (s.modJob i f).pending = s.pending ∧ (s.modJob i f).clock = s.clock ∧ (s.modJob i f).fresh = s.fresh ∧
    (s.modJob i f).dev = s.dev ∧ (s.modJob i f).prev = s.prev ∧ (s.modJob i f).regs = s.regs ∧ (s.modJob i f).act = s.act ∧
    (s.modJob i f).out = s.out ∧ (s.modJob i f).pins = s.pins ∧ (s.modJob i f).ks = s.ks ∧ (s.modJob i f).lnk = s.lnk ∧
    (s.modJob i f).dram = s.dram ∧ (s.modJob i f).mc = s.mc ∧ (s.modJob i f).mtr = s.mtr ∧ (s.modJob i f).wq = s.wq ∧
    (s.modJob i f).intg = s.intg ∧ (s.modJob i f).keep = s.keep ∧ (s.modJob i f).thm = s.thm ∧ (s.modJob i f).pwr = s.pwr ∧
    (s.modJob i f).fus = s.fus ∧ (s.modJob i f).bst = s.bst ∧ (s.modJob i f).cal = s.cal ∧ (s.modJob i f).reg = s.reg ∧
    (s.modJob i f).fld = s.fld ∧ (s.modJob i f).flag = s.flag ∧ (s.modJob i f).actReg = s.actReg := by
  and_intros <;> rfl

theorem State.job_modJob (s : State) (i j : Nat) (f : Job → Job) (h : i < s.chs.jobs.length) :
    (s.modJob i f).job j = if j = i then f (s.job j) else s.job j := getD_modAt _ _ _ _ _ h

/-- A part whose number does not exist is not made by an update. -/
theorem State.job_modJob_out (s : State) (i j : Nat) (f : Job → Job) (h : s.chs.jobs.length ≤ i) :
    (s.modJob i f).job j = s.job j := by
  unfold State.job State.modJob; dsimp only; rw [modAt, List.modify_eq_self]; omega

theorem State.modJob_only (s : State) (i : Nat) (f : Job → Job) : s.only (s.modJob i f) [.chs] fun _ => False := by
  refine ⟨fun p => ?_, fun _ => Or.inr rfl⟩
  cases p <;> first | exact Or.inr rfl | exact Or.inl (by simp)

@[simp] theorem State.modQueue_same (s : State) (i : Nat) (f : Queue → Queue) :
    (s.modQueue i f).pending = s.pending ∧ (s.modQueue i f).clock = s.clock ∧ (s.modQueue i f).fresh = s.fresh ∧
    (s.modQueue i f).dev = s.dev ∧ (s.modQueue i f).prev = s.prev ∧ (s.modQueue i f).regs = s.regs ∧
    (s.modQueue i f).act = s.act ∧ (s.modQueue i f).out = s.out ∧ (s.modQueue i f).pins = s.pins ∧
    (s.modQueue i f).ks = s.ks ∧ (s.modQueue i f).lnk = s.lnk ∧ (s.modQueue i f).dram = s.dram ∧
    (s.modQueue i f).mc = s.mc ∧ (s.modQueue i f).mtr = s.mtr ∧ (s.modQueue i f).chs = s.chs ∧
    (s.modQueue i f).intg = s.intg ∧ (s.modQueue i f).keep = s.keep ∧ (s.modQueue i f).thm = s.thm ∧
    (s.modQueue i f).pwr = s.pwr ∧ (s.modQueue i f).fus = s.fus ∧ (s.modQueue i f).bst = s.bst ∧
    (s.modQueue i f).cal = s.cal ∧ (s.modQueue i f).reg = s.reg ∧ (s.modQueue i f).fld = s.fld ∧
    (s.modQueue i f).flag = s.flag ∧ (s.modQueue i f).actReg = s.actReg := by
  and_intros <;> rfl

theorem State.queue_modQueue (s : State) (i j : Nat) (f : Queue → Queue) (h : i < s.wq.queues.length) :
    (s.modQueue i f).queue j = if j = i then f (s.queue j) else s.queue j := getD_modAt _ _ _ _ _ h

/-- A part whose number does not exist is not made by an update. -/
theorem State.queue_modQueue_out (s : State) (i j : Nat) (f : Queue → Queue) (h : s.wq.queues.length ≤ i) :
    (s.modQueue i f).queue j = s.queue j := by
  unfold State.queue State.modQueue; dsimp only; rw [modAt, List.modify_eq_self]; omega

theorem State.modQueue_only (s : State) (i : Nat) (f : Queue → Queue) : s.only (s.modQueue i f) [.wq] fun _ => False := by
  refine ⟨fun p => ?_, fun _ => Or.inr rfl⟩
  cases p <;> first | exact Or.inr rfl | exact Or.inl (by simp)

@[simp] theorem State.modMaster_same (s : State) (i : Nat) (f : Master → Master) :
    (s.modMaster i f).pending = s.pending ∧ (s.modMaster i f).clock = s.clock ∧ (s.modMaster i f).fresh = s.fresh ∧
    (s.modMaster i f).dev = s.dev ∧ (s.modMaster i f).prev = s.prev ∧ (s.modMaster i f).regs = s.regs ∧
    (s.modMaster i f).act = s.act ∧ (s.modMaster i f).out = s.out ∧ (s.modMaster i f).pins = s.pins ∧
    (s.modMaster i f).ks = s.ks ∧ (s.modMaster i f).lnk = s.lnk ∧ (s.modMaster i f).dram = s.dram ∧
    (s.modMaster i f).mc = s.mc ∧ (s.modMaster i f).wq = s.wq ∧ (s.modMaster i f).chs = s.chs ∧
    (s.modMaster i f).intg = s.intg ∧ (s.modMaster i f).keep = s.keep ∧ (s.modMaster i f).thm = s.thm ∧
    (s.modMaster i f).pwr = s.pwr ∧ (s.modMaster i f).fus = s.fus ∧ (s.modMaster i f).bst = s.bst ∧
    (s.modMaster i f).cal = s.cal ∧ (s.modMaster i f).reg = s.reg ∧ (s.modMaster i f).fld = s.fld ∧
    (s.modMaster i f).flag = s.flag ∧ (s.modMaster i f).actReg = s.actReg := by
  and_intros <;> rfl

theorem State.master_modMaster (s : State) (i j : Nat) (f : Master → Master) (h : i < s.mtr.masters.length) :
    (s.modMaster i f).master j =
      if j = i then { f (s.master j) with waited := (f (s.master j)).waited && s.masterBusy i (f (s.master j)) } else s.master j :=
  getD_modAt _ _ _ (fun x => { f x with waited := (f x).waited && s.masterBusy i (f x) }) _ h

/-- A part whose number does not exist is not made by an update. -/
theorem State.master_modMaster_out (s : State) (i j : Nat) (f : Master → Master) (h : s.mtr.masters.length ≤ i) :
    (s.modMaster i f).master j = s.master j := by
  unfold State.master State.modMaster; dsimp only; rw [modAt, List.modify_eq_self]; omega

theorem State.modMaster_only (s : State) (i : Nat) (f : Master → Master) : s.only (s.modMaster i f) [.mtr] fun _ => False := by
  refine ⟨fun p => ?_, fun _ => Or.inr rfl⟩
  cases p <;> first | exact Or.inr rfl | exact Or.inl (by simp)

@[simp] theorem State.modTgt_same (s : State) (i : Nat) (f : Tgt → Tgt) :
    (s.modTgt i f).pending = s.pending ∧ (s.modTgt i f).clock = s.clock ∧ (s.modTgt i f).fresh = s.fresh ∧
    (s.modTgt i f).dev = s.dev ∧ (s.modTgt i f).prev = s.prev ∧ (s.modTgt i f).regs = s.regs ∧ (s.modTgt i f).act = s.act ∧
    (s.modTgt i f).out = s.out ∧ (s.modTgt i f).pins = s.pins ∧ (s.modTgt i f).ks = s.ks ∧ (s.modTgt i f).lnk = s.lnk ∧
    (s.modTgt i f).dram = s.dram ∧ (s.modTgt i f).mc = s.mc ∧ (s.modTgt i f).wq = s.wq ∧ (s.modTgt i f).chs = s.chs ∧
    (s.modTgt i f).intg = s.intg ∧ (s.modTgt i f).keep = s.keep ∧ (s.modTgt i f).thm = s.thm ∧ (s.modTgt i f).pwr = s.pwr ∧
    (s.modTgt i f).fus = s.fus ∧ (s.modTgt i f).bst = s.bst ∧ (s.modTgt i f).cal = s.cal ∧ (s.modTgt i f).reg = s.reg ∧
    (s.modTgt i f).fld = s.fld ∧ (s.modTgt i f).flag = s.flag ∧ (s.modTgt i f).actReg = s.actReg := by
  and_intros <;> rfl

theorem State.tgt_modTgt (s : State) (i j : Nat) (f : Tgt → Tgt) (h : i < s.mtr.targets.length) :
    (s.modTgt i f).tgt j = if j = i then f (s.tgt j) else s.tgt j := getD_modAt _ _ _ _ _ h

/-- A part whose number does not exist is not made by an update. -/
theorem State.tgt_modTgt_out (s : State) (i j : Nat) (f : Tgt → Tgt) (h : s.mtr.targets.length ≤ i) :
    (s.modTgt i f).tgt j = s.tgt j := by
  unfold State.tgt State.modTgt; dsimp only; rw [modAt, List.modify_eq_self]; omega

@[simp] theorem State.modSensor_same (s : State) (i : Nat) (f : Sensor → Sensor) :
    (s.modSensor i f).pending = s.pending ∧ (s.modSensor i f).clock = s.clock ∧ (s.modSensor i f).fresh = s.fresh ∧
    (s.modSensor i f).dev = s.dev ∧ (s.modSensor i f).prev = s.prev ∧ (s.modSensor i f).regs = s.regs ∧
    (s.modSensor i f).act = s.act ∧ (s.modSensor i f).out = s.out ∧ (s.modSensor i f).pins = s.pins ∧
    (s.modSensor i f).ks = s.ks ∧ (s.modSensor i f).lnk = s.lnk ∧ (s.modSensor i f).dram = s.dram ∧
    (s.modSensor i f).mc = s.mc ∧ (s.modSensor i f).mtr = s.mtr ∧ (s.modSensor i f).wq = s.wq ∧
    (s.modSensor i f).chs = s.chs ∧ (s.modSensor i f).intg = s.intg ∧ (s.modSensor i f).keep = s.keep ∧
    (s.modSensor i f).pwr = s.pwr ∧ (s.modSensor i f).fus = s.fus ∧ (s.modSensor i f).bst = s.bst ∧
    (s.modSensor i f).cal = s.cal ∧ (s.modSensor i f).reg = s.reg ∧ (s.modSensor i f).fld = s.fld ∧
    (s.modSensor i f).flag = s.flag ∧ (s.modSensor i f).actReg = s.actReg := by
  and_intros <;> rfl

theorem State.sensor_modSensor (s : State) (i j : Nat) (f : Sensor → Sensor) (h : i < s.thm.sensors.length) :
    (s.modSensor i f).sensor j = if j = i then f (s.sensor j) else s.sensor j := getD_modAt _ _ _ _ _ h

/-- A part whose number does not exist is not made by an update. -/
theorem State.sensor_modSensor_out (s : State) (i j : Nat) (f : Sensor → Sensor) (h : s.thm.sensors.length ≤ i) :
    (s.modSensor i f).sensor j = s.sensor j := by
  unfold State.sensor State.modSensor; dsimp only; rw [modAt, List.modify_eq_self]; omega

theorem State.modSensor_only (s : State) (i : Nat) (f : Sensor → Sensor) : s.only (s.modSensor i f) [.thm] fun _ => False := by
  refine ⟨fun p => ?_, fun _ => Or.inr rfl⟩
  cases p <;> first | exact Or.inr rfl | exact Or.inl (by simp)

@[simp] theorem State.keep_modKeep (s : State) (f : Keep → Keep) : (s.modKeep f).keep = f s.keep := rfl

theorem State.modKeep_only (s : State) (f : Keep → Keep) : s.only (s.modKeep f) [.keep] fun _ => False := by
  refine ⟨fun p => ?_, fun _ => Or.inr rfl⟩
  cases p <;> first | exact Or.inr rfl | exact Or.inl (by simp)

theorem State.course_modCourse (s : State) (i j : Nat) (f : Course → Course) (h : i < s.keep.courses.length) :
    (s.modCourse i f).keep.course j = if j = i then f (s.keep.course j) else s.keep.course j := getD_modAt _ _ _ _ _ h

theorem State.modCourse_only (s : State) (i : Nat) (f : Course → Course) : s.only (s.modCourse i f) [.keep] fun _ => False := by
  refine ⟨fun p => ?_, fun _ => Or.inr rfl⟩
  cases p <;> first | exact Or.inr rfl | exact Or.inl (by simp)

/-- A port that is not as an absent one reads is there. -/
theorem State.port_exists {s : State} {p : Nat} (h : (s.port p).st ≠ .bypassed) : p < s.lnk.ports.length := by
  by_contra hh
  apply h
  simp [State.port, List.getD_eq_getElem?_getD, List.getElem?_eq_none (Nat.le_of_not_lt hh)]

end Sys2Proof.Machine
end

