-- ==== Sys2Proof/Laws/Moves.lean ====
section
/-! SUPPORT. Frames of what moves data: the commands to rows and columns in their slots, the meters and caps of mortar, and the
accesses of the device's own masters. -/

namespace Sys2Proof.Machine

/-- The registers that row and column commands may move: those of the channels and, for an event, those of the lattice. -/
def rowRegs (r : Nat) : Prop := inLtc r ∨ r / 0x100000 = 6

/-- The registers that a transfer may move beside these: those of mortar. -/
def moveRegs (r : Nat) : Prop := rowRegs r ∨ r / 0x100000 = 7

theorem decodeAddr_ch_lt (a : Nat) : (decodeAddr a).ch < 32 := by
  have h (hi lo : Nat) (he : hi + 1 - lo ≤ 5) : getBits a hi lo < 2 ^ 5 :=
    (Nat.mod_lt _ (by positivity)).trans_le (Nat.pow_le_pow_right (by omega) he)
  exact Nat.xor_lt_two_pow (h _ _ (by omega)) <| Nat.xor_lt_two_pow (Nat.xor_lt_two_pow (Nat.xor_lt_two_pow (Nat.xor_lt_two_pow
    (h _ _ (by omega)) (h _ _ (by omega))) (h _ _ (by omega))) (h _ _ (by omega))) (h _ _ (by omega))

theorem State.modPc_only (s : State) (c i : Nat) (f : Pc → Pc) : s.only (s.modPc c i f) [.mc] fun _ => False :=
  s.modChan_only _ _

theorem State.modBank_only (s : State) (c i b : Nat) (f : Bank → Bank) : s.only (s.modBank c i b f) [.mc] fun _ => False :=
  s.modPc_only _ _ _

theorem State.busyBg_only (s : State) (c g n : Nat) : s.only (s.busyBg c g n) [.mc] fun _ => False := by
  refine ⟨fun p => ?_, fun _ => Or.inr rfl⟩
  cases p <;> first | exact Or.inr rfl | exact Or.inl (by simp)

theorem State.setActs_only (s : State) (a : Tab Nat) : s.only { s with mc := { s.mc with acts := a } } [.mc] fun _ => False := by
  refine ⟨fun p => ?_, fun _ => Or.inr rfl⟩
  cases p <;> first | exact Or.inr rfl | exact Or.inl (by simp)

/-- A row that closes moves the channel part alone. -/
theorem State.closeRow_only (s : State) (c pc i t : Nat) : s.only (s.closeRow c pc i t) [.mc] fun _ => False := by
  unfold State.closeRow
  split
  · exact s.only_refl _ _
  · exact State.only_trans (s.setActs_only _) (State.modBank_only _ _ _ _ _)

/-- An event of the channel (0x0482) moves what an event moves. -/
theorem State.noteTrr_only (s : State) (c pc i row : Nat) : s.only (s.noteTrr c pc i row) (.mc :: wires) inLtc := by
  unfold State.noteTrr
  dsimp only
  have h : s.only ((s.modChan c fun h => { h with trr0482 := some s.clock }).post 0x0482 1 c (pc + 2 * i + 32 * row))
      (.mc :: wires) inLtc :=
    State.only_trans (State.only_mono (s.modChan_only c _) (by simp) fun _ h => h.elim)
      (State.only_mono (State.post_only _ _ _ _ _) (by simp_all) fun _ h => h)
  split <;> split <;> first | exact h | exact s.only_refl _ _

/-- A targeted refresh moves the channel part, its counter and its last row, and what its event moves. -/
theorem State.issueTrr_only (s : State) (c pc i row : Nat) (hc : c < 32) :
    s.only (s.issueTrr c pc i row) (.mc :: wires) rowRegs := by
  have hr : ∀ r, r = MC_TRRSTAT c ∨ r = MC_TRRLAST c → rowRegs r := by
    rintro r (rfl | rfl) <;> right <;> simp only [MC_TRRSTAT, MC_TRRLAST] <;> omega
  unfold State.issueTrr
  refine State.only_trans ?_ (State.only_mono (State.noteTrr_only _ _ _ _ _) (fun _ h => h) fun _ h => Or.inl h)
  refine State.only_trans ?_ (State.only_mono (State.setReg_only _ _ _) (by simp) fun r h => hr r (Or.inr h))
  refine State.only_trans ?_ (State.only_mono (State.incFld_only _ _ _) (by simp) fun r h => hr r (Or.inl h))
  refine State.only_mono (State.only_trans ?_ (State.busyBg_only _ _ _ _)) (by simp) fun _ h => h.elim
  refine State.only_trans ?_ (State.modPc_only _ _ _ _)
  exact State.only_trans (s.setActs_only _) (State.modBank_only _ _ _ _ _)

/-- An activate moves the channel part and the channel's count of activates. -/
theorem State.issueAct_only (s : State) (c pc i row : Nat) (hc : c < 32) : s.only (s.issueAct c pc i row) [.mc] rowRegs := by
  unfold State.issueAct
  refine State.only_trans ?_ (State.only_mono (State.add64_only _ _ _) (by simp) fun r h => ?_)
  · refine State.only_mono (State.only_trans ?_ (State.busyBg_only _ _ _ _)) (by simp) fun _ h => h.elim
    exact State.only_trans (State.modBank_only _ _ _ _ _) (State.modPc_only _ _ _ _)
  right
  rcases h with rfl | rfl <;> simp only [MC_ACT_LO] <;> omega

/-! ### Commands in their slots -/

theorem State.only_mc {s t : State} (h : s.only t [.mc] fun _ => False) : s.only t (.mc :: wires) rowRegs :=
  State.only_mono h (by simp) fun _ h => h.elim

theorem State.only_reg {s t : State} {rs : Nat → Prop} (h : s.only t [] rs) (hr : ∀ r, rs r → r / 0x100000 = 6) :
    s.only t (.mc :: wires) rowRegs := State.only_mono h (by simp) fun r h => Or.inr (hr r h)

theorem State.slotAt_only (s : State) (c pc t : Nat) : s.only (s.slotAt c pc t) (.mc :: wires) rowRegs :=
  State.only_mc (s.modPc_only _ _ _)

theorem State.slotEnds_only (s : State) (c pc : Nat) : s.only (s.slotEnds c pc) (.mc :: wires) rowRegs :=
  State.only_mc (s.modPc_only _ _ _)

theorem State.preGo_only (s : State) (c pc i : Nat) : s.only (s.preGo c pc i) (.mc :: wires) rowRegs := by
  unfold State.preGo
  dsimp only
  split
  · exact s.only_refl _ _
  · exact State.only_trans (State.only_trans (s.slotAt_only _ _ _) (State.only_mc (State.closeRow_only _ _ _ _ _)))
      (State.slotEnds_only _ _ _)

theorem State.trrGo_only (s : State) (c pc i : Nat) (hc : c < 32) : s.only (s.trrGo c pc i) (.mc :: wires) rowRegs := by
  unfold State.trrGo
  split
  · exact s.only_refl _ _
  · exact State.only_trans (State.only_trans (s.slotAt_only _ _ _) (State.issueTrr_only _ _ _ _ _ hc)) (State.slotEnds_only _ _ _)

/-- A row that opens in its slots moves the channels, their counters and what a targeted refresh's event moves. -/
theorem State.openRow_only (s : State) (c pc i row : Nat) (hc : c < 32) :
    s.only (s.openRow c pc i row) (.mc :: wires) rowRegs := by
  unfold State.openRow
  dsimp only
  split
  · exact s.only_refl _ _
  · refine State.only_trans (State.only_trans (State.only_trans (State.only_trans (State.only_trans ?_ (State.preGo_only _ _ _ _))
      (State.trrGo_only _ _ _ _ hc)) (State.slotAt_only _ _ _ _))
      (State.only_mono (State.issueAct_only _ _ _ _ _ hc) (by simp) fun _ h => h)) (State.slotEnds_only _ _ _)
    split
    · exact State.only_mc (s.modBank_only _ _ _ _)
    · exact s.only_refl _ _

/-- A column command in its slot moves the channels and their count of hits. -/
theorem State.colGo_only (s : State) (c pc i : Nat) (w : Bool) (key : Nat) (hc : c < 32) :
    s.only (s.colGo c pc i w key) (.mc :: wires) rowRegs := by
  unfold State.colGo
  refine State.only_trans (State.only_trans (s.slotAt_only c pc (colAt ((s.chan c).pc pc) i w)) ?_) (State.slotEnds_only _ _ _)
  unfold State.colMoves
  refine State.only_trans (State.only_trans (State.only_reg (State.add64_only _ _ _) fun r h => ?_)
    (State.only_mc (State.modBank_only _ _ _ _ _))) (State.only_mc (State.modPc_only _ _ _ _))
  rcases h with rfl | rfl <;> simp only [MC_HIT_LO] <;> omega

theorem State.setMode_only (s : State) (c pc : Nat) (m : Bool) (hc : c < 32) :
    s.only (s.setMode c pc m) (.mc :: wires) rowRegs := by
  unfold State.setMode
  dsimp only
  split
  · exact s.only_refl _ _
  · split
    · exact State.only_mc (s.modPc_only _ _ _)
    · refine State.only_trans (State.only_mc (s.modPc_only _ _ _)) (State.only_reg (State.incFld_only _ _ _) fun r h => ?_)
      subst h; simp only [MC_BATCHSW_COUNT, MC_BATCHSW]; omega

theorem State.noteMisses_only (s : State) (c : Nat) (ms : List Nat) (hc : c < 32) (hm : ∀ m ∈ ms, m < 8) :
    s.only (s.noteMisses c ms) (.mc :: wires) rowRegs := by
  have h1 : s.only (ms.foldl (fun s m => s.incFld (MC_MISS_COUNT c m) 1) s) (.mc :: wires) rowRegs :=
    State.only_foldl _ _ _ fun s m hmm => State.only_reg (State.incFld_only _ _ _) fun r h => by
      have := hm m hmm
      subst h; simp only [MC_MISS_COUNT, MC_MISS]; omega
  unfold State.noteMisses
  extract_lets _ h ts due s2
  have h2 : s.only s2 (.mc :: wires) rowRegs := State.only_trans h1 (State.only_mc (State.modChan_only _ _ _))
  clear_value s2 due ts h
  split
  · exact State.only_trans (State.only_trans h2 (State.only_mc (s2.modChan_only _ _)))
      (State.only_mono (State.post_only _ _ _ _ _) (by simp_all) fun _ h => Or.inl h)
  · exact h2

theorem State.pagePolicy_only (s : State) (c pc i : Nat) : s.only (s.pagePolicy c pc i) (.mc :: wires) rowRegs := by
  unfold State.pagePolicy
  dsimp only
  split
  · exact s.only_refl _ _
  · split
    · exact State.only_mc (s.modBank_only _ _ _ _)
    · exact State.only_trans (State.only_mc (s.closeRow_only _ _ _ _)) (State.only_mc (State.modBank_only _ _ _ _ _))

theorem State.countGran_only (s : State) (w : Bool) (g : Nat) : s.only (s.countGran w g) [.mc] rowRegs := by
  have hc := decodeAddr_ch_lt (64 * g)
  unfold State.countGran
  refine State.only_trans (State.only_mono (State.busyBg_only _ _ _ _) (by simp) fun _ h => h.elim)
    (State.only_mono (State.add64_only _ _ _) (by simp) fun r h => ?_)
  right
  cases w <;> rcases h with rfl | rfl <;> simp only [MC_WR_LO, MC_RD_LO, if_true, Bool.false_eq_true, if_false] <;> omega

/-- Bytes moved for a master move mortar and the master's byte counter. -/
theorem State.moved_only (s : State) (m n : Nat) :
    s.only (s.moved m n) [.mtr] fun r => r = MTR_BYTES_LO m ∨ r = MTR_BYTES_LO m + 4 :=
  State.only_trans (State.only_mono (s.modMaster_only _ _) (by simp) fun _ h => h.elim)
    (State.only_mono (State.add64_only _ _ _) (by simp) fun _ h => h)

theorem State.spend_only (s : State) (m c n : Nat) : s.only (s.spend m c n) [.mtr] fun _ => False := by
  unfold State.spend
  split
  · exact s.only_refl _ _
  · exact s.modTgt_only _ _

/-- A unit that passes an idle way leaves memory, the keep and every other part alone. -/
theorem State.unitPasses_only (s : State) (m : Nat) (w : Bool) (g n : Nat) (hm : m < 8) :
    s.only (s.unitPasses m w g n) (.mtr :: .mc :: wires) rowRegs := by
  have hc := decodeAddr_ch_lt (64 * g)
  have up {s t : State} (h : s.only t (.mc :: wires) rowRegs) : s.only t (.mtr :: .mc :: wires) rowRegs :=
    State.only_mono h (by simp_all) fun _ h => h
  have tg {s t : State} (h : s.only t [.mtr] fun _ => False) : s.only t (.mtr :: .mc :: wires) rowRegs :=
    State.only_mono h (by simp) fun _ h => h.elim
  unfold State.unitPasses
  dsimp only
  refine State.only_trans (State.only_trans (State.only_trans ?_ (up (State.pagePolicy_only _ _ _ _)))
    (up (State.only_mc (State.modBank_only _ _ _ _ _)))) (tg (State.spend_only _ _ _ _))
  have ends {u : State} (q : Prop) [Decidable q] (h : s.only u (.mtr :: .mc :: wires) rowRegs) :
      s.only (if q then u.noteMisses (decodeAddr (64 * g)).ch [m] else u) (.mtr :: .mc :: wires) rowRegs :=
    ite_has (s.only · _ _) (State.only_trans h (up (State.noteMisses_only _ _ [m] hc (by simpa using hm)))) h
  refine ends _ ?_
  · refine State.only_trans ?_ (State.only_foldl _ _ _ fun s _ _ => up (s.colGo_only _ _ _ _ _ hc))
    refine State.only_trans (State.only_trans ?_ (up (State.setMode_only _ _ _ _ hc))) (up (State.openRow_only _ _ _ _ _ hc))
    have h : s.only (((s.modTgt (decodeAddr (64 * g)).ch fun t => t.serves m).modChan (decodeAddr (64 * g)).ch fun h =>
        { h with ord := h.ord + 1 }).maxFld (MC_INGRESS_PEAK (decodeAddr (64 * g)).ch) 1) (.mtr :: .mc :: wires) rowRegs := by
      refine State.only_trans (State.only_trans (tg (s.modTgt_only _ _)) (up (State.only_mc (State.modChan_only _ _ _))))
        (up (State.only_reg (State.setFld_only _ _ _) fun r h => ?_))
      subst h; simp only [MC_INGRESS_PEAK, MC_INGRESS]; omega
    split
    · exact State.only_trans h (up (State.only_mc (State.modBank_only _ _ _ _ _)))
    · exact h

/-- A request that passes an idle way leaves memory, the keep and every other part alone. -/
theorem State.passes_only (s : State) (p : Nat) (k : Pkt) (hp : p < 8) :
    s.only (s.passes p k) (.mtr :: .mc :: wires) moveRegs := by
  unfold State.passes
  refine State.only_trans ?_ (State.only_mono (State.moved_only _ _ _) (by simp) fun r h => Or.inr ?_)
  · exact State.only_foldl _ _ _ fun s u _ => State.only_mono (s.unitPasses_only _ _ _ _ hp) (fun _ h => h) fun _ h => Or.inl h
  · rcases h with rfl | rfl <;> simp only [MTR_BYTES_LO] <;> omega

theorem State.setMtr_only (s : State) (m : Mtr) : s.only { s with mtr := m } [.mtr] fun _ => False := by
  refine ⟨fun p => ?_, fun _ => Or.inr rfl⟩
  cases p <;> first | exact Or.inr rfl | exact Or.inl (by simp)

/-- An access that is issued stands in mortar and nowhere else. -/
theorem State.follow_only (s : State) (m : Nat) (a : Ask) : s.only (s.follow m a) [.mtr] fun _ => False := by
  unfold State.follow
  refine State.only_trans ?_ (State.only_foldl _ _ _ fun s u _ => s.modTgt_only _ _)
  exact State.only_trans (s.setMtr_only _) (State.modMaster_only _ _ _)

/-- What waits at a port goes into mortar and nowhere else. -/
theorem State.serve_only (s : State) (m n : Nat) : s.only (s.serve m n) [.mtr] fun _ => False := by
  induction n generalizing s with
  | zero => exact s.only_refl _ _
  | succ n ih =>
    unfold State.serve
    split
    · exact s.only_refl _ _
    · split
      · exact s.only_refl _ _
      · exact State.only_trans (State.only_trans (s.modMaster_only _ _) (State.follow_only _ _ _)) (ih _)

/-- An access of one of the device's own masters stands at its port or in mortar and nowhere else. -/
theorem State.ask_only (s : State) (m op : Nat) (w : Own) (us : List (Nat × Nat)) :
    s.only (s.ask m op w us) [.mtr] fun _ => False :=
  State.only_trans (s.modMaster_only _ _) (State.serve_only _ _ _)

/-- Granules that return move mortar and the longest latency seen. -/
theorem State.workBack_only (s : State) (w : Own) (n : Nat) (hm : ∀ x ∈ s.mtr.works, x.master < 8) :
    s.only (s.workBack w n) [.mtr] fun r => r / 0x100000 = 7 := by
  have up {s t : State} (h : s.only t [.mtr] fun _ => False) : s.only t [.mtr] fun r => r / 0x100000 = 7 :=
    State.only_mono h (by simp) fun _ h => h.elim
  unfold State.workBack
  split
  · exact s.only_refl _ _
  · rename_i x hx
    have hlt := hm x (List.mem_of_find?_eq_some hx)
    have h : s.only (((s.modMaster x.master fun t => { t with ost := t.ost - min n x.left })).maxFld (MTR_MAXLAT_NS x.master)
        (s.clock - x.issued)) [.mtr] fun r => r / 0x100000 = 7 := by
      refine State.only_trans (up (s.modMaster_only _ _)) (State.only_mono (State.setFld_only _ _ _) (by simp) fun r h => ?_)
      rw [h]; simp only [MTR_MAXLAT_NS, MTR_MAXLAT]; omega
    refine State.only_trans ?_ (up (State.serve_only _ _ _))
    split
    · exact State.only_trans h (up (State.setMtr_only _ _))
    · have h' := fun ws => State.only_trans h (up (State.setMtr_only _ ws))
      split
      · exact State.only_trans (h' _) (up (State.ask_only _ _ _ _ _))
      · exact State.only_trans (h' _) (up (State.ask_only _ _ _ _ _))
      · exact State.only_trans (h' _) (up (State.ask_only _ _ _ _ _))
      · exact h' _

end Sys2Proof.Machine
end

