-- ==== Sys2Proof/Laws/Ranges.lean ====
section
/-! SUPPORT. Sets of numbers as ranges: what belongs to a set after a number or a range is put in or taken out. -/

namespace Sys2Proof.Machine

theorem rmem_rputRange (r : Rng) (lo m j : Nat) :
    (rmem (rputRange r lo m) j = true) ↔ (lo ≤ j ∧ j < lo + m) ∨ rmem r j = true := by
  induction r generalizing lo m with
  | nil => simp [rputRange, rmem]
  | cons e t ih =>
    obtain ⟨a, n⟩ := e
    unfold rputRange
    split
    · simp [rmem]
    · split
      · by_cases hr : rmem t j = true <;> simp [rmem, hr] <;> omega
      · split
        · rw [ih]; by_cases hr : rmem t j = true <;> simp [rmem, hr] <;> omega
        · simp only [rmem, Bool.or_eq_true, ih]; by_cases hr : rmem t j = true <;> simp [hr] <;> omega

theorem rmem_append (r t : Rng) (j : Nat) : (rmem (r ++ t) j = true) ↔ rmem r j = true ∨ rmem t j = true := by
  induction r with
  | nil => simp [rmem]
  | cons e r ih => simp [rmem, ih, or_assoc]

theorem rmem_rdelRange (r : Rng) (lo m j : Nat) :
    (rmem (rdelRange r lo m) j = true) ↔ rmem r j = true ∧ ¬(lo ≤ j ∧ j < lo + m) := by
  induction r with
  | nil => simp [rdelRange, rmem]
  | cons e t ih =>
    obtain ⟨a, n⟩ := e
    unfold rdelRange
    dsimp only
    rw [rmem_append, ih]
    split
    · by_cases hr : rmem t j = true <;> simp [rmem, hr] <;> omega
    · rw [rmem_append]
      split <;> split <;> by_cases hr : rmem t j = true <;> simp [rmem, hr] <;> omega

/-- A number put into a set. -/
theorem rmem_radd (r : Rng) (k j : Nat) : (rmem (radd r k) j = true) ↔ j = k ∨ rmem r j = true := by
  unfold radd
  split
  · constructor
    · exact Or.inr
    · rintro (rfl | h) <;> assumption
  · rw [rmem_rputRange]; by_cases hr : rmem r j = true <;> simp [hr] <;> omega

/-- A number taken out of a set. -/
theorem rmem_rdel (r : Rng) (k j : Nat) : (rmem (rdel r k) j = true) ↔ j ≠ k ∧ rmem r j = true := by
  unfold rdel; rw [rmem_rdelRange]; by_cases hr : rmem r j = true <;> simp [hr] <;> omega

theorem rmem_raddRange (r : Rng) (lo m j : Nat) :
    (rmem (raddRange r lo m) j = true) ↔ (lo ≤ j ∧ j < lo + m) ∨ rmem r j = true := by
  unfold raddRange
  split
  · by_cases hr : rmem r j = true <;> simp [hr] <;> omega
  · rw [rmem_rputRange, rmem_rdelRange]; by_cases hr : rmem r j = true <;> simp [hr] <;> omega

theorem rmem_runion (a b : Rng) (j : Nat) : (rmem (runion a b) j = true) ↔ rmem a j = true ∨ rmem b j = true := by
  unfold runion
  induction b generalizing a with
  | nil => simp [rmem]
  | cons e t ih =>
    rw [List.foldl_cons, ih, rmem_raddRange]
    simp only [rmem, Bool.or_eq_true, Bool.and_eq_true, decide_eq_true_eq]; tauto

theorem rmem_rdiff (a b : Rng) (j : Nat) : (rmem (rdiff a b) j = true) ↔ rmem a j = true ∧ ¬rmem b j = true := by
  unfold rdiff
  induction b generalizing a with
  | nil => simp [rmem]
  | cons e t ih =>
    rw [List.foldl_cons, ih, rmem_rdelRange]
    simp only [rmem, Bool.or_eq_true, Bool.and_eq_true, decide_eq_true_eq]; tauto

end Sys2Proof.Machine
end

