-- ==== Sys2Proof/Tests/Slice0.lean ====
section
/-! SUPPORT. The model's own tests: ill-formed commands that well-formedness refuses, the manual's worked examples, and for every
statement with hypotheses a concrete state and operands that meet them (`wit_<statement>`), each clause at its own input. -/

namespace Sys2Proof.Tests

open Sys2Proof Sys2Proof.Machine

set_option maxRecDepth 100000

/-! ### Helper states -/

/-- A device in READY, everything else as reset leaves it. -/
def rdy : State := { State.reset with dev := .ready }

def inDev (d : Dev) : State := { State.reset with dev := d }

def aK : Access := { path := .keystone, requester := 0, tag := 0, hop := none }
def aS : Access := { path := .sideband, requester := 0, tag := 0, hop := none }
def aP (e : Endpoint) : Access := { path := .port 0, requester := e, tag := 7, hop := none }

/-- The stack with the coordinate (1, 2). -/
def placed (d : Dev) : State := (inDev d).setReg LTC_COORD 0x80000082

/-- In READY with that coordinate. -/
def home : State := placed .ready

/-- The state with one port as given. -/
def withPort (s : State) (p : Nat) (x : Port) : State := s.modPort p fun _ => x

/-- A packet to the coordinate (1, 2) from (3, 4). -/
def pk (opc vc addr len : Nat) (pay : List Byte) : Pkt where
  opc := BitVec.ofNat 5 opc
  vc := BitVec.ofNat 3 vc
  hops := 1
  dir := false
  dest := 0x82
  leg := true
  nbr := false
  src := 0x184
  tag := 9
  addr := BitVec.ofNat 40 addr
  len := BitVec.ofNat 8 len
  b14 := 0
  b15 := 0
  payload := pay

/-- A descriptor of 64 bytes: an opcode, and what stands from byte 8. -/
def dsc (opc : Nat) (rest : List Byte) : List Byte := (BitVec.ofNat 8 opc :: (List.replicate 7 0 ++ rest ++ List.replicate 56 0)).take 64

/-- Queue 0 enabled and ACTIVE with one descriptor fetched. -/
def withQ (s : State) (d : List Byte) : State :=
  (s.setReg (WQ_CFG 0) 0xB8880000).modQueue 0 fun _ => { st := .active, fetched := [d] }

/-- The keep with something of it changed. -/
def withKeep (s : State) (f : Keep → Keep) : State := { s with keep := f s.keep }

/-- Channel 0 as given. -/
def withChan (s : State) (h : Chan) : State := s.modChan 0 fun _ => h

/-- Job slot 0 as given. -/
def withJob (s : State) (j : Job) : State := s.modJob 0 fun _ => j

/-- Every channel ACTIVE. -/
def up (s : State) : State := { s with mc := { s.mc with chans := s.mc.chans.map fun h => { h with st := .active } } }

def unit0 (m : Nat) : MUnit := { xact := 0, master := m, addr := 0, gran := 1, op := 0 }

/-- A RD, a WR of the last granule, and the three atomics. -/
def memRd : Pkt := pk 1 0 0x1000 0 []
def memWr : Pkt := pk 2 0 0x17FFFFFFC0 0 (List.replicate 64 0x5A)
def memFadd : Pkt := pk 3 0 8 0 (List.replicate 16 1)
def memCas64 : Pkt := pk 4 0 16 0 (List.replicate 16 0)
def memCas128 : Pkt := pk 5 0 48 0 (List.replicate 32 0)

/-- CHISEL_RUN of the local program at 0, its output at 0x10000. -/
def runDsc : List Byte := dsc 0x10 (leBytes 8 0 ++ leBytes 8 0x10000 ++ leBytes 8 4096 ++ leBytes 8 0x20000 ++ leBytes 8 0)

/-! ### Ill-formed commands

For each check of `Instr.wf` a term that it refuses beside one that it admits. -/

theorem test_wf_keep_slot :
    (Instr.pageProgramComplete 1 14155776 true).wf = false ∧ (Instr.pageProgramComplete 2 0 true).wf = false ∧
    (Instr.pageProgramComplete 1 14155775 true).wf = true := by decide

theorem test_wf_local_address :
    (Instr.regLoRead aK (2 ^ 40)).wf = false ∧ (Instr.regHiRead aK (2 ^ 40)).wf = false ∧ (Instr.regLoWrite aK (2 ^ 40) 0).wf = false ∧
    (Instr.regHiWrite aK (2 ^ 40) 0).wf = false ∧ (Instr.registerWrite aK (2 ^ 40) 0).wf = false ∧
    (Instr.registerWrite aK (2 ^ 40 - 1) 0).wf = true := by decide

theorem test_wf_frames :
    (Instr.privateWriteReadOp [2, 0, 0, 0, 15]).wf = false ∧ (Instr.privateWriteReadOp [1, 0, 0, 0, 16]).wf = false ∧
    (Instr.privateWriteReadOp [1, 0, 0, 0, 15]).wf = true ∧ (Instr.privateWriteWriteOp [2, 0, 0, 0, 0, 1, 2, 3]).wf = false ∧
    (Instr.privateWriteWriteOp [2, 0, 0, 0, 0, 1, 2, 3, 4]).wf = true ∧ (Instr.privateWriteInvalid [1, 0, 0, 0, 15]).wf = false ∧
    (Instr.privateWriteInvalid []).wf = true := by decide

theorem test_wf_semaphore :
    (Instr.semAcquire aK 32 0).wf = false ∧ (Instr.semRelease aK 32 0).wf = false ∧ (Instr.semRenew aK 32 0).wf = false ∧
    (Instr.semLeaseExpiry 32).wf = false ∧ (Instr.semAcquire aK 31 0).wf = true ∧ (Instr.eventMsgDeferredSend 4).wf = false := by decide

theorem test_wf_lanes :
    (Instr.capabilityMarkerReceived 0 ⟨16, []⟩).wf = false ∧ (Instr.capabilityMarkerReceived 0 ⟨17, List.replicate 8 0⟩).wf = false ∧ (Instr.alignDone 0 0 17).wf = false ∧
    (Instr.fomWindowEnd 0 17 (List.replicate 32 0) ⟨0, 0⟩).wf = false ∧ (Instr.fomWindowEnd 0 16 [] ⟨0, 0⟩).wf = false ∧
    (Instr.fomWindowEnd 0 16 (List.replicate 32 0) ⟨0, 0⟩).wf = true ∧ (Instr.alignmentMarkerReceived 0 0 [0]).wf = false ∧
    (Instr.laneLossOfLock 0 17).wf = false ∧ (Instr.markerMissing 0 17).wf = false ∧ (Instr.laneLossOfLock 0 16).wf = true := by decide

theorem test_wf_flits :
    let slot : List Byte := List.replicate 32 0
    (Instr.dataFlitReceived 0 [⟨17, [slot]⟩] []).wf = false ∧ (Instr.idleFlitReceived 0 [⟨0, [[0]]⟩] []).wf = false ∧
    (Instr.initFlitReceived 0 [⟨3, [slot]⟩, ⟨3, []⟩] []).wf = false ∧
    (Instr.idleFlitReceived 0 [] [⟨2, 0, 0⟩, ⟨2, 1, 0⟩]).wf = false ∧
    (Instr.initFlitReceived 0 [⟨3, [slot]⟩, ⟨16, [slot, slot]⟩] [⟨16, 2, 1⟩]).wf = true := by decide

theorem test_wf_packets :
    (Instr.rd 0 memWr []).wf = false ∧ (Instr.wr 0 memRd []).wf = false ∧ (Instr.fadd 0 memRd []).wf = false ∧
    (Instr.cas64 0 memCas128 []).wf = false ∧ (Instr.cas128 0 memCas64 []).wf = false ∧ (Instr.msgReceived 0 memRd).wf = false ∧
    (Instr.rstPacket 0 memRd).wf = false ∧ (Instr.rspReceived 0 memRd).wf = false ∧ (Instr.reservedOpcPacket 0 memRd).wf = false ∧
    (Instr.reservedOpcPacket 0 (pk 6 0 0 0 [])).wf = true ∧ (Instr.packetTransit 0 { memRd with nbr := true }).wf = false ∧
    (Instr.hopPacketForward 0 memRd).wf = false ∧ (Instr.rd 0 memRd []).wf = true := by decide

theorem test_wf_descriptors :
    (Instr.nop 0 (dsc 1 [])).wf = false ∧ (Instr.fence 0 (dsc 0 [])).wf = false ∧ (Instr.fence 0 (dsc 1 [])).wf = true ∧ (Instr.chiselRun 0 (dsc 0x11 [])).wf = false ∧
    (Instr.copy 0 (dsc 0x10 [])).wf = false ∧ (Instr.fill 0 (dsc 0x11 [])).wf = false ∧ (Instr.keepCheckpoint 0 (dsc 0x21 [])).wf = false ∧
    (Instr.keepArm 0 (dsc 0x22 [])).wf = false ∧ (Instr.keepDisarm 0 (dsc 0x21 [])).wf = false ∧ (Instr.keepStatus 0 (dsc 0x24 [])).wf = false ∧
    (Instr.keyShareSupply 0 (dsc 0x25 [])).wf = false ∧ (Instr.keyShareClear 0 (dsc 0x25 [])).wf = false ∧
    (Instr.holdupCharacterize 0 (dsc 0x24 [])).wf = false ∧ (Instr.bistRequest 0 (dsc 0x31 [])).wf = false ∧
    (Instr.telemetrySnapshot 0 (dsc 0x30 [])).wf = false ∧ (Instr.repairQuery 0 (dsc 0x30 [])).wf = false ∧
    (Instr.fwStage 0 (dsc 0x41 []) []).wf = false ∧ (Instr.fwActivate 0 (dsc 0x40 [])).wf = false ∧ (Instr.nop 0 [1]).wf = false ∧ (Instr.nop 0 (dsc 0 [])).wf = true := by decide

theorem test_wf_keep_units :
    (Instr.restoreUnitDone 1572864 []).wf = false ∧ (Instr.restoreUnitDone 0 [16]).wf = false ∧ (Instr.touchFetchDone 1572864 [] 0).wf = false ∧
    (Instr.touchFetchDone 0 [16] 0).wf = false ∧ (Instr.restoreUnitDone 1572863 [0, 15]).wf = true ∧
    (Instr.keepRecoveryDone 1610612736 true).wf = false ∧ (Instr.keepRecoveryDone 1610612735 true).wf = true := by decide

theorem test_wf_bringup :
    let e : Eye := { width := 256, centre := 255 }
    let tsvs := List.replicate 180 e
    (Instr.keepBusTrained [e] tsvs).wf = false ∧ (Instr.keepBusTrained tsvs [e]).wf = false ∧ (Instr.keepBusTrained tsvs tsvs).wf = true ∧
    (Instr.channelTrainingDone 0 (List.replicate 120 { e with width := 257 }) (List.replicate 8 e)).wf = false ∧
    (Instr.channelTrainingDone 0 (List.replicate 119 e) (List.replicate 8 e)).wf = false ∧
    (Instr.channelTrainingDone 0 (List.replicate 120 e) (List.replicate 8 { e with centre := 256 })).wf = false ∧
    (Instr.channelTrainingDone 0 (List.replicate 120 e) (List.replicate 8 e)).wf = true := by decide +kernel

/-- A code word of R301 has the value 0 at the eight roots, and one symbol in error shows (R302). -/
theorem test_rs_word :
    let w := rsWord 0x12345 (List.replicate 63 0 ++ [0xA5])
    w.length = 42 ∧ (∀ j < 8, rsSyndrome w j = 0) ∧ rsSyndrome (w.set 3 1) 0 ≠ 0 := by decide +kernel

theorem test_wf_rows : (Instr.rowRepairHold 0 0 0 98304 []).wf = false ∧ (Instr.rowRepairHold 0 0 0 98303 []).wf = true := by decide

theorem test_wf_thermal :
    (Instr.segmentSample []).wf = false ∧ (Instr.segmentSample (List.replicate 40 (0, 0))).wf = true ∧ (Instr.sensorConversion []).wf = false ∧
    (Instr.sensorConversion (List.replicate 88 none)).wf = true ∧ (Instr.thermalModelUpdate [] 0).wf = false ∧
    (Instr.thermalModelUpdate (List.replicate 80 0) 0).wf = true := by decide

theorem test_wf_calibration :
    (Instr.rollVisitStart (.data 32 0)).wf = false ∧ (Instr.rollVisitStart (.data 0 2)).wf = false ∧ (Instr.sweepDone (.cmd 32) []).wf = false ∧
    (Instr.visitIncompleteTimeout (.keep 2)).wf = false ∧ (Instr.rollVisitStart (.data 31 1)).wf = true ∧
    (Instr.trackStepTimer [] []).wf = false ∧ (Instr.trackImpedanceTimer 0 []).wf = false ∧ (Instr.trackOffsetTimer []).wf = false ∧
    (Instr.scanEnter true [20]).wf = false ∧ (Instr.scanEnter true [19]).wf = true := by decide

/-! ### The manual's worked examples -/

/-- The example of R45: host A at (3, 5) acquires with epoch 7 and stalls, the lease ends, host B at (9, 5) on P1 acquires. -/
def semRun : State :=
  let s := rdy.semCommand { path := .port 0, requester := 3 * 128 + 5, tag := 0, hop := none } 4 1 7
  match execSemLeaseExpiry 4 { s with clock := 100000000 } with
  | .next s => s.semCommand { path := .port 1, requester := 9 * 128 + 5, tag := 0, hop := none } 4 1 2
  | _ => s

/-- The register of the example of R45, and the release by host A that changes nothing. -/
theorem test_semaphore_example :
    semRun.view (KS_SEM 4) = 0xC1215000 ∧
    (semRun.semCommand { path := .port 0, requester := 3 * 128 + 5, tag := 0, hop := none } 4 2 7).view (KS_SEM 4) = 0xC1215000 := by
  decide

/-- The example of R56: 8 steps and f = 1 at j = 11. -/
theorem test_fom_example : fomOf ([0, 0, 0, 0, 0, 0, 0, 0, 0, 3, 5, 40] ++ List.replicate 20 0) = 89 ∧ fomClass 89 = 1 := by decide

/-- The example of R84: a masked WR of 3 granules is 240 B and 8 slots. -/
theorem test_masked_wr_example :
    let k := { pk 2 2 0x1000 2 (List.replicate 224 0) with b14 := 1 }
    pktLen k = 240 ∧ (pktBytes k).length = 240 ∧ pktSlots k = 8 ∧ maskBlock k = 32 := by decide

/-- The first packet of the example of R99. -/
def exRd : Pkt :=
  { opc := 1, vc := 0, hops := 0, dir := false, dest := 0x109, leg := false, nbr := false, src := 0x703, tag := 0x42
    addr := 0x0320000400, len := 3, b14 := 0, b15 := 0, payload := [] }

/-- A stack on X and Y rings of 16, with the partners of its ports. -/
def ring16 (me : Nat) (nbrs : List (Nat × Nat)) : State :=
  let s := (rdy.setReg LTC_COORD (0x80000000 + me)).setReg LTC_RINGSIZE 0x00100010
  nbrs.foldl (fun s x => (s.setFld (LTC_NBR_CVALID x.1) 1).setFld (LTC_NBR_ENDPOINT x.1) x.2) s

/-- The example of R99: the header on the way up. -/
theorem test_header_example :
    pktHeader exRd = [0x01, 0x00, 0x09, 0x01, 0x03, 0x07, 0x42, 0x00, 0x00, 0x04, 0x00, 0x20, 0x03, 0x03, 0x00, 0x00] := by decide

/-- The example of R99: (15,3) to partner 0 on REQ1, (0,3) on to partner 2, (2,3) turning onto the Y ring. -/
theorem test_route_example_ring :
    routeReceive (ring16 (15 * 128 + 3) [(1, 3)]) exRd = .out 1 { exRd with hops := 1, vc := 1 } ∧
    routeReceive (ring16 3 [(1, 2 * 128 + 3)]) { exRd with hops := 1, vc := 1 } = .out 1 { exRd with hops := 2, vc := 1 } ∧
    routeReceive (ring16 (2 * 128 + 3) [(3, 2 * 128 + 4)]) { exRd with hops := 2, vc := 1 } = .out 3 { exRd with hops := 0, vc := 0, leg := true } ∧
    routeReceive (ring16 (2 * 128 + 9) []) { exRd with hops := 5, leg := true } = .here := by decide

/-- The response of the example of R99. -/
theorem test_response_example :
    let r := mkRsp (2 * 128 + 9) { exRd with leg := true, hops := 6 } 0 0 (List.replicate 256 0)
    pktLen r = 272 ∧ pktSlots r = 9 ∧ routeInject (ring16 (2 * 128 + 9) []) r = .out 0 { r with dir := true } ∧
    (pktHeader { r with dir := true }).take 11 = [0x50, 0x80, 0x03, 0x07, 0x09, 0x01, 0x42, 0x00, 0x00, 0x01, 0x03] := by decide

/-- The example of R140. -/
theorem test_address_example :
    decodeAddr 0x0543213040 = { ch := 1, pc := 1, bank := 12, row := 21554, gran := 1, byte := 0 } ∧
    (decodeAddr 0x0543213140).ch = 0 ∧ encodeAddr (decodeAddr 0x0543213040) = 0x0543213040 := by decide

/-- The example of R185 from its second step. -/
def mtrShadow (strict : Nat) : State :=
  let s := [160, 160, 160, 160, 1000, 40, 8, 4].zipIdx.foldl (fun s x => s.setFld (MTR_MINBW_GBPS x.2) x.1) rdy
  (s.setFld (MTR_OSTD_GRAN 4) 4000).setFld MTR_CTL_ADMIT_STRICT strict

def mtrHot : State := let s := (mtrShadow 0).mtrCommit
  { s with mc := { s.mc with band := setAt s.mc.band 12 2 } }

theorem test_guarantee_oversubscribed :
    let s := (mtrShadow 1).mtrCommit
    s.fld MTR_COMMIT_STAT_SUM = 1692 ∧ s.fld MTR_COMMIT_STAT_FLOOR = 1480 ∧ s.fld MTR_COMMIT_STAT_RESULT = 2 ∧ s.gAct 4 = 0 := by
  decide

theorem test_guarantee_example :
    (mtrShadow 0).mtrCommit.fld MTR_COMMIT_STAT_RESULT = 1 ∧ mtrHot.fNow = 1640 ∧
    (List.range 8).map mtrHot.gEff = [155, 155, 155, 155, 969, 38, 7, 3] := by decide

/-- The first program of ch. 8's examples: the orders table. -/
def prOrders : List Byte :=
  let z := fun n => List.replicate n (0 : Byte)
  let term := fun (h : List Byte) (a b : List Byte) => h ++ z (16 - h.length) ++ a ++ z (16 - a.length) ++ b ++ z (32 - b.length)
  [0x01, 0x00, 0x04, 0x04, 0x02, 0x00, 0x00, 0x00, 0x00, 0x00, 0x00, 0x00, 0x02, 0x00, 0x00, 0x00,
   0x40, 0x00, 0x00, 0x00, 0x00, 0xE1, 0xF5, 0x05, 0, 0, 0, 0, 0, 0, 0, 0, 0x10, 0x02] ++ z 30 ++
  ([0x10, 0, 0, 0, 0x08, 0, 0, 0] ++ z 24) ++ ([0, 0, 0, 0, 0x0A, 0, 0, 0] ++ z 24) ++
  ([0x31, 0, 0, 0, 0x10, 0, 0, 0] ++ z 24) ++ ([0x20, 0x01, 0, 0, 0x18, 0, 0x0B, 0] ++ z 24) ++
  term [0x01, 0x01] [0x03] [] ++ term [0x07, 0x02] [0xE8, 0x03] [0x50, 0xC3] ++ term [0x01, 0x01] [0x05] [] ++
  term [0x0B, 0x03] [] [] ++ ([0x03, 0, 0x0C, 0] ++ z 12) ++ [0x03, 0, 0, 0x02, 0, 0x08, 0, 0] ++ z 16 ++ [0x02, 0x01, 0x02, 0x03] ++ z 36

/-- A row of the orders table: region, status, amount, whether the ship date is null. -/
def order (region status : Nat) (amount : Nat) (null : Bool) : List Byte :=
  List.replicate 8 0 ++ leBytes 2 region ++ [BitVec.ofNat 8 status, if null then 1 else 0] ++ List.replicate 4 0 ++ leBytes 8 amount ++
  List.replicate 40 0

def orders : RowMem := fun a =>
  (order 7 3 12500 false ++ order 7 3 75000 false ++ order 2 5 880 true ++ order 7 5 (2 ^ 64 - 400) false).getD (a - 0x0200000000) 0

theorem test_orders_program :
    prOrders.length = 528 ∧ progBad prOrders = false ∧ pOutOff prOrders = 464 ∧ pNeed prOrders = 20 ∧
    rowGrans prOrders 0 = [0x0200000000 / 64] := by decide +kernel

theorem test_orders_rows : (List.range 4).map (selected prOrders orders) = [true, false, true, false] := by decide +kernel

theorem test_orders_entry : entryBytes prOrders (rowGroup prOrders orders 0) =
    [7, 0] ++ List.replicate 14 0 ++ [1] ++ List.replicate 15 0 ++ [0xD4, 0x30] ++ List.replicate 14 0 ++ [0xD4, 0x30] ++
    List.replicate 14 0 := by decide +kernel

/-- The second: the customer table, columnar. -/
def prCustomers : List Byte :=
  let z := fun n => List.replicate n (0 : Byte)
  let field := fun (h : List Byte) (col nul : Nat) => h ++ z 6 ++ leBytes 8 col ++ leBytes 8 nul ++ z 8
  ([0x01, 0x01, 0x03, 0x02, 0x01, 0x00, 0x00, 0x00] ++ z 12 ++ leBytes 4 5 ++ leBytes 8 1000000 ++ leBytes 4 432 ++ leBytes 4 384 ++ z 24) ++
  field [0x20, 0] 0x0400000000 0 ++ field [0x43, 0] 0x0410000000 0 ++ field [0x31, 0x01] 0x0420000000 0x0430000000 ++
  ([0x09, 0x01, 0x00, 0x03] ++ z 12 ++ [0x4B, 0x41, 0x52] ++ z 45) ++ ([0x08, 0, 0, 0, 3, 0, 0, 0] ++ z 56) ++
  ([3, 0] ++ z 14) ++ ([0x02, 0x06, 0x02, 0x00, 0, 0, 0, 0, 0, 2] ++ z 54) ++ z 16 ++
  ([0x11] ++ z 15) ++ ([0x28] ++ z 15) ++ ([0x5D] ++ z 15)

def customers : RowMem := fun a =>
  let name := fun (s : List Byte) => s ++ List.replicate (16 - s.length) 0
  if a < 0x0410000000 then (leBytes 4 17 ++ leBytes 4 40 ++ leBytes 4 93 ++ leBytes 4 55 ++ leBytes 4 17).getD (a - 0x0400000000) 0
  else if a < 0x0420000000 then
    (name [0x4B, 0x41, 0x52, 0x53, 0x54, 0x45, 0x4E] ++ name [0x4B, 0x41, 0x4D, 0x41, 0x4C] ++
     name [0x4B, 0x41, 0x52, 0x49, 0x4E, 0x41] ++ name [0x4B, 0x41, 0x52, 0x4C] ++ name [0x42, 0x4F]).getD (a - 0x0410000000) 0
  else if a < 0x0430000000 then
    (leBytes 8 250 ++ leBytes 8 90 ++ leBytes 8 0 ++ leBytes 8 (2 ^ 64 - 20) ++ leBytes 8 5).getD (a - 0x0420000000) 0
  else ([4] : List Byte).getD (a - 0x0430000000) 0

theorem test_customers_program : prCustomers.length = 432 ∧ progBad prCustomers = false ∧ pOutOff prCustomers = 304 := by decide

theorem test_customers_rows : (List.range 5).map (selected prCustomers customers) = [true, false, true, false, false] := by decide

theorem test_customers_records :
    compactRec prCustomers customers 0 = [0x40, 0x42, 0x0F, 0, 0, 0, 0, 0] ++ List.replicate 8 0 ++ [0x11, 0, 0, 0, 0xFA] ++ List.replicate 11 0 ∧
    compactRec prCustomers customers 2 = [0x42, 0x42, 0x0F, 0, 0, 0, 0, 0, 2, 0, 0, 0, 0, 0, 0, 0, 0x5D] ++ List.replicate 15 0 := by
  decide

/-- The example of R251: a store of 0.40 F, before and after its characterisation, and sagging to 10.0 V. -/
def heldUp (cap : Nat) (uf : Option Nat) : State :=
  let s := (rdy.setReg KEEP_HOLDCAP cap).setFld KEEP_HOLDVMIN_MV 5000
  match uf with
  | some u => (s.setFld KEEP_HOLDCHK_VALID 1).setFld KEEP_HOLDCHK_UF u
  | none => s

theorem test_energy_example :
    (heldUp 400000 none).ceff = 320000 ∧ (heldUp 400000 (some 380000)).ceff = 380000 ∧
    (heldUp 400000 (some 380000)).energyMj 12000000 = 16218 ∧ dmaxOf 16218 = 9447669 ∧
    (heldUp 400000 (some 380000)).energyMj 10000000 = 9112 ∧ dmaxOf 9112 = 5308124 := by decide

/-- The example of R405: 0.75 F at 13.5 V. -/
theorem test_energy_designed :
    (heldUp 750000 none).energyMj 13500000 = 37098 ∧ dmaxOf 37098 = 21611151 ∧
    (heldUp 750000 (some 740000)).energyMj 13500000 = 46455 ∧ dmaxOf 46455 = 25165824 := by decide

/-- The sweep of the example of R348. -/
theorem test_sweep_example :
    let ok := (List.range 39).map (fun i => 60 + 4 * i) ++ [57, 58, 59, 213, 214]
    sweepEdges ok = some (57, 214) ∧ eyeOf ok = (158, 136) := by decide

/-- The row index of the example of R362. -/
theorem test_row_index_example :
    tLoc (rowIndexTarget 40969513) = { ch := 9, pc := 1, bank := 4, row := 40009, gran := 0, byte := 0 } ∧
    targetIndex (rowIndexTarget 40969513) = 40969513 := by decide

/-- The configuration register of ch. 5's example. -/
theorem test_queue_example :
    let s := rdy.writeCfg 5 0xFA100703
    s.sqLen 5 = 256 ∧ s.cqLen 5 = 256 ∧ s.depth 5 = 16 ∧ s.qHost 5 = 14 * 128 + 3 ∧ (s.queue 5).st = .active ∧
    entryOf 0x04000000 3 0x10 0 0x12 true = [0, 0, 0, 4, 0, 0, 0, 0, 3, 0, 0x10, 0, 0, 0x12, 0, 0x80] := by decide

/-! ### Witnesses: queue, registers, sideband, semaphores, events -/

theorem wit_StepRunsFront : ({ rdy with pending := [.bypass] } : State).pending = Instr.bypass :: [] := by decide

theorem wit_TickOnEmptyQueue :
    State.reset.pending = [] ∧
    (let s := withPort rdy 3 { st := .active, initRx := true, unacked := 1 }
     s.pending = [] ∧ (s.port 3).st = .active ∧ (s.port 3).initRx = true ∧ 0 < (s.port 3).unacked) := by decide

theorem wit_RegisterWrites :
    (inDev .aux).gateOpen aS = true ∧ 0x700000 < 0xF00000 ∧ 0x700000 % 4 = 0 ∧ (inDev .aux).reachable aS.path 7 = false ∧
    rdy.reachable aK.path (MTR_CTL / 0x100000) = true ∧ MTR_CTL / 0x100000 = 7 ∧ MTR_CTL ≠ MTR_COMMIT ∧ isLo MTR_CTL = false ∧
    isHi MTR_CTL = false ∧ rdy.gateOpen aK = true ∧ rdy.reachable aK.path (0x7FFFFC / 0x100000) = true ∧ rowOf 0x7FFFFC = none ∧
    isLo 0x7FFFFC = false ∧ isHi 0x7FFFFC = false := by decide

/-- The latches that the second clauses of the pair statements ask for. -/
def latched (r : Nat) (rd : Bool) : State := rdy.setLatch aK (some { lo := r, requester := 0, isRead := rd, half := 5 })

theorem wit_PairReads :
    (latched KS_TIME_LO true).served aK KS_TIME_LO = true ∧ isLo KS_TIME_LO = true ∧
    (latched KS_TIME_LO true).latch aK = some { lo := KS_TIME_LO, requester := aK.requester, isRead := true, half := 5 } := by decide

theorem wit_PairWrites :
    (latched KS_TIME_LO false).served aK KS_TIME_LO = true ∧
    (latched KS_TIME_LO false).latch aK = some { lo := KS_TIME_LO, requester := aK.requester, isRead := false, half := 5 } ∧
    (latched (LTC_RXBYTES_LO 3) false).served aK (LTC_RXBYTES_LO 3) = true ∧ isLo (LTC_RXBYTES_LO 3) = true := by decide

theorem wit_PairRetries :
    rdy.served aK KS_TIME_LO = true ∧ rdy.latched aK (KS_TIME_LO + 4) true = none ∧
    (latched KS_TIME_LO true).latched aK (KS_TIME_LO + 4) false = none := by decide

theorem wit_SidebandCommands :
    (inDev .aux).dev ≠ .off ∧ (inDev .aux).ks.dynAddr = none ∧
    ((0x50 : BitVec 7).toNat = 0x50 + (inDev .aux).ks.straps / 2 % 8 ∧ (0x51 : BitVec 7).toNat ≠ 0x50 + (inDev .aux).ks.straps / 2 % 8) ∧
    ({ rdy with ks := { rdy.ks with dynAddr := some 8, result := some (1, 0) } } : State).ks.dynAddr = some 8 ∧
    ({ rdy with ks := { rdy.ks with result := some (1, 0) } } : State).ks.result = some (1, 0) := by decide

/-- A read of MTR_CTL over the sideband: operation 1, block 7, offset 0. -/
def rdFrame (r : Nat) : List Byte := [1, BitVec.ofNat 8 (r / 0x100000)] ++ leBytes 3 (r % 0x100000)
def wrFrame (r : Nat) : List Byte := [2, BitVec.ofNat 8 (r / 0x100000)] ++ leBytes 3 (r % 0x100000) ++ [1, 0, 0, 0]

theorem wit_PrivateWrites :
    frameReads (rdFrame MTR_CTL) = true ∧ frameAddr (rdFrame MTR_CTL) = 0xFF00000000 + MTR_CTL ∧ rdy.reachable .sideband 7 = true ∧
    frameWrites (wrFrame MTR_CTL) = true ∧ frameAddr (wrFrame MTR_CTL) = 0xFF00000000 + MTR_CTL ∧ rdy.fuseBusy = false ∧
    frameReads [3] = false ∧ frameWrites [3] = false ∧ frameReads (rdFrame MTR_CTL ++ [0]) = false := by decide

def sem (x : Sem) : State := { rdy with ks := { rdy.ks with sems := rdy.ks.sems.set 31 x } }
def mineSem : Sem := { held := true, src := 2, owner := 0, epoch := 4 }
def otherSem : Sem := { held := true, src := 0, owner := 5, epoch := 4, expiry := some 1 }

theorem wit_SemaphoreCommands :
    rdy.served aK (KS_SEM_CMD 31) = true ∧ (sem mineSem).ks.sems[31]? = some mineSem ∧
    ((mineSem.expire 0).ownedBy aK = true ∧ (mineSem.expire 0).epoch = (4 : BitVec 16).toNat) ∧
    ((mineSem.expire 0).epoch ≠ (5 : BitVec 16).toNat) ∧
    ((otherSem.expire 0).held = true ∧ (otherSem.expire 0).ownedBy aK = false) ∧ (otherSem.expire 1).held = false := by decide

theorem wit_SemaphoresBroken :
    (sem otherSem).ks.sems[31]? = some otherSem ∧ otherSem.held = true ∧ otherSem.expiry.isSome = true ∧
    (sem mineSem).served aK KS_SESSION = true := by decide

def heldBack : State :=
  let s := rdy.setFld (EVT_MSGDEST_EN 3) 1
  { s with ks := { s.ks with dests := s.ks.dests.set 3 { unsent := 2, newest := some ⟨0, 0, 0x0201, 0, 0, 0⟩ } } }

theorem wit_Events :
    rdy.served aK EVT_ACK_SEQ = true ∧
    (heldBack.ks.dests[3]?.bind (·.newest)) = some ⟨0, 0, 0x0201, 0, 0, 0⟩ ∧ heldBack.flag (EVT_MSGDEST_EN 3) = true := by decide

/-! ### Witnesses: lanes, lintels, the link -/

/-- A capability marker: CAP 1, encoding 3 of 128b/132b, generation 3, LS and kind 1. -/
def capMarker : List Byte := let b : List Byte := [0xA5, 0xE0, 0, 7, 0, 0, 0]
  b ++ [crc8 b]

def mkMarker (lane fom step : Byte) : List Byte := let b : List Byte := [0xA5, lane, 0, 0, 0, fom, step]
  b ++ [crc8 b]

def pst (x : PSt) : State := withPort rdy 3 { st := x }

theorem wit_PortNegotiates :
    ((pst .detect).port 3).st = .detect ∧ ((pst .negotiate).port 3).st = .negotiate ∧ ((pst .active).port 3).st ≠ .detect ∧
    ((pst .active).port 3).st ≠ .negotiate ∧ ((pst .active).port 3).st ≠ .bypassed ∧ 17 ≤ 17 ∧ 16 < 17 ∧
    ((pst .bypassed).port 3).st = .bypassed ∧ markerOk [] = false ∧ markerOk capMarker = true ∧ bitAt (fieldB capMarker 1 1) 7 = true ∧
    fieldB capMarker 1 1 / 32 % 4 = (if ((pst .negotiate).port 3).slowNeg = true then 1 else 3) ∧
    markerOk (mkMarker 16 90 5) = true ∧ ¬ bitAt (fieldB (mkMarker 16 90 5) 1 1) 7 = true := by decide

def trainPort (gen : Nat) : State := withPort rdy 3 { st := .train, gen := gen, maxCommon := 3 }

theorem wit_TrainingEnds :
    let ok := fun (s : State) (g : BitVec 17) (n : Nat) => g.getLsbD n && !s.flag (LNK_LCTL_OUT 3 n) && (s.port 3).skewLane != some n
    let best := fun (s : State) (g : BitVec 17) =>
      bestGroup (fun l => ok s g (s.physOf 3 l)) ((s.port 3).partnerLs && ok s g 16) (if s.dev = .recovery then [(4, 0)] else groupOrder)
    ((pst .active).port 3).st ≠ .train ∧ ((trainPort 3).port 3).st = .train ∧
    best (trainPort 3) 0x0FFFF = some (16, 0, 16) ∧ best (trainPort 3) 0x1FFFE = some (16, 0, 0) ∧
    best (trainPort 3) 0x000FF = some (8, 0, 16) ∧ 1 < ((trainPort 2).port 3).gen ∧ ((trainPort 1).port 3).gen ≤ 1 ∧
    best (trainPort 1) 0 = none ∧ (∀ x ∈ ((trainPort 1).port 3).tried, x.width = 0) ∧
    best { trainPort 1 with dev := .recovery } 0x0000F = some (4, 0, 16) := by decide

/-- Width 8 at generations 3 and 1: generation 3 has the higher payload (R55). -/
theorem wit_TrainingTakesBest :
    let s := withPort rdy 3 { st := .train, gen := 1, maxCommon := 3, tried := [⟨3, 8, 0, 16, [9]⟩] }
    let ok := fun l => (0x000FF : BitVec 17).getLsbD l && !s.flag (LNK_LCTL_OUT 3 l) && (s.port 3).skewLane != some l
    let best := bestGroup (fun l => ok (s.physOf 3 l)) ((s.port 3).partnerLs && ok 16) (if s.dev = .recovery then [(4, 0)] else groupOrder)
    let tried := (s.port 3).tried ++ [⟨1, (best.getD (0, 0, 16)).1, (best.getD (0, 0, 16)).2.1, (best.getD (0, 0, 16)).2.2,
      (List.range 17).filter fun l => !ok l⟩]
    (s.port 3).st = .train ∧ best = some (8, 0, 16) ∧ (s.port 3).gen ≤ 1 ∧
    (⟨3, 8, 0, 16, [9]⟩ : Tried) ∈ tried ∧
    ∀ z ∈ tried, z ≠ ⟨3, 8, 0, 16, [9]⟩ → laneRate z.gen * z.width < laneRate 3 * 8 := by decide

theorem wit_AlignEnds :
    ((pst .align).port 3).st = .align ∧ 40000 ≤ 40000 ∧ 40000 < 40001 ∧
    ((withPort rdy 3 { st := .align, skewTried := true }).port 3).skewTried = true ∧ ((pst .align).port 3).skewTried = false := by decide

theorem wit_FigureOfMerit :
    ((pst .train).port 3).st = .train ∧ 16 < 17 ∧ ((pst .align).port 3).st = .align ∧ ((pst .active).port 3).st = .active ∧ 17 ≤ 17 ∧
    ((pst .negotiate).port 3).st = .negotiate ∧
    (let ln : Lane := { stepped := true, prevFom := 90 }
     ln.stepped = true ∧ fomOf ([0, 0, 0, 0, 0, 0, 0, 0, 0, 3, 5, 40] ++ List.replicate 20 0) < ln.prevFom) := by decide

theorem wit_LaneAndSignalLoss :
    let s := (pst .active).setFld (LNK_LSTAT_INUSE 3 15) 1
    (s.port 3).st = .active ∧ 15 < 16 ∧ s.flag (LNK_LSTAT_INUSE 3 15) = true ∧ (s.port 3).partnerLs = true ∧
    s.fld (LNK_STAT_LS_USE 3) = 16 ∧ (s.port 3).rxSwap = none ∧ s.flag (LNK_LSTAT_FAILED 3 16) = false ∧
    16 < 17 ∧ 17 ≤ 17 ∧ ((pst .train).port 3).st ≠ .active := by decide

theorem wit_MarkersArrive :
    16 < 17 ∧ (pst .disabled).markerDue 3 16 = false ∧ (pst .align).markerDue 3 16 = true ∧
    (pst .active).markerDue 3 15 = false ∧ ((trainPort 3).port 3).st = .train ∧ markerOk [] = false ∧ markerOk (mkMarker 16 90 5) = true ∧
    bitAt (fieldB (mkMarker 16 90 5) 1 1) 7 = false ∧ fieldB (mkMarker 16 90 5) 1 1 % 32 < 17 ∧
    fieldB (mkMarker 15 90 5) 1 1 % 32 < 16 := by decide

theorem wit_TrainingStartsOver : rdy.lnk.ports[(3 : Fin 4).val]? = some {} := by decide

theorem wit_PortControl :
    rdy.served aK (LNK_CTL 3) = true ∧ (rdy.port 3).st = .bypassed ∧ ((pst .active).port 3).st ≠ .bypassed ∧
    (0 : Word).getLsbD 2 = false ∧ ((pst .disabled).port 3).st = .disabled ∧ (4 : Word).getLsbD 2 = true ∧
    ((pst .active).port 3).st = .active ∧ (12 : Word).getLsbD 2 = true ∧ (12 : Word).getLsbD 3 = true ∧
    ((pst .train).port 3).st ≠ .active ∧ ((pst .train).port 3).st ≠ .bypassed ∧ ((pst .train).port 3).st ≠ .disabled ∧
    (4 : Word).getLsbD 3 = false ∧ (pst .active).served aK (LNK_CTL 3) = true ∧ (pst .disabled).served aK (LNK_CTL 3) = true := by decide

theorem wit_Lintels : rdy.served aK (LNK_LINTEL 1) = true ∧ 3 / 2 = (1 : Fin 2).val ∧ 0 / 2 ≠ (1 : Fin 2).val := by decide

theorem wit_EncodingsRoundTrip :
    2 ≤ 2 ∧ 15 < 16 ∧ 255 < 256 ∧ [255, 0, 0, 0, 0, 255].length = 6 ∧ (∀ c ∈ [255, 0, 0, 0, 0, 255], c < 256) ∧
    16 ≤ (List.replicate 16 (0x3F : Byte)).length ∧ byteB (List.replicate 16 (0x3F : Byte)) 5 < 0x40 := by decide

def actPort (x : Port) : State := withPort rdy 3 { x with st := .active }
def dataFlit (seq : Nat) : List Byte := flitBytes 1 15 seq 4095 1 [0, 0, 0, 0, 0, 0] (List.replicate 240 0)
def initFlit : List Byte := flitBytes 2 15 0 4095 0 [0, 0, 0, 0, 0, 0] (rdy.initPayload 0)

/-- A flit as the 16 lanes of a port in order deliver it: slot i on lane i. -/
def lanesOf (f : List Byte) : List LaneIn := (List.range 8).map fun i => ⟨i, [sliceB f (32 * i) 32]⟩
def fecOf (bad : Nat) : List LaneFec := (List.range 8).map fun i => ⟨i, 0, bad⟩

theorem wit_FlitsInSequence :
    let ls := lanesOf (dataFlit 0)
    let s := actPort { initRx := true }
    ((pst .bypassed).port 3).st = .bypassed ∧ ((pst .train).port 3).st ≠ .active ∧ ((pst .train).port 3).st ≠ .bypassed ∧
    s.laneGroup 3 = (16, 0) ∧ s.fld (LNK_STAT_LS_USE 3) = 16 ∧ (∀ l < 16, s.physOf 3 l = l) ∧ (ls.map (·.lane)).Nodup ∧
    (∀ x ∈ ls, x.lane < 17) ∧ (s.port 3).rxSlot = 0 ∧ s.gatherFlit 3 ls = dataFlit 0 ∧ s.fecOk 3 (fecOf 0) = true ∧
    ((fecOf 0).map (·.lane)).Nodup ∧ (∀ x ∈ fecOf 0, x.lane < 17) ∧
    (s.port 3).st = .active ∧ flitOk (s.gatherFlit 3 []) (s.fecOk 3 []) = false ∧
    (s.port 3).initRx = true ∧ flitOk (dataFlit 0) true = true ∧ fieldB (dataFlit 0) 0 1 % 16 = 1 ∧
    fieldB (dataFlit 0) 1 3 % 4096 = ((s.port 3).rxSeq + 1) % 4096 := by decide +kernel

theorem wit_FlitsInSequence_closed :
    ((actPort {}).port 3).st = .active ∧ ((actPort {}).port 3).initRx = false ∧
    flitOk (dataFlit 0) ((actPort {}).fecOk 3 (fecOf 0)) = true ∧
    (actPort {}).fecOk 3 (fecOf 1) = false ∧
    fieldB (flitBytes 0 15 0 7 2 [0, 0, 0, 0, 0, 0] []) 4 1 % 4 = 2 := by decide +kernel

theorem wit_FlitsInSequence_gap :
    flitOk (dataFlit 1) true = true ∧ fieldB (dataFlit 1) 1 3 % 4096 ≠ (((actPort { initRx := true }).port 3).rxSeq + 1) % 4096 ∧
    fieldB (dataFlit 1) 4 1 % 4 = 1 := by decide +kernel

theorem wit_FlitsInSequence_acks :
    let r : List RFlit := [⟨4095, 15, [], 1⟩, ⟨0, 15, [], 0⟩]
    4095 < 4096 ∧ r.length ≤ 4096 ∧ (∀ i : Fin 2, (r.getD i ⟨0, 0, [], 0⟩).seq = (4095 + i.val) % 4096) ∧
    0 = (4095 + 1) % 4096 ∧ (∀ i : Fin 2, 4094 ≠ (4095 + i.val) % 4096) := by decide

theorem wit_LinkStarts :
    ((actPort { nakOut := true, unacked := 1 }).port 3).nakOut = true ∧ ((actPort {}).port 3).nakOut = false ∧
    0 < ((actPort { nakOut := true, unacked := 1 }).port 3).unacked ∧ ((actPort {}).port 3).unacked = 0 ∧
    ((actPort {}).port 3).replay = [] ∧ ((pst .train).port 3).st ≠ .active ∧
    ((actPort { replay := [⟨7, 0, [], 1⟩] }).port 3).replay = ⟨7, 0, [], 1⟩ :: [] ∧
    (let s := actPort {}
     let f := s.gatherFlit 3 (lanesOf initFlit)
     (s.port 3).st = .active ∧ flitOk f (s.fecOk 3 (fecOf 0)) = true ∧ fieldB f 0 1 % 16 = 2 ∧ (s.port 3).initRx = false) := by
  decide +kernel

theorem wit_LinkStarts_later :
    let s := actPort { initRx := true, heldEpoch := 9 }
    let t := actPort { initRx := true }
    (s.port 3).initRx = true ∧ ((s.countFec 3 (fecOf 0)).noteInit 3 initFlit).partnerReset 3 initFlit = true ∧
    ((t.countFec 3 (fecOf 0)).noteInit 3 initFlit).partnerReset 3 initFlit = false := by decide

/-! ### Witnesses: packets -/

theorem wit_RequestsRefused :
    (inDev .off).packetsReach 3 = false ∧ home.forMe 3 memRd = true ∧ reqBad (pk 1 0 1 0 []) = true ∧ reqBad memRd = false ∧
    home.forMe 3 (pk 1 0 1 0 []) = true ∧
    (placed .bringup).forMe 3 memRd = true ∧ (placed .bringup).dev = .bringup ∧ (placed .recovery).forMe 0 memRd = true ∧
    (placed .recovery).dev = .recovery ∧ home.inService = true ∧ reqBad memWr = false ∧
    (withKeep home fun k => { k with arm := .armed }).mustPark 3 memWr = true ∧
    (withKeep home fun k => { k with arm := .armed }).forMe 3 memWr = true ∧
    (home.modMaster 3 fun x => { x with req := [⟨3, memRd⟩] }).mustPark 3 memRd = true ∧
    ((withPort home 3 { rstHold := true }).port 3).rstHold = true := by decide

/-- Another master's header stands at the channel's target; a recovery of the unit is under way. -/
theorem wit_MemoryRequests_ways :
    let s := (up home).modTgt 16 fun t => { t with hdrs := [unit0 5] }
    let r := { up home with intg := { home.intg with recov := [⟨0x41, 0, false⟩] } }
    s.admitted 3 memRd = true ∧ s.clearWay 3 memRd = false ∧
    r.admitted 3 memRd = true ∧ r.clearWay 3 memRd = false ∧ r.mustHold memRd = true := by decide

theorem wit_MemoryRequests :
    (up home).performs 3 memRd = true ∧ memRd.opc = 1 ∧ (∀ i < 1, home.plainGran (0x40 + i) = true) ∧
    (up home).performs 3 memWr = true ∧ memWr.opc = 2 ∧ wrMask memWr 0 = fullMask ∧ home.fencedGran (dramEnd / 64 - 1) = false := by decide

theorem wit_MemoryRequests_atomics :
    (up home).performs 3 memFadd = true ∧ memFadd.opc = 3 ∧ (up home).performs 3 memCas64 = true ∧ memCas64.opc = 4 ∧
    (up home).performs 3 memCas128 = true ∧ memCas128.opc = 5 ∧ home.plainGran 0 = true := by decide

/-- A packet from (3, 4) on the X ring to (1, 9), which turns onto Y here, and one to (5, 2), which goes on. -/
def turning : Pkt := { pk 1 0 0 0 [] with dest := 0x89, leg := false }
def passing : Pkt := { pk 1 0 0 0 [] with dest := 0x282, leg := false }
def routeOf (s : State) (k : Pkt) : Nat := match routeReceive s k with | .out p _ => p | .drop c => 100 + c | _ => 200

theorem wit_ForwardingKeepsThePacket :
    home.packetsReach 0 = true ∧ home.behind 0 turning = false ∧ home.dev ≠ .recovery ∧ turning.nbr = false ∧ home.hasCoord = true ∧
    routeOf home turning = 3 ∧ routeOf home passing = 1 ∧
    rdy.hasCoord = false ∧ rdy.packetsReach 0 = true ∧ ({ passing with hops := 126 } : Pkt).hops.toNat < 127 ∧
    ({ passing with nbr := true, hops := 2 } : Pkt).nbr = true ∧ 1 < ({ passing with nbr := true, hops := 2 } : Pkt).hops.toNat ∧
    (withPort home 0 { rx := [turning] }).behind 0 passing = true := by decide

theorem wit_PacketsDiscarded :
    routeOf home { passing with hops := 127 } = 101 ∧ routeOf home { pk 1 0 0 0 [] with dest := 0x282 } = 103 ∧
    home.forMe 3 (pk 16 0 0 0 []) = true ∧
    (((withPort home 3 { st := .train, outq := [⟨pk 16 0 0 0 [], 5, 0⟩] }).port 3).outq[0]?) = some ⟨pk 16 0 0 0 [], 5, 0⟩ ∧
    ((withPort home 3 { st := .train }).port 3).st ≠ .active ∧ isRequest (pk 16 0 0 0 []).opc.toNat = false ∧ home.behind 3 passing = false ∧
    ((withPort home 3 { st := .active }).port 3).st = .active := by decide

def waitingFor : Outst := { tag := 9, pkt := memRd, since := 0, master := 7, off := 0, origin := .fetch 0 0 }
def asked : State := { home with lnk := { home.lnk with outst := [waitingFor] } }

theorem wit_ResponsesMatched :
    asked.forMe 3 (pk 12 1 0 0 []) = true ∧ pk 12 1 0 0 [] ∉ asked.lnk.loop ∧
    asked.lnk.outst.find? (fun o => o.tag == (pk 12 1 0 0 []).tag.toNat) = some waitingFor ∧
    home.lnk.outst.find? (fun o => o.tag == (pk 12 1 0 0 []).tag.toNat) = none ∧
    home.served (aP 5) LTC_COORD = true ∧
    home.served aK LTC_RSTAUTH_LOCK = true := by decide

def mayReset : State := (home.setFld (LTC_RSTAUTH_EN 7) 1).setFld (LTC_RSTAUTH_ENDPOINT 7) 0x184
def rstPk (len : Nat) (vc : Nat) : Pkt := pk 10 vc 0 len []

theorem wit_ResetPackets :
    home.forMe 3 (rstPk 0 4) = true ∧ vcClass (rstPk 0 0).vc.toNat ≠ 2 ∧
    rstReach (rstPk 3 4) = 3 ∧ (home.takeRx 3 (rstPk 0 4)).rstAuth 0x184 0 = false ∧
    vcClass (rstPk 0 4).vc.toNat = 2 ∧ rstReach (rstPk 0 4) ≠ 3 ∧ (mayReset.takeRx 3 (rstPk 0 4)).rstAuth 0x184 (rstReach (rstPk 0 4)) = true ∧
    mayReset.forMe 3 (rstPk 0 4) = true ∧ mayReset.lnk.rst = none ∧
    ({ home with lnk := { home.lnk with rst := some (2, 0) } } : State).lnk.rst = some (2, 0) ∧ home.dev ≠ .off := by decide

/-! ### Witnesses: work queues -/

/-- Queue 63 enabled, its HOST (3, 4), in a stack with a coordinate. -/
def q63 (t : Queue) : State :=
  ((home.setReg (WQ_CFG 63) 0xB8880000).setFld (WQ_CFG_HOST 63) 0x184).modQueue 63 fun _ => t
def hostAcc : Access := aP 0x184

theorem wit_QueueControl :
    home.wq.queues[(63 : Fin 64).val]? = some {} ∧ home.served aK (WQ_CFG 63) = true ∧ (0x80000000 : Word).getLsbD 31 = true ∧
    (q63 { st := .active }).wq.queues[(63 : Fin 64).val]? = some { st := .active } ∧ (0 : Word).getLsbD 31 = false ∧
    hostAcc.path = .port 0 ∧ hostAcc.hop = none ∧ hostAcc.requester.toNat = (q63 {}).qHost 63 ∧
    (q63 {}).served hostAcc (WQ_SQDB 63) = true ∧ (q63 {}).flag (WQ_CFG_EN 63) = true ∧
    (q63 {}).tailOk 63 2 = true ∧ ((q63 {}).setReg (WQ_SQDB 63) 3).tailOk 63 2 = false ∧ (q63 { cqTail := 4 }).headOk 63 2 = true ∧
    (q63 { cqTail := 4 }).headOk 63 5 = false ∧ (q63 {}).served hostAcc (WQ_CQDB 63) = true ∧ ((q63 {}).setFld (WQ_CFG_EN 63) 0).flag (WQ_CFG_EN 63) = false := by decide

theorem wit_DoorbellsIgnored :
    aS.path = .sideband ∧ (q63 {}).served aS (WQ_SQDB 63) = true ∧ (q63 {}).served aS (WQ_CQDB 63) = true ∧
    (aP 1).requester.toNat ≠ (q63 {}).qHost 63 ∧ (q63 {}).served (aP 1) (WQ_SQDB 63) = true := by decide

def rung : State := (q63 { st := .active }).setReg (WQ_SQDB 63) 5

theorem wit_FetchAndDispatch :
    home.fetchable 0 = 0 ∧ 0 < rung.fetchable 63 ∧ (q63 { st := .active, fetching := 2 }).wq.queues[63]? = some { st := .active, fetching := 2 } ∧
    (∀ q : Fin 64, home.mayDispatch q = false) ∧
    (withQ home (dsc 0 [])).mayDispatch ((63 + 1 + 0) % 64) = true ∧ (withQ home (dsc 0 [])).wq.rot = 63 ∧
    (withQ home (dsc 0 [])).dispatches 0 (dsc 0 []) = true ∧ fieldB (dsc 0 []) 0 1 = 0 ∧
    (withQ home (dsc 1 [])).dispatches 0 (dsc 1 []) = true ∧ fieldB (dsc 1 []) 0 1 = 1 := by decide

/-- COPY and FILL of 64 B. -/
def copyDsc (n : Nat) : List Byte := dsc 0x11 (leBytes 8 0 ++ leBytes 8 0x10000 ++ leBytes 8 n)
def fillDsc : List Byte := dsc 0x12 (leBytes 8 0 ++ leBytes 8 64 ++ leBytes 8 7)

theorem wit_ChiselDispatch :
    (withQ home runDsc).dispatches 0 runDsc = true ∧ fieldB runDsc 0 1 = 0x10 ∧ (withQ home runDsc).freeSlot = some 0 ∧
    (withQ home (copyDsc 64)).dispatches 0 (copyDsc 64) = true ∧ fieldB (copyDsc 64) 0 1 = 0x11 ∧
    (withQ home fillDsc).dispatches 0 fillDsc = true ∧ fieldB fillDsc 0 1 = 0x12 := by decide

/-- The operation that waits for the Keystone goes before what a queue has next (R127). -/
theorem wit_begins_waiting :
    let d := dsc 0x22 []
    let o : Op := { q := 0, cid := 0, opc := 0x22, desc := d, gen := 0 }
    let s := { home with wq := { home.wq with ksq := [o] } }
    s.begins 0 d = true ∧ s.opAt 0 d = o ∧ (s.inHand 0 d).wq.ksq = [] ∧ s.begins 1 d = false := by decide

def messaging : State :=
  ((q63 { st := .active, msgN := 1 }).setFld (WQ_COAL_MSGEN 63) 1).setFld (WQ_COAL_TIME_US 63) 1

theorem wit_CompletionEntries :
    255 < 256 ∧ (q63 {}).flag (WQ_COAL_MSGEN 63) = false ∧ ((q63 { gen := 1 }).queue 63).gen ≠ 0 ∧
    0 < (messaging.queue 63).msgN ∧ (messaging.queue 63).st = .active ∧ messaging.flag (WQ_COAL_MSGEN 63) = true ∧
    0 < messaging.fld (WQ_COAL_TIME_US 63) ∧ ((q63 {}).queue 63).msgN = 0 := by decide

/-- A descriptor of a keep operation at the head of queue 0, with the keep as given. -/
def ksAt (opc : Nat) (rest : List Byte) (f : Keep → Keep) : State := withKeep (withQ home (dsc opc rest)) f
def keyed (a : Arm) (k : Keep) : Keep := { k with arm := a, secret := some 1 }

theorem wit_KeepOperations_checkpoint :
    let d := dsc 0x20 (leBytes 8 7)
    let s := fun f => ksAt 0x20 (leBytes 8 7) f
    (s id).begins 0 d = true ∧ fieldB d 0 1 = 0x20 ∧ (s id).keep.keyHeld = false ∧
    (s (keyed .suspended)).begins 0 d = true ∧ (s (keyed .suspended)).keep.keyHeld = true ∧ (s (keyed .suspended)).keepFenced = false ∧
    (s (keyed .suspended)).keep.epochOpen = false ∧ (s (keyed .armed)).begins 0 d = true ∧ (s (keyed .armed)).keep.arm ≠ .suspended ∧
    (s (keyed .armed)).keepHot = false ∧ (s (keyed .armed)).keep.copiesSince = 0 ∧
    0 < (s fun k => { keyed .armed k with copiesSince := 1 }).keep.copiesSince ∧
    ({ (s (keyed .armed)) with thm := { rdy.thm with crs := rdy.thm.crs.map fun c => { c with step := 4, est := some 12000 } } } : State).keepHot = true := by
  decide

/-- The hold-up store as the board declares it, 2 F and 5 V. -/
def powered (s : State) : State := (s.setReg KEEP_HOLDCAP 2000000).setReg KEEP_HOLDVMIN 5000

def charged (k : Keep) : Keep := { k with samples := List.replicate 100 1000000, lastUv := 1000000, vmv := 8000, dmax := 262144 }

theorem wit_KeepOperations_arm :
    let d := dsc 0x21 []
    let s := fun f => ksAt 0x21 [] f
    (s (keyed .armed)).begins 0 d = true ∧ fieldB d 0 1 = 0x21 ∧ (s (keyed .armed)).keep.arm = .armed ∧
    (s (keyed .suspended)).keep.arm = .suspended ∧ (s (keyed .arming)).keep.arm = .arming ∧ (s (keyed .arming)).fus.life ≠ 4 ∧
    (s (keyed .arming)).keep.keyHeld = true ∧ (s (keyed .arming)).keepFenced = false ∧
    (s (keyed .disarmed)).keep.arm = .disarmed ∧ (s (keyed .disarmed)).epochDue = false ∧ (s (keyed .disarmed)).keep.dmax < 262144 ∧
    (powered (s fun k => charged (keyed .disarmed k))).begins 0 d = true ∧
    (powered (s fun k => charged (keyed .disarmed k))).measValid = true ∧ 262144 ≤ (powered (s fun k => charged (keyed .disarmed k))).keep.dmax := by decide

theorem wit_KeepOperations_rest :
    (ksAt 0x22 [] id).begins 0 (dsc 0x22 []) = true ∧ fieldB (dsc 0x22 []) 0 1 = 0x22 ∧
    (ksAt 0x23 (leBytes 8 0x1000) id).begins 0 (dsc 0x23 (leBytes 8 0x1000)) = true ∧ fieldB (dsc 0x23 (leBytes 8 0x1000)) 0 1 = 0x23 ∧
    (ksAt 0x25 [] id).begins 0 (dsc 0x25 []) = true ∧ fieldB (dsc 0x25 []) 0 1 = 0x25 ∧ (ksAt 0x25 [] id).measValid = false ∧
    (powered (ksAt 0x25 [] fun k => charged (keyed .disarmed k))).measValid = true ∧
    (powered (ksAt 0x25 [] fun k => charged (keyed .disarmed k))).keep.keyHeld = true ∧
    (powered (ksAt 0x25 [] fun k => charged (keyed .disarmed k))).keepFenced = false ∧
    (powered (ksAt 0x25 [] fun k => charged (keyed .disarmed k))).keepHot = false := by decide

/-- A share of 32 bytes from byte 32, with the action in byte 8. -/
def shareDsc (action : Nat) : List Byte := dsc 0x24 (leBytes 8 action ++ List.replicate 16 0 ++ (if action = 0 then List.replicate 32 1 else []))

theorem wit_KeysAndCharacterization :
    let s := fun a f => withKeep (withQ home (shareDsc a)) f
    (s 0 id).begins 0 (shareDsc 0) = true ∧ fieldB (shareDsc 0) 0 1 = 0x24 ∧ ((s 0 id).opOf 0 (shareDsc 0)).action = 0 ∧
    ({ s 0 id with fus := { home.fus with life := 4 } } : State).fus.life = 4 ∧ (s 0 id).fus.life ≠ 4 ∧
    (s 0 id).keep.pendShare ≠ some ((s 0 id).opOf 0 (shareDsc 0)).share ∧ (s 0 id).keep.shares = [] ∧
    (s 0 id).keep.arm = .disarmed ∧ ((s 0 id).setFld KEEP_KEYPOL_POLICY 1).keyPolicy = 1 ∧ (s 0 id).keyPolicy ≠ 1 ∧
    (s 1 id).begins 0 (shareDsc 1) = true ∧ ((s 1 id).opOf 0 (shareDsc 1)).action = 1 ∧ (s 1 id).dev ≠ .restoring ∧
    (s 1 (keyed .armed)).keep.arm ≠ .disarmed := by decide

theorem wit_KeysAndCharacterization_end :
    let c : Charac := { op := { q := 0, cid := 0, opc := 0x25, desc := [], gen := 0 }, uv1 := 8000000, pj1 := 0 }
    let s := withKeep home fun k => { k with charac := some c }
    home.keep.charac = none ∧ s.keep.charac = some c ∧ 98 * c.uv1 < 100 * (8 * 980001) ∧ 100 * (8 * 980000) ≤ 98 * c.uv1 ∧ 0 < c.uv1 := by
  decide

def bistDsc (t : Nat) : List Byte := dsc 0x30 (leBytes 8 t ++ leBytes 8 0x1000)
def recDsc (opc : Nat) : List Byte := dsc opc (leBytes 8 0x1000 ++ leBytes 4 64)
def imaged : State := { home with ks := { home.ks with fw := home.ks.fw.map fun f => { f with version := 0x03000000 } } }

theorem wit_MaintenanceOperations :
    let t := rowIndexTarget 0
    let s := withQ home (bistDsc t)
    s.begins 0 (bistDsc t) = true ∧ fieldB (bistDsc t) 0 1 = 0x30 ∧ s.targetOut (s.opOf 0 (bistDsc t)).target = false ∧
    s.bst.queue.length < 16 ∧ s.tStep (s.opOf 0 (bistDsc t)).target < 3 ∧
    16 ≤ ({ s with bst := { s.bst with queue := List.replicate 16 (t, 0, none) } } : State).bst.queue.length ∧
    3 ≤ ({ s with thm := { s.thm with crs := s.thm.crs.map fun c => { c with step := 3 } } } : State).tStep (s.opOf 0 (bistDsc t)).target ∧
    (withQ home (recDsc 0x31)).begins 0 (recDsc 0x31) = true ∧ (withQ home (recDsc 0x32)).begins 0 (recDsc 0x32) = true ∧
    (withQ home (recDsc 0x40)).begins 0 (recDsc 0x40) = true ∧ fieldB (recDsc 0x40) 0 1 = 0x40 ∧ home.fus.life ≠ 4 ∧
    baRemote (fieldB (recDsc 0x40) 8 8) = false ∧ baAddr (fieldB (recDsc 0x40) 8 8) / 64 + 1 ≤ dramEnd / 64 ∧
    home.readable 64 = true ∧ readsClean [] 64 = true := by decide

/-- What an image's bytes give is opaque: whether it is newer and whether its signature holds are free, so the clauses of
FW_STAGE part the images between them; an older one is an instance whatever the bytes give. -/
theorem wit_MaintenanceOperations_firmware (image : List Byte) :
    let old := { home with ks := { home.ks with fwRun := 2 ^ 32 } }
    Config.fwVersion image % 2 ^ 32 / 2 ≤ old.ks.fwRun / 2 := by
  intro old; show _ ≤ 2 ^ 32 / 2; omega

theorem wit_MaintenanceOperations_activate :
    home.keepHot = false ∧ (⟨[none], [], true⟩ : FwRead).bad = true ∧ (⟨[some []], [], false⟩ : FwRead).bad = false ∧
    imaged.bestFw = some 0x03000000 ∧ imaged.ks.fwRun / 2 < 0x03000000 / 2 ∧ imaged.dev = .ready ∧
    (withQ imaged (dsc 0x41 [])).begins 0 (dsc 0x41 []) = true ∧ fieldB (dsc 0x41 []) 0 1 = 0x41 ∧ home.pwr.ksDown = false ∧
    ({ home with pwr := { home.pwr with ksDown := true } } : State).pwr.ksDown = true := by decide

/-! ### Witnesses: channels and mortar -/

def doorUp (u : MUnit) : State := (up home).modTgt 0 fun t => { t with door := some u }
def fullIngress (n : Nat) : State := withChan (doorUp (unit0 0)) { st := .active, ingress := List.replicate n (unit0 1) }

theorem wit_ChannelsAcceptAndSlot :
    (home.tgt 0).door = none ∧ ((doorUp (unit0 0)).tgt 0).door = some (unit0 0) ∧ (home.chan 0).st ≠ .active ∧
    64 ≤ ((fullIngress 64).chan 0).ingress.length ∧ privileged (unit0 0).master = false ∧
    56 ≤ (((fullIngress 56).chan 0).ingress.filter fun v => !privileged v.master).length ∧
    ((doorUp (unit0 0)).chan 0).st = .active ∧ ((fullIngress 55).chan 0).ingress.length < 64 ∧
    (((fullIngress 55).chan 0).ingress.filter fun v => !privileged v.master).length < 56 ∧ privileged (unit0 7).master = true := by decide

/-- One bank of channel 0 as given. -/
def bankOf (b : Bank) : State := (up home).modBank 0 0 0 fun _ => b

theorem wit_CommandsKeepTiming :
    ((bankOf { q := [unit0 0] }).pickRequest 0 0).isSome = true ∧
    ((bankOf { q := [unit0 0], row := some 0, kept := true, lastAct := 0 }).pickRequest 0 0).isSome = true ∧
    ((bankOf { q := [unit0 0], debt := 9, burst := 1 }).pickRefresh 0 0).isSome = true ∧
    ((bankOf { debt := -3 }).pickPullIn 0 0).isSome = true := by decide

theorem wit_RowsAndRefresh :
    (home.chan 0).st ≠ .active ∧ (home.chan 0).st ≠ .draining ∧ ((up home).chan 0).st = .active ∧
    ((bankOf { row := some 98303, kept := true }).bank 0 0 0).kept = true ∧
    ((bankOf { row := some 98303, kept := true }).bank 0 0 0).row = some 98303 ∧
    ((bankOf { row := some 98303, kept := true }).bank 0 0 0).q = [] ∧ ((bankOf {}).bank 0 0 0).kept = false ∧
    (bankOf {}).adaptive 0 = true ∧ ((bankOf {}).setFld (MC_CTL_POLICY 0) 1).adaptive 0 = false ∧
    ((bankOf { q := [unit0 0] }).bank 0 0 0).q ≠ [] ∧
    (up home).mc.chans[31]? = some { st := .active } ∧ ({ st := .active } : Chan).pcs[1]? = some ({ now := 1000 } : Pc) ∧
    ({ now := 1000 } : Pc).banks[15]? = some ({ debt := 0 } : Bank) := by
  decide

theorem wit_IdleAndDelays :
    ((up home).chan 31).st = .active ∧ ((up home).chan 31).hold = none ∧ ((up home).chan 31).undrained = false ∧
    (∀ i < 2, (((up home).chan 31).pc i).dlyPend = false ∧ (up home).switchWaits 31 i = false) ∧ (up home).cal.visits = [] ∧
    ((bankOf { q := [{ unit0 0 with op := 1, reported := true }] }).chan 0).undrained = true ∧ (home.chan 31).st ≠ .active ∧
    ({ home with intg := { home.intg with repairs := [{ word := pinWord 31 5 80, src := 3, live := false }] } } : State).switchWaits 31 0 = true ∧
    ((withChan home { st := .active, hold := some (0, 0) }).chan 0).hold ≠ none ∧
    ((withChan home { st := .draining }).chan 0).st = .draining ∧ ((withChan home { st := .selfref }).chan 0).st = .selfref ∧
    home.served aK (MC_DLYAPPLY 31) = true ∧ (1 : Word).getLsbD 0 = true := by decide

def parkedAt (k : Pkt) : State := home.modMaster 3 fun x => { x with req := [⟨3, k⟩] }

def ownAsk : Ask := { own := .prog 0, op := 0, units := [(0, 1)] }
def askingAt (d : Dev) : State := (inDev d).modMaster 4 fun x => { x with asks := [ownAsk] }

theorem wit_RequestsIssued_own :
    (home.master 3).asks = [] ∧ ((askingAt .ready).master 4).req = [] ∧ ((askingAt .ready).master 4).asks = ownAsk :: [] ∧
    (askingAt .ready).ownCause 4 ownAsk.grans = 0 ∧ (askingAt .saving).ownCause 4 ownAsk.grans ≠ 0 ∧
    home.mtr.masters[4]?.isSome = true ∧ home.mtr.targets.length = 34 ∧ ownAsk.own.target 0 < 34 := by decide

theorem wit_RequestsIssued :
    (home.master 3).req = [] ∧ ((parkedAt memRd).master 3).req = ⟨3, memRd⟩ :: [] ∧
    (withKeep (parkedAt memWr) fun k => { k with arm := .armed }).holdCause 3 memWr ≠ 0 ∧
    (parkedAt memRd).inService = true ∧ (parkedAt memRd).holdCause 3 memRd = 0 ∧ ((parkedAt memRd).port 3).rstHold = false ∧
    ((withPort (parkedAt memRd) 3 { rstHold := true }).port 3).rstHold = true ∧ 3 < 4 := by decide

def moving : State := home.modTgt 33 fun t => { t with owner := some 0, xfers := [{ unit := unit0 0, beats := 4, out := true }] }

theorem wit_MortarHandshakes :
    (∀ m ∈ [0, 7], m < 8) ∧ (∀ r ∈ List.replicate 8 0, r < 8) ∧ 7 < 8 ∧ home.arbWin (List.replicate 8 0) 7 [0, 7] = some 7 ∧
    ((doorUp (unit0 0)).tgt 0).door.isSome = true ∧
    (let s := home.modTgt 0 fun t => { t with hdrs := [unit0 2] }
     (s.tgt 0).door = none ∧ (s.tgt 0).pick = none ∧
     s.arbWin (s.tgt 0).rank (s.tgt 0).last (s.askers 0) = some 2 ∧ (s.tgt 0).hdrs.find? (fun u => u.master == 2) = some (unit0 2)) ∧
    (home.tgt 0).owner = none ∧ (home.tgt 0).movers 0 = [] ∧
    (moving.tgt 33).owner = some 0 ∧ (moving.tgt 33).movers 33 = [0] ∧ (∀ m ∈ (moving.tgt 33).movers 33, moving.arbKey m ≤ moving.arbKey 0) ∧
    (moving.tgt 33).xferOf 0 = some { unit := unit0 0, beats := 4, out := true } ∧ 0 + 1 < 4 ∧ privileged 0 = false ∧
    (moving.tgt 33).burst + max 1 (beatBytes 33 / 64) < max 1 (min 64 (moving.actFld (MTR_BURST_GRAN 0))) := by decide

theorem wit_MortarHandshakes_picked :
    let s := home.modTgt 32 fun t => { t with hdrs := [unit0 5], pick := some 5 }
    (s.tgt 32).door = none ∧ (s.tgt 32).pick = some 5 ∧ (s.tgt 32).hdrs.find? (fun u => u.master == 5) = some (unit0 5) ∧
    (home.tgt 32).pick = none ∧ home.askers 32 = [] := by decide

theorem wit_MortarMeters :
    home.mtr.masters[7]?.isSome = true ∧ home.mtr.targets[31]?.isSome = true ∧ home.served aK MTR_COMMIT = true ∧
    (0 : Word).getLsbD 0 = false ∧ (1 : Word).getLsbD 0 = true ∧
    (if home.flag MTR_CTL_ADMIT_STRICT = true then 1480 else home.fBand) < ((List.range 8).map fun m => min 2048 ((home.setFld (MTR_MINBW_GBPS 0) 2048).fld (MTR_MINBW_GBPS m))).sum ∧
    ((List.range 8).map fun m => min 2048 (home.fld (MTR_MINBW_GBPS m))).sum ≤ 1480 ∧ home.gSum ≤ home.fNow ∧
    (let s := { home with act := [(MTR_MINBW 0, 2048)] }; s.fNow < s.gSum) := by decide

/-! ### Witnesses: the chisel -/

/-- A program over four rows of 16 bytes at 0x1000 with the field `[3:0]` unsigned and the term `field = 5`; its output is of the
kind named, with 32-bit row numbers. -/
def prog (kind : Nat) : List Byte :=
  [1, 0, 1, 1, 1, 0, 0, 0] ++ leBytes 8 0x1000 ++ leBytes 4 16 ++ leBytes 4 4 ++ leBytes 8 0 ++ leBytes 4 256 ++ leBytes 28 0 ++
  ([0x20] ++ leBytes 31 0) ++ ([1] ++ leBytes 15 0 ++ leBytes 16 5 ++ leBytes 32 0) ++ leBytes 16 1 ++
  (leBytes 1 kind ++ leBytes 3 0 ++ [0xFF] ++ leBytes 75 0)

def job (st : JSt) (g : List Byte) : Job :=
  { op := { q := 0, cid := 0, opc := 0x10, desc := runDsc, gen := 0 }, st := st, prog := g, need := pNeed g, total := pRows g }
def withProgram : State := { withJob home (job .loading []) with dram := { home.dram with mem := (mput [] 0 (prog 1)) } }

theorem wit_JobsLoadAndStart :
    (home.job 15).st ≠ .loading ∧ ((withJob home (job .loading [])).job 0).st = .loading ∧
    baRemote ((withJob home (job .loading [])).job 0).op.prog = false ∧ withProgram.onWay (.prog 0) = false ∧
    (withProgram.job 0).prog = [] ∧ pGrans (withProgram.granData 0) = 4 ∧ 0 < dramEnd / 64 ∧
    (let s := withJob home (job .loading ((prog 1).take 64))
     s.onWay (.prog 0) = false ∧ (s.job 0).prog.length = 64 * 1 ∧ pGrans (s.job 0).prog = 4 ∧ 0 + 4 ≤ dramEnd / 64) ∧
    (∀ i < 4, withProgram.readable i = true ∧ readsClean [] i = true) ∧
    ({ home with mtr := { home.mtr with works := [{ own := .prog 0, master := 4, left := 1, issued := 0 }] } } : State).onWay (.prog 0) = true ∧
    (withJob home (job .loading [])).outClash 0 (prog 1) = false ∧ (withJob home (job .loading [])).progChanged 0 (prog 1) = false ∧ baRemote (2 ^ 63 + 5 * 2 ^ 40) = true ∧ 64 * pGrans (prog 1) ≤ (prog 1).length ∧ progBad (prog 1) = false := by decide

theorem wit_JobsLoadAndStart_admit :
    (∀ n < 16, (home.job n).st ≠ .waiting) ∧ ((withJob home (job .waiting (prog 1))).job 0).st = .waiting ∧
    (∀ m < 16, m ≠ 0 → ((withJob home (job .waiting (prog 1))).job m).st ≠ .waiting) ∧
    (withJob home (job .waiting (prog 1))).sramUsed + ((withJob home (job .waiting (prog 1))).job 0).need ≤ 12288 ∧ oKind (prog 1) = 1 ∧
    12288 < (withJob home { job .waiting (prog 1) with need := 12289 }).sramUsed + ((withJob home { job .waiting (prog 1) with need := 12289 }).job 0).need := by
  decide

def running : State := withJob home (job .running (prog 1))
def arriving : State := withJob home { job .running (prog 1) with asked := [(64, 1)], flight := [(16, [64])] }

theorem wit_SlicesFeedJobs :
    (home.setFld CHS_CTL_PAUSE 1).flag CHS_CTL_PAUSE = true ∧ (inDev .bringup).inService = false ∧ home.flag CHS_CTL_PAUSE = false ∧
    home.inService = true ∧ (∀ f ∈ (home.job 0).flight, f.1 ≠ (0 : Fin 32).val) ∧ (arriving.job 0).kind = 0 ∧
    (arriving.job 0).flight.find? (fun f => f.1 == (16 : Fin 32).val) = some (16, [64]) ∧ arriving.onWay (sliceOwn 0 (16, [64])) = false ∧
    arriving.readable 64 = true ∧ readsClean [] 64 = true ∧
    ({ arriving with mtr := { home.mtr with works := [{ own := .slice 0 16 64, master := 4, left := 1, issued := 0 }] } } : State).onWay
      (sliceOwn 0 (16, [64])) = true ∧
    (let s := withJob home { job .running [] with kind := 1, fail := some (0, false), flight := [(16, [0])] }
     s.onWay (sliceOwn 0 (16, [0])) = false ∧ (s.job 0).kind ≠ 0 ∧ (s.job 0).fail.isSome = true) := by decide

theorem wit_SlicesFeedJobs_issue :
    findFrom 16 (running.chs.last.getD 16 15 + 1) (fun n => !((running.job n).unreadOn 16).isEmpty) = some 0 ∧
    0 < running.chs.jobs.length ∧ 0 < running.chW 16 ∧ (∀ c < 32, home.chW c = 0) ∧
    bestChan ((List.range 32).map running.chW) ((List.range 32).map fun c => if ((List.range 32).map running.chW).getD c 0 = 0 then (0 : Int)
      else running.chs.credit.getD c 0 + ((List.range 32).map running.chW).getD c 0) = some 16 ∧
    running.m4Free = true ∧ (∀ m < 16, (running.job m).kind = 0) ∧ running.flag CHS_CTL_PAUSE = false ∧ running.inService = true ∧
    (running.modMaster 4 fun x => { x with asks := [{ own := .prog 1, op := 0, units := [(0, 1)] }] }).m4Free = false := by decide

/-- A job that fills, or copies onto granule 4 from granule 0, with its one granule in a slice. -/
def moveJob (kind : Nat) : State :=
  let desc := if kind = 1 then leBytes 16 0 ++ leBytes 8 256 ++ leBytes 40 64 else leBytes 16 0 ++ leBytes 8 64 ++ leBytes 40 0xABCD
  withJob home { job .running [] with
    op := { q := 0, cid := 0, opc := 0x10 + kind, desc := desc, gen := 0 }, kind := kind, total := 1,
    asked := [(0, 1)], flight := [(0, [0])] }

theorem wit_SlicesFeedJobs_writes :
    ∀ k ∈ [1, 2], ((moveJob k).job 0).kind = k ∧ ((moveJob k).job 0).fail = none ∧ (moveJob k).inService = true ∧
      baRemote ((moveJob k).job 0).op.dst = false ∧ (moveJob k).m4May (baAddr ((moveJob k).job 0).op.dst / 64) = true ∧
      (moveJob k).fencedGran (baAddr ((moveJob k).job 0).op.dst / 64) = false ∧ 0 < (moveJob k).chs.jobs.length ∧
      baRemote ((moveJob k).job 0).op.src = false ∧ (moveJob k).onWay (sliceOwn 0 (0, [0])) = false ∧ tget ((moveJob k).job 0).have_ 0 = none ∧
      (moveJob k).readable (((moveJob k).job 0).localGran 0) = true ∧ readsClean [] (((moveJob k).job 0).localGran 0) = true ∧
      ((moveJob k).sliceGran 0 0 []).2 = true := by decide

def staged (x : Option (List Byte)) : Job := { job .running (prog 1) with have_ := [(64, x)] }

theorem wit_RowsEvaluated :
    (home.job 0).st ≠ .running ∧ (running.job 0).st = .running ∧ (running.job 0).kind = 0 ∧ rowFits (prog 1) 0 = true ∧ oKind (prog 1) ≠ 0 ∧
    rowGrans (prog 1) 0 = [64] ∧ tget (running.job 0).have_ 64 = none ∧ tget (staged none).have_ 64 = some none ∧
    tget (staged (some (List.replicate 64 0))).have_ 64 = some (some (List.replicate 64 0)) ∧
    selected (prog 1) (staged (some (List.replicate 64 0))).mem 0 = false ∧
    selected (prog 1) (staged (some (5 :: List.replicate 63 0))).mem 0 = true ∧ oKind (prog 0) = 0 ∧
    0 < 0 + 512 * ((staged none).op.outLen / 64) := by decide

theorem wit_JobsComplete :
    let aggJob := withJob home (job .emitting (prog 3))
    let done := withJob home { job .emitting (prog 1) with out := [] }
    let copied := withJob home { job .emitting [] with kind := 1 }
    let ended := withJob home (job .completing (prog 1))
    (aggJob.job 0).st = .emitting ∧ (aggJob.job 0).kind = 0 ∧ oKind (aggJob.job 0).prog = 3 ∧ (aggJob.job 0).sorted = false ∧
    (home.job 0).st ≠ .emitting ∧ (done.job 0).fail = none ∧ (done.job 0).out = [] ∧ (done.job 0).sp = [] ∧ oKind (done.job 0).prog ≠ 3 ∧
    done.jobWaits 0 = false ∧ done.onWay (.out 0) = false ∧ copied.onWay (.out 0) = false ∧
    ({ copied with mtr := { home.mtr with works := [{ own := .out 0, master := 4, left := 1, issued := 0 }] } } : State).onWay (.out 0) = true ∧
    (copied.job 0).kind = 1 ∧ copied.jobWaits 0 = false ∧ (ended.job 0).st = .completing ∧
    (home.job 0).st ≠ .completing := by decide

/-! ### Witnesses: the keep, saves and restores -/

/-- Page 0 dirty, a key held, the whole device in service. -/
def copying : State :=
  withKeep (powered home) fun k => { k with dirty := [(0, 1)], secret := some 1, winStart := 0 }

theorem wit_CopiesSwapEntries :
    (inDev .bringup).inService = false ∧ (home.setFld KEEP_CTL_PAUSE 1).flag KEEP_CTL_PAUSE = true ∧
    copying.inService = true ∧ copying.flag KEEP_CTL_PAUSE = false ∧ copying.pwr.interval = false ∧
    copying.clock < copying.keep.winStart + 1000000 ∧ 4096 * (copying.keep.winPages + 1) ≤ 100000 * copying.trickleRate ∧
    100000 * copying.trickleRate < 4096 * ((withKeep copying fun k => { k with winPages := 100000 }).keep.winPages + 1) ∧
    rnextFrom (rcount copying.keep.dirty + copying.keep.dirty.length + 1) copying.keep.dirty copying.keep.ptr copying.trickleOk = some 0 ∧
    (copying.keep.course (homeOf 0)).pickSlot = some 12582912 ∧ copying.writesOnWay 0 = false ∧
    (copying.keep.keyOf copying.keep.epoch).isSome = true := by decide

theorem wit_CopiesSwapEntries_plain :
    ∀ i < 64, copying.plainGran (64 * 0 + i) = true ∧ copying.queuedData (64 * 0 + i) = none ∧ readsClean [] (64 * 0 + i) = true := by decide

def copyOf (count : Nat) : Copy :=
  { page := 0, course := 0, slot := 12582912, cover := true,
    ver := { index := 0, seq := 1, epoch := 1, count := count, mask := 0, key := (0, 0), data := [] } }
def programming (count : Nat) : State := withKeep home fun k => { k with copies := [copyOf count] }

theorem wit_CopiesSwapEntries_done :
    home.keep.copies.find? (fun x => x.course == 0 && x.slot == 12582912) = none ∧
    (programming 9999999).keep.copies.find? (fun x => x.course == 0 && x.slot == 12582912) = some (copyOf 9999999) ∧
    (programming 1).keep.courses[0]?.isSome = true ∧ (programming 1).pwr.waiting = false ∧
    ((programming 1).keep.course 0).pend.length < 786432 ∧
    ({ programming 1 with pwr := { home.pwr with waiting := true } } : State).pwr.waiting = true ∧ (programming 1).dev ≠ .saving ∧
    (programming 1).keep.ckpt = none ∧ (programming 1).keep.charac = none ∧ (copyOf 9999999).ver.count < 10000000 ∧
    (programming 1).mayCopy 0 = false ∧ (programming 1).unstarted (copyOf 1) = false ∧
    ((programming 1).modMaster 5 fun x => { x with asks := [{ own := .copy 0, op := 0, units := [(0, 4)] }] }).unstarted (copyOf 1) = true ∧
    (programming 1).keepBusOk 0 true = true ∧ (programming 1).keepBusOk 0 false = false ∧ wearLimit ≤ (copyOf 10000000).ver.count := by decide

def toSeal : State := withKeep home fun k => { k with copiesSince := 1, courses := [{ deltas := [0], pend := [0] }, {}] }
def rec2 (kind : Nat) : SealRec := { formatRec with seq := 2, kind := kind }
def sealing : State :=
  withKeep home fun k => { k with sealing := some (rec2 1, rec2 1, .none), courses := [{ deltaS := [0], pendS := [7] }, {}] }

theorem wit_SealsCover :
    home.keep.copiesSince = 0 ∧ toSeal.keep.courses = [{ deltas := [0], pend := [0] }, {}] ∧ toSeal.inService = true ∧
    0 < toSeal.keep.copiesSince ∧ toSeal.pwr.interval = false ∧ toSeal.keep.sealing = none ∧ toSeal.keep.folding ≠ some true ∧
    home.keep.sealing = none ∧ sealing.keep.courses = [{ deltaS := [0], pendS := [7] }, {}] ∧
    sealing.keep.sealing = some (rec2 1, rec2 1, .none) ∧ sealing.onWay .record = false ∧ sealing.keep.poisonPg = [] ∧
    sealing.dev ≠ .saving ∧ sealing.keep.ckpt = none ∧ sealing.keep.charac = none ∧ (rec2 1).kind ≠ 6 ∧ sealing.keep.folding = none ∧ sealing.keep.sealQ = [] ∧
    ({ deltaS := [0], pendS := [7] } : Course).jbytes + recBytes (rec2 1) ≤ 8 * 2 ^ 20 ∧
    ({ deltaS := [0], pendS := [7] } : Course).jprog + recBytes (rec2 1) / 4096 < 32768 * 9999998 ∧ (true && false) = false := by decide

theorem wit_SealsCover_fold :
    let s := withKeep home fun k => { k with folding := some true }
    home.keep.folding = none ∧ s.keep.courses = [({ force := 0 } : Course), ({ force := 0 } : Course)] ∧ s.keep.folding ≠ none ∧
    s.pwr.interval = false ∧ s.dev ≠ .recovery ∧ s.keep.sealing = none ∧ (∀ x ∈ s.keep.sealQ, x.2.2 ≠ .fold) ∧
    ({ force := 0 } : Course).mapProg.getD (1 - 0) 0 < 9999998 := by decide

theorem wit_EnergyAndArming :
    (inDev .off).dev = .off ∧ (inDev .aux).dev ≠ .off ∧ 1 ∉ home.pwr.levels ∧
    1 ∈ ({ inDev .aux with pwr := { home.pwr with levels := [1] } } : State).pwr.levels ∧ home.keep.charac = none ∧ home.keep.arm = .disarmed ∧
    (withKeep home (keyed .armed)).keep.arm = .armed ∧ home.flag KEEP_CTL_INVDISARM = false ∧ 49999 < 50000 ∧ 1750000 < 1750001 ∧
    home.served aK KEEP_HOLDCAP = true := by decide

def almostArmed : State := powered (withKeep home fun k => charged (keyed .arming k))

theorem wit_EnergyAndArming_armed :
    almostArmed.dev ≠ .off ∧ almostArmed.keep.arm = .arming ∧ almostArmed.measValid = true ∧ almostArmed.keep.armOps = [] ∧
    almostArmed.keep.dirtyCount ≤ dmaxOf (almostArmed.energyMj almostArmed.holdV) := by decide

def fallen : State := { home with pins := { home.pins with pwrFailN := false } }
def inSave (step : Nat) : State := withKeep (inDev .saving) fun k => { k with saveStep := step }
def heldSave : State :=
  let s := withKeep (inDev .saving) fun k => { k with saveStep := 5, courses := [{}, { hold := some 0 }] }
  { s with pwr := { s.pwr with highFor10 := true } }

theorem wit_SaveRuns :
    fallen.pins.pwrFailN = false ∧ home.pins.pwrFailN = true ∧ home.maySave = true ∧ (inDev .recovery).maySave = false ∧
    (inDev .recovery).dev ≠ .bringup ∧ State.reset.maySave = false ∧ State.reset.dev = .bringup ∧
    ({ State.reset with pwr := { step := 8 } } : State).pwr.step = 8 ∧ ({ State.reset with pwr := { step := 8 } } : State).pwr.paused = false ∧
    State.reset.pwr.warm = false ∧ home.pwr.boot = 0 ∧ home.dev ≠ .bringup ∧ home.dev ≠ .sealed ∧ home.dev ≠ .thermalHold ∧ (inSave 1).dev = .saving ∧
    (inSave 1).keep.saveStep = 1 ∧ (inSave 1).unitsLeft = false ∧ (inSave 1).draining = false ∧
    (withChan (inSave 1) { st := .selfref }).draining = false ∧ ((withChan (inSave 1) { st := .selfref }).chan 0).st = .selfref ∧
    (withChan (inSave 1) { st := .selfref }).chanFenced 0 = false ∧ (withChan (inSave 1) { st := .draining }).draining = true ∧
    ((inSave 1).modTgt 0 fun t => { t with hdrs := [unit0 0] }).unitsLeft = true ∧ home.dev ≠ .saving ∧ heldSave.keep.saveStep = 5 ∧ (heldSave.keep.course 1).hold.isSome = true ∧
    heldSave.pwr.highFor10 = true ∧ heldSave.pwr.good = 0x3F ∧ heldSave.keep.copies = [] ∧ heldSave.pageLeft = false := by decide

def inPhase (n : Nat) : State := withKeep (inDev .bringup) fun k => { k with phase := n, secret := some 1 }

theorem wit_RestoreSteps :
    home.dev ≠ .bringup ∧ (inPhase 3).dev = .bringup ∧ (inPhase 3).keep.phase = 3 ∧ (inPhase 3).pwr.interval = false ∧
    (inPhase 3).pwr.paused = false ∧ (inPhase 3).keepBarred = false ∧ ((inPhase 3).keep.course 1).fenced = false ∧
    ({ inPhase 3 with fus := { home.fus with life := 4 } } : State).keepBarred = true ∧
    (inPhase 4).keep.phase = 4 ∧ (inPhase 4).keep.epochChange = false ∧ (inPhase 4).keep.poisonPg = [] ∧ ((inPhase 4).setFld KEEP_OPEN_MS_MS 0).fld KEEP_OPEN_MS_MS = 0 ∧
    (inPhase 5).keep.phase = 5 := by decide

/-- Page 1 has its first version: ZERO, not poisoned; page 3 a poisoned ZERO. -/
def kept : State := withKeep home fun k => { k with secret := some 1, courses := [{}, { cur := [(1, { slot := 1, poison := true })] }] }
def restoringAt (k : Keep → Keep) : State := withKeep (inDev .restoring) fun x => k { x with phase := 6 }

theorem wit_RestoreSteps_pages :
    home.memWf = true ∧ Memory.wf [] = true ∧ kept.keep.version 1 = some ([], 0) ∧ kept.keep.version 3 = some ([], fullMask) ∧
    (kept.keep.course (homeOf 1)).fenced = false ∧ kept.keepBarred = false ∧ rmem kept.keep.poisonPg 1 = false ∧
    rmem (withKeep home fun k => { k with poisonPg := [(1, 1)] }).keep.poisonPg 1 = true ∧
    rmem ((restoringAt fun k => { k with restored := [(5, 1)] }).keep.restored) 5 = true ∧ allUnits ≤ allUnits ∧ home.dev ≠ .restoring ∧
    (restoringAt id).dev = .restoring ∧ (restoringAt id).keep.phase = 6 ∧ 0 < allUnits ∧ rmem (restoringAt id).keep.restored 0 = false ∧
    (restoringAt id).wq.waits = [] ∧ rcount (radd (restoringAt id).keep.restored 0) ≠ allUnits ∧
    (∃ x ∈ ((restoringAt fun k => { k with touch := [(3, 0)] }).keep.touch.take 64), x.1 = 3) := by decide

/-! ### Witnesses: power, reset, bring-up -/

def withPwr (s : State) (f : Pwr → Pwr) : State := { s with pwr := f s.pwr }

theorem wit_SuppliesFollow :
    (inDev .off).dev = .off ∧ home.dev ≠ .off ∧ home.dev ≠ .aux ∧ (withPwr (inDev .aux) fun p => { p with levels := [1] }).dev = .aux ∧
    1 ∈ (withPwr (inDev .aux) fun p => { p with levels := [1] }).pwr.levels ∧
    bitAt home.pwr.good (railBit .vpp) = true ∧ bitAt (withPwr home fun p => { p with good := 1 }).pwr.good (railBit .vpp) = false ∧
    1 ||| 2 ^ railBit .vpp ≠ 0x3F ∧ home.maySave = true ∧ (inDev .recovery).maySave = false ∧ (inDev .recovery).dev ≠ .sealed ∧
    (inDev .sealed).maySave = false ∧ (inDev .sealed).dev = .sealed := by decide

def opened (reach : Nat) : State := withPwr home fun p => { p with interval := true, reach := reach, source := 2, mask := 4 }

theorem wit_ResetSources :
    15 < 16 ∧ 3 ≤ 3 ∧ 5 ≤ 5 ∧ (inDev .off).dev = .off ∧ (inDev .saving).dev = .saving ∧ home.dev ≠ .off ∧ home.dev ≠ .saving ∧
    home.pwr.interval = false ∧ (opened 4).pwr.interval = true ∧ 4 ≤ (opened 4).pwr.reach ∧ home.pins.resetN = true ∧
    ({ home with pins := { home.pins with resetN := false } } : State).pins.resetN = false ∧ home.dev ≠ .aux ∧ home.dev ≠ .safe ∧
    home.dev ≠ .recovery ∧ State.reset.dev = .bringup ∧ State.reset.pwr.waitAt = none ∧ State.reset.pwr.interval = false ∧
    home.dev ≠ .bringup ∧ home.dev ≠ .restoring ∧ home.pwr.readyAt = none ∧
    (withPwr home fun p => { p with readyAt := some 0 }).pwr.readyAt ≠ none := by decide

theorem wit_ResetSources_command :
    home.served aS RST_CMD = true ∧ aS.path = .sideband ∧ (0xA5C30001 : Word).toNat / 65536 = 0xA5C3 ∧
    (0xA5C30001 : Word).toNat % 4 = 1 ∧ (0xA5C30002 : Word).toNat % 4 = 2 ∧ aK.path ≠ .sideband ∧ home.served aK RST_CMD = true ∧
    (1 : Word).toNat / 65536 ≠ 0xA5C3 := by decide

def ending : State := withPwr home fun p => { p with interval := true, taken := true, reach := 3, source := 5, mask := 32 }

theorem wit_ResetsEnd :
    home.pwr.interval = false ∧ ending.pwr.interval = true ∧ ending.pwr.levels = [] ∧ ending.pwr.taken = true ∧ ending.pwr.waiting = false ∧
    ending.dev = .ready ∧ ending.pwr.reach < 8 ∧ ending.pwr.source < 16 ∧ home.pwr.waiting = false ∧
    ({ inDev .bringup with pwr := { ending.pwr with reach := 4 } } : State).dev = .bringup ∧
    (let s := withPwr (programming 1) fun p => { p with waiting := true }
     s.pwr.waiting = true ∧ ∃ x ∈ s.keep.copies, x.course = (0 : Fin 2).val) ∧
    home.served (aP 5) RST_BLKREQ = true ∧ home.rstAuth (aP 5).requester.toNat 0 = false ∧ home.served aS RST_BLKREQ = true ∧
    home.served aK RST_BLKREQ = true ∧ (aK.path == .keystone) = true ∧ (aS.path == .keystone) = false ∧ (0x23 : Word).getLsbD 31 = false ∧
    (inDev .aux).dev = .aux ∧ (inDev .safe).dev = .safe ∧ (inDev .sealed).dev = .sealed ∧ (inDev .thermalHold).dev = .thermalHold ∧
    (0x80000023 : Word).getLsbD 31 = true ∧ (0x80000023 : Word).toNat % 256 ≤ 0x25 ∧ 32 ≤ (0x80000023 : Word).toNat % 256 ∧
    home.pwr.blk = none ∧ ¬ (0x80000026 : Word).toNat % 256 ≤ 0x25 ∧
    (withPwr home fun p => { p with blk := some ⟨0x23, false⟩ }).pwr.blk = some ⟨0x23, false⟩ ∧ home.served aK RST_RECOVER_EXIT = true ∧
    ((withChan home { st := .draining }).chan 0).st = .draining ∧ home.served aS RST_RECOVER_EXIT = true ∧ home.dev = .ready ∧
    aK.path ≠ .sideband ∧ (¬∃ p, aK.path = .port p) ∧
    (let s := (((placed .recovery).setFld (LTC_RSTAUTH_EN 7) 1).setFld (LTC_RSTAUTH_ENDPOINT 7) 0x184).setFld (LTC_RSTAUTH_MAXREACH 7) 2
     s.rstAuth (aP 0x184).requester.toNat 2 = true ∧ s.rstAuth (aP 0x184).requester.toNat 0 = true ∧ (aP 0x184).hop = none ∧
     s.served (aP 0x184) RST_BLKREQ = true) ∧
    (inDev .recovery).served aS RST_RECOVER_EXIT = true ∧ (0xA5C30001 : Word).toNat % 2 = 1 ∧ (inDev .recovery).dev = .recovery := by decide

def inStepN (n : Nat) : State := withPwr State.reset fun p => { p with step := n }

theorem wit_BringupSteps :
    (inStepN 4).inStep (inStepN 4).pwr.step = true ∧ 1 ≤ (inStepN 4).pwr.step ∧ (inStepN 4).pwr.fell = false ∧ (inStepN 4).pwr.step < 5 ∧
    (withPwr (inStepN 4) fun p => { p with fell := true }).pwr.fell = true ∧ home.inStep 1 = false ∧ (inStepN 1).inStep 1 = true ∧
    (inStepN 1).sensorHot = false ∧ (inStepN 1).fld BST_POWERUP_RUNS = 0 ∧ 1 ≤ ((inStepN 1).setFld BST_POWERUP_RUNS 1).fld BST_POWERUP_RUNS ∧
    ({ inStepN 1 with thm := { home.thm with sensors := home.thm.sensors.set 0 { conv := [11000] } } } : State).sensorHot = true ∧
    (withPwr (inStepN 1) fun p => { p with warm := true }).warmLoads = true ∧ (inStepN 1).warmLoads = false ∧ (inDev .recovery).dev = .recovery ∧ (0 : Fin 4).val = 0 ∧ (3 : Fin 4).val = 3 ∧
    (inStepN 2).inStep 2 = true ∧ ({ inStepN 2 with fus := { home.fus with loading := true } } : State).fus.loading = true ∧
    (inStepN 2).fus.loading = false ∧ (inStepN 3).inStep 3 = true ∧ (inStepN 3).startChosen.fails < 3 ∧
    3 ≤ ({ fails := 2, inprog := true } : StartRec).fails + 1 ∧ (inStepN 4).inStep 4 = true ∧
    ({ inStepN 4 with ks := { home.ks with fw := [] } } : State).bestFw = none ∧ (inStepN 4).bestFw.isSome = true ∧
    home.dev ≠ .recovery ∧ home.inStep 5 = false ∧ (inStepN 5).inStep 5 = true ∧ (inStepN 5).pins.refclk = true ∧
    ({ inStepN 5 with pins := { home.pins with refclk := false } } : State).pins.refclk = false := by decide

def measured (ppm : Int) : CalResult :=
  { resDohm := 20000, refPpm := ppm, ms := 1, stepFs := 700, ztsv := 0x202020, zlane := [], sgain := [], soff := [], region := [],
    dtrim := [], seeds := 0 }

theorem wit_BringupSteps_channels :
    clkOff (measured (-20000)) = false ∧ clkOff (measured 20001) = true ∧ (inStepN 7).inStep 7 = true ∧
    ((withChan (inStepN 7) { st := .training }).chan 0).st = .training ∧ ((inStepN 7).chan 0).st ≠ .training := by decide

/-! ### Witnesses: integrity, repair, temperature, calibration, self-test, fuses -/

def recovering (r : List Recov) : State := { home with intg := { home.intg with recov := r } }

theorem wit_RecoveryAndScrub :
    (home.intg.recov.take 16).find? (fun r => r.granule == 5) = none ∧
    ((recovering [⟨5, 0, false⟩]).intg.recov.take 16).find? (fun r => r.granule == 5) = some ⟨5, 0, false⟩ ∧ home.dev ≠ .saving ∧
    (inDev .saving).dev = .saving ∧ home.keepBusOk 0 true = true ∧ home.keepBusOk 0 false = false ∧ home.keep.version (5 / 64) = some ([], 0) ∧ bitAt 0 (5 % 64) = false ∧
    (inDev .bringup).scrubbing = false ∧ home.scrubbing = true ∧ home.pwr.interval = false ∧ home.blocked 0x23 = false ∧ (home.master 6).asks = [] ∧
    ((home.modMaster 6 fun x => { x with asks := [{ own := .scrub, op := 0, units := [(0, 4)] }] }).master 6).asks ≠ [] ∧
    home.unitHeld (4 * 0) = false ∧ (recovering [⟨3, 0, false⟩]).unitHeld (4 * 0) = true ∧ home.wq.waits = [] ∧
    ({ home with pwr := { home.pwr with blk := some ⟨0x23, false⟩ } } : State).blocked 0x23 = true ∧ home.scrubSkips 0 = false ∧
    (∀ i < 4, home.plainGran (4 * 0 + i) = true ∧ readsClean [] (4 * 0 + i) = true) ∧ home.flag INT_SCRUB_STAT_BEHIND = false ∧
    home.served aK (INT_CELOG_A 63) = true ∧ (0x80000000 : Word).getLsbD 31 = true ∧ (0x7FFFFFFF : Word).getLsbD 31 = false := by decide

def toRepair : State := { up home with intg := { home.intg with todo := [2 ^ 28 + 31 * 2 ^ 23 + 2 ^ 22 + 15 * 2 ^ 18 + 98303] } }

theorem wit_RepairsMade :
    (2 ^ 28 + 0 : Nat) ∉ home.intg.todo ∧ (2 ^ 28 + 31 * 2 ^ 23 + 2 ^ 22 + 15 * 2 ^ 18 + 98303) ∈ toRepair.intg.todo ∧
    (toRepair.chan 31).st = .active ∧ (toRepair.chan 31).hold = none ∧ toRepair.blocked 0x24 = false ∧
    toRepair.spareNext (rowWord 1 31 1 15 98303) = some 0 ∧ toRepair.bankOwes 31 1 15 = false ∧ toRepair.intg.recov = [] ∧
    (bankOf { q := [{ unit0 0 with op := 1, reported := true }] }).bankOwes 0 0 0 = true := by decide

def unfused (r : Repair) : State := { home with intg := { home.intg with repairs := [r] }, pwr := { home.pwr with good := 0 } }

theorem wit_RepairsMade_fuse :
    home.vppOk = true ∧ (unfused { word := 1, src := 2, posted := true }).vppOk = false ∧
    (∀ r ∈ (unfused { word := 1, src := 2, posted := true }).intg.repairs, r.src = 2 → r.posted = true) ∧
    (unfused { word := 1, src := 2 }).fus.cmd = none ∧
    (unfused { word := 1, src := 2 }).intg.repairs.find? (fun r => r.src == 2 && !r.posted) = some { word := 1, src := 2 } ∧
    (let s : State := { home with fus := { home.fus with loaded := true, life := 3, states := [2, 2, 2, 1, 1, 1, 1, 2, 2, 2, 2]
                                                         words := factoryFuses.filter fun e => e.1 != 0x73A } }
     s.fuseBusy = false ∧ s.inService = true ∧ s.ksFuse.isSome = true) := by decide

def withThm (s : State) (f : Thm → Thm) : State := { s with thm := f s.thm }

theorem wit_SensorsRead :
    (inDev .off).dev = .off ∧ (inDev .aux).sensorsRest = true ∧ home.dev ≠ .off ∧ home.sensorsRest = false ∧ home.thm.sums.length = 20 ∧
    (List.replicate 40 (1000, 900)).length = 40 ∧ home.thm.nread < 9 ∧ 9 ≤ (withThm home fun t => { t with nread := 9 }).thm.nread ∧
    home.thm.sensors.length = 88 ∧ (-4000 : Int) ≤ -4000 ∧ (10999 : Int) < 11000 ∧ (∀ n < 88, (home.sensor n).conv.head? = none) ∧
    home.thm.shut = false ∧ bitAt home.pwr.good 1 = true ∧ (11000 : Int) ≤ 11000 ∧
    1 ≤ ((withThm home fun t => { t with sensors := t.sensors.set 87 { hot := 1 } }).sensor 87).hot ∧ home.masked 87 = false ∧
    ((withThm home fun t => { t with sensors := t.sensors.set 87 { failed := true } }).sensor 87).failed = true ∧ (home.sensor 87).failed = false ∧
    (15000 : Int) < 15001 ∧ home.served aK (THM_SENSMASK 2) = true := by decide

def modelled : State := withThm home fun t => { t with model := true, lid := some 5000 }
def estimated (e : Int) : State := withThm home fun t => { t with crs := t.crs.set 18 { est := some e } }

theorem wit_EstimatesAct :
    home.thm.model = false ∧ modelled.thm.model = true ∧ modelled.thm.crs.length = 20 ∧ modelled.thm.lid = some 5000 ∧
    (∃ n < 88, 15 ≤ sensorPos n ∧ modelled.trusted n = true) ∧ 15 < 16 ∧ home.mc.band.length = 16 ∧
    ((estimated 9500).thm.crs.getD (15 + 3) {}).est = some 9500 ∧ ((estimated 8500).thm.crs.getD (15 + 3) {}).est = some 8500 ∧
    19 < home.thm.crs.length := by decide

theorem wit_VisitsPlaceDelays_eye :
    57 ≤ 214 ∧ 214 ≤ 255 ∧ (57 ≤ 4 * 15 ∧ 4 * 15 ≤ 214) ∧ 1 ≤ 3 ∧ 3 ≤ 255 ∧ (∀ i < 64, 4 * i < 1 ∨ 3 < 4 * i) := by decide

def eyeRun : List Nat := (List.range 158).map (57 + ·)
def visiting (v : Visit) : State := { up home with cal := { home.cal with visits := [v] } }
def v0 (second : Bool) : Visit := { unit := .data 0 0, pin := 39, stby := some 40, second := second }

theorem wit_VisitsPlaceDelays :
    home.unitRuns (.data 0 0) = false ∧ (home.setFld CAL_CTL_ROLLEN 0).flag CAL_CTL_ROLLEN = false ∧ (up home).unitRuns (.data 0 0) = true ∧
    (up home).flag CAL_CTL_ROLLEN = true ∧ (up home).visitOf (.data 0 0) = none ∧ (up home).pwr.interval = false ∧
    (findFrom (unitPins (.data 0 0)).length (tgetD (up home).cal.next (calKey (.data 0 0)) 0 % (unitPins (.data 0 0)).length)
      fun i => !(up home).unvisited (.data 0 0) ((unitPins (.data 0 0)).getD i 0)) = some 0 ∧
    (visiting (v0 false)).visitOf (.data 0 0) = some (v0 false) ∧ (v0 false).slice = false ∧ (v0 false).second = false ∧
    (visiting (v0 false)).working (.data 0 0) (eyeOf eyeRun).1 (eyeOf eyeRun).2 = true ∧
    (visiting { v0 true with slice := true }).visitOf (.data 0 0) = some { v0 true with slice := true } ∧ (v0 true).second = true ∧
    (visiting (v0 true)).dlyHold (.data 0 0) = false ∧ ((visiting (v0 true)).setFld CAL_CTL_STRBTRK 0).flag CAL_CTL_STRBTRK = false ∧
    ((visiting (v0 false)).setFld CAL_CTL_MINEYE 10).minEye (.data 0 0) ≤ (eyeOf (List.range 31)).1 ∧
    centreOk (eyeOf (List.range 31)).2 = false ∧
    (v0 false).again = false ∧ (visiting (v0 false)).working (.data 0 0) (eyeOf []).1 (eyeOf []).2 = false ∧
    (visiting (v0 true)).linePin (.data 0 0) 39 = 39 ∧ 39 < 120 ∧ (eyeOf []).1 < (visiting (v0 true)).minEye (.data 0 0) := by decide

theorem wit_VisitsPlaceDelays_keep :
    home.served aK (CAL_KAPPLY 1) = true ∧ (0 : Word).getLsbD 0 = false ∧ (1 : Word).getLsbD 0 = true ∧ home.cal.kcap.length = 2 ∧
    home.cal.kpend.length = 2 ∧ home.cal.kpend.getD 1 false = false ∧ tget home.cal.pend 111 = none ∧
    ({ home with cal := { home.cal with kpend := [false, true] } } : State).cal.kpend.getD 1 false = true ∧ 44 < 45 := by decide

theorem wit_TrackingAndClock :
    (inDev .bringup).tracking = false ∧ home.tracking = true ∧ home.flag CAL_STAT_REFBAD = false ∧
    (home.setFld CAL_STAT_REFBAD 1).flag CAL_STAT_REFBAD = true ∧ ([0x81] : List Nat)[0]? = some 0x81 ∧
    0x81 % 256 ≠ home.fld (CAL_DSTEP_TRIM 0) ∧ 1 < codeMove ((0x3F : Word).toNat &&& 0x3F3F3F) (home.reg CAL_ZTSV) ∧
    home.pins.refclk = true ∧ home.dev ≠ .off ∧ ({ home with pins := { home.pins with refclk := false } } : State).pins.refclk = false ∧
    ((up home).chan 0).st = .active := by decide

def queued (t : Nat) : State := { up home with bst := { home.bst with queue := [(t, 2, none)] } }
def slicing (c : Slice) : State := { up home with bst := { home.bst with cur := some c } }
def rowSlice (st : Bool) : Slice := { target := rowIndexTarget 5, origin := 2, started := st, n := if st then 160 else 0 }

theorem wit_SlicesRun :
    (inDev .bringup).inService = false ∧ (queued (rowIndexTarget 0)).inService = true ∧ (queued (rowIndexTarget 0)).bst.cur = none ∧
    (queued (rowIndexTarget 0)).pwr.interval = false ∧ (queued (rowIndexTarget 0)).blocked 0x24 = false ∧
    (queued (rowIndexTarget 0)).bst.queue = (rowIndexTarget 0, 2, none) :: [] ∧ home.intg.tests = [] ∧
    (∀ y ∈ (queued (rowIndexTarget 0)).bst.queue, (queued (rowIndexTarget 0)).tStep y.1 < 3) ∧
    (queued (rowIndexTarget 0)).targetHeld (rowIndexTarget 0) = false ∧
    ({ home with intg := { home.intg with todo := [rowIndexTarget 0] } } : State).targetHeld (rowIndexTarget 0) = true ∧
    home.bst.queue = [] ∧ home.bst.cur = none ∧ (slicing (rowSlice false)).bst.cur = some (rowSlice false) ∧
    (slicing (rowSlice false)).tStep (rowSlice false).target < 3 ∧ (rowSlice false).started = false ∧ (rowSlice false).origin ≠ 0 ∧
    tKind (rowSlice false).target = 1 ∧
    (slicing (rowSlice false)).bankOwes (tLoc (rowSlice false).target).ch (tLoc (rowSlice false).target).pc (tLoc (rowSlice false).target).bank = false ∧
    (let l := tLoc (rowSlice true).target
     ((((slicing (rowSlice true)).modChan l.ch fun h => { h with hold := some (l.pc, l.bank) }).chan l.ch).hold = some (l.pc, l.bank))) ∧
    ((slicing (rowSlice false)).chan (tChan (rowSlice false).target)).st = .active ∧
    ((slicing (rowSlice false)).chan (tChan (rowSlice false).target)).hold = none ∧
    (rowSlice true).started = true ∧ (rowSlice true).op = none ∧ (rowSlice true).n = 160 ∧
    rowIndexes - 1 < rowIndexes ∧ tsvIndexes - 1 < tsvIndexes := by decide

theorem wit_SlicesRun_plain :
    ∀ g ∈ bankRowGrans (tLoc (rowIndexTarget 5)).ch (tLoc (rowIndexTarget 5)).pc (tLoc (rowIndexTarget 5)).bank (tLoc (rowIndexTarget 5)).row,
      home.plainGran g = true ∧ readsClean [] g = true := by decide

def inReset (life : Nat) : State :=
  { home with pwr := { home.pwr with interval := true }, pins := { home.pins with resetN := false }, fus := { home.fus with life := life } }

theorem wit_TestAccessPort :
    (inDev .off).dev = .off ∧ home.dev ≠ .off ∧ home.pins.trstN = true ∧
    ({ home with pins := { home.pins with trstN := false } } : State).pins.trstN = false ∧ (home.pwr.interval && !home.pins.resetN) = false ∧
    ((inReset 3).pwr.interval && !(inReset 3).pins.resetN) = true ∧ ¬((inReset 3).fus.life = 1 ∨ (inReset 3).fus.life = 2 ∨ (inReset 3).bst.unlock ≠ none) ∧
    (inReset 2).fus.life = 2 ∧ (inReset 2).scanMay 3 = true := by decide

def fusing (life addr : Nat) : State :=
  { home.setReg FUS_PGADDR addr with fus := { home.fus with life := life, words := [(0x00F, cleanWord 0xCC6BD671)] } }
def wordCmd : Word := 0xF05A0001

theorem wit_FuseCommands :
    (fusing 1 0).served aS FUS_PGCMD = true ∧ (fusing 1 0).served (aP 5) FUS_PGCMD = true ∧ (∃ p, (aP 5).path = .port p) ∧
    wordCmd.toNat / 65536 = 0xF05A ∧ wordCmd.toNat % 4 = 1 ∧ (1 : Word).toNat / 65536 ≠ 0xF05A ∧ (0xF05A0000 : Word).toNat % 4 = 0 ∧
    lifePermits 3 (regionOf 0) 0 false = false ∧ lifePermits 1 (regionOf 0) 0 false = true ∧ bankLockWord 0 = false ∧
    (fusing 1 0).lockBlown (regionOf 0) = false ∧ bitAt ((fusing 1 0).fld FUS_LOCK_LOCK) (regionOf 0) = false ∧
    bitAt (((fusing 1 0).setFld FUS_LOCK_LOCK 1).fld FUS_LOCK_LOCK) 0 = true ∧ (fusing 1 0).vppOk = true ∧
    ({ fusing 1 0 with pwr := { home.pwr with good := 0 } } : State).vppOk = false ∧ (fusing 1 0x00F).blankAt 0x00F = false ∧
    (fusing 1 0).blankAt 0 = true ∧ (fusing 1 0).fuseBusy = false ∧
    ({ fusing 1 0 with fus := { home.fus with life := 1, words := [], loading := true } } : State).fuseBusy = true := by decide

theorem wit_FuseCommands_life :
    let virgin : State := { home with fus := { home.fus with life := 0, words := [] } }
    (0xF05A0102 : Word).toNat % 4 = 2 ∧ (0xF05A0102 : Word).toNat / 256 % 8 = 1 ∧ virgin.lifePrereq 1 false = true ∧ virgin.vppOk = true ∧
    virgin.blankAt (0x72F + 1) = true ∧ virgin.fuseBusy = false ∧ home.lifePrereq 2 false = false ∧
    virgin.lifeStep 1 false = true ∧ (fusing 3 0x730).lifeStep 2 false = false ∧ virgin.lifeStep 0 true = false ∧
    { virgin with pwr := { virgin.pwr with good := 0 } }.vppOk = false ∧ { virgin with fus := { virgin.fus with loading := true } }.fuseBusy = true ∧
    { virgin with fus := { virgin.fus with words := [(0x730, cleanWord 1)] } }.blankAt (0x72F + 1) = false ∧
    { fusing 3 0 with fus := { home.fus with life := 3, words := [(0x733, cleanWord 1)] } }.blankAt 0x733 = false ∧
    (0xF05A0003 : Word).toNat % 4 = 3 ∧ (fusing 3 0).lifeStep 0 true = true ∧ (fusing 3 0).vppOk = true ∧ (fusing 3 0).fuseBusy = false ∧
    (fusing 3 0).blankAt 0x733 = true ∧ virgin.served aS FUS_PGCMD = true := by decide

def programmingFuse (k : Nat) : State :=
  { home with fus := { home.fus with cmd := some { kind := k, addr := 0x730, data := 5, state := 1, byKs := false } } }

theorem wit_FuseWords :
    home.fus.cmd = none ∧ (programmingFuse 2).fus.cmd = some { kind := 2, addr := 0x730, data := 5, state := 1, byKs := false } ∧
    (0 : Fin 3) = 0 ∧ (5 : Nat) ≠ 0 ∧ (programmingFuse 2).vppOk = true ∧ (2 : Fin 3) ≠ 0 ∧ (programmingFuse 1).fus.cmd.isSome = true ∧
    home.served aK FUS_LOCK = true ∧ home.served aS FUS_RDADDR = true ∧ regionOf (0x710 % 2048) = 7 ∧ regionOf (0x7FF % 2048) ≠ 7 := by decide

/-! ### Witnesses: the address map, invariants -/

theorem wit_AddressMap :
    dramEnd - 1 < dramEnd ∧ 31 < 32 ∧ 1 < 2 ∧ 15 < 16 ∧ 98303 < 98304 ∧ 63 < 64 ∧ 255 / 256 = 0 / 256 := by decide

theorem wit_StepKeepsForm :
    State.reset.memWf = true ∧ State.reset.regsWf = true ∧ (rdy.setReg MTR_CTL 1).regsWf = true := by decide

end Sys2Proof.Tests
end

/-! SUPPORT. The lintels and a port that starts over: one rule for each operation, and what each leaves as it was. -/

namespace Sys2Proof.Machine

/-! ### Rules of the state that several statements share -/

/-- An update of a port that exists is read at that port alone; one of a port that does not exist is not read at all. -/
theorem State.port_modPort_eq (s : State) (i j : Nat) (f : Port → Port) :
    (s.modPort i f).port j = if j = i ∧ i < s.lnk.ports.length then f (s.port j) else s.port j := by
  by_cases hi : i < s.lnk.ports.length
  · simp only [State.port_modPort _ _ _ _ hi, hi, and_true]
  · simp only [State.port_modPort_out _ _ _ _ (Nat.le_of_not_lt hi), hi, and_false, if_false]

/-- A port whose number does not exist reads as a default one. -/
theorem State.port_absent {s : State} {p : Nat} (h : s.lnk.ports.length ≤ p) : s.port p = {} := by
  simp [State.port, List.getD_eq_getElem?_getD, List.getElem?_eq_none h]

@[simp] theorem State.modPort_length (s : State) (i : Nat) (f : Port → Port) :
    (s.modPort i f).lnk.ports.length = s.lnk.ports.length := length_modAt _ _ _

theorem State.setLnk_only (s : State) (l : Lnk) : s.only { s with lnk := l } [.lnk] fun _ => False := by
  refine ⟨fun p => ?_, fun _ => Or.inr rfl⟩
  cases p <;> first | exact Or.inr rfl | exact Or.inl (by simp)

/-- A part that a frame does not name is the same. -/
theorem State.only_part {s t : State} {ps : List Part} {rs : Nat → Prop} (h : s.only t ps rs) (p : Part)
    (hp : p ∉ ps := by simp) : p.same s t := (h.1 p).resolve_left hp

/-- A register that a frame does not name reads the same. -/
theorem State.only_reg_eq {s t : State} {ps : List Part} {rs : Nat → Prop} (h : s.only t ps rs) {r : Nat} (hr : ¬rs r) :
    t.reg r = s.reg r := (h.2 r).resolve_left hr

/-- A field reads the same where its register does. -/
theorem State.fld_congr {s t : State} {f : Fld} (h : t.reg f.addr = s.reg f.addr) : t.fld f = s.fld f := by
  simp only [State.fld, h]

theorem State.flag_congr {s t : State} {f : Fld} (h : t.reg f.addr = s.reg f.addr) : t.flag f = s.flag f := by
  simp only [State.flag, State.fld_congr h]

/-- A write by access types leaves in its register what the access types let through. -/
theorem State.writeAcc_reg_self (s : State) (r v : Nat) : (s.writeAcc r v).reg r = s.taken r v := by
  unfold State.writeAcc State.taken
  cases rowOf r with
  | none => rfl
  | some row => exact s.reg_setReg_self _ _

theorem State.taken_congr {s t : State} {r : Nat} (h : t.reg r = s.reg r) (v : Nat) : t.taken r v = s.taken r v := by
  simp only [State.taken, h]

/-- The packet of an access that arrives moves no register outside the mortar block. -/
theorem State.arrived_reg (s : State) (a : Access) (o : Nat) {r : Nat} (h : r / 0x100000 ≠ 7) :
    (s.arrived a o).reg r = s.reg r := by
  refine State.only_reg_eq (s.arrived_only a o) ?_
  rintro ⟨m, hm, rfl | rfl⟩ <;> simp only [MTR_BYTES_LO] at h <;> omega

/-! ### A port that starts over (R53, R71) -/

/-- What starting over leaves in a port. -/
def Port.restarted (st : PSt) (t : Port) : Port :=
  { t with
    st := st, tried := [], gen := 0, slowNeg := false, skewTried := false, skewLane := none
    lanes := List.replicate 17 {}, rxSwap := none, txSwap := none, txLs := 16, widthReq := none
    txSlot := 0, rxSlot := 0, initRx := false }

/-- The registers of a port that starting over writes. -/
def trainRegs (p r : Nat) : Prop := r = LNK_STAT p ∨ ∃ n < 17, r = LNK_LSTAT p n

/-- No lane of a port has failed and none is in use. -/
def State.lanesForgotten (s : State) (p : Nat) : State :=
  (List.range 17).foldl (fun s n => (s.setFld (LNK_LSTAT_FAILED p n) 0).setFld (LNK_LSTAT_INUSE p n) 0) s

theorem State.startOver_eq (s : State) (p : Nat) (st : PSt) :
    s.startOver p st = ((((((s.modPort p (Port.restarted st)).lanesForgotten p).setFld (LNK_STAT_GEN p) 0).setFld
      (LNK_STAT_WIDTH p) 0).setFld (LNK_STAT_GROUP p) 0).setFld (LNK_STAT_LS_USE p) 16).setFld (LNK_STAT_LIMIT p) 0 := rfl

theorem State.lanesForgotten_lnk (s : State) (p : Nat) : (s.lanesForgotten p).lnk = s.lnk :=
  foldl_keeps State.lnk _ (fun _ _ => by simp) _ _

theorem State.startOver_lnk (s : State) (p : Nat) (st : PSt) :
    (s.startOver p st).lnk = (s.modPort p (Port.restarted st)).lnk := by
  simp [State.startOver_eq, State.lanesForgotten_lnk]

theorem State.startOver_port (s : State) (p q : Nat) (st : PSt) :
    (s.startOver p st).port q =
      if q = p ∧ p < s.lnk.ports.length then Port.restarted st (s.port q) else s.port q := by
  rw [← s.port_modPort_eq]
  simp only [State.port, State.startOver_lnk]

@[simp] theorem State.startOver_length (s : State) (p : Nat) (st : PSt) :
    (s.startOver p st).lnk.ports.length = s.lnk.ports.length := by simp [State.startOver_lnk]

/-- Starting over writes its port and its port's registers of training, nothing else. -/
theorem State.startOver_only (s : State) (p : Nat) (st : PSt) : s.only (s.startOver p st) [.lnk] (trainRegs p) := by
  have stat {t u : State} (h : t.only u [] fun r => r = LNK_STAT p) : t.only u [.lnk] (trainRegs p) :=
    State.only_mono h (by simp) fun _ h => Or.inl h
  have lstat {t u : State} {n : Nat} (hn : n < 17) (h : t.only u [] fun r => r = LNK_LSTAT p n) :
      t.only u [.lnk] (trainRegs p) := State.only_mono h (by simp) fun _ h => Or.inr ⟨n, hn, h⟩
  have lanes (t : State) : t.only (t.lanesForgotten p) [.lnk] (trainRegs p) := by
    refine State.only_foldl _ _ _ fun s n hn => ?_
    have hn := List.mem_range.1 hn
    exact State.only_trans (lstat hn (s.setFld_only _ _)) (lstat hn (State.setFld_only _ _ _))
  rw [State.startOver_eq]
  exact State.only_trans (State.only_trans (State.only_trans (State.only_trans (State.only_trans (State.only_trans
    (State.only_mono (s.modPort_only _ _) (by simp) fun _ h => h.elim) (lanes _)) (stat (State.setFld_only _ _ _)))
    (stat (State.setFld_only _ _ _))) (stat (State.setFld_only _ _ _))) (stat (State.setFld_only _ _ _)))
    (stat (State.setFld_only _ _ _))

/-! ### The lintels (R65, R66) -/

/-- The state in which a ring's lintel has closed, before its event. -/
def State.ringClosed (s : State) (ring : Nat) : State :=
  let s := { s with lnk := { s.lnk with closed := s.lnk.closed.set ring true } }
  let s := (s.startOver (2 * ring) .bypassed).startOver (2 * ring + 1) .bypassed
  (s.modPort (2 * ring) fun t => { t with haveLink := false }).modPort (2 * ring + 1)
    fun t => { t with haveLink := false }

/-- The state in which a ring's lintel has opened, before its event. -/
def State.ringOpened (s : State) (ring : Nat) : State :=
  let s := { s with lnk := { s.lnk with closed := s.lnk.closed.set ring false } }
  let s := s.startOver (2 * ring) (s.portIdleState (2 * ring))
  s.startOver (2 * ring + 1) (s.portIdleState (2 * ring + 1))

/-- A register of training of one of the two ports of a ring. -/
def ringRegs (ring r : Nat) : Prop := ∃ p, p / 2 = ring ∧ trainRegs p r

theorem State.startOver_only_ring (s : State) (p ring : Nat) (st : PSt) (h : p / 2 = ring) :
    s.only (s.startOver p st) [.lnk] (ringRegs ring) :=
  State.only_mono (s.startOver_only p st) (by simp) fun _ hr => ⟨p, h, hr⟩

theorem State.ringClosed_only (s : State) (ring : Nat) : s.only (s.ringClosed ring) [.lnk] (ringRegs ring) := by
  have none {t u : State} (h : t.only u [.lnk] fun _ => False) : t.only u [.lnk] (ringRegs ring) :=
    State.only_mono h (by simp) fun _ h => h.elim
  unfold State.ringClosed
  exact State.only_trans (State.only_trans (State.only_trans (State.only_trans (none (s.setLnk_only _))
    (State.startOver_only_ring _ _ _ _ (by omega))) (State.startOver_only_ring _ _ _ _ (by omega)))
    (none (State.modPort_only _ _ _))) (none (State.modPort_only _ _ _))

theorem State.ringOpened_only (s : State) (ring : Nat) : s.only (s.ringOpened ring) [.lnk] (ringRegs ring) := by
  unfold State.ringOpened
  exact State.only_trans (State.only_trans (State.only_mono (s.setLnk_only _) (by simp) fun _ h => h.elim)
    (State.startOver_only_ring _ _ _ _ (by omega))) (State.startOver_only_ring _ _ _ _ (by omega))

theorem State.ringClosed_closed (s : State) (ring : Nat) :
    (s.ringClosed ring).lnk.closed = s.lnk.closed.set ring true := by
  simp [State.ringClosed, State.modPort, State.startOver_lnk]

theorem State.ringClosed_opened (s : State) (ring : Nat) : (s.ringClosed ring).lnk.opened = s.lnk.opened := by
  simp [State.ringClosed, State.modPort, State.startOver_lnk]

theorem State.ringOpened_closed (s : State) (ring : Nat) :
    (s.ringOpened ring).lnk.closed = s.lnk.closed.set ring false := by
  simp [State.ringOpened, State.modPort, State.startOver_lnk]

/-- Both ports of a ring whose lintel has closed are BYPASSED with no link state to resume; the others stay. -/
theorem State.ringClosed_port (s : State) (ring p : Nat) :
    (s.ringClosed ring).port p =
      if p / 2 = ring ∧ p < s.lnk.ports.length then { Port.restarted .bypassed (s.port p) with haveLink := false }
      else s.port p := by
  have ports (c : List Bool) (q : Nat) : ({ s with lnk := { s.lnk with closed := c } } : State).port q = s.port q := rfl
  simp only [State.ringClosed, State.port_modPort_eq, State.startOver_port, State.modPort_length, State.startOver_length, ports]
  by_cases h0 : p = 2 * ring
  · subst h0
    have : 2 * ring ≠ 2 * ring + 1 := by omega
    by_cases hl : 2 * ring < s.lnk.ports.length <;> simp [hl]
  · by_cases h1 : p = 2 * ring + 1
    · subst h1
      have hd : (2 * ring + 1) / 2 = ring := by omega
      by_cases hl : 2 * ring + 1 < s.lnk.ports.length <;> simp [hl, hd]
    · have hd : p / 2 ≠ ring := by omega
      simp [h0, h1, hd]

/-- The state that a port takes when its lintel opens depends on the device state and on ENABLE alone. -/
theorem State.portIdleState_congr {s t : State} {p : Nat} (hd : t.dev = s.dev)
    (hr : t.reg (LNK_CTL p) = s.reg (LNK_CTL p)) : t.portIdleState p = s.portIdleState p := by
  simp only [State.portIdleState, hd, State.flag_congr (f := LNK_CTL_ENABLE p) hr]

/-- LNK_CTL of a port is no register of training of another. -/
theorem not_trainRegs_ctl (p q : Nat) : ¬trainRegs q (LNK_CTL p) := by
  rintro (h | ⟨n, hn, h⟩) <;> simp only [LNK_CTL, LNK_STAT, LNK_LSTAT] at h <;> omega

/-- The ports of a ring whose lintel has opened start over in the state that their ENABLE asks for; the others stay. -/
theorem State.ringOpened_port (s : State) (ring p : Nat) :
    (s.ringOpened ring).port p =
      if p / 2 = ring ∧ p < s.lnk.ports.length then Port.restarted (s.portIdleState p) (s.port p) else s.port p := by
  have ports (c : List Bool) (q : Nat) : ({ s with lnk := { s.lnk with closed := c } } : State).port q = s.port q := rfl
  have idle (c : List Bool) (q : Nat) :
      ({ s with lnk := { s.lnk with closed := c } } : State).portIdleState q = s.portIdleState q := rfl
  have second (t : State) (st : PSt) :
      (t.startOver (2 * ring) st).portIdleState (2 * ring + 1) = t.portIdleState (2 * ring + 1) :=
    State.portIdleState_congr (State.only_part (t.startOver_only _ st) .dev)
      (State.only_reg_eq (t.startOver_only _ st) (not_trainRegs_ctl _ _))
  simp only [State.ringOpened, second, State.startOver_port, State.startOver_length, ports, idle]
  by_cases h0 : p = 2 * ring
  · subst h0
    by_cases hl : 2 * ring < s.lnk.ports.length <;> simp [hl]
  · by_cases h1 : p = 2 * ring + 1
    · subst h1
      have hd : (2 * ring + 1) / 2 = ring := by omega
      by_cases hl : 2 * ring + 1 < s.lnk.ports.length <;> simp [hl, hd]
    · have hd : p / 2 ≠ ring := by omega
      simp [h0, h1, hd]

theorem State.portIdleState_eq (s : State) (p : Nat) :
    s.portIdleState p = if s.flag (LNK_CTL_ENABLE p) = true ∧ ¬(s.dev = .recovery ∧ p = 1) then .detect else .disabled := by
  unfold State.portIdleState
  by_cases h : s.dev = .recovery ∧ p = 1 <;> simp [h]

/-- The causes that 0x0208 names are those of the state in which the lintel closes. -/
theorem State.ringClosed_causes (s : State) (ring : Nat) : (s.ringClosed ring).lintelCauses ring = s.lintelCauses ring := by
  have h := s.ringClosed_only ring
  have hdev : (s.ringClosed ring).dev = s.dev := State.only_part h .dev
  have hpins : (s.ringClosed ring).pins = s.pins := State.only_part h .pins
  have hpwr : (s.ringClosed ring).pwr = s.pwr := State.only_part h .pwr
  simp only [State.lintelCauses, State.lintelState, State.lintelReset, hdev, hpins, hpwr, s.ringClosed_opened]

/-- A lintel that closes: its ring, and 0x0208 with its causes and CLOSED, in every state but OFF. -/
theorem State.closeLintel_eq (s : State) (ring : Nat) :
    s.closeLintel ring = if s.dev = .off then s.ringClosed ring
      else (s.ringClosed ring).post 0x0208 0 ring (s.lintelCauses ring + 1) := by
  have hdev : (s.ringClosed ring).dev = s.dev := State.only_part (s.ringClosed_only ring) .dev
  rw [← s.ringClosed_causes, ← hdev]
  rfl

theorem State.openLintel_eq (s : State) (ring : Nat) : s.openLintel ring = (s.ringOpened ring).post 0x0209 0 ring 0 := rfl

/-- A lintel moves where what its conditions ask for is not what it is. -/
theorem State.updateLintel_eq (s : State) (ring : Nat) :
    s.updateLintel ring =
      if s.lintelMustClose ring = s.lnk.closed.getD ring true then s
      else if s.lintelMustClose ring = true then s.closeLintel ring else s.openLintel ring := by
  unfold State.updateLintel
  generalize s.lintelMustClose ring = m
  dsimp only
  generalize s.lnk.closed.getD ring true = c
  cases m <;> cases c <;> simp

theorem exec_lintelForceNChange (s : State) (low : Bool) :
    exec (.lintelForceNChange low) s = .next { s with pins := { s.pins with lintelForceN := !low } }.updateLintels := rfl

theorem exec_lnkLintelCloseWrite (s : State) (a : Access) (ring : Fin 2) (v : Word) :
    exec (.lnkLintelCloseWrite a ring v) s =
      .next (s.cfgWrite a (LNK_LINTEL ring) fun s => (s.writeAcc (LNK_LINTEL ring) v.toNat).updateLintels) := rfl

/-- Settles O11: a lintel that moves makes both ports of its ring start over, and posts its event. -/
theorem lintels : Obligations.Lintels := by
  unfold Obligations.Lintels
  refine ⟨⟨exec_lintelForceNChange, fun s a ring v h => ?_, fun s ring => s.updateLintel_eq ring⟩, fun s ring => ⟨?_, ?_⟩⟩
  · refine ⟨(s.arrived a 9).writeAcc (LNK_LINTEL ring) v.toNat, ?_, ?_, State.writeAcc_only _ _ _⟩
    · rw [exec_lnkLintelCloseWrite, State.cfgWrite_served h]
    · rw [State.writeAcc_reg_self]
      refine State.taken_congr (s.arrived_reg a 9 ?_) _
      simp only [LNK_LINTEL]; omega
  · refine ⟨s.ringClosed ring, s.closeLintel_eq ring, s.ringClosed_closed ring, fun p hp => ?_, fun p hp => ?_,
      s.ringClosed_only ring⟩
    · rw [State.ringClosed_port]
      by_cases hl : p < s.lnk.ports.length
      · rw [if_pos ⟨hp, hl⟩]; exact ⟨rfl, rfl⟩
      · rw [if_neg fun h => hl h.2, State.port_absent (Nat.le_of_not_lt hl)]; exact ⟨rfl, rfl⟩
    · rw [State.ringClosed_port, if_neg fun h => hp h.1]
  · refine ⟨s.ringOpened ring, s.openLintel_eq ring, s.ringOpened_closed ring, fun p x hp hx => ?_, fun p hp => ?_,
      s.ringOpened_only ring⟩
    · rw [s.ringOpened_port ring p, if_pos ⟨hp, (List.getElem?_eq_some_iff.1 hx).1⟩, ← State.portIdleState_eq]
      rfl
    · rw [s.ringOpened_port ring p, if_neg fun h => hp h.1]

end Sys2Proof.Machine

/-! SUPPORT. Flits as they arrive: from the lanes to the flit, its checks, its sequence, its ACK and NAK (R49-R50, R71-R80). -/

namespace Sys2Proof.Machine

/-! ### Fields, counters and slices -/

theorem satAdd_lt (w x d : Nat) : satAdd w x d < 2 ^ w := by
  have : 0 < 2 ^ w := by positivity
  unfold satAdd; omega

/-- A counter field reads as its saturating sum. -/
theorem State.fld_incFld (s : State) (f : Fld) (d : Nat) (hl : f.lo ≤ f.hi) (hh : f.hi < 32) :
    (s.incFld f d).fld f = satAdd (f.hi + 1 - f.lo) (s.fld f) d := by
  unfold State.incFld
  rw [s.fld_setFld f _ hl hh, Nat.mod_eq_of_lt (satAdd_lt _ _ _)]

/-- A 64-bit counter reads as its sum modulo 2^64. -/
theorem State.reg64_add64 (s : State) (lo d : Nat) : (s.add64 lo d).reg64 lo = (s.reg64 lo + d) % 2 ^ 64 := by
  have h : ((s.setReg lo (s.reg64 lo + d)).setReg (lo + 4) ((s.reg64 lo + d) / 2 ^ 32)).reg lo = (s.reg64 lo + d) % 2 ^ 32 := by
    rw [State.reg_setReg_ne _ _ (by omega), State.reg_setReg_self]
  unfold State.add64 State.setReg64
  rw [State.reg64, h, State.reg_setReg_self]
  omega

@[simp] theorem length_sliceB (bs : List Byte) (off n : Nat) : (sliceB bs off n).length = n := by
  simp only [sliceB, List.length_append, List.length_replicate, List.length_take]; omega

/-- A slice that a string holds whole. -/
theorem sliceB_append {a b c : List Byte} {off n : Nat} (ha : a.length = off) (hb : b.length = n) :
    sliceB (a ++ (b ++ c)) off n = b := by
  subst ha hb
  simp [sliceB]

theorem sliceB_self {b : List Byte} {n : Nat} (hb : b.length = n) : sliceB b 0 n = b := by
  simpa using sliceB_append (a := []) (c := []) rfl hb

/-- Of slots of `n` bytes in a row the `j`-th is the slice from `n * j` up. -/
theorem sliceB_slots (g : Nat → List Byte) (n m j : Nat) (hg : ∀ i, (g i).length = n) (hj : j < m) :
    sliceB ((List.range m).map g).flatten (n * j) n = g j := by
  obtain ⟨k, rfl⟩ := Nat.exists_eq_add_of_lt hj
  have before : (((List.range j).map g).flatten).length = n * j := by
    simp [List.length_flatten, Function.comp_def, hg, Nat.mul_comm]
  rw [Nat.add_assoc, List.range_add, List.range_succ_eq_map, List.map_append, List.flatten_append, List.map_cons,
    List.map_cons, List.flatten_cons]
  exact sliceB_append before (hg _)

/-- Where no two entries have one key, the search for an entry's key finds that entry. -/
theorem find?_key {α : Type} {key : α → Nat} {l : List α} (h : (l.map key).Nodup) {x : α} (hx : x ∈ l) :
    l.find? (fun y => key y == key x) = some x := by
  induction l with
  | nil => simp at hx
  | cons y l ih =>
    rw [List.map_cons, List.nodup_cons] at h
    rcases List.mem_cons.1 hx with rfl | hx
    · simp
    · have hne : key y ≠ key x := fun e => h.1 (e ▸ List.mem_map_of_mem hx)
      rw [List.find?_cons_of_neg (by simpa using hne)]
      exact ih h.2 hx

/-! ### Where a flit's slots go (R28, R50, R65, R79) -/

/-- What a closed lintel hands on: every slot of a lane of the port, to the ring's other port. -/
theorem State.bypassLanes_eq (s : State) (p : Nat) (ls : List LaneIn) :
    s.bypassLanes p ls = { s with
      out := s.out ++ (ls.filter fun x => decide (x.lane < 17)).map fun x => .pass (p ^^^ 1) x.lane x.slots.flatten } := by
  unfold State.bypassLanes
  induction ls generalizing s with
  | nil => simp
  | cons x ls ih =>
    rw [List.foldl_cons, ih]
    by_cases h : x.lane < 17 <;> simp [State.bypass, State.emit, h]

theorem State.onFlit_bypassed {s : State} {p : Nat} (h : (s.port p).st = .bypassed) (ls : List LaneIn) (fs : List LaneFec)
    (go : State → List Byte → Bool → State) : s.onFlit p ls fs go = s.bypassLanes p ls := by simp only [State.onFlit, h]

theorem State.onFlit_lost {s : State} {p : Nat} (h : (s.port p).st ≠ .active) (h' : (s.port p).st ≠ .bypassed)
    (ls : List LaneIn) (fs : List LaneFec) (go : State → List Byte → Bool → State) : s.onFlit p ls fs go = s := by
  unfold State.onFlit
  cases e : (s.port p).st <;> simp_all

theorem State.onFlit_active {s : State} {p : Nat} (h : (s.port p).st = .active) (ls : List LaneIn) (fs : List LaneFec)
    (go : State → List Byte → Bool → State) :
    s.onFlit p ls fs go = go (s.countFec p fs) (s.gatherFlit p ls) (s.fecOk p fs) := by simp only [State.onFlit, h]

theorem exec_dataFlitReceived (s : State) (p : Fin 4) (ls : List LaneIn) (fs : List LaneFec) :
    exec (.dataFlitReceived p ls fs) s = .next (s.onFlit p ls fs fun s f ok => s.dataFlit p f ok) := rfl

theorem exec_idleFlitReceived (s : State) (p : Fin 4) (ls : List LaneIn) (fs : List LaneFec) :
    exec (.idleFlitReceived p ls fs) s = .next (s.onFlit p ls fs fun s f ok => s.idleFlitIn p f ok) := rfl

theorem exec_initFlitReceived (s : State) (p : Fin 4) (ls : List LaneIn) (fs : List LaneFec) :
    exec (.initFlitReceived p ls fs) s = .next (s.onFlit p ls fs fun s f ok => s.initFlit p f ok) := rfl

/-- On a port of full width whose lanes are in order, slot `i` of the stream comes on lane `i` mod 16. -/
theorem State.rxLane_full {s : State} {p : Nat} (hg : s.laneGroup p = (16, 0)) (hls : s.fld (LNK_STAT_LS_USE p) = 16)
    (hphys : ∀ l < 16, s.physOf p l = l) (i : Nat) : s.rxLane p i = i % 16 := by
  have hi : i % 16 < 16 := Nat.mod_lt _ (by decide)
  simp only [State.rxLane, hg, hls, Nat.zero_add, if_neg (Nat.ne_of_gt hi), hphys _ hi]

theorem laneSlots_of_mem {ls : List LaneIn} (h : (ls.map (·.lane)).Nodup) {x : LaneIn} (hx : x ∈ ls) :
    laneSlots ls x.lane = x.slots := by simp [laneSlots, find?_key h hx]

/-- The slot `j` of a flit is the first that its lane has delivered. -/
theorem State.gatherFlit_slots {s : State} (p : Nat) (ls : List LaneIn) (hg : s.laneGroup p = (16, 0))
    (hls : s.fld (LNK_STAT_LS_USE p) = 16) (hphys : ∀ l < 16, s.physOf p l = l) (hnd : (ls.map (·.lane)).Nodup) :
    ∀ j < 8, ∀ x ∈ ls, x.lane = ((s.port p).rxSlot + j) % 16 → ∀ b bs, x.slots = b :: bs → b.length = 32 →
      sliceB (s.gatherFlit p ls) (32 * j) 32 = b := by
  intro j hj x hx hlane b bs hslots hb
  unfold State.gatherFlit
  rw [sliceB_slots _ _ _ _ (fun _ => length_sliceB _ _ _) hj, State.rxLane_full hg hls hphys, ← hlane,
    laneSlots_of_mem hnd hx, hslots, hg, Nat.div_eq_of_lt (by omega)]
  exact sliceB_self hb

/-! ### The forward error correction of the lanes (R49, R71) -/

/-- What the correction of one lane counts. -/
def State.laneCounted (p : Nat) (s : State) (x : LaneFec) : State :=
  (s.incFld (LNK_LFECC_COUNT p x.lane) (if (s.port p).gen ≤ 1 then 0 else x.fixed)).incFld (LNK_LFECU_COUNT p x.lane) x.bad

theorem State.countFec_eq (s : State) (p : Nat) (fs : List LaneFec) :
    s.countFec p fs = ((fs.filter fun x => x.lane < 17).foldl (State.laneCounted p) s).modPort p fun t =>
      { t with rxSlot := (t.rxSlot + 8) % 16 } := rfl

theorem State.lanesCounted_lnk (s : State) (p : Nat) (fs : List LaneFec) :
    (fs.foldl (State.laneCounted p) s).lnk = s.lnk :=
  foldl_keeps State.lnk _ (fun _ _ => by simp [State.laneCounted]) _ _

/-- The count of codewords that could not be corrected is another register than any count of corrected symbols. -/
theorem lfecu_ne_lfecc (p m n : Nat) : LNK_LFECU p m ≠ LNK_LFECC p n := by
  simp only [LNK_LFECU, LNK_LFECC]; omega

theorem State.laneCounted_other (s : State) (p m : Nat) (x : LaneFec) (h : m ≠ x.lane) :
    (s.laneCounted p x).fld (LNK_LFECU_COUNT p m) = s.fld (LNK_LFECU_COUNT p m) ∧
    (s.laneCounted p x).fld (LNK_LFECC_COUNT p m) = s.fld (LNK_LFECC_COUNT p m) := by
  have hu : LNK_LFECU p m ≠ LNK_LFECU p x.lane := by simp only [LNK_LFECU]; omega
  have hc : LNK_LFECC p m ≠ LNK_LFECC p x.lane := by simp only [LNK_LFECC]; omega
  unfold State.laneCounted
  rw [State.fld_incFld_ne _ _ _ _ hu, State.fld_incFld_ne _ _ _ _ (lfecu_ne_lfecc _ _ _),
    State.fld_incFld_ne _ _ _ _ (lfecu_ne_lfecc _ _ _).symm, State.fld_incFld_ne _ _ _ _ hc]
  exact ⟨rfl, rfl⟩

theorem State.laneCounted_self (s : State) (p : Nat) (x : LaneFec) :
    (s.laneCounted p x).fld (LNK_LFECU_COUNT p x.lane) = satAdd 32 (s.fld (LNK_LFECU_COUNT p x.lane)) x.bad ∧
    (s.laneCounted p x).fld (LNK_LFECC_COUNT p x.lane) =
      satAdd 32 (s.fld (LNK_LFECC_COUNT p x.lane)) (if (s.port p).gen ≤ 1 then 0 else x.fixed) := by
  unfold State.laneCounted
  rw [State.fld_incFld _ _ _ (by simp [LNK_LFECU_COUNT]) (by simp [LNK_LFECU_COUNT]),
    State.fld_incFld_ne _ _ _ _ (lfecu_ne_lfecc _ _ _), State.fld_incFld_ne _ _ _ _ (lfecu_ne_lfecc _ _ _).symm,
    State.fld_incFld _ _ _ (by simp [LNK_LFECC_COUNT]) (by simp [LNK_LFECC_COUNT])]
  exact ⟨rfl, rfl⟩

/-- A lane that is not named keeps its counts. -/
theorem State.lanesCounted_other (s : State) (p m : Nat) (fs : List LaneFec) (h : m ∉ fs.map (·.lane)) :
    (fs.foldl (State.laneCounted p) s).fld (LNK_LFECU_COUNT p m) = s.fld (LNK_LFECU_COUNT p m) ∧
    (fs.foldl (State.laneCounted p) s).fld (LNK_LFECC_COUNT p m) = s.fld (LNK_LFECC_COUNT p m) := by
  induction fs generalizing s with
  | nil => exact ⟨rfl, rfl⟩
  | cons y fs ih =>
    rw [List.map_cons, List.mem_cons, not_or] at h
    obtain ⟨hu, hc⟩ := s.laneCounted_other p m y h.1
    obtain ⟨iu, ic⟩ := ih (s.laneCounted p y) h.2
    exact ⟨iu.trans hu, ic.trans hc⟩

/-- A lane that is named once has counted what was found on it. -/
theorem State.lanesCounted_mem (s : State) (p : Nat) (fs : List LaneFec) (hnd : (fs.map (·.lane)).Nodup) {x : LaneFec}
    (hx : x ∈ fs) :
    (fs.foldl (State.laneCounted p) s).fld (LNK_LFECU_COUNT p x.lane) = satAdd 32 (s.fld (LNK_LFECU_COUNT p x.lane)) x.bad ∧
    (fs.foldl (State.laneCounted p) s).fld (LNK_LFECC_COUNT p x.lane) =
      satAdd 32 (s.fld (LNK_LFECC_COUNT p x.lane)) (if (s.port p).gen ≤ 1 then 0 else x.fixed) := by
  induction fs generalizing s with
  | nil => simp at hx
  | cons y fs ih =>
    rw [List.map_cons, List.nodup_cons] at hnd
    rw [List.foldl_cons]
    rcases List.mem_cons.1 hx with rfl | hx
    · obtain ⟨ou, oc⟩ := (s.laneCounted p x).lanesCounted_other p x.lane fs hnd.1
      obtain ⟨su, sc⟩ := s.laneCounted_self p x
      exact ⟨ou.trans su, oc.trans sc⟩
    · have hne : x.lane ≠ y.lane := fun e => hnd.1 (e ▸ List.mem_map_of_mem (f := (·.lane)) hx)
      obtain ⟨iu, ic⟩ := ih (s.laneCounted p y) hnd.2 hx
      obtain ⟨ou, oc⟩ := s.laneCounted_other p x.lane y hne
      rw [iu, ic, ou, oc]
      exact ⟨rfl, rfl⟩

theorem State.countFec_fld {s : State} {p : Nat} {fs : List LaneFec} (hnd : (fs.map (·.lane)).Nodup) {x : LaneFec}
    (hx : x ∈ fs) (hl : x.lane < 17) :
    (s.countFec p fs).fld (LNK_LFECU_COUNT p x.lane) = satAdd 32 (s.fld (LNK_LFECU_COUNT p x.lane)) x.bad ∧
    (s.countFec p fs).fld (LNK_LFECC_COUNT p x.lane) =
      satAdd 32 (s.fld (LNK_LFECC_COUNT p x.lane)) (if (s.port p).gen ≤ 1 then 0 else x.fixed) :=
  s.lanesCounted_mem p _ (hnd.sublist (List.filter_sublist.map _)) (List.mem_filter.2 ⟨hx, by simpa using hl⟩)

theorem State.countFec_only (s : State) (p : Nat) (fs : List LaneFec) :
    s.only (s.countFec p fs) [.lnk] fun r => ∃ n < 17, r = LNK_LFECC p n ∨ r = LNK_LFECU p n := by
  rw [State.countFec_eq]
  refine State.only_trans (State.only_foldl _ _ _ fun s x hx => ?_)
    (State.only_mono (State.modPort_only _ _ _) (by simp) fun _ h => h.elim)
  have hl : x.lane < 17 := by simpa using (List.mem_filter.1 hx).2
  exact State.only_trans (State.only_mono (s.incFld_only _ _) (by simp) fun r h => ⟨x.lane, hl, .inl h⟩)
    (State.only_mono (State.incFld_only _ _ _) (by simp) fun r h => ⟨x.lane, hl, .inr h⟩)

/-- Counting moves no register of the lattice block. -/
theorem State.countFec_reg (s : State) (p : Nat) (hp : p < 4) (fs : List LaneFec) {r : Nat} (h : r / 0x100000 = 4) :
    (s.countFec p fs).reg r = s.reg r := by
  refine State.only_reg_eq (s.countFec_only p fs) ?_
  rintro ⟨n, hn, rfl | rfl⟩ <;> simp only [LNK_LFECC, LNK_LFECU] at h <;> omega

/-- The port of a flit goes on by eight slots and is otherwise as it was. -/
theorem State.countFec_port (s : State) (p : Nat) (fs : List LaneFec) (h : p < s.lnk.ports.length) :
    (s.countFec p fs).port p = { s.port p with rxSlot := ((s.port p).rxSlot + 8) % 16 } := by
  have hl := s.lanesCounted_lnk p (fs.filter fun x => x.lane < 17)
  rw [State.countFec_eq, State.port_modPort_eq, hl, if_pos ⟨rfl, h⟩]
  simp only [State.port, hl]

theorem State.countFec_length (s : State) (p : Nat) (fs : List LaneFec) :
    (s.countFec p fs).lnk.ports.length = s.lnk.ports.length := by
  rw [State.countFec_eq, State.modPort_length, State.lanesCounted_lnk]

/-! ### NAKs and discards (R74, R76) -/

/-- Two updates of one port are one. -/
theorem State.modPort_modPort (s : State) (p : Nat) (f g : Port → Port) :
    (s.modPort p f).modPort p g = s.modPort p fun t => g (f t) := by
  simp only [State.modPort, modAt, List.modify_modify_eq]; rfl

theorem State.txFlit_only (s : State) (p a b c : Nat) (pl : List Byte) :
    s.only (s.txFlit p a b c pl) [.lnk, .out] fun _ => False := by
  refine ⟨fun q => ?_, fun r => .inr (by simp)⟩
  cases q <;> simp [Part.same]

theorem State.txIdle_only (s : State) (p : Nat) : s.only (s.txIdle p) [.lnk, .out] fun _ => False := s.txFlit_only _ _ _ _ _

/-- A flit that leaves moves what it carries and the slots sent. -/
theorem State.txIdle_port (s : State) (p : Nat) (h : p < s.lnk.ports.length) :
    (s.txIdle p).port p = { s.port p with
      unacked := 0, nakDue := false, ret := List.zipWith (· - ·) (s.port p).ret ((s.port p).ret.map (min 255))
      txSlot := ((s.port p).txSlot + 8) % 16 } :=
  (s.port_modPort_eq _ _ _).trans (if_pos ⟨rfl, h⟩)

/-- The first discard of a row sends one NAK; the others nothing. -/
theorem State.discardData_eq (s : State) (p : Nat) :
    s.discardData p = if (s.port p).nakOut = true then s
      else (s.modPort p fun t => { t with nakOut := true, nakDue := true }).txIdle p := by
  simp only [State.discardData, State.sendNak, State.modPort_modPort]

theorem State.discardData_only (s : State) (p : Nat) : s.only (s.discardData p) [.lnk, .out] fun _ => False := by
  rw [State.discardData_eq]
  split
  · exact s.only_refl _ _
  · exact State.only_trans (State.only_mono (s.modPort_only _ _) (by simp) fun _ h => h) (State.txIdle_only _ _)

/-- A discard delivers nothing, and leaves the port discarding. -/
theorem State.discardData_port (s : State) (p : Nat) (h : p < s.lnk.ports.length) :
    ((s.discardData p).port p).rx = (s.port p).rx ∧ ((s.discardData p).port p).rxSeq = (s.port p).rxSeq ∧
    ((s.discardData p).port p).nakOut = true := by
  rw [State.discardData_eq]
  split
  · exact ⟨rfl, rfl, ‹_›⟩
  · rw [State.txIdle_port _ _ (by rwa [State.modPort_length]), State.port_modPort_eq, if_pos ⟨rfl, h⟩]
    exact ⟨rfl, rfl, rfl⟩

/-! ### A DATA and an IDLE flit, case by case (R74-R76, R80) -/

theorem State.dataFlit_damaged {s : State} {p : Nat} {f : List Byte} {ok : Bool} (h : flitOk f ok = false) :
    s.dataFlit p f ok = if (s.port p).initRx = true then (s.flitFailed p).discardData p else s.flitFailed p := by
  simp only [State.dataFlit, h, if_true]

theorem State.dataFlit_unstarted {s : State} {p : Nat} {f : List Byte} {ok : Bool} (h : flitOk f ok = true)
    (hi : (s.port p).initRx = false) : s.dataFlit p f ok = s := by simp [State.dataFlit, h, hi]

/-- A DATA flit that is not the next in sequence. -/
theorem State.dataFlit_gap {s : State} {p : Nat} {f : List Byte} {ok : Bool} (h : flitOk f ok = true)
    (hi : (s.port p).initRx = true) (hty : fieldB f 0 1 % 16 = 1) (hseq : fieldB f 1 3 % 4096 ≠ ((s.port p).rxSeq + 1) % 4096) :
    s.dataFlit p f ok = (s.discardData p).flitNews p f := by simp [State.dataFlit, h, hi, hty, hseq]

/-- The state of a port that has taken the next DATA flit's payload. -/
def State.flitTaken (s : State) (p : Nat) (f : List Byte) : State :=
  (s.modPort p fun t =>
    { t with rxSeq := (t.rxSeq + 1) % 4096, nakOut := false, nakDue := false, unacked := t.unacked + 1 }).takePayload p f

theorem State.dataFlit_next {s : State} {p : Nat} {f : List Byte} {ok : Bool} (h : flitOk f ok = true)
    (hi : (s.port p).initRx = true) (hty : fieldB f 0 1 % 16 = 1) (hseq : fieldB f 1 3 % 4096 = ((s.port p).rxSeq + 1) % 4096) :
    s.dataFlit p f ok =
      if 32 ≤ (((s.flitTaken p f).flitNews p f).port p).unacked then ((s.flitTaken p f).flitNews p f).txIdle p
      else (s.flitTaken p f).flitNews p f := by
  simp only [State.dataFlit, h, hi, hty, hseq, ne_eq, not_true, if_true, if_false, Bool.true_eq_false]
  rfl

/-- The bytes from which whole packets are cut: what had come of one, or the payload from the unit that FIRST names. -/
def flitBody (part f : List Byte) : List Byte :=
  if part.isEmpty = true then (if fieldB f 0 1 / 16 = 15 then [] else (sliceB f 12 240).drop (16 * (fieldB f 0 1 / 16)))
  else part ++ sliceB f 12 240

/-- Of a payload the whole packets enter the receive buffer and their bytes are counted. -/
theorem State.takePayload_eq (s : State) (p : Nat) (f : List Byte) :
    s.takePayload p f =
      (s.modPort p fun t => { t with
        rx := t.rx ++ (cutPackets 300 (flitBody (s.port p).part f)).1
        part := (cutPackets 300 (flitBody (s.port p).part f)).2 }).add64 (LTC_RXBYTES_LO p)
        ((cutPackets 300 (flitBody (s.port p).part f)).1.map fun k => 16 + k.payload.length).sum := rfl

theorem State.takePayload_port (s : State) (p : Nat) (f : List Byte) (h : p < s.lnk.ports.length) :
    (s.takePayload p f).port p = { s.port p with
      rx := (s.port p).rx ++ (cutPackets 300 (flitBody (s.port p).part f)).1
      part := (cutPackets 300 (flitBody (s.port p).part f)).2 } := by
  rw [State.takePayload_eq]
  exact (s.port_modPort_eq _ _ _).trans (if_pos ⟨rfl, h⟩)

theorem State.flitTaken_port (s : State) (p : Nat) (f : List Byte) (h : p < s.lnk.ports.length) :
    (s.flitTaken p f).port p = { s.port p with
      rxSeq := ((s.port p).rxSeq + 1) % 4096, nakOut := false, nakDue := false, unacked := (s.port p).unacked + 1
      rx := (s.port p).rx ++ (cutPackets 300 (flitBody (s.port p).part f)).1
      part := (cutPackets 300 (flitBody (s.port p).part f)).2 } := by
  unfold State.flitTaken
  rw [State.takePayload_port _ _ _ (by rwa [State.modPort_length]), State.port_modPort_eq, if_pos ⟨rfl, h⟩]

theorem State.flitTaken_only (s : State) (p : Nat) (f : List Byte) :
    s.only (s.flitTaken p f) [.lnk] fun r => r = LTC_RXBYTES_LO p ∨ r = LTC_RXBYTES_LO p + 4 := by
  unfold State.flitTaken
  rw [State.takePayload_eq]
  exact State.only_trans (State.only_mono (s.modPort_only _ _) (by simp) fun _ h => h.elim)
    (State.only_trans (State.only_mono (State.modPort_only _ _ _) (by simp) fun _ h => h.elim)
      (State.only_mono (State.add64_only _ _ _) (by simp) fun _ h => h))

theorem State.flitTaken_bytes (s : State) (p : Nat) (f : List Byte) (h : p < s.lnk.ports.length) :
    (s.flitTaken p f).reg64 (LTC_RXBYTES_LO p) = (s.reg64 (LTC_RXBYTES_LO p) +
      ((cutPackets 300 (flitBody (s.port p).part f)).1.map fun k => 16 + k.payload.length).sum) % 2 ^ 64 := by
  unfold State.flitTaken
  rw [State.takePayload_eq, State.reg64_add64, State.port_modPort_eq, if_pos ⟨rfl, h⟩]
  rfl

theorem State.idleFlitIn_damaged {s : State} {p : Nat} {f : List Byte} {ok : Bool} (h : flitOk f ok = false) :
    s.idleFlitIn p f ok = s.incFld (LTC_RETRY_FLITERR p) 1 := by
  simp only [State.idleFlitIn, h, if_true, State.flitFailed]

theorem State.initFlit_damaged {s : State} {p : Nat} {f : List Byte} {ok : Bool} (h : flitOk f ok = false) :
    s.initFlit p f ok = s.incFld (LTC_RETRY_FLITERR p) 1 := by
  simp only [State.initFlit, h, if_true, State.flitFailed]

theorem State.idleFlitIn_unstarted {s : State} {p : Nat} {f : List Byte} {ok : Bool} (h : flitOk f ok = true)
    (hi : (s.port p).initRx = false) : s.idleFlitIn p f ok = s := by simp [State.idleFlitIn, h, hi]

theorem State.idleFlitIn_started {s : State} {p : Nat} {f : List Byte} {ok : Bool} (h : flitOk f ok = true)
    (hi : (s.port p).initRx = true) : s.idleFlitIn p f ok = s.flitNews p f := by simp [State.idleFlitIn, h, hi]

/-- A damaged DATA flit is counted, delivers nothing, and on a started link leaves the port discarding. -/
theorem State.dataFlit_damaged_keeps {s : State} {p : Nat} {f : List Byte} {ok : Bool} (h : flitOk f ok = false)
    (hp : p < s.lnk.ports.length) :
    ((s.dataFlit p f ok).port p).rx = (s.port p).rx ∧ ((s.dataFlit p f ok).port p).rxSeq = (s.port p).rxSeq ∧
    (s.dataFlit p f ok).fld (LTC_RETRY_FLITERR p) = satAdd 16 (s.fld (LTC_RETRY_FLITERR p)) 1 ∧
    ((s.port p).initRx = true → ((s.dataFlit p f ok).port p).nakOut = true) ∧
    s.only (s.dataFlit p f ok) [.lnk, .out] fun r => r = LTC_RETRY p := by
  have hcount : (s.flitFailed p).fld (LTC_RETRY_FLITERR p) = satAdd 16 (s.fld (LTC_RETRY_FLITERR p)) 1 :=
    s.fld_incFld _ _ (by simp [LTC_RETRY_FLITERR]) (by simp [LTC_RETRY_FLITERR])
  have hport : (s.flitFailed p).port p = s.port p := rfl
  have honly : s.only (s.flitFailed p) [.lnk, .out] fun r => r = LTC_RETRY p :=
    State.only_mono (s.incFld_only _ _) (by simp) fun _ h => h
  rw [State.dataFlit_damaged h]
  split
  · obtain ⟨hrx, hseq, hnak⟩ := (s.flitFailed p).discardData_port p hp
    have hfld := State.fld_congr (f := LTC_RETRY_FLITERR p) (State.only_reg_eq ((s.flitFailed p).discardData_only p) not_false)
    exact ⟨hrx, hseq, hfld.trans hcount, fun _ => hnak,
      State.only_trans honly (State.only_mono (State.discardData_only _ _) (fun _ h => h) fun _ h => h.elim)⟩
  · exact ⟨rfl, rfl, hcount, fun hi => absurd hi ‹_›, honly⟩

/-! ### ACK, NAK and credits (R73, R75-R77) -/

/-- What a flit of ACK type 1 or 2 leaves in its port beside its runs of NAKs: its credits, and the replay buffer. -/
def Port.credited (f : List Byte) (t : Port) : Port :=
  { t with
    txCred := List.zipWith (· + ·) t.txCred ((List.range 6).map fun v => fieldB f (5 + v) 1)
    replay := ackReplay t.replay (fieldB f 1 3 / 4096) }

theorem State.flitNews_ack (s : State) (p : Nat) (f : List Byte) (h : fieldB f 4 1 % 4 = 1) :
    s.flitNews p f = (s.modPort p fun t => { Port.credited f t with
      nakRun := if fieldB f 1 3 / 4096 = t.nakSeq then t.nakRun else 0 }).pump p := by
  simp only [State.flitNews, h, true_or, true_and, if_true, show ¬(1 : Nat) = 2 by decide, if_false, ne_eq, ite_not]
  rfl

/-- The sixteenth NAK in a row for one flit exhausts the retry: 0x0212, then the port leaves ACTIVE. -/
theorem State.retryExhausted_nak (s : State) (p n : Nat) :
    s.retryExhausted p n false = ((s.post 0x0212 2 p (n % 4096)).startOver p .detect).post 0x0202 2 p 4 := by
  simp only [State.retryExhausted, State.leaveActive, b2n, Bool.false_eq_true, if_false, Nat.mul_zero, Nat.add_zero]

theorem State.flitNews_nak (s : State) (p : Nat) (f : List Byte) (h : fieldB f 4 1 % 4 = 2) :
    let n := fieldB f 1 3 / 4096
    let run := if (s.port p).nakSeq = n then (s.port p).nakRun + 1 else 1
    let u := (s.modPort p fun t => { Port.credited f t with nakSeq := n, nakRun := min run 16 }).incFld (LTC_RETRY_REPLAYS p) 1
    s.flitNews p f = (if run = 16 then ((u.post 0x0212 2 p ((n + 1) % 4096)).startOver p .detect).post 0x0202 2 p 4
      else u.replayFrom p).pump p := by
  have hcred : s.flitNews p f = ((s.modPort p (Port.credited f)).nakReceived p (fieldB f 1 3 / 4096)).pump p := by
    simp only [State.flitNews, h, or_true, if_true, show ¬(2 : Nat) = 1 by decide, false_and, if_false]
    rfl
  have hkeep : ((s.modPort p (Port.credited f)).port p).nakSeq = (s.port p).nakSeq ∧
      ((s.modPort p (Port.credited f)).port p).nakRun = (s.port p).nakRun := by
    rw [State.port_modPort_eq]
    split <;> exact ⟨rfl, rfl⟩
  obtain ⟨hs, hr⟩ := hkeep
  dsimp only
  rw [hcred]
  unfold State.nakReceived
  simp only [hs, hr, State.modPort_modPort, State.retryExhausted_nak]

/-- An ACK that names a flit of the replay buffer removes the flits up to it. -/
theorem ackReplay_named {r : List RFlit} {base n i : Nat} (hlen : r.length ≤ 4096) (hb : base < 4096)
    (hseq : ∀ i x, r[i]? = some x → x.seq = (base + i) % 4096) (hi : i < r.length) (hn : n = (base + i) % 4096) :
    ackReplay r n = r.drop (i + 1) := by
  cases r with
  | nil => simp at hi
  | cons f r =>
    have hf : f.seq = base % 4096 := hseq 0 f rfl
    have hd : (n + 4096 - f.seq) % 4096 = i := by omega
    simp only [ackReplay, hd, if_pos hi]

/-- An ACK that names no flit of the replay buffer removes none. -/
theorem ackReplay_other {r : List RFlit} {base n : Nat} (hn : n < 4096)
    (hseq : ∀ i x, r[i]? = some x → x.seq = (base + i) % 4096) (hne : ∀ i < r.length, n ≠ (base + i) % 4096) :
    ackReplay r n = r := by
  cases r with
  | nil => rfl
  | cons f r =>
    have hf : f.seq = base % 4096 := hseq 0 f rfl
    have hd : ¬(n + 4096 - f.seq) % 4096 < (f :: r).length := fun hlt => hne _ hlt (by omega)
    simp only [ackReplay, if_neg hd]

/-- Settles O13, case by case of what the port is, whether the flit is whole, whether the link has started, and the flit's SEQ. -/
theorem flitsInSequence : Obligations.FlitsInSequence := by
  unfold Obligations.FlitsInSequence
  refine ⟨fun s p ls fs => ?_, fun s p f => ⟨s.flitNews_ack p f, s.flitNews_nak p f⟩, fun r base n hb hn hlen hseq =>
    ⟨fun i hi hni => ackReplay_named hlen hb hseq hi hni, ackReplay_other hn hseq⟩⟩
  extract_lets f ok v t outcome
  have hlen (h : t.st = .active) : p.val < s.lnk.ports.length := State.port_exists (s := s) (by rw [h]; decide)
  have hvlen (h : t.st = .active) : p.val < v.lnk.ports.length := (s.countFec_length p fs).symm ▸ hlen h
  have hvport (h : t.st = .active) : v.port p = { t with rxSlot := (t.rxSlot + 8) % 16 } := s.countFec_port p fs (hlen h)
  have hdata (h : t.st = .active) : exec (.dataFlitReceived p ls fs) s = .next (v.dataFlit p f ok) := by
    rw [exec_dataFlitReceived, State.onFlit_active h]
  have hidle (h : t.st = .active) : exec (.idleFlitReceived p ls fs) s = .next (v.idleFlitIn p f ok) := by
    rw [exec_idleFlitReceived, State.onFlit_active h]
  have hinit (h : t.st = .active) : exec (.initFlitReceived p ls fs) s = .next (v.initFlit p f ok) := by
    rw [exec_initFlitReceived, State.onFlit_active h]
  have hvi (h : t.st = .active) : (v.port p).initRx = t.initRx := by rw [hvport h]
  have hltc {r : Nat} (h : r / 0x100000 = 4) : v.reg r = s.reg r := s.countFec_reg p p.isLt fs h
  refine ⟨fun h => ?_, fun h h' => ?_, State.gatherFlit_slots p ls, s.countFec_only p fs,
    fun hnd x hx hl => State.countFec_fld hnd hx hl, fun h hok => ⟨?_, ?_, ?_⟩, fun h hi hok => ⟨?_, ?_⟩,
    fun h hi hok hty => ⟨fun hseq => ?_, fun hseq => ?_⟩, fun h hi hok => ?_⟩
  · simp only [outcome, exec_dataFlitReceived, exec_idleFlitReceived, exec_initFlitReceived, State.onFlit_bypassed h,
      State.bypassLanes_eq, and_self]
  · simp only [outcome, exec_dataFlitReceived, exec_idleFlitReceived, exec_initFlitReceived, State.onFlit_lost h h', and_self]
  · rw [hidle h, State.idleFlitIn_damaged hok]
  · rw [hinit h, State.initFlit_damaged hok]
  · obtain ⟨hrx, hseq, hcount, hnak, honly⟩ := State.dataFlit_damaged_keeps hok (hvlen h)
    rw [hvport h] at hrx hseq hnak
    rw [State.fld_congr (f := LTC_RETRY_FLITERR p) (hltc (by simp only [LTC_RETRY_FLITERR, LTC_RETRY]; omega))] at hcount
    exact ⟨_, hdata h, hrx, hseq, hcount, hnak, honly⟩
  · rw [hdata h, State.dataFlit_unstarted hok ((hvi h).trans hi)]
  · rw [hidle h, State.idleFlitIn_unstarted hok ((hvi h).trans hi)]
  · have hvseq : fieldB f 1 3 % 4096 ≠ ((v.port p).rxSeq + 1) % 4096 := by rwa [hvport h]
    rw [hdata h, State.dataFlit_gap hok ((hvi h).trans hi) hty hvseq, State.discardData_eq, hvport h]
  · have hvseq : fieldB f 1 3 % 4096 = ((v.port p).rxSeq + 1) % 4096 := by rwa [hvport h]
    have hport := v.flitTaken_port p f (hvlen h)
    have hbytes := v.flitTaken_bytes p f (hvlen h)
    have hreg : v.reg64 (LTC_RXBYTES_LO p) = s.reg64 (LTC_RXBYTES_LO p) := by
      simp only [State.reg64, hltc (r := LTC_RXBYTES_LO p) (by simp only [LTC_RXBYTES_LO]; omega),
        hltc (r := LTC_RXBYTES_LO p + 4) (by simp only [LTC_RXBYTES_LO]; omega)]
    simp only [hvport h, hreg] at hport hbytes
    refine ⟨v.flitTaken p f, ?_, ?_, ?_, ?_, ?_, ?_, ?_, hbytes, v.flitTaken_only p f⟩
    · rw [hdata h, State.dataFlit_next hok ((hvi h).trans hi) hty hvseq]
    all_goals rw [hport]
    · exact hseq.symm
    · rfl
    · rfl
  · rw [hidle h, State.idleFlitIn_started hok ((hvi h).trans hi)]

end Sys2Proof.Machine

/-! SUPPORT. A thermal shutdown outside SAVING: the COLD reset that it asserts is taken at once where no keep program and no channel
is waited for, and its step 5 puts the whole thermal part back (R281, R285), the mark that the shutdown has been acted on with it. -/

namespace Sys2Proof.Machine

/-- A device in BRINGUP, as reset leaves it, whose sensor 0 has made one conversion of 110 °C or more. -/
def hotOnce : State := { State.reset with thm := { sensors := { hot := 1 } :: List.replicate 87 {} } }

/-- The next conversion of 110 °C shuts the part down, and the reset that the shutdown asserts clears its mark. -/
theorem hotOnce_trips {t : State} (h : exec (.sensorConversion [some 11000]) hotOnce = .next t) :
    t.pins.thermTrip = true ∧ t.thm.shut = false := by
  obtain rfl := Host.Outcome.next.inj (h : Host.Outcome.next _ = .next t)
  decide +kernel

/-- Refutes O49: the clause of the trip asks for `thm.shut` in the state that follows, and a shutdown in BRINGUP takes its COLD reset
at once, whose step 5 (`State.coldClears`) sets the whole of `thm` back. -/
theorem not_sensorsRead : ¬ Obligations.SensorsRead := by
  unfold Obligations.SensorsRead
  rintro ⟨-, hconv, -⟩
  obtain ⟨-, -, htrip⟩ := hconv hotOnce [some 11000]
  obtain ⟨t, ht, -, hshut⟩ := htrip 0 11000 (by decide) (by decide) (by decide) (by decide) (by decide) (by decide) (by decide)
    (by decide) (by decide)
  rw [(hotOnce_trips ht).2] at hshut
  exact Bool.false_ne_true hshut

end Sys2Proof.Machine

/-! SUPPORT. What a completion, and the accesses that it makes, leave alone: the keys, the arming, the fuses, the unlock and the power
part; and so what the loss of the keys does (R249, R253, R267). -/

namespace Sys2Proof.Machine

/-- The keys and the arming, with what decides who may take them away: no request and no completion moves these. -/
structure Locks where
  arm : Arm
  shares : List (Nat × Nat)
  secret : Option Nat
  fus : Fus
  unlock : Option Nat
  pwr : Pwr

def State.locks (s : State) : Locks := ⟨s.keep.arm, s.keep.shares, s.keep.secret, s.fus, s.bst.unlock, s.pwr⟩

theorem State.locks_of_units {s t : State} (h : t.units = s.units) : t.locks = s.locks := (congrArg State.locks h :)

/-- A frame that names none of their parts leaves the locks. -/
theorem State.locks_of_only {s t : State} {ps : List Part} {rs : Nat → Prop} (h : s.only t ps rs)
    (hp : .keep ∉ ps ∧ .fus ∉ ps ∧ .bst ∉ ps ∧ .pwr ∉ ps := by simp [wires]) : t.locks = s.locks := by
  have hk : t.keep = s.keep := State.only_part h .keep hp.1
  have hf : t.fus = s.fus := State.only_part h .fus hp.2.1
  have hb : t.bst = s.bst := State.only_part h .bst hp.2.2.1
  have hw : t.pwr = s.pwr := State.only_part h .pwr hp.2.2.2
  simp only [State.locks, hk, hf, hb, hw]

/-! The rules below are not proved by `rfl`: rewriting with such a rule leaves the kernel to compare whole states. -/

@[simp] theorem State.locks_setReg (s : State) (a v : Nat) : (s.setReg a v).locks = s.locks := by simp [State.locks]
@[simp] theorem State.locks_setFld (s : State) (f : Fld) (v : Nat) : (s.setFld f v).locks = s.locks := by simp [State.locks]
@[simp] theorem State.locks_incFld (s : State) (f : Fld) (d : Nat) : (s.incFld f d).locks = s.locks := by simp [State.locks]
@[simp] theorem State.locks_add64 (s : State) (a d : Nat) : (s.add64 a d).locks = s.locks := by simp [State.locks]
@[simp] theorem State.locks_setIntg (s : State) (i : Intg) : ({ s with intg := i } : State).locks = s.locks := by simp [State.locks]
@[simp] theorem State.locks_setWq (s : State) (w : Wq) : ({ s with wq := w } : State).locks = s.locks := by simp [State.locks]
@[simp] theorem State.locks_bump (s : State) : s.bump.locks = s.locks := by simp [State.locks]
@[simp] theorem State.locks_markDirty (s : State) (p : Nat) : (s.markDirty p).locks = s.locks := by
  simp [State.locks, State.markDirty]
@[simp] theorem State.locks_poisonGran (s : State) (g : Nat) : (s.poisonGran g).locks = s.locks := by simp [State.locks]
@[simp] theorem State.locks_putGran (s : State) (g : Nat) (bs : List Byte) : (s.putGran g bs).locks = s.locks := by
  simp [State.locks]
@[simp] theorem State.locks_putMasked (s : State) (g m : Nat) (bs : List Byte) : (s.putMasked g m bs).locks = s.locks := by
  simp [State.locks]
@[simp] theorem State.locks_modQueue (s : State) (q : Nat) (f : Queue → Queue) : (s.modQueue q f).locks = s.locks := by simp [State.locks]
@[simp] theorem State.locks_modMaster (s : State) (m : Nat) (f : Master → Master) : (s.modMaster m f).locks = s.locks := by simp [State.locks]
@[simp] theorem State.locks_modTgt (s : State) (c : Nat) (f : Tgt → Tgt) : (s.modTgt c f).locks = s.locks := by simp [State.locks]
@[simp] theorem State.locks_post (s : State) (c v u d : Nat) : (s.post c v u d).locks = s.locks :=
  State.locks_of_units (s.post_units _ _ _ _)
@[simp] theorem State.locks_answer (s : State) (p : Nat) (k : Pkt) (st w : Nat) (d : List Byte) :
    (s.answer p k st w d).locks = s.locks := State.locks_of_units (s.answer_units _ _ _ _ _)
@[simp] theorem State.locks_injectRaw (s : State) (k : Pkt) : (s.injectRaw k).locks = s.locks :=
  State.locks_of_units (s.injectRaw_units _)
@[simp] theorem State.locks_dropRoute (s : State) (u : Nat) (k : Pkt) (c : Nat) : (s.dropRoute u k c).locks = s.locks :=
  State.locks_of_units (s.dropRoute_units _ _ _)
@[simp] theorem State.locks_enqueue (s : State) (p : Nat) (k : Pkt) (src : Nat) : (s.enqueue p k src).locks = s.locks :=
  State.locks_of_units (State.units_of (s.enqueue_offLink _ _ _))
@[simp] theorem State.locks_countGran (s : State) (w : Bool) (g : Nat) : (s.countGran w g).locks = s.locks :=
  State.locks_of_only (s.countGran_only w g)

/-! ### A read of a granule (R301-R313) -/

@[simp] theorem State.locks_requestTest (s : State) (kind target : Nat) : (s.requestTest kind target).locks = s.locks := by
  have noted : ((List.range 64).foldl (fun s n => if s.celogCovered target n then s.setFld (INT_CELOG_B_TESTED n) 1 else s) s).locks =
      s.locks := foldl_keeps State.locks _ (fun s n => ite_keeps State.locks (s.locks_setFld _ _) rfl) _ _
  unfold State.requestTest
  dsimp only
  split
  · exact noted
  · exact (State.locks_post _ _ _ _ _).trans noted

@[simp] theorem State.locks_corrected (s : State) (g master : Nat) (syms : List Nat) (scrub : Bool) :
    (s.corrected g master syms scrub).locks = s.locks := by
  unfold State.corrected
  extract_lets l s1 full intg s2 s3 s4 share
  have h1 : s1.locks = s.locks := by simp only [s1, State.locks_incFld, State.locks_add64]
  have hfull : full.locks = s1.locks := s1.locks_incFld _ _
  clear_value s1 full intg
  have h2 : s2.locks = s1.locks := by
    simp only [s2]
    split
    · simp only [State.locks_incFld, State.locks_setFld]
    · split
      · simp only [State.locks_setFld, State.locks_setReg]
      · split
        · exact hfull
        · rw [State.locks_post, State.locks_setIntg]; exact hfull
  clear_value s2
  have h3 : s3.locks = s2.locks := by
    simp only [s3]
    split
    · exact ite_keeps State.locks (s2.locks_requestTest _ _) rfl
    · rfl
  clear_value s3
  have h4 : s4.locks = s3.locks := by
    refine ite_keeps State.locks ((foldl_keeps State.locks _ (fun s k => ?_) _ _).trans (s3.locks_requestTest _ _)) rfl
    exact ite_keeps State.locks (s.locks_requestTest _ _) rfl
  clear_value s4
  rw [foldl_keeps State.locks _ (fun s k => ite_keeps State.locks (s.locks_requestTest _ _) rfl), h4, h3, h2, h1]

@[simp] theorem State.locks_noteUe (s : State) (g m : Nat) (a b c : Bool) : (s.noteUe g m a b c).locks = s.locks := by
  simp [State.noteUe]

@[simp] theorem State.locks_poisonUe (s : State) (g : Nat) : (s.poisonUe g).locks = s.locks := by
  simp only [State.poisonUe, State.locks_post, State.locks_incFld, State.locks_poisonGran]
  exact ite_keeps State.locks rfl (s.locks_markDirty _)

@[simp] theorem State.locks_postRecovered (s : State) (g : Nat) : (s.postRecovered g).locks = s.locks := by
  unfold State.postRecovered
  dsimp only
  generalize (if (tgetD s.intg.recovWin (decodeAddr (64 * g)).ch (s.clock, 0)).1 + 10 ^ 9 ≤ s.clock then (s.clock, 0)
    else tgetD s.intg.recovWin (decodeAddr (64 * g)).ch (s.clock, 0)) = w
  split
  · rw [State.locks_post, State.locks_setIntg]
  · exact s.locks_setIntg _

@[simp] theorem State.locks_ueCounted (s : State) (g : Nat) (named : List Nat) : (s.ueCounted g named).locks = s.locks := by
  unfold State.ueCounted
  dsimp only
  rw [foldl_keeps State.locks _ fun s _ => ite_keeps State.locks (s.locks_requestTest _ _) rfl]
  simp only [State.locks_requestTest, State.locks_incFld]

@[simp] theorem State.locks_uncorrectable (s : State) (g master : Nat) (named : List Nat) (misdir clean : Bool) :
    (s.uncorrectable g master named misdir clean).1.locks = s.locks := by
  unfold State.uncorrectable
  extract_lets u
  have hu : u.locks = s.locks := s.locks_ueCounted _ _
  clear_value u
  split
  · exact (u.locks_noteUe _ _ _ _ _).trans hu
  · split
    · exact (State.locks_noteUe _ _ _ _ _ _).trans (ite_keeps State.locks hu ((u.locks_setIntg _).trans hu))
    · exact (State.locks_noteUe _ _ _ _ _ _).trans ((u.locks_poisonUe _).trans hu)

@[simp] theorem State.locks_readGran (s : State) (obs : List CellObs) (g m : Nat) (scrub clean : Bool) :
    (s.readGran obs g m scrub clean).1.locks = s.locks := by
  unfold State.readGran
  extract_lets l o r s1 s2 good
  have h1 : s1.locks = s.locks := by simp only [s1, State.locks_incFld]
  have h2 : s2.locks = s.locks := ite_keeps State.locks (by simp only [State.locks_post, State.locks_incFld]) rfl
  clear_value s1 r good s2
  split
  · cases r <;> simp only [State.locks_noteUe, State.locks_postRecovered, State.locks_post, State.locks_incFld, h1]
  · split
    · simp only [State.locks_uncorrectable, h2]
    · split
      · exact h2
      · exact ite_keeps State.locks h2 ((s2.locks_corrected _ _ _ _).trans h2)
      · simp only [State.locks_uncorrectable, State.locks_bump, h2]
      · simp only [State.locks_bump, h2]

/-! ### A request to this stack (R83-R87, R169, R173) -/

@[simp] theorem State.locks_readGrans (s : State) (m : Nat) (obs : List CellObs) (gs : List Nat) :
    (s.readGrans m obs gs).1.locks = s.locks := by
  induction gs generalizing s with
  | nil => rfl
  | cons g gs ih =>
    unfold State.readGrans
    dsimp only
    split <;> simp only [ih, State.locks_readGran, State.locks_countGran]

@[simp] theorem State.locks_writeGran (s : State) (m : Nat) (obs : List CellObs) (d : Bool) (g mask : Nat) (bs : List Byte) :
    (s.writeGran m obs d g mask bs).1.locks = s.locks := by
  unfold State.writeGran
  dsimp only
  split
  · rfl
  · split
    · rfl
    · split
      · simp only [State.locks_countGran, State.locks_putGran]
      · split <;> simp only [State.locks_countGran, State.locks_putMasked, State.locks_readGran]

@[simp] theorem State.locks_writeGrans (s : State) (m : Nat) (k : Pkt) (obs : List CellObs) (d : Bool) (gs : List (Nat × Nat)) :
    (s.writeGrans m k obs d gs).1.locks = s.locks := by
  induction gs generalizing s with
  | nil => rfl
  | cons g gs ih =>
    unfold State.writeGrans
    simp only [ih, State.locks_writeGran]

@[simp] theorem State.locks_doAtomic (s : State) (m : Nat) (k : Pkt) (obs : List CellObs) (d : Bool) :
    (s.doAtomic m k obs d).1.locks = s.locks := by
  unfold State.doAtomic
  dsimp only
  split
  · simp only [State.locks_readGran, State.locks_countGran]
  · simp only [State.locks_readGran, State.locks_countGran]
  · split
    · simp only [State.locks_readGran, State.locks_countGran]
    · split <;> simp only [State.locks_putMasked, State.locks_readGran, State.locks_countGran]

@[simp] theorem State.locks_doReq (s : State) (m : Nat) (k : Pkt) (obs : List CellObs) (d : Bool) :
    (s.doReq m k obs d).1.locks = s.locks := by
  have read : (s.doRead m k obs).1.locks = s.locks := by
    unfold State.doRead
    dsimp only
    split
    · exact s.locks_readGrans _ _ _
    · split <;> exact s.locks_readGrans _ _ _
  have write : (s.doWrite m k obs d).1.locks = s.locks := by
    unfold State.doWrite
    dsimp only
    split <;> exact s.locks_writeGrans _ _ _ _ _
  unfold State.doReq
  split
  · exact read
  · split
    · exact write
    · exact s.locks_doAtomic _ _ _ _

@[simp] theorem State.locks_issue (s : State) (p : Nat) (k : Pkt) (d : Bool) : (s.issue p k d).locks = s.locks :=
  (foldl_keeps State.locks _ (fun s _ => s.locks_modTgt _ _) _ _).trans (State.locks_modMaster _ _ _)

theorem State.locks_admitReq (s : State) (p : Nat) (k : Pkt) (obs : List CellObs) (hp : p < 8) :
    (s.admitReq p k obs).locks = s.locks := by
  have admitted : (s.admitWrite k).1.locks = s.locks := ite_keeps State.locks (s.locks_markDirty _) rfl
  unfold State.admitReq
  dsimp only
  split
  · split
    · simp only [State.locks_issue, State.locks_doReq, admitted]
    · rw [State.locks_answer, State.locks_of_only (State.passes_only _ p k hp), State.locks_doReq, admitted]
  · simp only [State.locks_issue, admitted]

theorem State.locks_selfReq (s : State) (m : Nat) (k : Pkt) (hm : m < 8) : (s.selfReq m k).locks = s.locks := by
  have parked : (s.park m k).locks = s.locks := s.locks_modMaster _ _
  unfold State.selfReq
  exact ite_keeps State.locks (s.locks_answer _ _ _ _ _) <| ite_keeps State.locks (s.locks_answer _ _ _ _ _) <|
    ite_keeps State.locks (s.locks_answer _ _ _ _ _) <| ite_keeps State.locks (s.locks_answer _ _ _ _ _) <|
    ite_keeps State.locks parked (s.locks_admitReq _ _ _ hm)

theorem State.locks_sendReq (s : State) (m opc dest addr len : Nat) (mgt masked : Bool) (payload : List Byte) (off : Nat)
    (o : Origin) (hm : m < 8) : (s.sendReq m opc dest addr len mgt masked payload off o).locks = s.locks := by
  have inject (t : State) (k : Pkt) : (t.injectReq m k).locks = t.locks := by
    unfold State.injectReq
    split
    · split
      · exact t.locks_selfReq _ _ hm
      · exact t.locks_enqueue _ _ _
      · simp only [State.locks_dropRoute, State.locks_injectRaw]
    · rfl
  exact inject _ _

/-! ### A completion (R111, R130, R133, R134) -/

theorem State.locks_sendCplMsg (s : State) (q : Nat) : (s.sendCplMsg q).locks = s.locks := by
  simp only [State.sendCplMsg, State.locks_injectRaw, State.locks_modQueue]

theorem State.locks_writeEntry (s : State) (q cid status opc result : Nat) (now : Bool) :
    (s.writeEntry q cid status opc result now).locks = s.locks := by
  have sent (t : State) (d a len : Nat) (pay : List Byte) (o : Origin) :
      (t.sendReq 7 2 d a len true true pay 0 o).locks = t.locks := t.locks_sendReq _ _ _ _ _ _ _ _ _ _ (by decide)
  unfold State.writeEntry
  dsimp only
  split
  · refine ite_keeps State.locks ?_ ?_
    · simp only [State.locks_sendCplMsg, State.locks_modQueue, sent]
    · simp only [State.locks_modQueue, sent]
  · simp only [State.locks_modQueue, sent]

theorem State.locks_settle (s : State) (q : Nat) : (s.settle q).locks = s.locks :=
  ite_keeps State.locks (s.locks_modQueue _ _) rfl

@[simp] theorem State.locks_complete (s : State) (o : Op) (status result : Nat) : (s.complete o status result).locks = s.locks := by
  refine ite_keeps State.locks rfl ((State.locks_settle _ _).trans ?_)
  exact ite_keeps State.locks ((State.locks_writeEntry _ _ _ _ _ _ _).trans (s.locks_modQueue _ _)) (s.locks_modQueue _ _)

/-! ### The loss of the keys (R249, R253, R267) -/

theorem State.locks_armEnds (s : State) (status : Nat) : (s.armEnds status).locks = s.locks :=
  foldl_keeps State.locks _ (fun s _ => s.locks_complete _ _ _) _ _

theorem State.locks_disarm (s : State) (cause sev status : Nat) :
    (s.disarm cause sev status).locks = { s.locks with arm := .disarmed } := by
  unfold State.disarm
  split
  next h => simp only [State.locks, h]
  next h => rw [State.locks_armEnds, State.locks_post]; rfl

theorem State.locks_moverOpsEnd (s : State) (status : Nat) : (s.moverOpsEnd status).locks = s.locks := by
  have ckpt (t : State) : (t.ckptEnds status 0).locks = t.locks := by
    unfold State.ckptEnds
    split
    · rfl
    · rw [State.locks_complete, State.locks_setWq]; rfl
  have charac (t : State) : (t.characEnds status 0).locks = t.locks := by
    unfold State.characEnds
    split
    · rfl
    · rw [State.locks_complete, State.locks_setWq]; rfl
  have sealEnds (t : State) : (t.ckptSealEnds status).locks = t.locks := by
    unfold State.ckptSealEnds
    dsimp only
    rw [foldl_keeps State.locks _ fun s _ => (State.locks_complete _ _ _ _).trans (s.locks_setWq _)]
    rfl
  rw [State.moverOpsEnd, charac, sealEnds, ckpt]

/-- The keys are gone and the stack is disarmed; the fuses, the unlock and the power part stay. -/
theorem State.locks_dropKeys (s : State) :
    s.dropKeys.locks = { s.locks with arm := .disarmed, shares := [], secret := none } := by
  rw [State.dropKeys, State.keyLost, State.locks_moverOpsEnd, State.locks_disarm]
  rfl

end Sys2Proof.Machine

/-! SUPPORT. The test access port: whether it works, and what each instruction leaves (R29, R374-R376). -/

namespace Sys2Proof.Machine

/-! ### The port (R29) -/

theorem State.tap_off {s : State} (h : s.dev = .off ∨ s.pins.trstN = false) (f : State → State) : s.tap f = s := if_pos h

theorem State.tap_on {s : State} (hd : s.dev ≠ .off) (ht : s.pins.trstN = true) (f : State → State) : s.tap f = f s :=
  if_neg (by simp [hd, ht])

theorem exec_bypass (s : State) : exec .bypass s = .next (s.tap fun s => s.tapIr 0xFF) := rfl
theorem exec_idcode (s : State) : exec .idcode s = .next (s.tap fun s => (s.tapIr 0x01).emit (.tdo 32 s.idcode)) := rfl
theorem exec_extest (s : State) : exec .extest s = .next (s.tap fun s => s.tapHeld 0x00) := rfl
theorem exec_clamp (s : State) : exec .clamp s = .next (s.tap fun s => s.tapHeld 0x03) := rfl
theorem exec_highz (s : State) : exec .highz s = .next (s.tap fun s => s.tapHeld 0x04) := rfl
theorem exec_unlockNonce (s : State) :
    exec .unlockNonce s = .next (s.tap fun s => (s.tapIr 0x10).emit (.tdo 128 s.bst.nonce)) := rfl
theorem exec_preload (s : State) (x : Option (List Bool)) :
    exec (.samplePreload (.preload x)) s = .next (s.tap fun s => s.samplePreload x) := rfl
theorem exec_trst (s : State) (low : Bool) : exec (.samplePreload (.trst low)) s = .next (s.trstLevel low) := rfl

/-- Outside OFF a level of TRST_N is taken; low selects IDCODE. -/
theorem State.trstLevel_on {s : State} (h : s.dev ≠ .off) (low : Bool) :
    s.trstLevel low = { s with
      pins := { s.pins with trstN := !low }, bst := { s.bst with ir := if low = true then 0x01 else s.bst.ir } } := by
  unfold State.trstLevel
  rw [if_neg h]
  cases low <;> rfl

/-- An instruction that acts only inside a held reset is BYPASS elsewhere. -/
theorem State.tapHeld_eq (s : State) (ir : Nat) :
    s.tapHeld ir = { s with bst := { s.bst with ir := if s.resetHeld = true then ir else 0xFF } } := by
  unfold State.tapHeld
  cases s.resetHeld <;> rfl

/-- The device's number: the base course's revision, the part, the manufacturer (R374). -/
theorem State.idcode_eq (s : State) : s.idcode = s.fld KS_REV_BASE * 2 ^ 28 + 0x0960098B := by
  unfold State.idcode; omega

theorem State.tapParts_only (s : State) (f : Nat) (o : List Out) (b : Bst) :
    s.only { s with fresh := f, out := o, bst := b } [.fresh, .out, .bst] fun _ => False := by
  refine ⟨fun p => ?_, fun _ => Or.inr (by simp only [State.reg])⟩
  cases p <;> first | exact Or.inr rfl | exact Or.inl (by simp)

theorem State.nonceParts_only (s : State) (f : Nat) (b : Bst) :
    s.only { s with fresh := f, bst := b } [.fresh, .bst] fun _ => False := by
  refine ⟨fun p => ?_, fun _ => Or.inr (by simp only [State.reg])⟩
  cases p <;> first | exact Or.inr rfl | exact Or.inl (by simp)

/-! ### The unlock (R376) -/

/-- A token that the stack takes now. -/
abbrev State.tokenOk (s : State) (token : List Byte) : Prop :=
  s.tokensTaken = true ∧ token.length = 128 ∧ fieldB token 0 8 = s.fus.ident ∧ fieldB token 8 16 = s.bst.nonce ∧
    fieldB token 28 4 = 0 ∧ Config.ecdsaOk s.fus.unlockKey (token.take 32) (token.drop 32) = true

/-- The state as UNLOCK_LOAD leaves it, before its event. -/
def State.unlockTried (s : State) (unlock : Option Nat) : State :=
  { s with fresh := s.fresh + 1, bst := { s.bst with ir := 0x11, nonce := s.free % 2 ^ 128, unlock := unlock } }

theorem exec_unlockLoad {s : State} (hd : s.dev ≠ .off) (ht : s.pins.trstN = true) (token : List Byte) :
    exec (.unlockLoad token) s = .next (if s.tokenOk token
      then (s.unlockTried (some (fieldB token 24 4))).post 0x0607 1 0xFF (fieldB token 24 4)
      else s.unlockTried s.bst.unlock) :=
  congrArg Host.Outcome.next (State.tap_on hd ht _)

theorem exec_unlockLoad_off {s : State} (h : s.dev = .off ∨ s.pins.trstN = false) (token : List Byte) :
    exec (.unlockLoad token) s = .next s := congrArg Host.Outcome.next (State.tap_off h _)

/-! ### Scan (R374, R375) -/

/-- Scan is allowed by the lifecycle or the unlock. -/
abbrev State.scanAllowed (s : State) : Prop := s.fus.life = 1 ∨ s.fus.life = 2 ∨ s.bst.unlock ≠ none

/-- The keys, the jobs and what waits for the Keystone are gone. -/
def State.scanDropped (s : State) : State :=
  let s := s.dropKeys
  { s with chs := { s.chs with jobs := List.replicate 16 {} }, wq := { s.wq with ksq := [], waits := [] } }

/-- Scan is entered: where a course's wrapper is accessed, nothing may resume. -/
def State.scanEntered (s : State) (courses : List Nat) : State :=
  let t := { s.tapIr 0x20 with bst := { s.bst with ir := 0x20, scan := true } }
  if (courses.filter fun p => decide (3 ≤ p) && t.scanMay p).isEmpty then t else { t with pwr := { t.pwr with mayResume := false } }

theorem State.scanEntered_same (s : State) (courses : List Nat) :
    (s.scanEntered courses).keep = s.keep ∧ (s.scanEntered courses).chs = s.chs ∧ (s.scanEntered courses).wq = s.wq ∧
    (s.scanEntered courses).bst = { s.bst with ir := 0x20, scan := true } := by
  unfold State.scanEntered
  dsimp only
  split <;> exact ⟨rfl, rfl, rfl, rfl⟩

theorem State.scanEntered_mayResume (s : State) (courses : List Nat) :
    (s.scanEntered courses).pwr.mayResume =
      (s.pwr.mayResume && !(courses.any fun p => decide (3 ≤ p) && s.scanMay p)) := by
  have hany : (courses.filter fun p => decide (3 ≤ p) && s.scanMay p).isEmpty =
      !(courses.any fun p => decide (3 ≤ p) && s.scanMay p) := by
    rw [Bool.eq_iff_iff]; simp [List.filter_eq_nil_iff]
  have hmay (p : Nat) : ({ s.tapIr 0x20 with bst := { s.bst with ir := 0x20, scan := true } } : State).scanMay p = s.scanMay p := rfl
  unfold State.scanEntered
  simp only [hmay, hany]
  cases courses.any fun p => decide (3 ≤ p) && s.scanMay p <;> simp [State.tapIr]

theorem exec_scanEnter_off {s : State} (h : s.dev = .off ∨ s.pins.trstN = false) (zero : Bool) (courses : List Nat) :
    exec (.scanEnter zero courses) s = .next s := congrArg Host.Outcome.next (State.tap_off h _)

section
variable {s : State} (hd : s.dev ≠ .off) (ht : s.pins.trstN = true) (zero : Bool) (courses : List Nat)
include hd ht

theorem exec_scanEnter : exec (.scanEnter zero courses) s = .next (
    if s.resetHeld = false then s.tapIr 0xFF
    else if (!(s.fus.life == 1 || s.fus.life == 2 || s.bst.unlock.isSome)) = true then (s.tapIr 0xFF).post 0x0605 2 0xFF 0
    else if zero = false then (s.scanDropped.tapIr 0xFF).post 0x0605 2 0xFF 0
    else s.scanDropped.scanEntered courses) := congrArg Host.Outcome.next (State.tap_on hd ht _)

theorem exec_scanEnter_notHeld (h : s.resetHeld = false) :
    exec (.scanEnter zero courses) s = .next (s.tapIr 0xFF) := by rw [exec_scanEnter hd ht, if_pos h]

theorem exec_scanEnter_refused (h : s.resetHeld = true) (hm : ¬s.scanAllowed) :
    exec (.scanEnter zero courses) s = .next ((s.tapIr 0xFF).post 0x0605 2 0xFF 0) := by
  rw [exec_scanEnter hd ht, if_neg (by simp [h]), if_pos]
  simp only [not_or, not_not] at hm
  simp [hm]

theorem exec_scanEnter_allowed (h : s.resetHeld = true) (hm : s.scanAllowed) :
    exec (.scanEnter zero courses) s = .next (if zero = false then (s.scanDropped.tapIr 0xFF).post 0x0605 2 0xFF 0
      else s.scanDropped.scanEntered courses) := by
  rw [exec_scanEnter hd ht, if_neg (by simp [h]), if_neg]
  rcases hm with hm | hm | hm
  · simp [hm]
  · simp [hm]
  · simp [Option.isSome_iff_ne_none.2 hm]

end

theorem State.scanDropped_locks (s : State) :
    s.scanDropped.locks = { s.locks with arm := .disarmed, shares := [], secret := none } := s.locks_dropKeys

/-- The courses whose wrappers may be accessed are those from before the keys were dropped. -/
theorem State.scanDropped_scanMay (s : State) (p : Nat) : s.scanDropped.scanMay p = s.scanMay p := by
  have hfus : s.scanDropped.fus = s.fus := congrArg Locks.fus s.scanDropped_locks
  have hunlock : s.scanDropped.bst.unlock = s.bst.unlock := congrArg Locks.unlock s.scanDropped_locks
  simp only [State.scanMay, hfus, hunlock]

/-- Every command of the port is ignored while it does not work. -/
theorem tap_commands_off {s : State} (h : s.dev = .off ∨ s.pins.trstN = false) :
    exec .bypass s = .next s ∧ exec .idcode s = .next s ∧ exec .extest s = .next s ∧ exec .clamp s = .next s ∧
    exec .highz s = .next s ∧ exec .unlockNonce s = .next s ∧ (∀ x, exec (.samplePreload (.preload x)) s = .next s) ∧
    (∀ x, exec (.unlockLoad x) s = .next s) ∧ ∀ z c, exec (.scanEnter z c) s = .next s := by
  simp only [exec_bypass, exec_idcode, exec_extest, exec_clamp, exec_highz, exec_unlockNonce, exec_preload, State.tap_off h,
    exec_unlockLoad_off h, exec_scanEnter_off h, implies_true, and_self]

/-- Settles O54, instruction by instruction; for scan by what the loss of the keys leaves alone (`State.locks_dropKeys`). -/
theorem testAccessPort : Obligations.TestAccessPort := by
  unfold Obligations.TestAccessPort
  refine fun s => ⟨tap_commands_off, fun low => ⟨fun h => ?_, fun h => ?_⟩, fun hd ht => ⟨?_, ?_, ?_, fun b => ?_, ?_, ?_,
    fun token => ?_, fun zero courses => ⟨fun h => ?_, fun h hm => ?_, fun h hm => ?_⟩⟩⟩
  · rw [exec_trst, State.trstLevel, if_pos h]
  · rw [exec_trst, State.trstLevel_on h]
  · rw [exec_bypass, State.tap_on hd ht]; rfl
  · rw [exec_idcode, State.tap_on hd ht, State.idcode_eq]; rfl
  · rw [exec_unlockNonce, State.tap_on hd ht]; rfl
  · exact ⟨_, (exec_preload s _).trans (congrArg _ (State.tap_on hd ht _)), rfl, s.tapParts_only _ _ _⟩
  · exact ⟨_, (exec_preload s _).trans (congrArg _ (State.tap_on hd ht _)), rfl, rfl, rfl⟩
  · simp only [exec_extest, exec_clamp, exec_highz, State.tap_on hd ht, State.tapHeld_eq]
    exact ⟨rfl, rfl, rfl⟩
  · have only (x : Option Nat) : s.only (s.unlockTried x) [.fresh, .bst] fun _ => False := s.nonceParts_only _ _
    intro ok
    by_cases hok : ok
    · refine ⟨s.unlockTried (some (fieldB token 24 4)), fun _ => ?_, fun h => absurd hok h, (if_pos hok).symm, rfl, rfl, only _⟩
      rw [exec_unlockLoad hd ht, if_pos hok]
    · refine ⟨s.unlockTried s.bst.unlock, fun h => absurd h hok, fun _ => ?_, (if_neg hok).symm, rfl, rfl, only _⟩
      rw [exec_unlockLoad hd ht, if_neg hok]
  · exact exec_scanEnter_notHeld hd ht zero courses h
  · exact ⟨_, exec_scanEnter_refused hd ht zero courses h hm, rfl⟩
  · have hlocks := s.scanDropped_locks
    have hsecret : s.scanDropped.keep.secret = none := congrArg Locks.secret hlocks
    have hshares : s.scanDropped.keep.shares = [] := congrArg Locks.shares hlocks
    have harm : s.scanDropped.keep.arm = .disarmed := congrArg Locks.arm hlocks
    have hpwr : s.scanDropped.pwr = s.pwr := congrArg Locks.pwr hlocks
    have hjobs : ∀ j ∈ s.scanDropped.chs.jobs, j = {} := fun j hj => List.eq_of_mem_replicate hj
    have hwaits : s.scanDropped.wq.ksq = [] ∧ s.scanDropped.wq.waits = [] := ⟨rfl, rfl⟩
    refine ⟨_, exec_scanEnter_allowed hd ht zero courses h hm, ?_⟩
    cases zero
    · simp only [if_true, State.post_same]
      exact ⟨hsecret, hshares, harm, hjobs, rfl, nofun, hwaits.1, hwaits.2, by simp [State.tapIr, hpwr]⟩
    · obtain ⟨hkeep, hchs, hwq, hbst⟩ := s.scanDropped.scanEntered_same courses
      simp only [Bool.true_eq_false, if_false, hkeep, hchs, hwq, hbst, State.scanEntered_mayResume, hpwr,
        State.scanDropped_scanMay]
      exact ⟨hsecret, hshares, harm, hjobs, by simp [hwaits]⟩

end Sys2Proof.Machine

/-! SUPPORT. What every operation of the model keeps (log entry 12): the canonical forms of DRAM and of the register file, and the
commands that wait; and, where an operation leaves the power part alone or at least what its reset interval stands for, that too.
One rule for each operation, in the order of the model, each made of the rules of the operations that it calls; a rule takes what
holds before the operation and gives what holds after it. -/

namespace Sys2Proof.Machine

/-! ### The canonical forms, as they go from one state to the next (log entry 12) -/

/-- A table whose values are replaced keeps its order. -/
theorem tsorted_map {α β : Type} {t : Tab α} (h : tsorted t = true) {f : Nat × α → Nat × β} (hf : ∀ e, (f e).1 = e.1) :
    tsorted (t.map f) = true := by
  induction t with
  | nil => rfl
  | cons e t ih =>
    match t, h with
    | [], _ => rfl
    | e' :: t, h =>
      simp only [tsorted, Bool.and_eq_true, decide_eq_true_eq] at h
      have ih := ih h.2
      simp only [List.map_cons] at ih ⊢
      generalize hx : f e = x at *
      generalize hy : f e' = y at *
      have hlt : x.1 < y.1 := by rw [← hx, ← hy, hf, hf]; exact h.1
      simpa only [tsorted, Bool.and_eq_true, decide_eq_true_eq] using ⟨hlt, ih⟩

/-- What an operation keeps of a state `s₀`: DRAM and the register file stay in canonical form, the commands that wait are the same,
and the power part stays related to what it was. -/
structure State.KeepsWith (s₀ : State) (R : Pwr → Pwr → Prop) (s : State) : Prop where
  mem : Memory.wf s₀.dram.mem = true → Memory.wf s.dram.mem = true
  regs : tsorted s₀.regs = true → tsorted s.regs = true
  act : tsorted s₀.act = true → tsorted s.act = true
  pending : s.pending = s₀.pending
  pwr : R s₀.pwr s.pwr

/-- What every operation keeps, whatever it does to the power part. An operation that leaves the power part alone has its lemma for
every relation. -/
abbrev State.Keeps (s₀ s : State) : Prop := s₀.KeepsWith (fun _ _ => True) s

/-- A command's meaning goes on to a state that keeps what `s₀` has. -/
def State.KeepsNext (s₀ : State) (o : Host.Outcome State Fault Refusal) : Prop := ∃ s, o = .next s ∧ s₀.Keeps s

/-- What a reset interval stands for (R284): that it is open, its reach, its first source, every source, and the levels. -/
def Pwr.stands (p : Pwr) : Bool × Nat × Nat × Nat × List Nat := (p.interval, p.reach, p.source, p.mask, p.levels)

/-- A relation of power parts reads nothing of the later one but what its interval stands for. -/
def ReadsStands (R : Pwr → Pwr → Prop) : Prop := ∀ p q r, R p q → r.stands = q.stands → R p r

section
variable {s₀ s t : State} {R : Pwr → Pwr → Prop}

theorem State.KeepsNext.next (h : s₀.Keeps s) : s₀.KeepsNext (.next s) := ⟨s, rfl, h⟩

theorem readsStands_true : ReadsStands fun _ _ => True := fun _ _ _ _ _ => trivial

/-- An update of parts other than DRAM, the register file and the waiting commands. -/
theorem State.KeepsWith.updPwr (h : s₀.Keeps s) {clock fresh dev prev out pins ks lnk mc mtr wq chs intg keep thm pwr fus bst cal} :
    s₀.Keeps ⟨s.pending, clock, fresh, dev, prev, s.regs, s.act, out, pins, ks, lnk, s.dram, mc, mtr, wq, chs, intg, keep, thm,
      pwr, fus, bst, cal⟩ := ⟨h.mem, h.regs, h.act, h.pending, trivial⟩

/-- One that leaves the power part too. -/
theorem State.KeepsWith.upd (h : s₀.KeepsWith R s) {clock fresh dev prev out pins ks lnk mc mtr wq chs intg keep thm fus bst cal} :
    s₀.KeepsWith R ⟨s.pending, clock, fresh, dev, prev, s.regs, s.act, out, pins, ks, lnk, s.dram, mc, mtr, wq, chs, intg, keep, thm,
      s.pwr, fus, bst, cal⟩ := ⟨h.mem, h.regs, h.act, h.pending, h.pwr⟩

/-- One that leaves of the power part what the interval stands for. -/
theorem State.KeepsWith.updStands (h : s₀.KeepsWith R s) (hR : ReadsStands R)
    {clock fresh dev prev out pins ks lnk mc mtr wq chs intg keep thm pwr fus bst cal} (hp : pwr.stands = s.pwr.stands) :
    s₀.KeepsWith R ⟨s.pending, clock, fresh, dev, prev, s.regs, s.act, out, pins, ks, lnk, s.dram, mc, mtr, wq, chs, intg, keep, thm,
      pwr, fus, bst, cal⟩ := ⟨h.mem, h.regs, h.act, h.pending, hR _ _ _ h.pwr hp⟩

/-- An update of the register file. -/
theorem State.KeepsWith.registers (h : s₀.KeepsWith R s) {r a} (hr : tsorted s.regs = true → tsorted r = true)
    (ha : tsorted s.act = true → tsorted a = true) : s₀.KeepsWith R { s with regs := r, act := a } :=
  ⟨h.mem, hr ∘ h.regs, ha ∘ h.act, h.pending, h.pwr⟩

/-- An update of DRAM. -/
theorem State.KeepsWith.memory (h : s₀.KeepsWith R s) {m poison} (hm : Memory.wf s.dram.mem = true → Memory.wf m = true) :
    s₀.KeepsWith R { s with dram := ⟨m, poison⟩ } :=
  ⟨hm ∘ h.mem, h.regs, h.act, h.pending, h.pwr⟩

theorem State.KeepsWith.setAct (h : s₀.KeepsWith R s) {a v} : s₀.KeepsWith R { s with act := tset s.act a v } :=
  h.registers id (tsorted_tset · _ _)

theorem State.KeepsWith.ite {c : Prop} [Decidable c] (hs : s₀.KeepsWith R s) (ht : s₀.KeepsWith R t) :
    s₀.KeepsWith R (if c then s else t) := by
  split <;> assumption

theorem State.KeepsWith.ite_fst {α : Type} {c : Prop} [Decidable c] {x y : State × α}
    (hx : s₀.KeepsWith R x.1) (hy : s₀.KeepsWith R y.1) : s₀.KeepsWith R (if c then x else y).1 := by
  split <;> assumption

theorem State.KeepsWith.foldl {β : Type} {f : State → β → State} {l : List β} (h : s₀.KeepsWith R s)
    (hf : ∀ t x, s₀.KeepsWith R t → s₀.KeepsWith R (f t x)) : s₀.KeepsWith R (l.foldl f s) := by
  induction l generalizing s with
  | nil => exact h
  | cons x l ih => exact ih (hf s x h)

theorem State.KeepsWith.foldl_fst {α β : Type} {f : State × α → β → State × α} {l : List β} {p : State × α} (h : s₀.KeepsWith R p.1)
    (hf : ∀ p x, s₀.KeepsWith R p.1 → s₀.KeepsWith R (f p x).1) : s₀.KeepsWith R (l.foldl f p).1 := by
  induction l generalizing p with
  | nil => exact h
  | cons x l ih => exact ih (hf p x h)

/-! ### Registers, the event log and the device state -/

theorem State.KeepsWith.setReg (h : s₀.KeepsWith R s) {addr v} : s₀.KeepsWith R (s.setReg addr v) :=
  .registers h (tsorted_tset · _ _) id
theorem State.KeepsWith.setFld (h : s₀.KeepsWith R s) {f v} : s₀.KeepsWith R (s.setFld f v) := .setReg h
theorem State.KeepsWith.incFld (h : s₀.KeepsWith R s) {f d} : s₀.KeepsWith R (s.incFld f d) := .setFld h
theorem State.KeepsWith.maxFld (h : s₀.KeepsWith R s) {f v} : s₀.KeepsWith R (s.maxFld f v) := .setFld h
theorem State.KeepsWith.minFld (h : s₀.KeepsWith R s) {f v} : s₀.KeepsWith R (s.minFld f v) := .setFld h
theorem State.KeepsWith.setReg64 (h : s₀.KeepsWith R s) {lo v} : s₀.KeepsWith R (s.setReg64 lo v) := .setReg (.setReg h)
theorem State.KeepsWith.add64 (h : s₀.KeepsWith R s) {lo d} : s₀.KeepsWith R (s.add64 lo d) := .setReg64 h
theorem State.KeepsWith.commitReg (h : s₀.KeepsWith R s) {addr} : s₀.KeepsWith R (s.commitReg addr) := .setAct h
theorem State.KeepsWith.clearReg (h : s₀.KeepsWith R s) {addr} : s₀.KeepsWith R (s.clearReg addr) :=
  .registers h (tsorted_filter · _) id

theorem State.KeepsWith.writeAcc (h : s₀.KeepsWith R s) {addr v} : s₀.KeepsWith R (s.writeAcc addr v) := by
  unfold State.writeAcc
  split
  · exact h
  · exact .setReg h

theorem State.KeepsWith.resetRange (h : s₀.KeepsWith R s) {lo n skip} : s₀.KeepsWith R (s.resetRange lo n skip) :=
  .registers h (tsorted_map · fun _ => by split <;> rfl) (tsorted_filter · _)
theorem State.KeepsWith.bump (h : s₀.KeepsWith R s) : s₀.KeepsWith R s.bump := .upd h
theorem State.KeepsWith.setDev (h : s₀.KeepsWith R s) {d} : s₀.KeepsWith R (s.setDev d) := .ite h (.upd h)
theorem State.KeepsWith.ibiEdge (h : s₀.KeepsWith R s) {was} : s₀.KeepsWith R (State.ibiEdge was s) := .ite (.upd h) h
theorem State.KeepsWith.logEvent (h : s₀.KeepsWith R s) {code sev unit data} : s₀.KeepsWith R (s.logEvent code sev unit data) :=
  .ibiEdge (.upd h)
theorem State.KeepsWith.emit (h : s₀.KeepsWith R s) {o} : s₀.KeepsWith R (s.emit o) := .upd h
theorem State.KeepsWith.modPort (h : s₀.KeepsWith R s) {p f} : s₀.KeepsWith R (s.modPort p f) := .upd h

/-! ### Packets, flits and event messages -/

theorem State.KeepsWith.txFlit (h : s₀.KeepsWith R s) {p ftype first seq payload} :
    s₀.KeepsWith R (s.txFlit p ftype first seq payload) :=
  .emit (.modPort h)
theorem State.KeepsWith.txIdle (h : s₀.KeepsWith R s) {p} : s₀.KeepsWith R (s.txIdle p) := .txFlit h

theorem State.KeepsWith.txData (h : s₀.KeepsWith R s) {p fs} : s₀.KeepsWith R (s.txData p fs) := by
  induction fs generalizing s with
  | nil => exact h
  | cons f fs ih => exact ih (.txFlit (.modPort h))

theorem State.KeepsWith.pump (h : s₀.KeepsWith R s) {p} : s₀.KeepsWith R (s.pump p) :=
  .ite (.ite (.modPort h) (.add64 (.txData (.modPort h)))) h
theorem State.KeepsWith.enqueue (h : s₀.KeepsWith R s) {p k src} : s₀.KeepsWith R (s.enqueue p k src) := .pump (.modPort h)
theorem State.KeepsWith.holdEvent (h : s₀.KeepsWith R s) {n e} : s₀.KeepsWith R (s.holdEvent n e) := .ite (.upd h) h
theorem State.KeepsWith.postHeld (h : s₀.KeepsWith R s) {code sev unit data} : s₀.KeepsWith R (s.postHeld code sev unit data) :=
  .foldl (.logEvent h) fun _ _ ht => .holdEvent ht

theorem State.KeepsWith.dropCount {say : State → Nat → Nat → Nat → Nat → State} (h :
    s₀.KeepsWith R s) (hsay : ∀ t x0 x1 x2 x3, s₀.KeepsWith R t →
    s₀.KeepsWith R (say t x0 x1 x2 x3)) {unit k cause} : s₀.KeepsWith R (s.dropCount unit k cause say) :=
  .ite (hsay _ _ _ _ _ (.modPort (.incFld h))) (.incFld h)

theorem State.KeepsWith.injectMsg (h : s₀.KeepsWith R s) {k} : s₀.KeepsWith R (s.injectMsg k) := by
  unfold State.injectMsg
  refine .ite ?_ h
  split
  · exact .incFld h
  · exact .enqueue h
  · exact .dropCount h fun _ _ _ _ _ ht => .postHeld ht

theorem State.KeepsWith.noteEvent (h : s₀.KeepsWith R s) {e n} : s₀.KeepsWith R (s.noteEvent e n) := .ite (.upd h) (.holdEvent h)
theorem State.KeepsWith.sendEvent (h : s₀.KeepsWith R s) {e n} : s₀.KeepsWith R (s.sendEvent e n) := .injectMsg h
theorem State.KeepsWith.post (h : s₀.KeepsWith R s) {code sev unit data} : s₀.KeepsWith R (s.post code sev unit data) :=
  .foldl (.foldl (.logEvent h) fun _ _ ht => .noteEvent ht) fun _ _ ht => .sendEvent ht
theorem State.KeepsWith.dropRoute (h : s₀.KeepsWith R s) {unit k cause} : s₀.KeepsWith R (s.dropRoute unit k cause) :=
  .dropCount h fun _ _ _ _ _ ht => .post ht

theorem State.KeepsWith.injectRaw (h : s₀.KeepsWith R s) {k} : s₀.KeepsWith R (s.injectRaw k) := by
  unfold State.injectRaw
  refine .ite ?_ h
  split
  · exact .ite (.upd h) (.incFld h)
  · exact .enqueue h
  · exact .dropRoute h

theorem State.KeepsWith.sendRsp (h : s₀.KeepsWith R s) {p r} : s₀.KeepsWith R (s.sendRsp p r) := .ite (.enqueue h) (.injectRaw h)
theorem State.KeepsWith.waitRx (h : s₀.KeepsWith R s) {p k} : s₀.KeepsWith R (s.waitRx p k) := .ite h (.modPort h)
theorem State.KeepsWith.answer (h : s₀.KeepsWith R s) {p k status word data} : s₀.KeepsWith R (s.answer p k status word data) :=
  .sendRsp h
theorem State.KeepsWith.discardOrRefuse (h : s₀.KeepsWith R s) {p k cause} : s₀.KeepsWith R (s.discardOrRefuse p k cause) :=
  .dropRoute (.ite (.answer h) h)
theorem State.KeepsWith.takeRx (h : s₀.KeepsWith R s) {p k} : s₀.KeepsWith R (s.takeRx p k) := .ite (.modPort h) h

/-! ### Register accesses -/

theorem State.KeepsWith.respond (h : s₀.KeepsWith R s) {a opc status word} : s₀.KeepsWith R (s.respond a opc status word) := by
  unfold State.respond
  split
  · exact .answer h
  · exact .upd h
  · exact h

theorem State.KeepsWith.takeAccess (h : s₀.KeepsWith R s) {p a opc} : s₀.KeepsWith R (s.takeAccess p a opc) := by
  unfold State.takeAccess
  split
  · exact .ite (.takeRx h) h
  · exact h

theorem State.KeepsWith.modTgt (h : s₀.KeepsWith R s) {t f} : s₀.KeepsWith R (s.modTgt t f) := .upd h
theorem State.KeepsWith.cfgEnds (h : s₀.KeepsWith R s) {m} : s₀.KeepsWith R (s.cfgEnds m) := .ite (.add64 (.modTgt h)) h
theorem State.KeepsWith.cfgBeat (h : s₀.KeepsWith R s) {m} : s₀.KeepsWith R (s.cfgBeat m) := .modTgt (.cfgEnds h)

theorem State.KeepsWith.portGate {go : State → State} (h : s₀.KeepsWith R s) (hgo : ∀ t, s₀.KeepsWith R t → s₀.KeepsWith R (go t)) {a opc} :
    s₀.KeepsWith R
    (s.portGate a opc go) := by
  unfold State.portGate
  split
  · exact .ite h (.ite (.respond (.takeAccess h)) (hgo _ (.cfgBeat (.takeAccess h))))
  · exact .ite h (hgo _ (.cfgBeat h))

theorem State.KeepsWith.cfgWriteSt {eff : State → State × Nat} (h :
    s₀.KeepsWith R s) (heff : ∀ t, s₀.KeepsWith R t → s₀.KeepsWith R (eff t).1) {a addr}
    : s₀.KeepsWith R (s.cfgWriteSt a addr eff) :=
  .portGate h fun _ ht => .ite (.respond (heff _ ht)) (.respond ht)

theorem State.KeepsWith.cfgWrite {eff : State → State} (h :
    s₀.KeepsWith R s) (heff : ∀ t, s₀.KeepsWith R t → s₀.KeepsWith R (eff t)) {a addr} :
    s₀.KeepsWith R (s.cfgWrite a addr eff) :=
  .cfgWriteSt h fun _ ht => heff _ ht

/-! ### Lanes and the lintel -/

theorem State.KeepsWith.startOver (h : s₀.KeepsWith R s) {p st} : s₀.KeepsWith R (s.startOver p st) := by
  unfold State.startOver
  extract_lets s1 s2 s3
  have h1 : s₀.KeepsWith R s1 := .modPort h
  have h2 : s₀.KeepsWith R s2 := .foldl h1 fun _ _ ht => .setFld (.setFld ht)
  have h3 : s₀.KeepsWith R s3 := .setFld (.setFld (.setFld h2))
  exact .setFld (.setFld h3)

theorem State.KeepsWith.closeLintel (h : s₀.KeepsWith R s) {ring} : s₀.KeepsWith R (s.closeLintel ring) := by
  unfold State.closeLintel
  extract_lets _ s1 s2 s3
  have h1 : s₀.KeepsWith R s1 := .upd h
  have h2 : s₀.KeepsWith R s2 := .startOver (.startOver h1)
  have h3 : s₀.KeepsWith R s3 := .modPort (.modPort h2)
  exact .ite h3 (.post h3)

theorem State.KeepsWith.openLintel (h : s₀.KeepsWith R s) {ring} : s₀.KeepsWith R (s.openLintel ring) :=
  .post (.startOver (.startOver (.upd h)))
theorem State.KeepsWith.updateLintel (h : s₀.KeepsWith R s) {ring} : s₀.KeepsWith R (s.updateLintel ring) :=
  .ite (.closeLintel h) (.ite (.openLintel h) h)
theorem State.KeepsWith.updateLintels (h : s₀.KeepsWith R s) : s₀.KeepsWith R s.updateLintels := .updateLintel (.updateLintel h)
theorem State.KeepsNext.lintelForceNChange (h : s₀.Keeps s) {low} : s₀.KeepsNext (execLintelForceNChange low s) :=
  .next (.updateLintels (.upd h))
theorem State.KeepsNext.lnkLintelCloseWrite (h : s₀.Keeps s) {a ring v} : s₀.KeepsNext (execLnkLintelCloseWrite a ring v s) :=
  .next (.cfgWrite h fun _ ht => .updateLintels (.writeAcc ht))
theorem State.KeepsWith.bypass (h : s₀.KeepsWith R s) {p lane bs} : s₀.KeepsWith R (s.bypass p lane bs) := .ite (.emit h) h
theorem State.KeepsWith.leaveActive (h : s₀.KeepsWith R s) {p cause} : s₀.KeepsWith R (s.leaveActive p cause) :=
  .post (.startOver h)

theorem State.KeepsWith.lnkCtlWrite (h : s₀.KeepsWith R s) {p v} : s₀.KeepsWith R (s.lnkCtlWrite p v) := by
  unfold State.lnkCtlWrite
  extract_lets s1 _
  have h1 : s₀.KeepsWith R s1 := .writeAcc h
  exact .ite h1 (.ite (.startOver h1) (.ite (.startOver h1) (.ite (.ite (.leaveActive h1) (.startOver h1)) h1)))

theorem State.KeepsNext.lnkRetrain (h : s₀.Keeps s) {a p v} : s₀.KeepsNext (execLnkRetrain a p v s) :=
  .next (.cfgWrite h fun _ ht => .lnkCtlWrite ht)
theorem State.KeepsNext.lnkDisable (h : s₀.Keeps s) {a p v} : s₀.KeepsNext (execLnkDisable a p v s) :=
  .next (.cfgWrite h fun _ ht => .lnkCtlWrite ht)
theorem State.KeepsNext.lnkEnable (h : s₀.Keeps s) {a p v} : s₀.KeepsNext (execLnkEnable a p v s) :=
  .next (.cfgWrite h fun _ ht => .lnkCtlWrite ht)
theorem State.KeepsNext.signalDetect (h : s₀.Keeps s) {p} : s₀.KeepsNext (execSignalDetect p s) := .next (.ite (.modPort h) h)
theorem State.KeepsNext.negotiateTimeout (h : s₀.Keeps s) {p} : s₀.KeepsNext (execNegotiateTimeout p s) :=
  .next (.ite (.modPort h) h)

theorem State.KeepsWith.laneCal (h : s₀.KeepsWith R s) {p} : s₀.KeepsWith R (s.laneCal p) := by
  unfold State.laneCal
  extract_lets _
  split
  · exact .upd (.setReg h)
  · exact h

theorem State.KeepsWith.unmeasured (h : s₀.KeepsWith R s) {p} : s₀.KeepsWith R (s.unmeasured p) := .foldl h fun _ _ ht => .setFld ht
theorem State.KeepsWith.setPolarity (h : s₀.KeepsWith R s) {p inv} : s₀.KeepsWith R (s.setPolarity p inv) :=
  .setFld (.foldl h fun _ _ ht => .setFld ht)
theorem State.KeepsWith.noGroup (h : s₀.KeepsWith R s) {p} : s₀.KeepsWith R (s.noGroup p) := .post (.startOver h)

theorem State.KeepsNext.trainGenerationDone (h : s₀.Keeps s) {p found} : s₀.KeepsNext (execTrainGenerationDone p found s) := by
  unfold execTrainGenerationDone
  extract_lets _ s1 _ _ _ _ _ _
  have h1 : s₀.Keeps s1 := .setPolarity h
  refine .next (.ite h (.ite (.foldl (.setFld (.setFld (.setFld (.setFld (.modPort h1))))) fun _ _ ht => .setFld ht) (.ite
    (.modPort h1) ?_)))
  split
  · exact .ite (.noGroup h1) (.foldl (.setFld (.setFld (.setFld (.setFld (.modPort h1))))) fun _ _ ht => .setFld ht)
  · exact .noGroup h1

theorem State.KeepsWith.settleMap (h : s₀.KeepsWith R s) {p} : s₀.KeepsWith R (s.settleMap p) := .foldl h fun _ _ ht => .setFld ht
theorem State.KeepsWith.markInUse (h : s₀.KeepsWith R s) {p} : s₀.KeepsWith R (s.markInUse p) :=
  .setFld (.setFld (.foldl (.settleMap h) fun _ _ ht => .setFld ht))
theorem State.KeepsWith.narrow (h : s₀.KeepsWith R s) {p code group lane} : s₀.KeepsWith R (s.narrow p code group lane) :=
  .post (.incFld (.markInUse (.modPort (.setFld (.setFld h)))))

theorem State.KeepsWith.askNarrow (h : s₀.KeepsWith R s) {p l lsWorks} : s₀.KeepsWith R (s.askNarrow p l lsWorks) := by
  unfold State.askNarrow
  dsimp only
  split
  · exact .modPort h
  · exact .leaveActive h

theorem State.KeepsWith.laneFailed (h : s₀.KeepsWith R s) {p n} : s₀.KeepsWith R (s.laneFailed p n) := by
  unfold State.laneFailed
  extract_lets s1 _
  have h1 : s₀.KeepsWith R s1 := .setFld h
  exact .ite h1 (.ite (.ite h1 (.ite (.modPort h1) (.askNarrow h1))) (.ite h1 (.askNarrow h1)))

theorem State.KeepsWith.failedInAlign (h : s₀.KeepsWith R s) {p} : s₀.KeepsWith R (s.failedInAlign p) :=
  .foldl h fun _ _ ht => .ite (.laneFailed ht) ht

theorem State.KeepsNext.alignDone (h : s₀.Keeps s) {p skewPs lane} : s₀.KeepsNext (execAlignDone p skewPs lane s) := by
  unfold execAlignDone
  extract_lets _ s1 s2 s3 s4
  have h1 : s₀.Keeps s1 := .setFld (.setFld h)
  have h2 : s₀.Keeps s2 := .incFld (.modPort h1)
  have h3 : s₀.Keeps s3 := .markInUse (.setFld h2)
  have h4 : s₀.Keeps s4 := .post (.setFld h3)
  exact .next (.ite h (.ite (.failedInAlign (.ite (.post h4) h4)) (.ite (.post (.startOver h1)) (.modPort (.unmeasured (.laneCal
    h1))))))

theorem State.KeepsWith.laneWindow (h : s₀.KeepsWith R s) {p n fom} : s₀.KeepsWith R (s.laneWindow p n fom) := by
  unfold State.laneWindow
  extract_lets _ _ _ _ _ _ _ s1 s2 s3
  have h1 : s₀.KeepsWith R s1 := .modPort h
  have h2 : s₀.KeepsWith R s2 := .setFld h1
  have h3 : s₀.KeepsWith R s3 := .ite (.post h2) h2
  exact .ite (.laneFailed h3) h3

theorem State.KeepsWith.adapt (h : s₀.KeepsWith R s) {p n fom leq txeq} : s₀.KeepsWith R (s.adapt p n fom leq txeq) :=
  .ite (.modPort (.setReg h)) (.ite (.modPort (.setReg h)) (.ite (.modPort h) (.modPort h)))

theorem State.KeepsNext.fomWindowEnd (h : s₀.Keeps s) {p lane hist step} : s₀.KeepsNext (execFomWindowEnd p lane hist step
    s) := by
  unfold execFomWindowEnd
  extract_lets _ _ s1 s2
  have h1 : s₀.Keeps s1 := .minFld (.maxFld (.setFld h))
  have h2 : s₀.Keeps s2 := .ite h1 (.foldl h1 fun _ _ ht => .setReg ht)
  exact .next (.ite h (.laneWindow (.adapt h2)))

theorem State.KeepsNext.laneLossOfLock (h : s₀.Keeps s) {p lane} : s₀.KeepsNext (execLaneLossOfLock p lane s) :=
  .next (.ite (.laneFailed h) h)
theorem State.KeepsNext.signalLossTimeout (h : s₀.Keeps s) {p} : s₀.KeepsNext (execSignalLossTimeout p s) :=
  .next (.ite (.leaveActive h) h)

theorem State.KeepsWith.markerFields (h : s₀.KeepsWith R s) {p n m} : s₀.KeepsWith R (s.markerFields p n m) := by
  unfold State.markerFields
  extract_lets _ _ _ _ s1 s2 s3 _
  have h1 : s₀.KeepsWith R s1 := .ite (.modPort h) h
  have h2 : s₀.KeepsWith R s2 := by
    unfold s2
    split
    · exact .ite (.post (.incFld (.modPort h1))) h1
    · exact h1
  have h3 : s₀.KeepsWith R s3 := by
    unfold s3
    split
    · exact .ite (.post (.incFld (.markInUse (.setFld (.modPort h2))))) h2
    · exact h2
  split
  · exact .ite (.narrow h3) h3
  · exact .ite (.narrow (.bump h3)) h3

theorem State.KeepsWith.countMarker (h : s₀.KeepsWith R s) {p n} : s₀.KeepsWith R (s.countMarker p n).1 := .modPort (.incFld h)
theorem State.KeepsWith.markerError (h : s₀.KeepsWith R s) {p n} : s₀.KeepsWith R (s.markerError p n) :=
  .ite (.laneFailed (.countMarker h)) (.countMarker h)
theorem State.KeepsWith.markerGood (h : s₀.KeepsWith R s) {p n} : s₀.KeepsWith R (s.markerGood p n) := .modPort h

theorem State.KeepsNext.capabilityMarkerReceived (h : s₀.Keeps s) {p marker} : s₀.KeepsNext (execCapabilityMarkerReceived p marker
    s) := by
  unfold execCapabilityMarkerReceived
  extract_lets _ _ _ _ s1 _ _ _ _ _ s2 s3 s4
  have h1 : s₀.Keeps s1 := .markerGood h
  have h2 : s₀.Keeps s2 := .modPort h1
  have h3 : s₀.Keeps s3 := .setFld (.setFld (.unmeasured (.laneCal h2)))
  have h4 : s₀.Keeps s4 := .setFld h3
  exact .next (.ite (.bypass h) (.ite h (.ite (.markerError h) (.ite (.ite (.post h4) h4) h1))))

theorem State.KeepsNext.alignmentMarkerReceived (h : s₀.Keeps s) {p lane m} : s₀.KeepsNext (execAlignmentMarkerReceived p lane m
    s) := by
  unfold execAlignmentMarkerReceived
  extract_lets _ s1 _ s2 s3 s4 _ s5
  have h1 : s₀.Keeps s1 := .markerGood h
  have h2 : s₀.Keeps s2 := .ite (.modPort (.setFld h1)) h1
  have h3 : s₀.Keeps s3 := .ite (.setFld h2) h2
  have h4 : s₀.Keeps s4 := .setFld h3
  have h5 : s₀.Keeps s5 := .setFld (.setFld h4)
  exact .next (.ite (.bypass h) (.ite h (.ite (.markerError h) (.ite h1 (.ite (.markerFields h5) h5)))))

theorem State.KeepsNext.markerMissing (h : s₀.Keeps s) {p lane} : s₀.KeepsNext (execMarkerMissing p lane s) :=
  .next (.ite (.markerError h) h)

/-! ### The link protocol -/

theorem State.KeepsWith.countFec (h : s₀.KeepsWith R s) {p fs} : s₀.KeepsWith R (s.countFec p fs) :=
  .modPort (.foldl h fun _ _ ht => .incFld (.incFld ht))
theorem State.KeepsWith.bypassLanes (h : s₀.KeepsWith R s) {p ls} : s₀.KeepsWith R (s.bypassLanes p ls) :=
  .foldl h fun _ _ ht => .bypass ht

theorem State.KeepsWith.onFlit {go : State → List Byte → Bool → State} (h :
    s₀.KeepsWith R s) (hgo : ∀ t x0 x1, s₀.KeepsWith R t → s₀.KeepsWith R (go t
    x0 x1)) {p ls fs} : s₀.KeepsWith R (s.onFlit p ls fs go) := by
  unfold State.onFlit
  split
  · exact .bypassLanes h
  · exact hgo _ _ _ (.countFec h)
  · exact h

theorem State.KeepsWith.flitFailed (h : s₀.KeepsWith R s) {p} : s₀.KeepsWith R (s.flitFailed p) := .incFld h
theorem State.KeepsWith.replayFrom (h : s₀.KeepsWith R s) {p} : s₀.KeepsWith R (s.replayFrom p) := .foldl h fun _ _ ht => .txFlit ht
theorem State.KeepsWith.retryExhausted (h : s₀.KeepsWith R s) {p seq timeout} : s₀.KeepsWith R (s.retryExhausted p seq timeout) :=
  .leaveActive (.post h)
theorem State.KeepsWith.nakReceived (h : s₀.KeepsWith R s) {p n} : s₀.KeepsWith R (s.nakReceived p n) :=
  .ite (.retryExhausted (.incFld (.modPort h))) (.replayFrom (.incFld (.modPort h)))
theorem State.KeepsWith.flitNews (h : s₀.KeepsWith R s) {p f} : s₀.KeepsWith R (s.flitNews p f) :=
  .pump (.ite (.nakReceived (.modPort h)) (.modPort h))
theorem State.KeepsWith.takePayload (h : s₀.KeepsWith R s) {p f} : s₀.KeepsWith R (s.takePayload p f) := .add64 (.modPort h)
theorem State.KeepsWith.sendNak (h : s₀.KeepsWith R s) {p} : s₀.KeepsWith R (s.sendNak p) := .txIdle (.modPort h)
theorem State.KeepsWith.discardData (h : s₀.KeepsWith R s) {p} : s₀.KeepsWith R (s.discardData p) := .ite h (.sendNak (.modPort h))

theorem State.KeepsWith.dataFlit (h : s₀.KeepsWith R s) {p flit fecOk} : s₀.KeepsWith R (s.dataFlit p flit fecOk) := by
  unfold State.dataFlit
  extract_lets _ s1 s2 s3
  have h1 : s₀.KeepsWith R s1 := .flitFailed h
  have h2 : s₀.KeepsWith R s2 := .modPort h
  have h3 : s₀.KeepsWith R s3 := .flitNews (.takePayload h2)
  exact .ite (.ite (.discardData h1) h1) (.ite h (.ite (.flitNews h) (.ite (.ite (.txIdle h3) h3) (.flitNews (.discardData h)))))

theorem State.KeepsWith.idleFlitIn (h : s₀.KeepsWith R s) {p flit fecOk} : s₀.KeepsWith R (s.idleFlitIn p flit fecOk) :=
  .ite (.flitFailed h) (.ite h (.flitNews h))
theorem State.KeepsNext.dataFlitReceived (h : s₀.Keeps s) {p lanes fec} : s₀.KeepsNext (execDataFlitReceived p lanes fec s) :=
  .next (.onFlit h fun _ _ _ ht => .dataFlit ht)
theorem State.KeepsNext.idleFlitReceived (h : s₀.Keeps s) {p lanes fec} : s₀.KeepsNext (execIdleFlitReceived p lanes fec s) :=
  .next (.onFlit h fun _ _ _ ht => .idleFlitIn ht)
theorem State.KeepsNext.nakRepeatTimer (h : s₀.Keeps s) {p} : s₀.KeepsNext (execNakRepeatTimer p s) :=
  .next (.ite (.sendNak h) h)
theorem State.KeepsNext.ackTimer (h : s₀.Keeps s) {p} : s₀.KeepsNext (execAckTimer p s) := .next (.ite (.txIdle h) h)
theorem State.KeepsWith.sendInit (h : s₀.KeepsWith R s) {p} : s₀.KeepsWith R (s.sendInit p) := .txFlit h
theorem State.KeepsNext.initTimer (h : s₀.Keeps s) {p} : s₀.KeepsNext (execInitTimer p s) := .next (.ite (.sendInit h) h)

theorem State.KeepsNext.replayTimeout (h : s₀.Keeps s) {p} : s₀.KeepsNext (execReplayTimeout p s) := by
  unfold execReplayTimeout
  refine .next ?_
  dsimp only
  split
  · exact .retryExhausted h
  · exact h

theorem State.KeepsWith.freshStart (h : s₀.KeepsWith R s) {p f} : s₀.KeepsWith R (s.freshStart p f) :=
  .ite (.incFld (.setFld (.setFld (.modPort h)))) (.post (.incFld (.setFld (.setFld (.modPort h)))))
theorem State.KeepsWith.resumeLink (h : s₀.KeepsWith R s) {p f} : s₀.KeepsWith R (s.resumeLink p f) :=
  .replayFrom (.setFld (.modPort h))

theorem State.KeepsWith.noteInit (h : s₀.KeepsWith R s) {p f} : s₀.KeepsWith R (s.noteInit p f) := by
  unfold State.noteInit
  extract_lets _ _ _ _ _ _ _ _ s1 s2 s3 s4
  have h1 : s₀.KeepsWith R s1 := .setFld (.setFld (.setFld h))
  have h2 : s₀.KeepsWith R s2 := .setFld (.setFld (.setFld h1))
  have h3 : s₀.KeepsWith R s3 := .setFld h2
  have h4 : s₀.KeepsWith R s4 := .ite (.post (.setFld h3)) h3
  exact .ite (.post h4) h4

theorem State.KeepsWith.noteHeld (h : s₀.KeepsWith R s) {p f} : s₀.KeepsWith R (s.noteHeld p f) := .ite (.modPort h) h
theorem State.KeepsWith.startLink (h : s₀.KeepsWith R s) {p f} : s₀.KeepsWith R (s.startLink p f) :=
  .pump (.modPort (.ite (.resumeLink h) (.freshStart h)))

theorem State.KeepsWith.initFlit (h : s₀.KeepsWith R s) {p flit fecOk} : s₀.KeepsWith R (s.initFlit p flit fecOk) := by
  unfold State.initFlit
  extract_lets _ s1
  have h1 : s₀.KeepsWith R s1 := .noteInit h
  exact .ite (.flitFailed h) (.ite (.ite (.flitNews h) h) (.ite (.flitNews (.noteHeld h1)) (.startLink h1)))

theorem State.KeepsNext.initFlitReceived (h : s₀.Keeps s) {p lanes fec} : s₀.KeepsNext (execInitFlitReceived p lanes fec s) :=
  .next (.onFlit h fun _ _ _ ht => .initFlit ht)

/-! ### DRAM -/

theorem State.KeepsWith.poisonGran (h : s₀.KeepsWith R s) {g} : s₀.KeepsWith R (s.poisonGran g) :=
  .memory h (Memory.wf_mput _ · _)
theorem State.KeepsWith.putGran (h : s₀.KeepsWith R s) {g bs} : s₀.KeepsWith R (s.putGran g bs) :=
  .memory h (Memory.wf_mput _ · _)
theorem State.KeepsWith.putMasked (h : s₀.KeepsWith R s) {g mask bs} : s₀.KeepsWith R (s.putMasked g mask bs) :=
  .memory h (Memory.wf_mputMask _ · _ _)
theorem State.KeepsWith.modCourse (h : s₀.KeepsWith R s) {c f} : s₀.KeepsWith R (s.modCourse c f) := .upd h
theorem State.KeepsWith.modKeep (h : s₀.KeepsWith R s) {f} : s₀.KeepsWith R (s.modKeep f) := .upd h
theorem State.KeepsWith.writeCopies (h : s₀.KeepsWith R s) {f} : s₀.KeepsWith R (s.writeCopies f) :=
  .foldl h fun _ _ ht => .ite ht (.modCourse ht)
theorem State.KeepsWith.markDirty (h : s₀.KeepsWith R s) {page} : s₀.KeepsWith R (s.markDirty page) := .modKeep h

/-! ### The granule code and the correctable log -/

theorem State.KeepsWith.fillTests (h : s₀.KeepsWith R s) : s₀.KeepsWith R s.fillTests := .upd h

theorem State.KeepsWith.requestTest (h : s₀.KeepsWith R s) {kind target} : s₀.KeepsWith R (s.requestTest kind target) := by
  unfold State.requestTest
  extract_lets s1 _ _
  have h1 : s₀.KeepsWith R s1 := .foldl h fun _ _ ht => .ite (.setFld ht) ht
  exact .ite h1 (.post (.fillTests (.upd h1)))

theorem State.KeepsWith.corrected (h : s₀.KeepsWith R s) {g master syms scrub} : s₀.KeepsWith R (s.corrected g master syms scrub) :=
  by
  unfold State.corrected
  extract_lets _ s1 s2 _ s3 s4 s5 _
  have h1 : s₀.KeepsWith R s1 := .incFld (.add64 h)
  have h2 : s₀.KeepsWith R s2 := .incFld h1
  have h3 : s₀.KeepsWith R s3 := by
    unfold s3
    split
    · exact .setFld (.setFld (.incFld h1))
    · split
      · exact .setReg (.setReg (.setFld (.setFld (.setFld (.setFld (.setFld (.setFld (.setFld (.setReg h1)))))))))
      · exact .ite h2 (.post (.upd h2))
  have h4 : s₀.KeepsWith R s4 := by
    unfold s4
    split
    · exact .ite (.requestTest h3) h3
    · exact h3
  have h5 : s₀.KeepsWith R s5 := .ite (.foldl (.requestTest h4) fun _ _ ht => .ite (.requestTest ht) ht) h4
  exact .foldl h5 fun _ _ ht => .ite (.requestTest ht) ht

theorem State.KeepsWith.noteUe (h : s₀.KeepsWith R s) {g master misdir poisoned recovered} :
    s₀.KeepsWith R (s.noteUe g master misdir poisoned recovered) :=
  .setReg (.setReg h)

theorem State.KeepsWith.poisonUe (h : s₀.KeepsWith R s) {g} : s₀.KeepsWith R (s.poisonUe g) :=
  .post (.incFld (.poisonGran (.ite h (.markDirty h))))
theorem State.KeepsWith.postRecovered (h : s₀.KeepsWith R s) {g} : s₀.KeepsWith R (s.postRecovered g) :=
  .ite (.post (.upd h)) (.upd h)
theorem State.KeepsWith.ueCounted (h : s₀.KeepsWith R s) {g named} : s₀.KeepsWith R (s.ueCounted g named) :=
  .foldl (.requestTest (.incFld (.incFld h))) fun _ _ ht => .ite (.requestTest ht) ht

theorem State.KeepsWith.uncorrectable (h : s₀.KeepsWith R s) {g master named misdir clean} :
    s₀.KeepsWith R (s.uncorrectable g master named misdir clean).1 := by
  unfold State.uncorrectable
  extract_lets s1 _
  have h1 : s₀.KeepsWith R s1 := .ueCounted h
  exact .ite_fst (.noteUe h1) (.ite_fst (.noteUe (.ite h1 (.upd h1))) (.noteUe (.poisonUe h1)))

theorem State.KeepsWith.readGran (h : s₀.KeepsWith R s) {obs g master scrub clean} :
    s₀.KeepsWith R (s.readGran obs g master scrub clean).1 := by
  unfold State.readGran
  extract_lets l o r s1 s2 _
  have h1 : s₀.KeepsWith R s1 := .incFld (.incFld h)
  have h2 : s₀.KeepsWith R s2 := .ite (.post (.incFld h)) h
  refine .ite_fst ?_ (.ite_fst (.uncorrectable h2) ?_)
  · clear_value r
    dsimp only
    split
    · exact .noteUe (.postRecovered (.incFld h1))
    · exact .noteUe (.post (.incFld h1))
  · clear_value s2 l o
    split
    · exact h2
    · exact .ite h2 (.corrected h2)
    · exact .uncorrectable (.bump h2)
    · exact .bump (.bump h2)

theorem State.KeepsWith.finishRecovery (h : s₀.KeepsWith R s) {r slotOk} : s₀.KeepsWith R (s.finishRecovery r slotOk) := by
  unfold State.finishRecovery
  extract_lets g _ s1 v s2
  have h1 : s₀.KeepsWith R s1 := .upd h
  have h2 : s₀.KeepsWith R s2 := .noteUe (.postRecovered (.incFld h1))
  clear_value v
  split
  · exact .noteUe (.poisonUe h1)
  · clear_value g
    split
    · exact .putGran h2
    · exact .poisonGran h2

/-! ### Service levels -/

theorem State.KeepsWith.modMaster (h : s₀.KeepsWith R s) {m f} : s₀.KeepsWith R (s.modMaster m f) := .upd h
theorem State.KeepsWith.zeroMeters (h : s₀.KeepsWith R s) : s₀.KeepsWith R s.zeroMeters :=
  .foldl h fun _ _ ht => .ite (.modMaster ht) ht
theorem State.KeepsWith.updateScale (h : s₀.KeepsWith R s) : s₀.KeepsWith R s.updateScale :=
  .ite (.zeroMeters h) (.ite (.post (.upd (.zeroMeters h))) (.post (.upd (.zeroMeters h))))
theorem State.KeepsWith.limitShadow (h : s₀.KeepsWith R s) {f lo hi} : s₀.KeepsWith R (s.limitShadow f lo hi) := .setFld h

theorem State.KeepsWith.mtrApply (h : s₀.KeepsWith R s) : s₀.KeepsWith R s.mtrApply := by
  unfold State.mtrApply
  exact .foldl (.commitReg h) fun _ _ ht => .commitReg (.commitReg (.commitReg (.limitShadow (.limitShadow (.limitShadow ht)))))

theorem State.KeepsWith.mtrCommit (h : s₀.KeepsWith R s) : s₀.KeepsWith R s.mtrCommit := by
  unfold State.mtrCommit
  extract_lets _ _ s1
  have h1 : s₀.KeepsWith R s1 := .setFld (.setFld h)
  exact .ite (.post (.setFld h1)) (.updateScale (.mtrApply (.setFld h1)))

theorem State.KeepsNext.mtrCommit (h : s₀.Keeps s) {a v} : s₀.KeepsNext (execMtrCommit a v s) :=
  .next (.cfgWrite h fun _ ht => .ite (.mtrCommit ht) ht)
theorem State.KeepsWith.moved (h : s₀.KeepsWith R s) {m bytes} : s₀.KeepsWith R (s.moved m bytes) := .add64 (.modMaster h)
theorem State.KeepsNext.guaranteeMeterTick (h : s₀.Keeps s) : s₀.KeepsNext (execGuaranteeMeterTick s) :=
  .next (.foldl h fun _ _ ht => .modMaster ht)

theorem State.KeepsNext.guaranteeWindowEnd (h : s₀.Keeps s) : s₀.KeepsNext (execGuaranteeWindowEnd s) := by
  unfold execGuaranteeWindowEnd
  exact .next (.foldl h fun _ _ ht => .ite (.ite (.post (.incFld (.modMaster ht))) (.incFld (.modMaster ht))) (.modMaster ht))

theorem State.KeepsNext.throttleCapWindow (h : s₀.Keeps s) : s₀.KeepsNext (execThrottleCapWindow s) :=
  .next (.foldl h fun _ _ ht => .modTgt ht)
theorem State.KeepsNext.paceMeterWindow (h : s₀.Keeps s) {n count} : s₀.KeepsNext (execPaceMeterWindow n count s) :=
  .next (.ite (.post (.upd (.minFld (.setFld h)))) (.upd (.minFld (.setFld h))))

/-! ### Rows, and requests into mortar -/

theorem State.KeepsWith.modChan (h : s₀.KeepsWith R s) {c f} : s₀.KeepsWith R (s.modChan c f) := .upd h
theorem State.KeepsWith.modPc (h : s₀.KeepsWith R s) {c i f} : s₀.KeepsWith R (s.modPc c i f) := .modChan h
theorem State.KeepsWith.modBank (h : s₀.KeepsWith R s) {c i b f} : s₀.KeepsWith R (s.modBank c i b f) := .modPc h

theorem State.KeepsWith.closeRow (h : s₀.KeepsWith R s) {c pc i at_} : s₀.KeepsWith R (s.closeRow c pc i at_) := by
  unfold State.closeRow
  extract_lets _
  split
  · exact h
  · exact .modBank (.upd h)

theorem State.KeepsWith.noteTrr (h : s₀.KeepsWith R s) {c pc i row} : s₀.KeepsWith R (s.noteTrr c pc i row) :=
  .ite (.post (.modChan h)) h
theorem State.KeepsWith.busyBg (h : s₀.KeepsWith R s) {c g n} : s₀.KeepsWith R (s.busyBg c g n) := .upd h
theorem State.KeepsWith.busyAll (h : s₀.KeepsWith R s) {c n} : s₀.KeepsWith R (s.busyAll c n) := .foldl h fun _ _ ht => .busyBg ht
theorem State.KeepsWith.issueTrr (h : s₀.KeepsWith R s) {c pc i row} : s₀.KeepsWith R (s.issueTrr c pc i row) :=
  .noteTrr (.setReg (.incFld (.busyBg (.modPc (.modBank (.upd h))))))
theorem State.KeepsWith.issueAct (h : s₀.KeepsWith R s) {c pc i row} : s₀.KeepsWith R (s.issueAct c pc i row) :=
  .add64 (.busyBg (.modPc (.modBank h)))
theorem State.KeepsWith.countGran (h : s₀.KeepsWith R s) {write g} : s₀.KeepsWith R (s.countGran write g) := .add64 (.busyBg h)
theorem State.KeepsWith.spend (h : s₀.KeepsWith R s) {m c bytes} : s₀.KeepsWith R (s.spend m c bytes) := .ite h (.modTgt h)
theorem State.KeepsWith.issue (h : s₀.KeepsWith R s) {p k wasDirty} : s₀.KeepsWith R (s.issue p k wasDirty) :=
  .foldl (.modMaster (.upd h)) fun _ _ ht => .modTgt ht
theorem State.KeepsWith.follow (h : s₀.KeepsWith R s) {m a} : s₀.KeepsWith R (s.follow m a) :=
  .foldl (.modMaster (.upd h)) fun _ _ ht => .modTgt ht

theorem State.KeepsWith.serve (h : s₀.KeepsWith R s) {m n} : s₀.KeepsWith R (s.serve m n) := by
  induction n generalizing s with
  | zero => exact h
  | succ n ih =>
    unfold State.serve
    split
    · exact h
    · exact .ite h (ih (.follow (.modMaster h)))

theorem State.KeepsWith.serveAll (h : s₀.KeepsWith R s) {m} : s₀.KeepsWith R (s.serveAll m) := .serve h
theorem State.KeepsWith.ask (h : s₀.KeepsWith R s) {m op w us} : s₀.KeepsWith R (s.ask m op w us) := .serveAll (.modMaster h)
theorem State.KeepsWith.reservedMoves (h : s₀.KeepsWith R s) {bytes} : s₀.KeepsWith R (s.reservedMoves bytes) :=
  .foldl h fun _ _ ht => .ask ht
theorem State.KeepsWith.writeReserved (h : s₀.KeepsWith R s) {f} : s₀.KeepsWith R (s.writeReserved f) :=
  .foldl (.writeCopies h) fun _ _ ht => .ite ht (.reservedMoves ht)
theorem State.KeepsWith.writeWrap (h : s₀.KeepsWith R s) : s₀.KeepsWith R s.writeWrap := .writeReserved h

theorem State.KeepsWith.workBack (h : s₀.KeepsWith R s) {w n} : s₀.KeepsWith R (s.workBack w n) := by
  unfold State.workBack
  split
  · exact h
  · extract_lets s1 _ s2 s3
    have h1 : s₀.KeepsWith R s1 := .maxFld (.modMaster h)
    have h2 : s₀.KeepsWith R s2 := .upd h1
    have h3 : s₀.KeepsWith R s3 := by
      unfold s3
      refine .ite (.upd h1) ?_
      split
      · exact .ask h2
      · exact .ask h2
      · exact .ask h2
      · exact h2
    exact .serveAll h3

theorem State.KeepsWith.overtake (h : s₀.KeepsWith R s) {g mask bs} : s₀.KeepsWith R (s.overtake g mask bs) := .modBank h

/-! ### Lattice requests -/

theorem State.KeepsWith.transit (h : s₀.KeepsWith R s) {p k} : s₀.KeepsWith R (s.transit p k) := by
  unfold State.transit
  extract_lets s1
  have h1 : s₀.KeepsWith R s1 := .takeRx h
  refine .ite h (.ite (.waitRx h) (.ite (.discardOrRefuse (.takeRx h)) (.ite (.ite (.dropRoute h1) (.enqueue h1)) ?_)))
  split
  · exact h
  · exact .enqueue (.takeRx h)
  · exact .discardOrRefuse (.takeRx h)

theorem State.KeepsNext.packetTransit (h : s₀.Keeps s) {p k} : s₀.KeepsNext (execPacketTransit p k s) :=
  .next (.ite h (.transit h))

theorem State.KeepsNext.linkwaitExpiry (h : s₀.Keeps s) {p i} : s₀.KeepsNext (execLinkwaitExpiry p i s) := by
  unfold execLinkwaitExpiry
  extract_lets _ _ s1 s2
  have h1 : s₀.Keeps s1 := .modPort h
  have h2 : s₀.Keeps s2 := .incFld h1
  refine .next ?_
  split
  · exact h
  · extract_lets _ s3
    have h3 : s₀.Keeps s3 := .ite (.ite (.enqueue h2) (.injectRaw h2)) h2
    exact .ite h (.ite h3 (.post h3))

theorem State.KeepsWith.hopOn (h : s₀.KeepsWith R s) {p k} : s₀.KeepsWith R (s.hopOn p k) := by
  unfold State.hopOn
  extract_lets s1 _ _ s2
  have h1 : s₀.KeepsWith R s1 := .takeRx h
  have h2 : s₀.KeepsWith R s2 := .ite (.sendRsp h1) h1
  exact .ite (.waitRx h) (.ite (.dropRoute h2) (.enqueue h1))

theorem State.KeepsWith.dropLocal (h : s₀.KeepsWith R s) {p k} : s₀.KeepsWith R (s.dropLocal p k) := .incFld (.takeRx h)
theorem State.KeepsWith.discardHere (h : s₀.KeepsWith R s) {p k} : s₀.KeepsWith R (s.discardHere p k) :=
  .ite h (.ite (.hopOn h) (.ite (.transit h) (.dropLocal h)))
theorem State.KeepsNext.msgReceived (h : s₀.Keeps s) {p k} : s₀.KeepsNext (execMsgReceived p k s) := .next (.discardHere h)
theorem State.KeepsNext.reservedOpcPacket (h : s₀.Keeps s) {p k} : s₀.KeepsNext (execReservedOpcPacket p k s) :=
  .next (.discardHere h)
theorem State.KeepsWith.touchStart (h : s₀.KeepsWith R s) {page} : s₀.KeepsWith R (s.touchStart page) :=
  .ite h (.incFld (.modKeep h))

theorem State.KeepsWith.readGrans (h : s₀.KeepsWith R s) {m obs gs} : s₀.KeepsWith R (s.readGrans m obs gs).1 := by
  induction gs generalizing s with
  | nil => exact h
  | cons g gs ih =>
    unfold State.readGrans
    extract_lets r rest
    have hrest : s₀.KeepsWith R rest.1 := ih (.readGran (.countGran h))
    split <;> exact hrest

theorem State.KeepsWith.doRead (h : s₀.KeepsWith R s) {m k obs} : s₀.KeepsWith R (s.doRead m k obs).1 :=
  .ite_fst (.readGrans h) (.ite_fst (.readGrans h) (.readGrans h))

theorem State.KeepsWith.writeGran (h : s₀.KeepsWith R s) {m obs wasDirty g mask bs} :
    s₀.KeepsWith R (s.writeGran m obs wasDirty g mask
    bs).1 := by
  unfold State.writeGran
  extract_lets s1
  have h1 : s₀.KeepsWith R s1.1 := .readGran (.countGran h)
  refine .ite_fst h (.ite_fst h (.ite_fst (.countGran (.putGran h)) ?_))
  split
  · exact .countGran (.putMasked h1)
  · exact h1
  · exact h1

theorem State.KeepsWith.writeGrans (h : s₀.KeepsWith R s) {m k obs d gs} : s₀.KeepsWith R (s.writeGrans m k obs d gs).1 := by
  induction gs generalizing s with
  | nil => exact h
  | cons g gs ih => exact ih (.writeGran h)

theorem State.KeepsWith.doWrite (h : s₀.KeepsWith R s) {m k obs wasDirty} : s₀.KeepsWith R (s.doWrite m k obs wasDirty).1 :=
  .ite_fst (.writeGrans h) (.writeGrans h)

theorem State.KeepsWith.doAtomic (h : s₀.KeepsWith R s) {m k obs wasDirty} : s₀.KeepsWith R (s.doAtomic m k obs wasDirty).1 := by
  unfold State.doAtomic
  extract_lets _ _ _ _ s1
  have h1 : s₀.KeepsWith R s1.1 := .readGran (.countGran h)
  split
  · exact h1
  · exact h1
  · exact .ite_fst h1 (.ite (.putMasked h1) (.countGran (.putMasked h1)))

theorem State.KeepsWith.doReq (h : s₀.KeepsWith R s) {m k obs wasDirty} : s₀.KeepsWith R (s.doReq m k obs wasDirty).1 :=
  .ite_fst (.doRead h) (.ite_fst (.doWrite h) (.doAtomic h))
theorem State.KeepsWith.writeCelog (h : s₀.KeepsWith R s) {n v} : s₀.KeepsWith R (s.writeCelog n v) :=
  .ite (.upd (.writeAcc h)) (.writeAcc h)
theorem State.KeepsNext.celogEntryFree (h : s₀.Keeps s) {a n v} : s₀.KeepsNext (execCelogEntryFree a n v s) :=
  .next (.cfgWrite h fun _ ht => .writeCelog ht)

/-! ### The channel controllers -/

theorem State.KeepsWith.unitReturn (h : s₀.KeepsWith R s) {u data} : s₀.KeepsWith R (s.unitReturn u data) := by
  unfold State.unitReturn
  split
  · exact .workBack h
  · split
    · exact h
    · extract_lets s1 s2 _ _ s3 _ _
      have h1 : s₀.KeepsWith R s1 := .modMaster h
      have h2 : s₀.KeepsWith R s2 := .maxFld h1
      have h3 : s₀.KeepsWith R s3 := .upd h2
      exact .ite (.upd h2) (.ite (.answer h3) (.ite (.ite (.answer h3) (.answer h3)) (.ite (.answer h3) (.answer h3))))

theorem State.KeepsWith.toBank (h : s₀.KeepsWith R s) {c u} : s₀.KeepsWith R (s.toBank c u) :=
  .ite h (.ite (.unitReturn (.modBank (.modChan h))) (.modBank (.modChan h)))
theorem State.KeepsWith.fillBanks (h : s₀.KeepsWith R s) {c} : s₀.KeepsWith R (s.fillBanks c) := .foldl h fun _ _ ht => .toBank ht

theorem State.KeepsNext.channelRequestAccept (h : s₀.Keeps s) {c} : s₀.KeepsNext (execChannelRequestAccept c s) := by
  unfold execChannelRequestAccept
  extract_lets _
  refine .next ?_
  split
  · exact h
  · extract_lets _ s1 s2 s3 s4
    have h1 : s₀.Keeps s1 := .modTgt h
    have h2 : s₀.Keeps s2 := .modChan h1
    have h3 : s₀.Keeps s3 := .maxFld h2
    have h4 : s₀.Keeps s4 := .ite (.touchStart h3) h3
    exact .ite h (.fillBanks h4)

theorem State.KeepsWith.pickNext (h : s₀.KeepsWith R s) {t} : s₀.KeepsWith R (s.pickNext t) := by
  unfold State.pickNext
  dsimp only
  split <;> exact .modTgt h

theorem State.KeepsNext.mortarHeaderHandshake (h : s₀.Keeps s) {t} : s₀.KeepsNext (execMortarHeaderHandshake t s) := by
  unfold execMortarHeaderHandshake
  extract_lets _ _ first
  clear_value first
  refine .next (.ite h ?_)
  split
  · exact h
  · exact .pickNext (.modTgt (.ite h (.modTgt h)))

theorem State.KeepsWith.grant (h : s₀.KeepsWith R s) {t reqs w shield} : s₀.KeepsWith R (s.grant t reqs w shield) := .modTgt h

theorem State.KeepsWith.grantTo (h : s₀.KeepsWith R s) {t reqs among} : s₀.KeepsWith R (s.grantTo t reqs among) := by
  unfold State.grantTo
  dsimp only
  split
  · exact .grant h
  · exact .modTgt h

theorem State.KeepsWith.xferDone (h : s₀.KeepsWith R s) {t x2} : s₀.KeepsWith R (s.xferDone t x2) :=
  .ite (.unitReturn h) (.ite (.unitReturn h) (.fillBanks (.modChan h)))

theorem State.KeepsWith.beatOwner (h : s₀.KeepsWith R s) {t} : s₀.KeepsWith R (s.beatOwner t) := by
  unfold State.beatOwner
  dsimp only
  split
  · exact .grantTo h
  · exact .ite (.grantTo (.incFld (.modTgt h))) (.ite h (.grantTo h))

theorem State.KeepsWith.beatMoves (h : s₀.KeepsWith R s) {t o x3} : s₀.KeepsWith R (s.beatMoves t o x3) := by
  unfold State.beatMoves
  extract_lets _ s1 s2
  have h1 : s₀.KeepsWith R s1 := .modTgt h
  have h2 : s₀.KeepsWith R s2 := .ite (.add64 h1) (.moved (.ite (.spend h1) h1))
  exact .ite h2 (.xferDone (.modTgt h2))

theorem State.KeepsWith.beatEnds (h : s₀.KeepsWith R s) {t o} : s₀.KeepsWith R (s.beatEnds t o) := by
  unfold State.beatEnds
  extract_lets _ _ _ _ s1 _
  have h1 : s₀.KeepsWith R s1 := .ite (.modTgt h) h
  split
  · exact .grant h
  · exact .ite (.grantTo (.ite (.modTgt h1) h1)) h1

theorem State.KeepsNext.mortarDataBeat (h : s₀.Keeps s) {t} : s₀.KeepsNext (execMortarDataBeat t s) := by
  unfold execMortarDataBeat
  extract_lets s1 _
  have h1 : s₀.Keeps s1 := .beatOwner h
  refine .next ?_
  split
  · exact h1
  · split
    · exact .modTgt h1
    · exact .ite h1 (.beatEnds (.beatMoves h1))

theorem State.KeepsWith.setBand (h : s₀.KeepsWith R s) {d new est} : s₀.KeepsWith R (s.setBand d new est) :=
  .ite h (.foldl (.post (.foldl (.upd h) fun _ _ ht => .modChan ht)) fun _ _ ht => .ite ht (.post ht))
theorem State.KeepsNext.refreshDue (h : s₀.Keeps s) {c pc bank} : s₀.KeepsNext (execRefreshDue c pc bank s) :=
  .next (.ite h (.ite (.modBank h) (.incFld (.modBank h))))
theorem State.KeepsWith.coverRows (h : s₀.KeepsWith R s) {c pc i} : s₀.KeepsWith R (s.coverRows c pc i) :=
  .modBank (.foldl h fun _ _ ht => .upd ht)

theorem State.KeepsWith.issueRef (h : s₀.KeepsWith R s) {c pc i forced pulled} : s₀.KeepsWith R (s.issueRef c pc i forced pulled) :=
  by
  unfold State.issueRef
  extract_lets _ s1 s2 s3
  have h1 : s₀.KeepsWith R s1 := .modBank (.coverRows h)
  have h2 : s₀.KeepsWith R s2 := .add64 (.busyBg (.modPc h1))
  have h3 : s₀.KeepsWith R s3 := .ite (.incFld h2) h2
  exact .ite (.incFld h3) h3

theorem State.KeepsWith.switchLands (h : s₀.KeepsWith R s) {r} : s₀.KeepsWith R (s.switchLands r) := by
  unfold State.switchLands
  extract_lets _ _ _ s1 _ s2 _ s3
  have h1 : s₀.KeepsWith R s1 := .upd h
  have h2 : s₀.KeepsWith R s2 := .post h1
  have h3 : s₀.KeepsWith R s3 := .ite (.post h2) h2
  exact .ite (.post h1) (.ite (.ite (.updateScale (.post h3)) h3) (.updateScale (.post h1)))

theorem State.KeepsWith.issueRefAb (h : s₀.KeepsWith R s) {c pc} : s₀.KeepsWith R (s.issueRefAb c pc) :=
  .incFld (.modPc (.busyAll (.foldl h fun _ _ ht => .coverRows ht)))
theorem State.KeepsWith.readUnit (h : s₀.KeepsWith R s) {u obs} : s₀.KeepsWith R (s.readUnit u obs).1 := .readGrans h
theorem State.KeepsWith.writeUnit (h : s₀.KeepsWith R s) {u obs} : s₀.KeepsWith R (s.writeUnit u obs).1 :=
  .foldl_fst h fun _ _ ht => .writeGran ht

theorem State.KeepsWith.atomicUnit (h : s₀.KeepsWith R s) {u obs} : s₀.KeepsWith R (s.atomicUnit u obs).1 := by
  unfold State.atomicUnit
  split
  · exact h
  · extract_lets s1
    have h1 : s₀.KeepsWith R s1.1 := .doAtomic h
    split <;> exact h1

theorem State.KeepsWith.ownUnit (h : s₀.KeepsWith R s) {u} : s₀.KeepsWith R (s.ownUnit u) := .foldl h fun _ _ ht => .countGran ht

theorem State.KeepsWith.finishUnit (h : s₀.KeepsWith R s) {c pc i u obs} : s₀.KeepsWith R (s.finishUnit c pc i u obs) := by
  unfold State.finishUnit
  extract_lets s1 _ s2
  have h1 : s₀.KeepsWith R s1.1 := .ite_fst (.ownUnit h) (.ite_fst (.readUnit h) (.ite_fst (.writeUnit h) (.atomicUnit h)))
  have h2 : s₀.KeepsWith R s2 := .modBank h1
  exact .ite (.modBank h1) (.ite (.modTgt h2) (.ite h2 (.unitReturn h2)))

theorem State.KeepsWith.pagePolicy (h : s₀.KeepsWith R s) {c pc i} : s₀.KeepsWith R (s.pagePolicy c pc i) :=
  .ite h (.ite (.modBank h) (.modBank (.closeRow h)))
theorem State.KeepsWith.colMoves (h : s₀.KeepsWith R s) {c pc i w key} : s₀.KeepsWith R (s.colMoves c pc i w key) :=
  .modPc (.modBank (.add64 h))
theorem State.KeepsWith.issueCol (h : s₀.KeepsWith R s) {c pc i u obs} : s₀.KeepsWith R (s.issueCol c pc i u obs) :=
  .ite (.modBank (.colMoves h)) (.pagePolicy (.finishUnit (.modBank (.colMoves h))))

theorem State.KeepsWith.applyTracked (h : s₀.KeepsWith R s) {c} : s₀.KeepsWith R (s.applyTracked c) := by
  unfold State.applyTracked
  extract_lets s1 s2 _
  have h1 : s₀.KeepsWith R s1 := by
    unfold s1
    split
    · exact .setFld h
    · exact h
  have h2 : s₀.KeepsWith R s2 := by
    unfold s2
    split
    · exact .setReg h1
    · exact h1
  exact .upd h2

theorem State.KeepsWith.applyDly (h : s₀.KeepsWith R s) {c pc} : s₀.KeepsWith R (s.applyDly c pc) := by
  unfold State.applyDly
  extract_lets s1 _ _ _ s2
  have h1 : s₀.KeepsWith R s1 := .foldl h fun _ _ ht => .switchLands ht
  have h2 : s₀.KeepsWith R s2 := .foldl h1 fun _ _ ht => .ite (.setAct ht) ht
  exact .ite (.modPc h1) (.applyTracked (.modPc h2))

theorem State.KeepsWith.noteMisses (h : s₀.KeepsWith R s) {c ms} : s₀.KeepsWith R (s.noteMisses c ms) := by
  unfold State.noteMisses
  extract_lets s1 _ _ _ s2
  have h1 : s₀.KeepsWith R s1 := .foldl h fun _ _ ht => .incFld ht
  have h2 : s₀.KeepsWith R s2 := .modChan h1
  exact .ite (.post (.modChan h2)) h2

theorem State.KeepsWith.countMisses (h : s₀.KeepsWith R s) {c pc} : s₀.KeepsWith R (s.countMisses c pc) := by
  unfold State.countMisses
  extract_lets _ _ late _ s1 s2
  have h1 : s₀.KeepsWith R s1 := .modChan h
  have h2 : s₀.KeepsWith R s2 := .modPc h1
  clear_value late
  split
  · exact h
  · exact .noteMisses h2

theorem State.KeepsWith.startBursts (h : s₀.KeepsWith R s) {c pc} : s₀.KeepsWith R (s.startBursts c pc) :=
  .foldl h fun _ _ ht => .ite (.modBank ht) ht

theorem State.KeepsWith.issueCmd (h : s₀.KeepsWith R s) {c pc obs forced pulled i cmd} :
    s₀.KeepsWith R (s.issueCmd c pc obs forced pulled i cmd) := by
  unfold State.issueCmd
  dsimp only
  split
  · exact .modBank (.closeRow h)
  · exact .issueAct h
  · exact .issueCol h
  · split
    · exact .issueTrr h
    · exact .issueRef h
  · exact .issueRefAb h

theorem State.KeepsWith.setMode (h : s₀.KeepsWith R s) {c pc mode} : s₀.KeepsWith R (s.setMode c pc mode) :=
  .ite h (.ite (.modPc h) (.incFld (.modPc h)))

theorem State.KeepsWith.slotOpens (h : s₀.KeepsWith R s) {c pc} : s₀.KeepsWith R (s.slotOpens c pc) := by
  unfold State.slotOpens
  extract_lets _ s1 s2 _
  have h1 : s₀.KeepsWith R s1 := .ite (.applyDly h) h
  have h2 : s₀.KeepsWith R s2 := .countMisses (.fillBanks h1)
  clear_value s1 s2
  exact .startBursts (.setMode h2)

theorem State.KeepsWith.slotIssues (h : s₀.KeepsWith R s) {c pc obs} : s₀.KeepsWith R (s.slotIssues c pc obs) := by
  unfold State.slotIssues
  split
  · exact .issueCmd h
  · split
    · exact .issueCmd h
    · split
      · exact .issueCmd h
      · exact h

theorem State.KeepsNext.openRowIdleTimeout (h : s₀.Keeps s) {c pc bank} : s₀.KeepsNext (execOpenRowIdleTimeout c pc bank s) :=
  .next (.ite (.modBank (.closeRow h)) h)
theorem State.KeepsWith.slotAt (h : s₀.KeepsWith R s) {c pc t} : s₀.KeepsWith R (s.slotAt c pc t) := .modPc h
theorem State.KeepsWith.slotEnds (h : s₀.KeepsWith R s) {c pc} : s₀.KeepsWith R (s.slotEnds c pc) := .modPc h
theorem State.KeepsWith.preGo (h : s₀.KeepsWith R s) {c pc i} : s₀.KeepsWith R (s.preGo c pc i) :=
  .ite h (.slotEnds (.closeRow (.slotAt h)))

theorem State.KeepsWith.trrGo (h : s₀.KeepsWith R s) {c pc i} : s₀.KeepsWith R (s.trrGo c pc i) := by
  unfold State.trrGo
  split
  · exact h
  · exact .slotEnds (.issueTrr (.slotAt h))

theorem State.KeepsWith.refGo (h : s₀.KeepsWith R s) {c pc i} : s₀.KeepsWith R (s.refGo c pc i) := .slotEnds (.issueRef (.slotAt h))

theorem State.KeepsWith.refAbGo (h : s₀.KeepsWith R s) {c pc} : s₀.KeepsWith R (s.refAbGo c pc) := by
  unfold State.refAbGo
  extract_lets s1 _
  have h1 : s₀.KeepsWith R s1 := .slotEnds (.issueRefAb (.slotAt h))
  exact .ite (.applyDly (.slotAt h1)) h1

theorem State.KeepsWith.coverAll (h : s₀.KeepsWith R s) {c n} : s₀.KeepsWith R (s.coverAll c n) := .busyAll (.upd h)
theorem State.KeepsWith.closeAll (h : s₀.KeepsWith R s) {c} : s₀.KeepsWith R (s.closeAll c) :=
  .foldl h fun _ _ ht => .foldl ht fun _ _ hu => .trrGo (.preGo hu)
theorem State.KeepsWith.enterSref (h : s₀.KeepsWith R s) {c} : s₀.KeepsWith R (s.enterSref c) :=
  .incFld (.modChan (.foldl (.closeAll h) fun _ _ ht => .foldl ht fun _ _ hu => .refAbGo hu))
theorem State.KeepsWith.drained (h : s₀.KeepsWith R s) {c} : s₀.KeepsWith R (s.drained c) := .ite (.enterSref h) h
theorem State.KeepsWith.idleChannel (h : s₀.KeepsWith R s) {c} : s₀.KeepsWith R (s.idleChannel c) := .ite (.drained (.modChan h)) h
theorem State.KeepsWith.rowsClose (h : s₀.KeepsWith R s) {c} : s₀.KeepsWith R (s.rowsClose c) :=
  .foldl h fun _ _ ht => .foldl ht fun _ _ hu => .closeRow hu
theorem State.KeepsWith.idleFails (h : s₀.KeepsWith R s) {c} : s₀.KeepsWith R (s.idleFails c) := .post (.modChan (.rowsClose h))
theorem State.KeepsWith.slot (h : s₀.KeepsWith R s) {c pc obs} : s₀.KeepsWith R (s.slot c pc obs) :=
  .ite h (.drained (.slotEnds (.slotIssues (.slotOpens h))))
theorem State.KeepsWith.takeHold (h : s₀.KeepsWith R s) {c pc bank} : s₀.KeepsWith R (s.takeHold c pc bank) :=
  .modChan (.modBank (.foldl (.trrGo (.preGo h)) fun _ _ ht => .refGo ht))
theorem State.KeepsWith.exitSref (h : s₀.KeepsWith R s) {c} : s₀.KeepsWith R (s.exitSref c) := .incFld (.modChan (.coverAll h))
theorem State.KeepsWith.trained (h : s₀.KeepsWith R s) {c} : s₀.KeepsWith R (s.trained c) := .modChan (.exitSref h)
theorem State.KeepsNext.selfRefreshExit (h : s₀.Keeps s) {c} : s₀.KeepsNext (execSelfRefreshExit c s) :=
  .next (.ite (.exitSref h) h)
theorem State.KeepsWith.dlyCommit (h : s₀.KeepsWith R s) {c} : s₀.KeepsWith R (s.dlyCommit c) := .modChan h
theorem State.KeepsNext.mcDlyapply (h : s₀.Keeps s) {a c v} : s₀.KeepsNext (execMcDlyapply a c v s) :=
  .next (.cfgWrite h fun _ ht => .ite (.dlyCommit ht) ht)
theorem State.KeepsNext.dlyApplyPullinTimeout (h : s₀.Keeps s) {c pc} : s₀.KeepsNext (execDlyApplyPullinTimeout c pc s) :=
  .next (.ite (.modPc h) h)
theorem State.KeepsWith.openRow (h : s₀.KeepsWith R s) {c pc i row} : s₀.KeepsWith R (s.openRow c pc i row) :=
  .ite h (.slotEnds (.issueAct (.slotAt (.trrGo (.preGo (.ite (.modBank h) h))))))
theorem State.KeepsWith.colGo (h : s₀.KeepsWith R s) {c pc i w key} : s₀.KeepsWith R (s.colGo c pc i w key) :=
  .slotEnds (.colMoves (.slotAt h))

theorem State.KeepsWith.unitPasses (h : s₀.KeepsWith R s) {m w g n} : s₀.KeepsWith R (s.unitPasses m w g n) := by
  unfold State.unitPasses
  extract_lets _ _ _ s1 s2 s3 s4 _ s5
  have h1 : s₀.KeepsWith R s1 := .maxFld (.modChan (.modTgt h))
  have h2 : s₀.KeepsWith R s2 := .ite (.modBank h1) h1
  have h3 : s₀.KeepsWith R s3 := .openRow (.setMode h2)
  have h4 : s₀.KeepsWith R s4 := .foldl h3 fun _ _ ht => .colGo ht
  have h5 : s₀.KeepsWith R s5 := .ite (.noteMisses h4) h4
  exact .spend (.modBank (.pagePolicy h5))

/-! ### Requests at a master port -/

theorem State.KeepsWith.passes (h : s₀.KeepsWith R s) {p k} : s₀.KeepsWith R (s.passes p k) :=
  .moved (.foldl h fun _ _ ht => .unitPasses ht)
theorem State.KeepsWith.admitWrite (h : s₀.KeepsWith R s) {k} : s₀.KeepsWith R (s.admitWrite k).1 := .ite (.markDirty h) h

theorem State.KeepsWith.admitReq (h : s₀.KeepsWith R s) {p k obs} : s₀.KeepsWith R (s.admitReq p k obs) := by
  unfold State.admitReq
  extract_lets s1 s2
  have h1 : s₀.KeepsWith R s1.1 := .admitWrite h
  have h2 : s₀.KeepsWith R s2.1 := .doReq h1
  refine .ite ?_ (.issue h1)
  split
  · exact .issue h2
  · exact .answer (.passes h2)

theorem State.KeepsWith.park (h : s₀.KeepsWith R s) {p k} : s₀.KeepsWith R (s.park p k) := .modMaster h

theorem State.KeepsNext.masterPortAdmit (h : s₀.Keeps s) {m mgt} : s₀.KeepsNext (execMasterPortAdmit m mgt s) := by
  unfold execMasterPortAdmit
  extract_lets _ s1
  have h1 : s₀.Keeps s1 := .modMaster h
  refine .next ?_
  split
  · exact .serveAll h
  · exact .ite h (.issue (.admitWrite (.takeRx h1)))

theorem State.KeepsWith.memReq (h : s₀.KeepsWith R s) {p k obs} : s₀.KeepsWith R (s.memReq p k obs) := by
  unfold State.memReq
  extract_lets s1
  have h1 : s₀.KeepsWith R s1 := .takeRx h
  exact .ite h (.ite (.hopOn h) (.ite (.answer (.takeRx h)) (.ite (.transit h) (.ite (.answer h1) (.ite (.answer h1) (.ite
    (.answer h1) (.ite (.answer h1) (.ite (.park h) (.admitReq h1)))))))))

theorem State.KeepsNext.rd (h : s₀.Keeps s) {p k obs} : s₀.KeepsNext (execRd p k obs s) := .next (.memReq h)
theorem State.KeepsNext.wr (h : s₀.Keeps s) {p k obs} : s₀.KeepsNext (execWr p k obs s) := .next (.memReq h)
theorem State.KeepsNext.fadd (h : s₀.Keeps s) {p k obs} : s₀.KeepsNext (execFadd p k obs s) := .next (.memReq h)
theorem State.KeepsNext.cas64 (h : s₀.Keeps s) {p k obs} : s₀.KeepsNext (execCas64 p k obs s) := .next (.memReq h)
theorem State.KeepsNext.cas128 (h : s₀.Keeps s) {p k obs} : s₀.KeepsNext (execCas128 p k obs s) := .next (.memReq h)

/-! ### Work queues -/

theorem State.KeepsWith.selfReq (h : s₀.KeepsWith R s) {m k} : s₀.KeepsWith R (s.selfReq m k) :=
  .ite (.answer h) (.ite (.answer h) (.ite (.answer h) (.ite (.answer h) (.ite (.park h) (.admitReq h)))))

theorem State.KeepsWith.injectReq (h : s₀.KeepsWith R s) {m k} : s₀.KeepsWith R (s.injectReq m k) := by
  unfold State.injectReq
  refine .ite ?_ h
  split
  · exact .selfReq h
  · exact .enqueue h
  · exact .dropRoute (.injectRaw h)

theorem State.KeepsWith.sendReq (h : s₀.KeepsWith R s) {m opc dest addr len mgt masked payload off o} :
    s₀.KeepsWith R (s.sendReq m opc dest addr len mgt masked payload off o) :=
  .injectReq (.upd h)

theorem State.KeepsWith.resend (h : s₀.KeepsWith R s) {o} : s₀.KeepsWith R (s.resend o) := .injectReq (.upd h)
theorem State.KeepsWith.modQueue (h : s₀.KeepsWith R s) {q f} : s₀.KeepsWith R (s.modQueue q f) := .upd h
theorem State.KeepsWith.settle (h : s₀.KeepsWith R s) {q} : s₀.KeepsWith R (s.settle q) := .ite (.modQueue h) h
theorem State.KeepsWith.activateQ (h : s₀.KeepsWith R s) {q} : s₀.KeepsWith R (s.activateQ q) := .setReg (.setReg (.modQueue h))

theorem State.KeepsWith.writeCfg (h : s₀.KeepsWith R s) {q v} : s₀.KeepsWith R (s.writeCfg q v) := by
  unfold State.writeCfg
  extract_lets _ _ _ _ s1 s2
  have h1 : s₀.KeepsWith R s1 := .writeAcc h
  have h2 : s₀.KeepsWith R s2 := .setFld h
  split
  · exact .ite (.activateQ h1) h1
  · exact .ite h2 (.settle (.modQueue (.setFld h2)))
  · exact .setFld h
  · exact .ite h2 (.settle (.modQueue (.setFld h2)))

theorem State.KeepsNext.wqEnable (h : s₀.Keeps s) {a q v} : s₀.KeepsNext (execWqEnable a q v s) :=
  .next (.cfgWrite h fun _ ht => .writeCfg ht)
theorem State.KeepsNext.wqDisable (h : s₀.Keeps s) {a q v} : s₀.KeepsNext (execWqDisable a q v s) :=
  .next (.cfgWrite h fun _ ht => .writeCfg ht)
theorem State.KeepsWith.writeBase (h : s₀.KeepsWith R s) {q a v} : s₀.KeepsWith R (s.writeBase q a v) := .ite (.writeAcc h) h
theorem State.KeepsWith.doorbell (h : s₀.KeepsWith R s) {a q f n v ok} : s₀.KeepsWith R (s.doorbell a q f n v ok) :=
  .ite (.incFld h) (.ite h (.ite (.setFld h) (.bump (.setFld h))))
theorem State.KeepsWith.sqBell (h : s₀.KeepsWith R s) {a q v} : s₀.KeepsWith R (s.sqBell a q v) := .doorbell h
theorem State.KeepsWith.cqBell (h : s₀.KeepsWith R s) {a q v} : s₀.KeepsWith R (s.cqBell a q v) := .doorbell h
theorem State.KeepsNext.sqDoorbell (h : s₀.Keeps s) {a q v} : s₀.KeepsNext (execSqDoorbell a q v s) :=
  .next (.cfgWrite h fun _ ht => .sqBell ht)
theorem State.KeepsNext.cqDoorbell (h : s₀.Keeps s) {a q v} : s₀.KeepsNext (execCqDoorbell a q v s) :=
  .next (.cfgWrite h fun _ ht => .cqBell ht)
theorem State.KeepsNext.descriptorFetchStart (h : s₀.Keeps s) {q} : s₀.KeepsNext (execDescriptorFetchStart q s) :=
  .next (.ite h (.sendReq (.modQueue h)))
theorem State.KeepsWith.queueError (h : s₀.KeepsWith R s) {q code} : s₀.KeepsWith R (s.queueError q code) :=
  .settle (.modQueue (.setFld h))
theorem State.KeepsWith.fetchDone (h : s₀.KeepsWith R s) {q gen status data} : s₀.KeepsWith R (s.fetchDone q gen status data) :=
  .ite h (.ite h (.ite (.queueError h) (.ite (.modQueue h) (.modQueue h))))
theorem State.KeepsWith.sendCplMsg (h : s₀.KeepsWith R s) {q} : s₀.KeepsWith R (s.sendCplMsg q) := .injectRaw (.modQueue h)

theorem State.KeepsWith.writeEntry (h : s₀.KeepsWith R s) {q cid status opc result now} :
    s₀.KeepsWith R (s.writeEntry q cid status opc result now) := by
  unfold State.writeEntry
  extract_lets _ _ _ _ _ _ _ _ s1 s2 s3
  have h1 : s₀.KeepsWith R s1 := .modQueue h
  have h2 : s₀.KeepsWith R s2 := .sendReq h1
  have h3 : s₀.KeepsWith R s3 := .modQueue h2
  exact .ite (.ite (.sendCplMsg h3) h3) h2

theorem State.KeepsWith.complete (h : s₀.KeepsWith R s) {o status result} : s₀.KeepsWith R (s.complete o status result) :=
  .ite h (.settle (.ite (.writeEntry (.modQueue h)) (.modQueue h)))
theorem State.KeepsNext.completionMsgTimer (h : s₀.Keeps s) {q} : s₀.KeepsNext (execCompletionMsgTimer q s) :=
  .next (.ite (.sendCplMsg h) h)
theorem State.KeepsWith.resetQueues (h : s₀.KeepsWith R s) : s₀.KeepsWith R s.resetQueues := .upd (.resetRange h)
theorem State.KeepsWith.writeGctl (h : s₀.KeepsWith R s) {v} : s₀.KeepsWith R (s.writeGctl v) := .writeAcc h

/-! ### The chisel -/

theorem State.KeepsWith.modJob (h : s₀.KeepsWith R s) {n f} : s₀.KeepsWith R (s.modJob n f) := .upd h
theorem State.KeepsWith.scrambleGran (h : s₀.KeepsWith R s) {lo hi g} : s₀.KeepsWith R (s.scrambleGran lo hi g) :=
  .ite h (.bump (.ite (.putGran (.markDirty (.overtake h))) (.putMasked (.markDirty (.overtake h)))))
theorem State.KeepsWith.scramble (h : s₀.KeepsWith R s) {lo hi} : s₀.KeepsWith R (s.scramble lo hi) :=
  .foldl h fun _ _ ht => .scrambleGran ht
theorem State.KeepsWith.hostError (h : s₀.KeepsWith R s) {o ranges} : s₀.KeepsWith R (s.hostError o ranges) :=
  .complete (.bump (.bump (.foldl h fun _ _ ht => .ite ht (.scramble ht))))
theorem State.KeepsWith.finishJob (h : s₀.KeepsWith R s) {n status result cause} :
    s₀.KeepsWith R (s.finishJob n status result cause) :=
  .modJob (.upd h)
theorem State.KeepsWith.dropFlight (h : s₀.KeepsWith R s) {n} : s₀.KeepsWith R (s.dropFlight n) := .modJob h

theorem State.KeepsWith.finishRun (h : s₀.KeepsWith R s) {n} : s₀.KeepsWith R (s.finishRun n) := by
  unfold State.finishRun
  dsimp only
  split
  · exact .finishJob h
  · split
    · exact .finishJob h
    · exact .ite (.finishJob h) (.finishJob h)

theorem State.KeepsWith.finishCopy (h : s₀.KeepsWith R s) {n} : s₀.KeepsWith R (s.finishCopy n) := .finishJob h

theorem State.KeepsWith.startRun (h : s₀.KeepsWith R s) {n o} : s₀.KeepsWith R (s.startRun n o) := by
  unfold State.startRun
  extract_lets s1 s2
  have h1 : s₀.KeepsWith R s1 := .modJob h
  have h2 : s₀.KeepsWith R s2 := .modJob h1
  exact .ite (.hostError h) (.ite (.sendReq h1) (.ite h2 (.ask h2)))

theorem State.KeepsWith.startCopy (h : s₀.KeepsWith R s) {n o} : s₀.KeepsWith R (s.startCopy n o) :=
  .ite (.hostError h) (.ite (.finishCopy (.modJob h)) (.modJob h))
theorem State.KeepsWith.programHeader (h : s₀.KeepsWith R s) {n data} : s₀.KeepsWith R (s.programHeader n data) :=
  .foldl h fun _ _ ht => .sendReq ht

theorem State.KeepsWith.readRange (h : s₀.KeepsWith R s) {obs n g} : s₀.KeepsWith R (s.readRange obs n g).1 := by
  induction n generalizing s g with
  | zero => exact h
  | succ n ih =>
    unfold State.readRange
    refine .ite_fst h (.ite_fst (.touchStart h) (.ite_fst h ?_))
    dsimp only
    split
    · exact ih (.readGran h)
    · exact .readGran h
    · exact .readGran h

theorem State.KeepsWith.programLoaded (h : s₀.KeepsWith R s) {n g} : s₀.KeepsWith R (s.programLoaded n g) :=
  .ite (.modJob (.hostError h)) (.modJob (.upd h))

theorem State.KeepsWith.programRead (h : s₀.KeepsWith R s) {n obs} : s₀.KeepsWith R (s.programRead n obs) := by
  unfold State.programRead
  extract_lets _ _ _ _ s1 _
  have h1 : s₀.KeepsWith R s1.1 := .readRange h
  split
  · exact .finishJob (.modJob h1)
  · exact .ask (.modJob h1)
  · exact .ite (.ask (.modJob h1)) (.programLoaded h1)

theorem State.KeepsNext.programReadDone (h : s₀.Keeps s) {n remote ok obs} : s₀.KeepsNext (execProgramReadDone n remote ok obs s)
    :=
  .next (.ite h (.ite (.finishJob h) (.ite (.ite (.finishJob h) (.programLoaded h)) (.ite h (.programRead h)))))

theorem State.KeepsNext.jobAdmit (h : s₀.Keeps s) : s₀.KeepsNext (execJobAdmit s) := by
  unfold execJobAdmit
  extract_lets _
  refine .next ?_
  split
  · exact h
  · exact .ite h (.ite (.finishRun (.modJob (.maxFld (.modJob h)))) (.maxFld (.modJob h)))

theorem State.KeepsWith.m4Write (h : s₀.KeepsWith R s) {n g bs} : s₀.KeepsWith R (s.m4Write n g bs).1 := by
  unfold State.m4Write
  extract_lets s1 s2
  have h1 : s₀.KeepsWith R s1 := .markDirty h
  have h2 : s₀.KeepsWith R s2 := .add64 (.ask (.overtake h1))
  refine .ite_fst h (.ite_fst h1 ?_)
  split
  · exact .putGran h2
  · exact .poisonGran h2

theorem State.KeepsWith.m4Hold (h : s₀.KeepsWith R s) {n g} : s₀.KeepsWith R (s.m4Hold n g) := .modJob (.ite (.touchStart h) h)
theorem State.KeepsWith.jobFail (h : s₀.KeepsWith R s) {n gran spill} : s₀.KeepsWith R (s.jobFail n gran spill) := .modJob h

theorem State.KeepsWith.flushTo (h : s₀.KeepsWith R s) {n b spill fuel at_ bs} :
    s₀.KeepsWith R (s.flushTo n b spill fuel at_ bs).1 := by
  induction fuel generalizing s at_ bs with
  | zero => exact h
  | succ fuel ih =>
    unfold State.flushTo
    refine .ite_fst h (.ite_fst (ih (.add64 (.sendReq h))) (.ite_fst (ih ?_) (.m4Hold h)))
    exact .ite (.m4Write h) (.jobFail (.m4Write h))

theorem State.KeepsWith.flushJob (h : s₀.KeepsWith R s) {n} : s₀.KeepsWith R (s.flushJob n) :=
  .ite h (.modJob (.flushTo (.modJob (.flushTo (.modJob h)))))
theorem State.KeepsWith.sliceGoes (h : s₀.KeepsWith R s) {n f} : s₀.KeepsWith R (s.sliceGoes n f) := .ite h (.ite h (.ask h))

theorem State.KeepsWith.nextSlice (h : s₀.KeepsWith R s) : s₀.KeepsWith R s.nextSlice := by
  unfold State.nextSlice
  extract_lets _ _ _ _
  split
  · exact h
  · split
    · exact h
    · exact .incFld (.sliceGoes (.modJob (.upd h)))

theorem State.KeepsWith.remoteReads (h : s₀.KeepsWith R s) {n} : s₀.KeepsWith R (s.remoteReads n) := by
  unfold State.remoteReads
  refine .ite ?_ h
  split
  · exact h
  · exact .sendReq (.modJob h)

theorem State.KeepsNext.sliceIssue (h : s₀.Keeps s) : s₀.KeepsNext (execSliceIssue s) :=
  .next (.ite h (.foldl (.ite (.nextSlice h) h) fun _ _ ht => .remoteReads ht))

theorem State.KeepsWith.copyGran (h : s₀.KeepsWith R s) {n k bs} : s₀.KeepsWith R (s.copyGran n k bs) := by
  unfold State.copyGran
  extract_lets _ s1 s2
  have h1 : s₀.KeepsWith R s1 := by
    unfold s1
    split
    · exact h
    · exact .incFld (.modJob h)
  have h2 : s₀.KeepsWith R s2.1 := .m4Write h1
  refine .ite ?_ (.modJob h2)
  split
  · exact .modJob h1
  · exact .add64 (.sendReq h1)

theorem State.KeepsWith.copyEnd (h : s₀.KeepsWith R s) {n} : s₀.KeepsWith R (s.copyEnd n) := .ite (.modJob h) h

theorem State.KeepsWith.sliceRead (h : s₀.KeepsWith R s) {n x2 g obs} : s₀.KeepsWith R (s.sliceRead n x2 g obs).1 := by
  unfold State.sliceRead
  extract_lets s1
  have h1 : s₀.KeepsWith R s1.1 := .readGran h
  refine .ite_fst (.touchStart h) (.ite_fst h ?_)
  split
  · exact h1
  · exact .modJob (.add64 h1)

theorem State.KeepsWith.sliceGran (h : s₀.KeepsWith R s) {n x obs} : s₀.KeepsWith R (s.sliceGran n x obs).1 := by
  have copied {t : State} {m y d} (ht : s₀.KeepsWith R t) : s₀.KeepsWith R (t.copyGran m y d, true).1 := .copyGran ht
  unfold State.sliceGran
  extract_lets _ _ _ r _
  have hr : s₀.KeepsWith R r.1 := .ite_fst h (.sliceRead h)
  exact .ite_fst h (.ite_fst h (.ite_fst hr (.ite_fst (.m4Hold hr) (.ite_fst (copied hr) (copied (.modJob hr))))))

theorem State.KeepsWith.copyArrive (h : s₀.KeepsWith R s) {n k0 bs} : s₀.KeepsWith R (s.copyArrive n k0 bs) :=
  .copyEnd (.add64 (.foldl h fun _ _ ht => .ite ht (.ite (.copyGran ht) (.modJob (.m4Hold ht)))))

theorem State.KeepsNext.sliceDataArrive (h : s₀.Keeps s) {n c obs} : s₀.KeepsNext (execSliceDataArrive n c obs s) := by
  unfold execSliceDataArrive
  refine .next ?_
  split
  · exact h
  · extract_lets s1 s2
    have h1 : s₀.Keeps s1.1 := .foldl_fst (.modJob h) fun _ _ ht => .sliceGran ht
    have h2 : s₀.Keeps s2 := .modJob h1
    exact .ite h (.copyEnd (.ite h2 (.sliceGoes h2)))

theorem State.KeepsWith.scanEnd (h : s₀.KeepsWith R s) {n} : s₀.KeepsWith R (s.scanEnd n) := .flushJob (.modJob (.dropFlight h))

theorem State.KeepsNext.chiselCycle (h : s₀.Keeps s) {n} : s₀.KeepsNext (execChiselCycle n s) := by
  unfold execChiselCycle
  extract_lets _ _ s1 s2 s3
  have h1 : s₀.Keeps s1 := .add64 (.modJob h)
  have h2 : s₀.Keeps s2 := .incFld h1
  have h3 : s₀.Keeps s3 := .flushJob h2
  exact .next (.ite h (.ite (.scanEnd h3) h3))

theorem State.KeepsNext.groupSortDone (h : s₀.Keeps s) {n} : s₀.KeepsNext (execGroupSortDone n s) :=
  .next (.ite (.flushJob (.modJob h)) h)

theorem State.KeepsNext.outputWritesAnswered (h : s₀.Keeps s) {n ok gran spill} : s₀.KeepsNext (execOutputWritesAnswered n ok gran
    spill s) := by
  unfold execOutputWritesAnswered
  extract_lets s1 s2 _ _
  have h1 : s₀.Keeps s1 := .ite (.flushJob h) h
  have h2 : s₀.Keeps s2 := .ite h1 (.jobFail h1)
  exact .next (.ite h2 (.ite (.finishRun h2) (.finishCopy h2)))

theorem State.KeepsWith.orphan (h : s₀.KeepsWith R s) {n} : s₀.KeepsWith R (s.orphan n) := .upd h
theorem State.KeepsNext.jobCompletionSent (h : s₀.Keeps s) {n} : s₀.KeepsNext (execJobCompletionSent n s) :=
  .next (.ite h (.modJob (.orphan (.upd (.incFld (.complete h))))))
theorem State.KeepsNext.chiselPaceWindow (h : s₀.Keeps s) {count} : s₀.KeepsNext (execChiselPaceWindow count s) :=
  .next (.ite (.post (.upd (.minFld (.setFld h)))) (.upd (.minFld (.setFld h))))
theorem State.KeepsWith.dropJobReqs (h : s₀.KeepsWith R s) : s₀.KeepsWith R s.dropJobReqs := .upd h
theorem State.KeepsWith.abandonJobs (h : s₀.KeepsWith R s) : s₀.KeepsWith R s.abandonJobs :=
  .upd (.dropJobReqs (.foldl h fun _ _ ht => .dropFlight ht))

theorem State.KeepsWith.abortJobs (h : s₀.KeepsWith R s) : s₀.KeepsWith R s.abortJobs := by
  unfold State.abortJobs
  extract_lets s1 s2 _
  have h1 : s₀.KeepsWith R s1 := .foldl h fun _ _ ht => .ite ht (.upd (.incFld (.complete (.ite (.modJob ht) (.finishJob (.dropFlight
    ht))))))
  have h2 : s₀.KeepsWith R s2 := .dropJobReqs h1
  exact .upd h2

theorem State.KeepsWith.thermalJobs (h : s₀.KeepsWith R s) {pos} : s₀.KeepsWith R (s.thermalJobs pos) := by
  unfold State.thermalJobs
  extract_lets _ s1
  have h1 : s₀.KeepsWith R s1 := .foldl h fun _ _ ht => .finishJob (.dropFlight ht)
  exact .ite h1 (.post h1)

/-! ### The keep -/

theorem State.KeepsWith.takeSpare (h : s₀.KeepsWith R s) {k data} : s₀.KeepsWith R (s.takeSpare k data) :=
  .ite (.post (.post (.modCourse h))) (.post (.modCourse h))
theorem State.KeepsWith.retireSlot (h : s₀.KeepsWith R s) {k slot} : s₀.KeepsWith R (s.retireSlot k slot) :=
  .takeSpare (.modCourse h)
theorem State.KeepsWith.retireMeta (h : s₀.KeepsWith R s) {k n} : s₀.KeepsWith R (s.retireMeta k n) :=
  .foldl h fun _ _ ht => .takeSpare (.bump ht)
theorem State.KeepsWith.mapWritten (h : s₀.KeepsWith R s) {k copy} : s₀.KeepsWith R (s.mapWritten k copy) :=
  .retireMeta (.modCourse h)
theorem State.KeepsWith.wearWritten (h : s₀.KeepsWith R s) {k} : s₀.KeepsWith R (s.wearWritten k) := .retireMeta (.modCourse h)
theorem State.KeepsWith.ringWritten (h : s₀.KeepsWith R s) {k pages} : s₀.KeepsWith R (s.ringWritten k pages) :=
  .retireMeta (.modCourse h)

theorem State.KeepsWith.moverGran (h : s₀.KeepsWith R s) {obs g} : s₀.KeepsWith R (s.moverGran obs g).1 := by
  unfold State.moverGran
  extract_lets _ _ _ s1 _
  have h1 : s₀.KeepsWith R s1 := .ite (.post (.incFld h)) h
  refine .ite_fst h (.ite_fst (.noteUe (.ueCounted h1)) ?_)
  split
  · exact h1
  · exact .ite h1 (.corrected h1)
  · exact .noteUe (.ueCounted (.bump h1))
  · exact .bump (.bump h1)

theorem State.KeepsWith.readPage (h : s₀.KeepsWith R s) {page obs} : s₀.KeepsWith R (s.readPage page obs).1 := by
  unfold State.readPage
  refine .foldl_fst h fun _ _ ht => ?_
  extract_lets _ s1
  have h1 : s₀.KeepsWith R s1.1 := by
    unfold s1
    split
    · exact ht
    · exact .moverGran ht
  split <;> exact h1

theorem State.KeepsWith.recAsked (h : s₀.KeepsWith R s) {k r} : s₀.KeepsWith R (s.recAsked k r) :=
  .ite h (.foldl h fun _ _ ht => .ask ht)
theorem State.KeepsWith.sealStart (h : s₀.KeepsWith R s) {kind label f} : s₀.KeepsWith R (s.sealStart kind label f) :=
  .recAsked (.recAsked (.modKeep h))
theorem State.KeepsWith.sealAsk (h : s₀.KeepsWith R s) {kind label f} : s₀.KeepsWith R (s.sealAsk kind label f) :=
  .ite h (.ite (.ite h (.modKeep h)) (.sealStart h))

theorem State.KeepsWith.sealNext (h : s₀.KeepsWith R s) : s₀.KeepsWith R s.sealNext := by
  unfold State.sealNext
  refine .ite h ?_
  dsimp only
  split
  · exact .sealStart (.modKeep h)
  · exact .modKeep h

theorem State.KeepsWith.copyStart (h : s₀.KeepsWith R s) {page obs} : s₀.KeepsWith R (s.copyStart page obs) := by
  unfold State.copyStart
  extract_lets _ _
  split
  · exact .ask (.modKeep (.readPage (.modKeep (.modCourse h))))
  · exact .ite h (.sealAsk h)
  · exact h

theorem State.KeepsWith.fillCourse (h : s₀.KeepsWith R s) {c pick n} : s₀.KeepsWith R (s.fillCourse c pick n) := by
  induction n generalizing s with
  | zero => exact h
  | succ n ih =>
    unfold State.fillCourse
    refine .ite ?_ h
    split
    · exact h
    · exact .ite (.copyStart h) (ih (.copyStart h))

theorem State.KeepsWith.cancelCopy (h : s₀.KeepsWith R s) {x1} : s₀.KeepsWith R (s.cancelCopy x1) := .modKeep (.modCourse h)
theorem State.KeepsWith.heatHold (h : s₀.KeepsWith R s) {k} : s₀.KeepsWith R (s.heatHold k) :=
  .ite (.foldl (.modCourse h) fun _ _ ht => .cancelCopy ht) h

theorem State.KeepsWith.moverFill (h : s₀.KeepsWith R s) : s₀.KeepsWith R s.moverFill := by
  unfold State.moverFill
  refine .foldl h fun _ _ ht => ?_
  extract_lets s1
  have h1 : s₀.KeepsWith R s1 := .heatHold ht
  refine .ite ht (.ite (.ite (.fillCourse h1) h1) ?_)
  split
  · exact .fillCourse ht
  · split
    · exact .fillCourse ht
    · exact ht

theorem State.KeepsWith.swapEntry (h : s₀.KeepsWith R s) {x1} : s₀.KeepsWith R (s.swapEntry x1) :=
  .ite (.retireSlot (.add64 (.modKeep (.modCourse h)))) (.add64 (.modKeep (.modCourse h)))
theorem State.KeepsWith.dropCopy (h : s₀.KeepsWith R s) {x1 ok} : s₀.KeepsWith R (s.dropCopy x1 ok) :=
  .ite (.retireSlot (.modKeep (.modCourse h))) (.modKeep (.modCourse h))
theorem State.KeepsWith.dropCopies (h : s₀.KeepsWith R s) {p} : s₀.KeepsWith R (s.dropCopies p) :=
  .foldl h fun _ _ ht => .ite (.cancelCopy ht) (.dropCopy ht)
theorem State.KeepsWith.abandonCopies (h : s₀.KeepsWith R s) : s₀.KeepsWith R s.abandonCopies :=
  .foldl (.modKeep h) fun _ _ ht => .cancelCopy ht

theorem State.KeepsNext.trickleCopyStart (h : s₀.Keeps s) {obs} : s₀.KeepsNext (execTrickleCopyStart obs s) := by
  unfold execTrickleCopyStart
  extract_lets s1 _ next
  have h1 : s₀.Keeps s1 := .ite (.modKeep h) h
  clear_value next
  refine .next (.ite h (.ite h1 ?_))
  split
  · exact h1
  · exact .copyStart (.modKeep h1)

theorem State.KeepsNext.sealTimer (h : s₀.Keeps s) : s₀.KeepsNext (execSealTimer s) := .next (.ite (.sealAsk h) h)
theorem State.KeepsWith.foldCheck (h : s₀.KeepsWith R s) : s₀.KeepsWith R s.foldCheck :=
  .ite h (.ite (.modKeep (.ite (.modKeep h) h)) (.ite (.modKeep h) h))
theorem State.KeepsWith.mapsWritten (h : s₀.KeepsWith R s) : s₀.KeepsWith R s.mapsWritten :=
  .foldl h fun _ _ ht => .ite ht (.mapWritten ht)
theorem State.KeepsWith.recsWritten (h : s₀.KeepsWith R s) {r0 r1} : s₀.KeepsWith R (s.recsWritten r0 r1) :=
  .foldl h fun _ _ ht => .ite ht (.ringWritten ht)
theorem State.KeepsNext.foldMapWritten (h : s₀.Keeps s) : s₀.KeepsNext (execFoldMapWritten s) :=
  .next (.ite h (.sealAsk (.mapsWritten (.modKeep h))))
theorem State.KeepsWith.armEnds (h : s₀.KeepsWith R s) {status} : s₀.KeepsWith R (s.armEnds status) :=
  .foldl (.modKeep h) fun _ _ ht => .complete ht
theorem State.KeepsWith.disarm (h : s₀.KeepsWith R s) {cause sev status} : s₀.KeepsWith R (s.disarm cause sev status) :=
  .ite h (.armEnds (.post (.modKeep h)))

theorem State.KeepsWith.ckptEnds (h : s₀.KeepsWith R s) {status result} : s₀.KeepsWith R (s.ckptEnds status result) := by
  unfold State.ckptEnds
  extract_lets s1 _
  have h1 : s₀.KeepsWith R s1 := .modKeep h
  split
  · exact h
  · exact .complete (.upd h1)

theorem State.KeepsWith.characEnds (h : s₀.KeepsWith R s) {status result} : s₀.KeepsWith R (s.characEnds status result) := by
  unfold State.characEnds
  extract_lets s1 _
  have h1 : s₀.KeepsWith R s1 := .modKeep h
  split
  · exact h
  · exact .complete (.upd h1)

theorem State.KeepsWith.ckptSealEnds (h : s₀.KeepsWith R s) {status} : s₀.KeepsWith R (s.ckptSealEnds status) :=
  .foldl (.modKeep h) fun _ _ ht => .complete (.upd ht)
theorem State.KeepsWith.moverOpsEnd (h : s₀.KeepsWith R s) {status} : s₀.KeepsWith R (s.moverOpsEnd status) :=
  .characEnds (.ckptSealEnds (.ckptEnds h))
theorem State.KeepsWith.fenceCourse (h : s₀.KeepsWith R s) {k} : s₀.KeepsWith R (s.fenceCourse k) :=
  .ite h (.moverOpsEnd (.disarm (.post (.post (.modKeep (.modCourse (.dropCopies h)))))))

theorem State.KeepsWith.energy (h : s₀.KeepsWith R s) : s₀.KeepsWith R s.energy := by
  unfold State.energy
  exact .modKeep h

theorem State.KeepsWith.armFollows (h : s₀.KeepsWith R s) : s₀.KeepsWith R s.armFollows := by
  unfold State.armFollows
  extract_lets _ s1
  have h1 : s₀.KeepsWith R s1 := .post h
  split
  · exact h
  · exact .ite (.armEnds (.modKeep h)) (.ite (.armEnds (.post (.modKeep h))) h)
  · exact .ite (.ite (.disarm h1) (.modKeep h1)) h
  · exact .ite (.modKeep h) h

theorem State.KeepsWith.belowCheck (h : s₀.KeepsWith R s) : s₀.KeepsWith R s.belowCheck :=
  .ite h (.ite (.post (.modKeep h)) (.modKeep h))

theorem State.KeepsWith.characDone (h : s₀.KeepsWith R s) {v2} : s₀.KeepsWith R (s.characDone v2) := by
  unfold State.characDone
  split
  · exact h
  · extract_lets _ _ s1 s2 s3
    have h1 : s₀.KeepsWith R s1 := .setFld (.setFld h)
    have h2 : s₀.KeepsWith R s2 := .post h1
    have h3 : s₀.KeepsWith R s3 := .ite (.post h2) h2
    exact .ite (.characEnds h) (.characEnds (.energy h3))

theorem State.KeepsNext.holdSenseSample (h : s₀.Keeps s) {uv} : s₀.KeepsNext (execHoldSenseSample uv s) := by
  unfold execHoldSenseSample
  extract_lets s1 s2 _
  have h1 : s₀.Keeps s1 := .modKeep h
  have h2 : s₀.Keeps s2 := .armFollows h1
  refine .next (.ite h ?_)
  split
  · exact h2
  · exact .ite (.characDone h2) h2

theorem State.KeepsNext.energyBudgetUpdate (h : s₀.Keeps s) : s₀.KeepsNext (execEnergyBudgetUpdate s) := by
  unfold execEnergyBudgetUpdate
  extract_lets s1
  have h1 : s₀.Keeps s1 := .belowCheck (.armFollows (.energy h))
  exact .next (.ite h (.ite (.incFld h1) h1))

theorem State.KeepsNext.characterizeEnd (h : s₀.Keeps s) {uv2} : s₀.KeepsNext (execCharacterizeEnd uv2 s) :=
  .next (.characDone h)
theorem State.KeepsWith.holdSetup (h : s₀.KeepsWith R s) : s₀.KeepsWith R s.holdSetup := .ite h (.armFollows h)
theorem State.KeepsWith.writeHoldcap (h : s₀.KeepsWith R s) {v} : s₀.KeepsWith R (s.writeHoldcap v) :=
  .holdSetup (.setReg (.setReg h))
theorem State.KeepsNext.keepHoldcapWrite (h : s₀.Keeps s) {a v} : s₀.KeepsNext (execKeepHoldcapWrite a v s) :=
  .next (.cfgWrite h fun _ ht => .writeHoldcap ht)
theorem State.KeepsWith.newEpoch (h : s₀.KeepsWith R s) : s₀.KeepsWith R s.newEpoch := .sealAsk (.writeWrap (.modKeep h))
theorem State.KeepsWith.keyLost (h : s₀.KeepsWith R s) : s₀.KeepsWith R s.keyLost := .moverOpsEnd (.disarm h)
theorem State.KeepsWith.dropKeys (h : s₀.KeepsWith R s) : s₀.KeepsWith R s.dropKeys := .keyLost (.modKeep h)

/-! ### The fuse array -/

theorem State.KeepsWith.setPend (h : s₀.KeepsWith R s) {ws} : s₀.KeepsWith R (s.setPend ws) := .foldl h fun _ _ ht => .setReg ht
theorem State.KeepsWith.noteFree (h : s₀.KeepsWith R s) : s₀.KeepsWith R s.noteFree := .setFld (.setFld (.setFld h))
theorem State.KeepsWith.trimImpedance (h : s₀.KeepsWith R s) {l ports} : s₀.KeepsWith R (s.trimImpedance l ports) :=
  .foldl (.setReg h) fun _ _ ht => .setReg ht
theorem State.KeepsWith.trimSense (h : s₀.KeepsWith R s) {l} : s₀.KeepsWith R (s.trimSense l) :=
  .foldl (.foldl h fun _ _ ht => .setReg ht) fun _ _ ht => .setReg ht
theorem State.KeepsWith.applyTrim (h : s₀.KeepsWith R s) {l} : s₀.KeepsWith R (s.applyTrim l) :=
  .upd (.foldl (.trimSense (.trimImpedance h)) fun _ _ ht => .setFld ht)

theorem State.KeepsWith.noteLoad (h : s₀.KeepsWith R s) {ls} : s₀.KeepsWith R (s.noteLoad ls) := by
  unfold State.noteLoad
  extract_lets _ _ _ s1 s2 s3 s4 s5
  have h1 : s₀.KeepsWith R s1 := .setFld (.setFld (.setFld (.setFld h)))
  have h2 : s₀.KeepsWith R s2 := .setFld (.setFld h1)
  have h3 : s₀.KeepsWith R s3 := .setFld h2
  have h4 : s₀.KeepsWith R s4 := .foldl h3 fun _ _ ht => .setReg ht
  have h5 : s₀.KeepsWith R s5 := .foldl h4 fun _ _ ht => .setFld (.setFld (.setFld (.setFld (.setFld (.setFld ht)))))
  exact .setReg64 (.setReg h5)

theorem State.KeepsWith.fuseCommit (h : s₀.KeepsWith R s) : s₀.KeepsWith R s.fuseCommit := by
  unfold State.fuseCommit
  extract_lets _ _ _ _ _ _ _ s1 s2 s3 s4 s5 s6 s7
  have h1 : s₀.KeepsWith R s1 := .upd h
  have h2 : s₀.KeepsWith R s2 := .modKeep h1
  have h3 : s₀.KeepsWith R s3 := .ite (.keyLost h2) h2
  have h4 : s₀.KeepsWith R s4 := .noteFree (.noteLoad (.applyTrim h3))
  have h5 : s₀.KeepsWith R s5 := .incFld h4
  have h6 : s₀.KeepsWith R s6 := .foldl h5 fun _ _ ht => .ite (.post (.ite (.post ht) ht)) (.ite (.post (.ite (.post ht) ht)) (.ite
    (.post ht) ht))
  have h7 : s₀.KeepsWith R s7 := by
    unfold s7
    split
    · exact .post h6
    · exact h6
  exact .post h7

theorem State.KeepsWith.loadRestart (h : s₀.KeepsWith R s) : s₀.KeepsWith R s.loadRestart := .ite (.post (.incFld (.upd h))) h
theorem State.KeepsWith.pgResult (h : s₀.KeepsWith R s) {a result} : s₀.KeepsWith R (s.pgResult a result) :=
  .ite (.setFld (.setFld (.setFld h))) (.post (.setFld (.setFld (.setFld h))))
theorem State.KeepsWith.pgStart (h : s₀.KeepsWith R s) {c} : s₀.KeepsWith R (s.pgStart c) := .upd (.setFld (.setFld h))
theorem State.KeepsWith.programWord (h : s₀.KeepsWith R s) {a d byKs} : s₀.KeepsWith R (s.programWord a d byKs) :=
  .ite (.pgResult h) (.ite (.pgResult h) (.ite (.pgResult h) (.ite (.pgResult h) (.ite (.pgResult h) (.pgStart h)))))
theorem State.KeepsWith.lifeCommand (h : s₀.KeepsWith R s) {target retire} : s₀.KeepsWith R (s.lifeCommand target retire) :=
  .ite (.pgResult h) (.ite (.pgResult h) (.ite (.pgResult h) (.ite (.pgResult h) (.pgStart h))))

theorem State.KeepsWith.pgCommand (h : s₀.KeepsWith R s) {a v} : s₀.KeepsWith R (s.pgCommand a v) := by
  unfold State.pgCommand
  dsimp only
  split
  · exact h
  · exact .ite h (.ite (.programWord h) (.lifeCommand h))

theorem State.KeepsNext.fuseProgramWord (h : s₀.Keeps s) {a v} : s₀.KeepsNext (execFuseProgramWord a v s) :=
  .next (.cfgWrite h fun _ ht => .pgCommand ht)
theorem State.KeepsNext.lifecycleAdvance (h : s₀.Keeps s) {a v} : s₀.KeepsNext (execLifecycleAdvance a v s) :=
  .next (.cfgWrite h fun _ ht => .pgCommand ht)
theorem State.KeepsNext.lifecycleRetire (h : s₀.Keeps s) {a v} : s₀.KeepsNext (execLifecycleRetire a v s) :=
  .next (.cfgWrite h fun _ ht => .pgCommand ht)

theorem State.KeepsWith.fuseRecord (h : s₀.KeepsWith R s) : s₀.KeepsWith R s.fuseRecord := by
  unfold State.fuseRecord
  refine .ite h ?_
  split
  · exact .pgStart h
  · exact h

theorem State.KeepsWith.recorded (h : s₀.KeepsWith R s) {c} : s₀.KeepsWith R (s.recorded c) := by
  unfold State.recorded
  extract_lets _ _ _ _ _ s1 _ _ s2 s3
  have h1 : s₀.KeepsWith R s1 := .setPend h
  have h2 : s₀.KeepsWith R s2 := .upd h1
  have h3 : s₀.KeepsWith R s3 := .noteFree h2
  exact .ite (.upd h) (.ite (.post (.noteFree (.upd h))) (.ite (.ite (.post h3) h3) h))

theorem State.KeepsWith.lifeTakes (h : s₀.KeepsWith R s) : s₀.KeepsWith R s.lifeTakes := by
  unfold State.lifeTakes
  extract_lets _ _ _ _ s1 _ s2
  have h1 : s₀.KeepsWith R s1 := .setFld (.setFld (.setFld h))
  have h2 : s₀.KeepsWith R s2 := .post (.setFld (.upd h1))
  exact .ite h1 (.ite (.dropKeys h2) h2)

theorem State.KeepsNext.fuseProgramDone (h : s₀.Keeps s) {outcome read} : s₀.KeepsNext (execFuseProgramDone outcome read s) := by
  unfold execFuseProgramDone
  extract_lets _ s1 _ _ _
  have h1 : s₀.Keeps s1 := .upd h
  refine .next ?_
  split
  · exact h
  · extract_lets s2 s3 s4 _ s5 s6 _ _ s7
    have h2 : s₀.Keeps s2 := .ite h1 (.upd h1)
    have h3 : s₀.Keeps s3 := .pgResult h2
    have h4 : s₀.Keeps s4 := .lifeTakes h3
    have h5 : s₀.Keeps s5 := .upd h1
    have h6 : s₀.Keeps s6 := .pgResult h5
    have h7 : s₀.Keeps s7 := .ite (.noteFree (.upd h6)) h6
    exact .ite (.ite (.fuseRecord (.recorded h3)) (.ite (.ite (.pgResult h4) (.pgStart h4)) (.ite (.fuseRecord (.post h4))
      (.fuseRecord h4)))) (.ite (.noteFree h7) (.lifeTakes h7))

theorem State.KeepsNext.repairFuseRetry (h : s₀.Keeps s) : s₀.KeepsNext (execRepairFuseRetry s) := by
  unfold execRepairFuseRetry
  extract_lets s1 _
  have h1 : s₀.Keeps s1 := .fuseRecord h
  refine .next ?_
  split
  · exact .ite h1 (.post (.upd h1))
  · exact h1

theorem State.KeepsWith.abortFuse (h : s₀.KeepsWith R s) : s₀.KeepsWith R s.abortFuse := by
  unfold State.abortFuse
  split
  · exact h
  · exact .pgResult (.upd h)

theorem State.KeepsWith.writeLock (h : s₀.KeepsWith R s) {v} : s₀.KeepsWith R (s.writeLock v) := .setFld h
theorem State.KeepsNext.fusLockWrite (h : s₀.Keeps s) {a v} : s₀.KeepsNext (execFusLockWrite a v s) :=
  .next (.cfgWrite h fun _ ht => .writeLock ht)
theorem State.KeepsWith.rawRead (h : s₀.KeepsWith R s) {a} : s₀.KeepsWith R (s.rawRead a) :=
  .ite (.setReg (.setReg (.setReg (.setFld h)))) (.setReg (.setReg (.setReg (.setFld h))))
theorem State.KeepsNext.fusRdaddrWrite (h : s₀.Keeps s) {a v} : s₀.KeepsNext (execFusRdaddrWrite a v s) :=
  .next (.cfgWrite h fun _ ht => .rawRead ht)
theorem State.KeepsWith.stickyLocks (h : s₀.KeepsWith R s) : s₀.KeepsWith R s.stickyLocks := .setFld h

/-! ### Repair -/

theorem State.KeepsWith.record (h : s₀.KeepsWith R s) {word spare live} : s₀.KeepsWith R (s.record word spare live) :=
  .ite (.fuseRecord (.setPend (.upd h))) (.upd h)
theorem State.KeepsWith.recordPin (h : s₀.KeepsWith R s) {c word now} : s₀.KeepsWith R (s.recordPin c word now) :=
  .ite (.record h) (.foldl (.record h) fun _ _ ht => .switchLands ht)

theorem State.KeepsWith.failPin0 (h : s₀.KeepsWith R s) {c pin now} : s₀.KeepsWith R (s.failPin0 c pin now).1 := by
  unfold State.failPin0
  split
  · exact .recordPin h
  · exact .ite_fst h (.recordPin h)

theorem State.KeepsWith.failPin (h : s₀.KeepsWith R s) {c pin now} : s₀.KeepsWith R (s.failPin c pin now).1 := by
  unfold State.failPin
  refine .ite_fst ?_ (.failPin0 h)
  split
  · exact .failPin0 h
  · exact .ite_fst h (.record h)

theorem State.KeepsWith.failKeep0 (h : s₀.KeepsWith R s) {k tsv} : s₀.KeepsWith R (s.failKeep0 k tsv).1 := by
  unfold State.failKeep0
  extract_lets s1
  have h1 : s₀.KeepsWith R s1 := .record h
  split
  · exact .post (.record h)
  · exact .ite_fst h (.ite_fst (.fenceCourse h1) h1)

theorem State.KeepsWith.failKeep (h : s₀.KeepsWith R s) {k tsv} : s₀.KeepsWith R (s.failKeep k tsv).1 := by
  unfold State.failKeep
  refine .ite_fst ?_ (.failKeep0 h)
  split
  · exact .failKeep0 h
  · exact .ite_fst h (.record h)

theorem State.KeepsWith.failRow (h : s₀.KeepsWith R s) {t} : s₀.KeepsWith R (s.failRow t).1 := by
  unfold State.failRow
  dsimp only
  split
  · exact .upd h
  · exact .ite_fst h (.post (.record h))

theorem State.KeepsWith.failTsv (h : s₀.KeepsWith R s) {t now} : s₀.KeepsWith R (s.failTsv t now).1 :=
  .ite_fst (.failPin h) (.failKeep h)
theorem State.KeepsWith.repairWaits (h : s₀.KeepsWith R s) {t} : s₀.KeepsWith R (s.repairWaits t) := .upd h
theorem State.KeepsWith.repairTsv (h : s₀.KeepsWith R s) {t now} : s₀.KeepsWith R (s.repairTsv t now).1 :=
  .ite_fst (.repairWaits h) (.failTsv h)
theorem State.KeepsWith.failTarget (h : s₀.KeepsWith R s) {t} : s₀.KeepsWith R (s.failTarget t).1 :=
  .ite_fst (.failRow h) (.ite_fst (.repairWaits h) (.repairTsv h))
theorem State.KeepsWith.doTodo (h : s₀.KeepsWith R s) {u} : s₀.KeepsWith R (s.doTodo u) :=
  .ite h (.foldl (.upd h) fun _ _ ht => .failTsv ht)
theorem State.KeepsWith.slicerBack (h : s₀.KeepsWith R s) : s₀.KeepsWith R s.slicerBack := .foldl h fun _ _ ht => .doTodo ht
theorem State.KeepsWith.freeCovered (h : s₀.KeepsWith R s) {t} : s₀.KeepsWith R (s.freeCovered t) :=
  .ite h (.upd (.foldl h fun _ _ ht => .setFld ht))

theorem State.KeepsWith.resolveGran (h : s₀.KeepsWith R s) {obs g scrub} : s₀.KeepsWith R (s.resolveGran obs g scrub) := by
  unfold State.resolveGran
  extract_lets s1
  have h1 : s₀.KeepsWith R s1.1 := .readGran h
  split
  · exact .ite h1 (.markDirty (.putGran h1))
  · exact h1

theorem State.KeepsWith.rewriteGran (h : s₀.KeepsWith R s) {obs g scrub} : s₀.KeepsWith R (s.rewriteGran obs g scrub) :=
  .ite (.countGran (.resolveGran h)) (.resolveGran h)

theorem State.KeepsWith.repairGran (h : s₀.KeepsWith R s) {obs g} : s₀.KeepsWith R (s.repairGran obs g) := by
  unfold State.repairGran
  extract_lets s1
  have h1 : s₀.KeepsWith R s1 := .ite h (.resolveGran h)
  split
  · exact .finishRecovery (.bump h1)
  · exact h1

theorem State.KeepsWith.rowPass (h : s₀.KeepsWith R s) {c pc i row write} : s₀.KeepsWith R (s.rowPass c pc i row write) :=
  .foldl (.openRow h) fun _ _ ht => .countGran (.colGo ht)
theorem State.KeepsWith.rowShut (h : s₀.KeepsWith R s) {c pc i} : s₀.KeepsWith R (s.rowShut c pc i) := .trrGo (.preGo h)
theorem State.KeepsWith.endHold (h : s₀.KeepsWith R s) {c} : s₀.KeepsWith R (s.endHold c) := .drained (.modChan h)

theorem State.KeepsNext.rowRepairHold (h : s₀.Keeps s) {c pc bank row obs} : s₀.KeepsNext (execRowRepairHold c pc bank row
    obs s) := by
  unfold execRowRepairHold
  extract_lets _ _ _ s1 s2 s3 s4
  have h1 : s₀.Keeps s1 := .upd h
  have h2 : s₀.Keeps s2 := .rowPass (.takeHold h1)
  have h3 : s₀.Keeps s3 := .foldl h2 fun _ _ ht => .repairGran ht
  have h4 : s₀.Keeps s4 := .endHold (.rowShut (.rowPass (.rowShut h3)))
  refine .next (.ite h ?_)
  split
  · exact .failRow h1
  · exact .post (.record h4)

theorem State.KeepsWith.placed (h : s₀.KeepsWith R s) {target pos width ui} : s₀.KeepsWith R (s.placed target pos width ui) := by
  unfold State.placed
  extract_lets s1 _ _ s2 _ _
  have h1 : s₀.KeepsWith R s1 := .minFld h
  have h2 : s₀.KeepsWith R s2 := .ite h1 (.requestTest (.upd h1))
  exact .ite (.ite (.post (.upd h2)) h2) (.upd h1)

theorem State.KeepsNext.scrubUnitIssue (h : s₀.Keeps s) {obs} : s₀.KeepsNext (execScrubUnitIssue obs s) := by
  unfold execScrubUnitIssue
  extract_lets _ s1 _ _ s2 s3
  have h1 : s₀.Keeps s1 := .ite h (.ask (.foldl h fun _ _ ht => .rewriteGran ht))
  have h2 : s₀.Keeps s2 := .upd h1
  have h3 : s₀.Keeps s3 := .incFld (.setFld h2)
  exact .next (.ite h (.ite (.post (.setFld (.setFld h3))) (.setFld h1)))

theorem State.KeepsNext.scrubBehindTimeout (h : s₀.Keeps s) : s₀.KeepsNext (execScrubBehindTimeout s) :=
  .next (.ite h (.post (.setFld h)))

/-! ### Calibration -/

theorem State.KeepsWith.setDly (h : s₀.KeepsWith R s) {u pin v} : s₀.KeepsWith R (s.setDly u pin v) := .setReg h
theorem State.KeepsWith.moveGroup (h : s₀.KeepsWith R s) {u g sh} : s₀.KeepsWith R (s.moveGroup u g sh) :=
  .ite h (.ite (.requestTest h) (.setDly (.foldl h fun _ _ ht => .ite (.bump (.setDly ht)) (.setDly ht))))
theorem State.KeepsWith.keepCommit (h : s₀.KeepsWith R s) {k} : s₀.KeepsWith R (s.keepCommit k) := .upd h

theorem State.KeepsWith.fwCommit (h : s₀.KeepsWith R s) {u changes force} : s₀.KeepsWith R (s.fwCommit u changes force) := by
  unfold State.fwCommit
  extract_lets _ _ s1 s2 s3
  have h1 : s₀.KeepsWith R s1 := .foldl h fun _ _ ht => .setReg ht
  have h2 : s₀.KeepsWith R s2 := .foldl h1 fun _ _ ht => .setDly ht
  have h3 : s₀.KeepsWith R s3 := .foldl h2 fun _ _ ht => .moveGroup ht
  refine .ite h ?_
  split
  · exact .keepCommit h3
  · exact .dlyCommit h3
  · exact .dlyCommit h3

theorem State.KeepsNext.calKapply (h : s₀.Keeps s) {a k v} : s₀.KeepsNext (execCalKapply a k v s) :=
  .next (.cfgWrite h fun _ ht => .ite (.keepCommit ht) ht)

theorem State.KeepsNext.keepBusGap (h : s₀.Keeps s) {k} : s₀.KeepsNext (execKeepBusGap k s) := by
  unfold execKeepBusGap
  extract_lets _ _ s1 s2 _
  have h1 : s₀.Keeps s1 := .upd h
  have h2 : s₀.Keeps s2 := .ite (.foldl h1 fun _ _ ht => .setAct ht) h
  refine .next ?_
  split
  · exact .upd h2
  · exact h2

theorem State.KeepsWith.noteVisit (h : s₀.KeepsWith R s) {u result pin width centre} :
    s₀.KeepsWith R (s.noteVisit u result pin width centre) := by
  unfold State.noteVisit
  dsimp only
  split <;> exact .setReg h

theorem State.KeepsWith.countVisit (h : s₀.KeepsWith R s) {u} : s₀.KeepsWith R (s.countVisit u) := by
  unfold State.countVisit
  split <;> exact .incFld h

theorem State.KeepsWith.eyeMin (h : s₀.KeepsWith R s) {u pin width} : s₀.KeepsWith R (s.eyeMin u pin width) := by
  unfold State.eyeMin
  dsimp only
  split
  · exact h
  · exact .ite (.setFld (.setFld h)) h
  · exact .ite (.setFld (.setFld h)) h

theorem State.KeepsWith.calRise (h : s₀.KeepsWith R s) : s₀.KeepsWith R s.calRise := .setReg64 (.incFld (.upd h))
theorem State.KeepsWith.seenPin (h : s₀.KeepsWith R s) {u pin} : s₀.KeepsWith R (s.seenPin u pin) :=
  .ite (.calRise (.upd h)) (.upd h)
theorem State.KeepsWith.endVisit (h : s₀.KeepsWith R s) {v} : s₀.KeepsWith R (s.endVisit v) := .doTodo (.upd h)
theorem State.KeepsWith.abandonVisits (h : s₀.KeepsWith R s) {p} : s₀.KeepsWith R (s.abandonVisits p) :=
  .foldl h fun _ _ ht => .endVisit (.noteVisit ht)

theorem State.KeepsNext.rollVisitStart (h : s₀.Keeps s) {u} : s₀.KeepsNext (execRollVisitStart u s) := by
  unfold execRollVisitStart
  refine .next (.ite h ?_)
  dsimp only
  split
  · exact h
  · exact .upd h

theorem State.KeepsWith.noSetting (h : s₀.KeepsWith R s) {u pin width inPlace} :
    s₀.KeepsWith R (s.noSetting u pin width inPlace).1 := by
  unfold State.noSetting
  extract_lets s1
  have h1 : s₀.KeepsWith R s1 := by
    unfold s1
    split
    · exact h
    · exact .incFld h
    · exact .incFld h
  exact .repairTsv (.post h1)

theorem State.KeepsWith.visitCentre (h : s₀.KeepsWith R s) {v width centre} : s₀.KeepsWith R (s.visitCentre v width centre).1 := by
  have ends {t : State} {u : CalUnit} {susp : Nat} (ht : s₀.KeepsWith R t) :
      s₀.KeepsWith R ((((t.noteVisit u susp v.pin width centre).countVisit u).seenPin u v.pin).endVisit v) :=
    .endVisit (.seenPin (.countVisit (.noteVisit ht)))
  unfold State.visitCentre
  exact .ite_fst (ends (.fwCommit (.upd (.eyeMin (.placed h))))) (ends (.noSetting (.upd (.eyeMin (.placed h)))))

theorem State.KeepsNext.sweepDone (h : s₀.Keeps s) {u errFree} : s₀.KeepsNext (execSweepDone u errFree s) := by
  unfold execSweepDone
  extract_lets _
  refine .next ?_
  split
  · exact h
  · extract_lets _
    exact .ite h (.ite (.upd (.fwCommit h)) (.ite (.visitCentre h) (.ite (.upd (.fwCommit (.placed h))) (.endVisit (.noteVisit
      (.noSetting h))))))

theorem State.KeepsNext.visitIncompleteTimeout (h : s₀.Keeps s) {u} : s₀.KeepsNext (execVisitIncompleteTimeout u s) := by
  unfold execVisitIncompleteTimeout
  extract_lets s1
  have h1 : s₀.Keeps s1 := by
    unfold s1
    split
    · exact h
    · exact .incFld h
    · exact .incFld h
  refine .next ?_
  split
  · exact h
  · extract_lets s2 _ _ s3
    have h2 : s₀.Keeps s2 := .post (.noteVisit h1)
    have h3 : s₀.Keeps s3 := .ite (.requestTest (.upd h2)) (.upd h2)
    exact .ite h (.endVisit (.seenPin h3))

theorem State.KeepsNext.trackStepTimer (h : s₀.Keeps s) {fs trim} : s₀.KeepsNext (execTrackStepTimer fs trim s) := by
  unfold execTrackStepTimer
  extract_lets s1
  have h1 : s₀.Keeps s1 := by
    unfold s1
    refine .foldl h fun _ _ ht => ?_
    split
    · exact .setFld ht
    · exact ht
  refine .next (.ite h (.foldl h1 fun _ _ ht => ?_))
  dsimp only
  split
  · exact .ite ht (.upd ht)
  · exact ht

theorem State.KeepsNext.trackImpedanceTimer (h : s₀.Keeps s) {ztsv zlane} : s₀.KeepsNext (execTrackImpedanceTimer ztsv zlane
    s) := by
  unfold execTrackImpedanceTimer
  extract_lets _ _ s1
  have h1 : s₀.Keeps s1 := .ite (.upd h) h
  refine .next (.ite h (.foldl h1 fun _ _ ht => ?_))
  split
  · exact .ite ht (.upd ht)
  · exact ht

theorem State.KeepsNext.trackGainTimer (h : s₀.Keeps s) {n v} : s₀.KeepsNext (execTrackGainTimer n v s) :=
  .next (.ite (.setReg h) h)

theorem State.KeepsNext.trackOffsetTimer (h : s₀.Keeps s) {v} : s₀.KeepsNext (execTrackOffsetTimer v s) := by
  unfold execTrackOffsetTimer
  refine .next (.ite h (.foldl h fun _ _ ht => ?_))
  split
  · exact .setReg ht
  · exact ht

theorem State.KeepsWith.calRefs (h : s₀.KeepsWith R s) {m} : s₀.KeepsWith R (s.calRefs m) :=
  .ite (.post (.setFld (.setFld (.setFld h)))) (.setFld (.setFld (.setFld h)))
theorem State.KeepsWith.calClock (h : s₀.KeepsWith R s) {m} : s₀.KeepsWith R (s.calClock m) :=
  .ite (.setFld h) (.ite h (.post (.setFld h)))

theorem State.KeepsWith.calSteps (h : s₀.KeepsWith R s) {m full} : s₀.KeepsWith R (s.calSteps m full) := by
  unfold State.calSteps
  extract_lets s1 _ s2
  have h1 : s₀.KeepsWith R s1 := .setFld h
  have h2 : s₀.KeepsWith R s2 := .upd h1
  refine .ite h (.ite h2 (.foldl h2 fun _ _ ht => ?_))
  split
  · exact .setFld ht
  · exact ht

theorem State.KeepsWith.calValues (h : s₀.KeepsWith R s) {m ports full} : s₀.KeepsWith R (s.calValues m ports full) := by
  unfold State.calValues
  extract_lets _ s1 s2 s3 s4 s5
  have h1 : s₀.KeepsWith R s1 := .setReg h
  have h2 : s₀.KeepsWith R s2 := by
    unfold s2
    refine .ite (.trimImpedance h) (.foldl h1 fun _ _ ht => ?_)
    split
    · exact .setReg ht
    · exact ht
  have h3 : s₀.KeepsWith R s3 := .calSteps h2
  have h4 : s₀.KeepsWith R s4 := by
    unfold s4
    refine .foldl h3 fun _ _ ht => ?_
    split
    · exact .setReg ht
    · exact ht
  have h5 : s₀.KeepsWith R s5 := by
    unfold s5
    refine .ite (.trimSense h3) (.foldl h4 fun _ _ ht => ?_)
    split
    · exact .setReg ht
    · exact ht
  refine .ite h3 (.foldl h5 fun _ _ ht => ?_)
  split
  · exact .ite (.post (.setReg ht)) (.setReg ht)
  · exact ht

theorem State.KeepsWith.placeEye (h : s₀.KeepsWith R s) {u pin e} : s₀.KeepsWith R (s.placeEye u pin e) :=
  .ite (.noSetting (.placed h)) (.ite (.placed h) (.setAct (.setDly (.placed h))))
theorem State.KeepsWith.placeEyes (h : s₀.KeepsWith R s) {unit pins} : s₀.KeepsWith R (s.placeEyes unit pins) :=
  .incFld (.foldl h fun _ _ ht => .placeEye ht)
theorem State.KeepsWith.trainKeep (h : s₀.KeepsWith R s) {k eyes} : s₀.KeepsWith R (s.trainKeep k eyes) := .placeEyes h
theorem State.KeepsWith.trainChan (h : s₀.KeepsWith R s) {c eyes stby} : s₀.KeepsWith R (s.trainChan c eyes stby) :=
  .placeEyes (.placeEyes h)

/-! ### The Keystone's operations -/

theorem State.KeepsWith.ksEnds (h : s₀.KeepsWith R s) {o status result} : s₀.KeepsWith R (s.ksEnds o status result) :=
  .complete (.ite (.upd h) h)
theorem State.KeepsWith.ksMoves (h : s₀.KeepsWith R s) {op g} : s₀.KeepsWith R (s.ksMoves op g) := .ask h

theorem State.KeepsWith.ksGran (h : s₀.KeepsWith R s) {g bs} : s₀.KeepsWith R (s.ksGran g bs).1 := by
  unfold State.ksGran
  extract_lets _ s1 s2
  have h1 : s₀.KeepsWith R s1 := .ksMoves h
  have h2 : s₀.KeepsWith R s2 := .markDirty (.overtake h1)
  exact .ite_fst h1 (.ite (.putGran h2) (.ite h2 (.putMasked h2)))

theorem State.KeepsWith.ksPut {r : State × KsWait} (h : s₀.KeepsWith R r.1) {g off bs} :
    s₀.KeepsWith R (State.ksPut r g off bs).1 :=
  .ksGran h
theorem State.KeepsWith.putFwAt (h : s₀.KeepsWith R s) {k x2 f} : s₀.KeepsWith R (s.putFwAt k x2 f) :=
  .ite h (.reservedMoves (.upd h))
theorem State.KeepsWith.putFw (h : s₀.KeepsWith R s) {f} : s₀.KeepsWith R (s.putFw f) := .putFwAt (.putFwAt h)
theorem State.KeepsWith.fwEnd (h : s₀.KeepsWith R s) {o r} : s₀.KeepsWith R (s.fwEnd o r) :=
  .ite (.ksEnds (.putFw h)) (.ite (.ksEnds h) (.ite (.ksEnds h) (.ite (.ksEnds (.putFw h)) (.ksEnds (.putFw h)))))

theorem State.KeepsWith.ksSettle (h : s₀.KeepsWith R s) {w} : s₀.KeepsWith R (s.ksSettle w) := by
  unfold State.ksSettle
  extract_lets _ s1
  have h1 : s₀.KeepsWith R s1 := .upd h
  refine .ite ?_ (.upd h)
  split
  · exact .fwEnd h1
  · exact .ksEnds h1
  · exact .ksEnds h1

theorem State.KeepsWith.ksSend (h : s₀.KeepsWith R s) {o b off bs} : s₀.KeepsWith R (s.ksSend o b off bs) :=
  .ite (.sendReq h) (.sendReq h)

theorem State.KeepsWith.ksWrite (h : s₀.KeepsWith R s) {o b data status result hdr each} :
    s₀.KeepsWith R (s.ksWrite o b data status result hdr each) := by
  unfold State.ksWrite
  extract_lets _ _ s1 _ s2
  have h1 : s₀.KeepsWith R s1 := .foldl h fun _ _ ht => .ksSend ht
  have h2 : s₀.KeepsWith R s2.1 := .foldl_fst h fun _ _ ht => .ite_fst ht (.ite_fst (.ite (.touchStart ht) ht) (.ksPut ht))
  exact .ite (.ksSettle h1) (.ksSettle h2)

theorem State.KeepsWith.ksReadGran (h : s₀.KeepsWith R s) {obs b r i} : s₀.KeepsWith R (s.ksReadGran obs b r i).1 := by
  unfold State.ksReadGran
  extract_lets _ _ s1
  have h1 : s₀.KeepsWith R s1.1 := by
    unfold s1
    split
    · exact h
    · exact .readGran h
  refine .ite_fst h (.ite_fst (.touchStart h) (.ite_fst h ?_))
  split
  · exact h1
  · exact .ksMoves h1
  · exact .ksMoves h1

theorem State.KeepsWith.ksReadOn (h : s₀.KeepsWith R s) {obs w} : s₀.KeepsWith R (s.ksReadOn obs w).1 := by
  unfold State.ksReadOn
  split
  · exact h
  · exact .foldl_fst h fun _ _ ht => .ksReadGran ht

theorem State.KeepsWith.ksRead (h : s₀.KeepsWith R s) {obs o b len} : s₀.KeepsWith R (s.ksRead obs o b len) :=
  .ite (.ksSettle (.foldl h fun _ _ ht => .sendReq ht)) (.ksSettle (.ksReadOn h))
theorem State.KeepsWith.ksRetry (h : s₀.KeepsWith R s) : s₀.KeepsWith R s.ksRetry :=
  .foldl h fun _ _ ht => .ite ht (.ksSettle (.ksReadOn (.foldl_fst ht fun _ _ hu => .ksPut hu)))

theorem State.KeepsWith.ksAnswered (h : s₀.KeepsWith R s) {q cid gen off ok bs} :
    s₀.KeepsWith R (s.ksAnswered q cid gen off ok bs) := by
  unfold State.ksAnswered
  split
  · exact h
  · exact .ksSettle h

/-! ### Self-test and the test access port -/

theorem State.KeepsWith.queueRetest (h : s₀.KeepsWith R s) {t} : s₀.KeepsWith R (s.queueRetest t) := by
  unfold State.queueRetest
  refine .ite h (.ite ?_ (.upd h))
  split <;> exact .upd h

theorem State.KeepsWith.noteInc (h : s₀.KeepsWith R s) {t result} : s₀.KeepsWith R (s.noteInc t result) :=
  .ite (.queueRetest (.upd h)) (.upd h)
theorem State.KeepsWith.sliceCol (h : s₀.KeepsWith R s) {l i write} : s₀.KeepsWith R (s.sliceCol l i write) := .countGran (.colGo h)

theorem State.KeepsWith.rowEnds (h : s₀.KeepsWith R s) {t steps restored} : s₀.KeepsWith R (s.rowEnds t steps restored) := by
  unfold State.rowEnds
  extract_lets _ s1 s2
  have h1 : s₀.KeepsWith R s1 := .foldl h fun _ _ ht => .sliceCol ht
  have h2 : s₀.KeepsWith R s2 := .ite (.foldl h1 fun _ _ ht => .sliceCol ht) h
  exact .ite h (.endHold (.rowShut h2))

theorem State.KeepsWith.sliceVisitEnds (h : s₀.KeepsWith R s) {t result} : s₀.KeepsWith R (s.sliceVisitEnds t result) := by
  unfold State.sliceVisitEnds
  split
  · exact h
  · split
    · exact h
    · exact .ite (.endVisit (.seenPin (.noteVisit h))) h

theorem State.KeepsWith.sliceReport {act : State → State × Nat} (h :
    s₀.KeepsWith R s) (hact : ∀ t, s₀.KeepsWith R t → s₀.KeepsWith R (act t).1) {c
    result cause steps final extra} : s₀.KeepsWith R (s.sliceReport c result cause steps final extra act) := by
  unfold State.sliceReport
  extract_lets _ s1 s2 s3 s4 s5 s6 s7 _ _ _ s8
  have h1 : s₀.KeepsWith R s1 := .upd h
  have h2 : s₀.KeepsWith R s2 := .ite (.rowEnds h1) h1
  have h3 : s₀.KeepsWith R s3 := .ite (.incFld h2) (.ite (.post (.incFld h2)) (.post (.incFld h2)))
  have h4 : s₀.KeepsWith R s4.1 := hact _ h3
  have h5 : s₀.KeepsWith R s5 := .sliceVisitEnds h4
  have h6 : s₀.KeepsWith R s6 := .noteInc h5
  have h7 : s₀.KeepsWith R s7 := .ite (.freeCovered h6) h6
  have h8 : s₀.KeepsWith R s8 := .upd h7
  split
  · exact h8
  · exact .ksWrite h8

theorem State.KeepsWith.sliceRemedy (h : s₀.KeepsWith R s) {t result} : s₀.KeepsWith R (State.sliceRemedy t result s).1 :=
  .ite_fst (.failTarget h) h

theorem State.KeepsWith.cutSlice (h : s₀.KeepsWith R s) {cause} : s₀.KeepsWith R (s.cutSlice cause) := by
  unfold State.cutSlice
  extract_lets s1 _ _
  have h1 : s₀.KeepsWith R s1 := .bump h
  split
  · exact h
  · exact .ite (.sliceReport (.bump h1) fun _ ht => .sliceRemedy ht) (.upd h)

theorem State.KeepsWith.stopSlicer (h : s₀.KeepsWith R s) {cause} : s₀.KeepsWith R (s.stopSlicer cause) := .upd (.cutSlice (.upd h))
theorem State.KeepsWith.bistThermal (h : s₀.KeepsWith R s) : s₀.KeepsWith R s.bistThermal :=
  .ite h (.foldl (.upd h) fun _ _ ht => .ksEnds ht)

theorem State.KeepsNext.sliceTick (h : s₀.Keeps s) : s₀.KeepsNext (execSliceTick s) := by
  unfold execSliceTick
  extract_lets s1 _ _
  have h1 : s₀.Keeps s1 := .fillTests (.bistThermal h)
  refine .next (.ite h ?_)
  split
  · exact .ite (.incFld h1) (.upd h1)
  · refine .ite h1 ?_
    split
    · exact .ite (.incFld h1) (.upd h1)
    · exact h1

theorem State.KeepsWith.rotPast (h : s₀.KeepsWith R s) {t} : s₀.KeepsWith R (s.rotPast t) := by
  unfold State.rotPast
  extract_lets _ s1 _ _
  have h1 : s₀.KeepsWith R s1 := .upd h
  exact .ite (.ite (.upd (.post (.incFld (.setFld h1)))) (.setFld h1)) (.ite (.upd (.post (.incFld (.setFld h1)))) (.setFld h1))

theorem State.KeepsWith.saveReads (h : s₀.KeepsWith R s) {obs gs n} : s₀.KeepsWith R (s.saveReads obs gs n).1 := by
  induction gs generalizing s n with
  | nil => exact h
  | cons g gs ih =>
    unfold State.saveReads
    exact .ite_fst (.readGran (.sliceCol h)) (ih (.resolveGran (.sliceCol h)))

theorem State.KeepsNext.sliceResourceGranted (h : s₀.Keeps s) {obs} : s₀.KeepsNext (execSliceResourceGranted obs s) := by
  unfold execSliceResourceGranted
  extract_lets s1
  have h1 : s₀.Keeps s1 := .bistThermal h
  refine .next ?_
  split
  · exact h1
  · extract_lets _ _ _ _ s2 s3 _ s4 _
    have h2 : s₀.Keeps s2 := .openRow (.takeHold (.upd (.ite (.rotPast h1) h1)))
    have h3 : s₀.Keeps s3.1 := .saveReads h2
    have h4 : s₀.Keeps s4 := .upd (.ite (.rotPast h1) h1)
    refine .ite h1 (.ite (.ite h1 ?_) (.ite (.upd (.ite (.rotPast h1) h1)) ?_))
    · split
      · exact h3
      · exact .sliceReport h3 fun _ ht => .sliceRemedy ht
    · split
      · exact h1
      · exact .ite h1 (.upd h4)

theorem State.KeepsNext.sliceEnd (h : s₀.Keeps s) {mism overBudget cause errFree} : s₀.KeepsNext (execSliceEnd mism overBudget
    cause errFree s) := by
  unfold execSliceEnd
  refine .next ?_
  split
  · exact h
  · refine .ite h (.ite (.sliceReport h fun _ ht => .sliceRemedy ht) (.sliceReport h fun _ ht => ?_))
    split
    · exact .ite_fst (.visitCentre ht) (.failTarget (.endVisit (.seenPin (.noteVisit ht))))
    · exact .sliceRemedy ht

theorem State.KeepsNext.sliceBudgetExpiry (h : s₀.Keeps s) : s₀.KeepsNext (execSliceBudgetExpiry s) := by
  unfold execSliceBudgetExpiry
  extract_lets s1 _
  have h1 : s₀.Keeps s1 := .incFld h
  refine .next ?_
  split
  · exact h
  · exact .ite (.cutSlice h) (.upd h1)

theorem State.KeepsWith.tapIr (h : s₀.KeepsWith R s) {ir} : s₀.KeepsWith R (s.tapIr ir) := .upd h
theorem State.KeepsWith.tapHeld (h : s₀.KeepsWith R s) {ir} : s₀.KeepsWith R (s.tapHeld ir) := .ite (.tapIr h) (.tapIr h)
theorem State.KeepsWith.tap {f : State → State} (h : s₀.KeepsWith R s) (hf : ∀ t, s₀.KeepsWith R t → s₀.KeepsWith R (f t)) :
    s₀.KeepsWith R (s.tap f) :=
  .ite h (hf _ h)
theorem State.KeepsNext.bypass (h : s₀.Keeps s) : s₀.KeepsNext (execBypass s) := .next (.tap h fun _ ht => .tapIr ht)
theorem State.KeepsWith.trstLevel (h : s₀.KeepsWith R s) {low} : s₀.KeepsWith R (s.trstLevel low) :=
  .ite h (.ite (.tapIr (.upd h)) (.upd h))
theorem State.KeepsNext.idcode (h : s₀.Keeps s) : s₀.KeepsNext (execIdcode s) := .next (.tap h fun _ ht => .emit (.tapIr ht))
theorem State.KeepsWith.samplePreload (h : s₀.KeepsWith R s) {levels} : s₀.KeepsWith R (s.samplePreload levels) :=
  .upd (.emit (.bump (.tapIr h)))

theorem State.KeepsNext.samplePreload (h : s₀.Keeps s) {pins} : s₀.KeepsNext (execSamplePreload pins s) := by
  unfold execSamplePreload
  refine .next ?_
  split
  · exact .trstLevel h
  · exact .tap h fun _ ht => .samplePreload ht

theorem State.KeepsNext.extest (h : s₀.Keeps s) : s₀.KeepsNext (execExtest s) := .next (.tap h fun _ ht => .tapHeld ht)
theorem State.KeepsNext.clamp (h : s₀.Keeps s) : s₀.KeepsNext (execClamp s) := .next (.tap h fun _ ht => .tapHeld ht)
theorem State.KeepsNext.highz (h : s₀.Keeps s) : s₀.KeepsNext (execHighz s) := .next (.tap h fun _ ht => .tapHeld ht)
theorem State.KeepsNext.unlockNonce (h : s₀.Keeps s) : s₀.KeepsNext (execUnlockNonce s) :=
  .next (.tap h fun _ ht => .emit (.tapIr ht))
theorem State.KeepsWith.newNonce (h : s₀.KeepsWith R s) : s₀.KeepsWith R s.newNonce := .upd h
theorem State.KeepsNext.unlockLoad (h : s₀.Keeps s) {token} : s₀.KeepsNext (execUnlockLoad token s) :=
  .next (.tap h fun _ ht => .ite (.post (.upd (.newNonce (.tapIr ht)))) (.newNonce (.tapIr ht)))

theorem State.KeepsNext.scanEnter (h : s₀.Keeps s) {zero courses} : s₀.KeepsNext (execScanEnter zero courses s) := by
  unfold execScanEnter
  refine .next (.tap h fun _ ht => ?_)
  extract_lets s1 _ _ s2 s3 _ s4 _
  have h1 : s₀.Keeps s1 := .dropKeys ht
  have h2 : s₀.Keeps s2 := .upd h1
  have h3 : s₀.Keeps s3 := .tapIr h2
  have h4 : s₀.Keeps s4 := .upd h3
  exact .ite (.tapIr ht) (.ite (.post (.tapIr ht)) (.ite (.post (.tapIr h2)) (.ite h4 (.updPwr h4))))

/-! ### Resets -/

theorem State.KeepsWith.breakSems (h : s₀.KeepsWith R s) {p} : s₀.KeepsWith R (s.breakSems p) := .upd h
theorem State.KeepsWith.emptyLatches (h : s₀.KeepsWith R s) : s₀.KeepsWith R s.emptyLatches := .upd h
theorem State.KeepsWith.emptyLatch (h : s₀.KeepsWith R s) {i} : s₀.KeepsWith R (s.emptyLatch i) := .upd h
theorem State.KeepsWith.emptyLatchesOf (h : s₀.KeepsWith R s) {p} : s₀.KeepsWith R (s.emptyLatchesOf p) := .upd h
theorem State.KeepsWith.abandonSeal (h : s₀.KeepsWith R s) : s₀.KeepsWith R s.abandonSeal := .modKeep h
theorem State.KeepsWith.keepStops (h : s₀.KeepsWith R s) : s₀.KeepsWith R s.keepStops := .modKeep (.abandonSeal (.abandonCopies h))
theorem State.KeepsWith.mortarClear (h : s₀.KeepsWith R s) : s₀.KeepsWith R s.mortarClear :=
  .foldl (.upd h) fun _ _ ht => .setFld ht

theorem State.KeepsWith.chansIdle (h : s₀.KeepsWith R s) : s₀.KeepsWith R s.chansIdle := by
  unfold State.chansIdle
  refine .foldl h fun _ _ ht => ?_
  split
  · exact .idleChannel (.modChan ht)
  · exact .drained (.modChan ht)
  · exact .modChan ht
  · exact .modChan ht

theorem State.KeepsWith.jobsLost (h : s₀.KeepsWith R s) : s₀.KeepsWith R s.jobsLost := .upd h
theorem State.KeepsWith.ksLost (h : s₀.KeepsWith R s) (hR : ReadsStands R) :
    s₀.KeepsWith R s.ksLost := .updStands h hR (by rfl)
theorem State.KeepsWith.withdraw (h : s₀.KeepsWith R s) {c p status} : s₀.KeepsWith R (s.withdraw c p status).1 :=
  .foldl (.upd (.modChan (.modTgt h))) fun _ _ ht => .unitReturn ht
theorem State.KeepsWith.answerAccepted (h : s₀.KeepsWith R s) {status} : s₀.KeepsWith R (s.answerAccepted status) :=
  .foldl h fun _ _ ht => .answer ht
theorem State.KeepsWith.epochUp (h : s₀.KeepsWith R s) {p} : s₀.KeepsWith R (s.epochUp p) := .setFld h
theorem State.KeepsWith.linksFresh (h : s₀.KeepsWith R s) : s₀.KeepsWith R s.linksFresh := .upd (.foldl h fun _ _ ht => .epochUp ht)
theorem State.KeepsWith.coldRegs (h : s₀.KeepsWith R s) : s₀.KeepsWith R s.coldRegs := .setFld (.resetRange (.resetRange h))
theorem State.KeepsWith.coldClears (h : s₀.KeepsWith R s) (hR : ReadsStands R) :
    s₀.KeepsWith R s.coldClears := by
  have h1 : s₀.KeepsWith R s.coldRegs.loadRestart.abortFuse := .abortFuse (.loadRestart (.coldRegs h))
  exact .newNonce (.updStands h1 hR (by rfl))

theorem State.KeepsWith.resetStep5 (h : s₀.KeepsWith R s) (hR : ReadsStands R) :
    s₀.KeepsWith R s.resetStep5 := by
  unfold State.resetStep5
  extract_lets _ s1 s2 s3 s4 _
  have h1 : s₀.KeepsWith R s1 := .updStands h hR (by rfl)
  have h2 : s₀.KeepsWith R s2 := .dropCopies h1
  have h3 : s₀.KeepsWith R s3 := .resetQueues h2
  have h4 : s₀.KeepsWith R s4 := .breakSems h3
  exact .ite (.coldClears h3 hR) (.updStands h4 hR (by rfl))

theorem State.KeepsWith.takeReset (h : s₀.KeepsWith R s) (hR : ReadsStands R) :
    s₀.KeepsWith R s.takeReset := by
  unfold State.takeReset
  extract_lets _ s1 s2 _ s3 s4 s5 s6 _
  have h1 : s₀.KeepsWith R s1 := .stopSlicer h
  have h2 : s₀.KeepsWith R s2 := .abandonVisits h1
  have h3 : s₀.KeepsWith R s3 := .upd h2
  have h4 : s₀.KeepsWith R s4 := .ite (.updateLintels h3) (.answerAccepted h3)
  have h5 : s₀.KeepsWith R s5 := .jobsLost (.ksLost (.emptyLatches (.linksFresh h4)) hR)
  have h6 : s₀.KeepsWith R s6 := .mortarClear (.chansIdle (.keepStops h5))
  have wait : ∀ {t}, s₀.KeepsWith R t → s₀.KeepsWith R { t with pwr := { t.pwr with waiting := true, taken := false } } :=
    fun ht => .updStands ht hR (by rfl)
  exact .ite (.updStands h hR (by rfl)) (.ite (.resetStep5 h6 hR) (wait h6))

theorem State.KeepsWith.actReset (h : s₀.Keeps s) {src reach ep level} : s₀.Keeps (s.actReset src reach ep level) := by
  unfold State.actReset
  extract_lets _ _ _ _ s1
  have h1 : s₀.Keeps s1 := .ite (.updPwr h) h
  exact .ite (.ite (.takeReset (.updPwr h1) readsStands_true) (.updPwr h1)) (.takeReset (.updPwr h1) readsStands_true)

theorem State.KeepsWith.deferReset (h : s₀.Keeps s) {d} : s₀.Keeps (s.deferReset d) :=
  .ite (.ite h (.updPwr h)) (.post (.ite h (.updPwr h)))
theorem State.KeepsWith.assertReset (h : s₀.Keeps s) {src reach ep level} : s₀.Keeps (s.assertReset src reach ep level) :=
  .ite h (.ite (.deferReset h) (.actReset h))
theorem State.KeepsWith.releaseLevel (h : s₀.Keeps s) {src} : s₀.Keeps (s.releaseLevel src) := .updPwr h
theorem State.KeepsWith.recordReset (h : s₀.KeepsWith R s) {reach src ep mask} : s₀.KeepsWith R (s.recordReset reach src ep mask) :=
  .post (.setReg64 (.setReg (.setReg h)))

theorem State.KeepsWith.portClears (h : s₀.KeepsWith R s) {p} : s₀.KeepsWith R (s.portClears p) := by
  unfold State.portClears
  extract_lets _ s1 s2 s3 s4
  have h1 : s₀.KeepsWith R s1 := .ite h (.ite (.leaveActive h) (.startOver h))
  have h2 : s₀.KeepsWith R s2 := .modPort (.clearReg (.clearReg h1))
  have h3 : s₀.KeepsWith R s3 := .epochUp h2
  have h4 : s₀.KeepsWith R s4 := .foldl h3 fun _ _ ht => .clearReg ht
  exact .emptyLatch (.breakSems h4)

theorem State.KeepsWith.portReset (h : s₀.Keeps s) {p src ep} : s₀.Keeps (s.portReset p src ep) :=
  .ite (.updPwr (.portClears h)) (.recordReset (.portClears h))

theorem State.KeepsWith.actDeferred (h : s₀.Keeps s) : s₀.Keeps s.actDeferred := by
  unfold State.actDeferred
  extract_lets _ ports _ _ s1 s2 s3 _
  have h1 : s₀.Keeps s1 := .updPwr h
  have h2 : s₀.Keeps s2 := .foldl h1 fun _ _ ht => .portClears ht
  have h3 : s₀.Keeps s3 := .foldl h2 fun _ _ ht => .actReset ht
  clear_value ports
  refine .ite ?_ (.updPwr h3)
  split
  · exact h2
  · exact .recordReset h2

theorem State.KeepsWith.waitCheck (h : s₀.Keeps s) : s₀.Keeps s.waitCheck := .ite (.resetStep5 h readsStands_true) h
theorem State.KeepsNext.commandSlot (h : s₀.Keeps s) {c pc obs} : s₀.KeepsNext (execCommandSlot c pc obs s) :=
  .next (.waitCheck (.slot h))
theorem State.KeepsWith.idleAsked (h : s₀.KeepsWith R s) {c} : s₀.KeepsWith R (s.idleAsked c) := .idleChannel (.abandonVisits h)
theorem State.KeepsNext.channelIdleRequest (h : s₀.Keeps s) {c} : s₀.KeepsNext (execChannelIdleRequest c s) :=
  .next (.idleAsked h)
theorem State.KeepsNext.channelIdleTimeout (h : s₀.Keeps s) {c} : s₀.KeepsNext (execChannelIdleTimeout c s) :=
  .next (.ite (.waitCheck (.idleFails h)) h)
theorem State.KeepsNext.resetProgramWaitTimeout (h : s₀.Keeps s) {k} : s₀.KeepsNext (execResetProgramWaitTimeout k s) :=
  .next (.ite (.waitCheck (.dropCopies (.post h))) h)
theorem State.KeepsNext.resetNAssert (h : s₀.Keeps s) : s₀.KeepsNext (execResetNAssert s) :=
  .next (.ite h (.assertReset (.upd h)))
theorem State.KeepsNext.resetNRelease (h : s₀.Keeps s) : s₀.KeepsNext (execResetNRelease s) :=
  .next (.ite h (.ite (.upd (.releaseLevel (.upd h))) (.releaseLevel (.upd h))))
theorem State.KeepsNext.rstactColdReset (h : s₀.Keeps s) : s₀.KeepsNext (execRstactColdReset s) :=
  .next (.ite h (.assertReset (.breakSems h)))

theorem State.KeepsWith.rstCmd (h : s₀.Keeps s) {a v} : s₀.Keeps (s.rstCmd a v) := by
  unfold State.rstCmd
  split
  · exact .ite h (.ite (.assertReset h) (.ite (.assertReset h) h))
  · exact h

theorem State.KeepsNext.rstCmdWarm (h : s₀.Keeps s) {a v} : s₀.KeepsNext (execRstCmdWarm a v s) :=
  .next (.cfgWrite h fun _ ht => .rstCmd ht)
theorem State.KeepsNext.rstCmdCold (h : s₀.Keeps s) {a v} : s₀.KeepsNext (execRstCmdCold a v s) :=
  .next (.cfgWrite h fun _ ht => .rstCmd ht)
theorem State.KeepsWith.ksAborted (h : s₀.Keeps s) : s₀.Keeps s.ksAborted :=
  .foldl (.ksLost h readsStands_true) fun _ _ ht => .complete ht

theorem State.KeepsNext.watchdogExpiry (h : s₀.Keeps s) : s₀.KeepsNext (execWatchdogExpiry s) := by
  unfold execWatchdogExpiry
  extract_lets _ s1 _ s2 s3
  have h1 : s₀.Keeps s1 := .incFld h
  have h2 : s₀.Keeps s2 := .updPwr h1
  have h3 : s₀.Keeps s3 := .post h2
  exact .next (.ite h (.ite (.ksAborted (.emptyLatch h3)) (.ite (.assertReset h3) (.assertReset h3))))

/-! ### Seals, saves and restores -/

theorem State.KeepsWith.writeRecord (h : s₀.Keeps s) {f} : s₀.Keeps (s.writeRecord f) :=
  .setFld (.setFld (.setFld (.writeReserved (.updPwr h))))
theorem State.KeepsWith.sealedExit (h : s₀.Keeps s) : s₀.Keeps s.sealedExit := .ite (.actReset h) h

theorem State.KeepsWith.saveNoted (h : s₀.KeepsWith R s) {ms gib} : s₀.KeepsWith R (s.saveNoted ms gib) := by
  unfold State.saveNoted
  extract_lets s1 _
  have h1 : s₀.KeepsWith R s1 := .setFld (.setFld h)
  exact .modKeep h1

theorem State.KeepsWith.enterSealed (h : s₀.Keeps s) {final} : s₀.Keeps (s.enterSealed final) := by
  unfold State.enterSealed
  extract_lets _ _ s1 s2 _ s3
  have h1 : s₀.Keeps s1 := .saveNoted h
  have h2 : s₀.Keeps s2 := .modKeep (.setDev h1)
  have h3 : s₀.Keeps s3 := .ite (.post (.updPwr h2)) h2
  exact .sealedExit (.actDeferred (.foldl h3 fun _ _ ht => .idleChannel ht))

theorem State.KeepsWith.saveNoKey (h : s₀.Keeps s) : s₀.Keeps s.saveNoKey := .enterSealed (.post h)
theorem State.KeepsWith.saveGoes (h : s₀.KeepsWith R s) : s₀.KeepsWith R s.saveGoes :=
  .ite (.ite (.sealAsk (.modKeep (.moverFill h))) (.moverFill h)) h

theorem State.KeepsWith.wakeChannels (h : s₀.KeepsWith R s) : s₀.KeepsWith R s.wakeChannels := by
  unfold State.wakeChannels
  refine .foldl h fun _ _ ht => .ite ht ?_
  split
  · exact .exitSref ht
  · exact .modChan ht
  · exact ht

theorem State.KeepsWith.refuseWaiting (h : s₀.KeepsWith R s) : s₀.KeepsWith R s.refuseWaiting := by
  unfold State.refuseWaiting
  extract_lets _ s1 _ s2 s3 _
  have h1 : s₀.KeepsWith R s1 := .foldl h fun _ _ ht => .withdraw ht
  have h2 : s₀.KeepsWith R s2 := .foldl h1 fun _ _ ht => .answer ht
  have h3 : s₀.KeepsWith R s3 := .foldl h2 fun _ _ ht => .answer (.takeRx ht)
  exact .upd h3

theorem State.KeepsWith.dropOutputs (h : s₀.KeepsWith R s) : s₀.KeepsWith R s.dropOutputs := .upd h
theorem State.KeepsWith.intervalCut (h : s₀.Keeps s) : s₀.Keeps s.intervalCut :=
  .ite (.foldl (.updPwr (.ite (.recordReset h) h)) fun _ _ ht => .deferReset ht) h

theorem State.KeepsWith.startSave (h : s₀.Keeps s) : s₀.Keeps s.startSave := by
  unfold State.startSave
  extract_lets s1 s2 _ s3 _ s4 _ s5 s6 s7 s8 _ s9 _ s10 s11
  have h1 : s₀.Keeps s1 := .stopSlicer (.intervalCut h)
  have h2 : s₀.Keeps s2 := .abandonVisits h1
  have h3 : s₀.Keeps s3 := .refuseWaiting h2
  have h4 : s₀.Keeps s4 := .updPwr h3
  have h5 : s₀.Keeps s5 := .updPwr h4
  have h6 : s₀.Keeps s6 := .post (.setDev h5)
  have h7 : s₀.Keeps s7 := .writeRecord h6
  have h8 : s₀.Keeps s8 := .abandonJobs (.ksLost (.resetQueues (.dropOutputs (.updateLintels h7))) readsStands_true)
  have h9 : s₀.Keeps s9 := .updPwr h8
  have h10 : s₀.Keeps s10 := .ite (.abandonSeal h9) h9
  have h11 : s₀.Keeps s11 := .modKeep h10
  exact .ite (.wakeChannels h11) h11

theorem State.KeepsNext.saveUnitsDrained (h : s₀.Keeps s) : s₀.KeepsNext (execSaveUnitsDrained s) := by
  unfold execSaveUnitsDrained
  extract_lets s1
  have h1 : s₀.Keeps s1 := .modKeep (.wakeChannels h)
  exact .next (.ite h (.ite (.saveNoKey h1) (.sealAsk h1)))

theorem State.KeepsNext.saveHoldTimeout (h : s₀.Keeps s) {k} : s₀.KeepsNext (execSaveHoldTimeout k s) :=
  .next (.ite (.sealAsk (.modKeep h)) h)

theorem State.KeepsWith.keepHeat (h : s₀.KeepsWith R s) : s₀.KeepsWith R s.keepHeat := by
  unfold State.keepHeat
  extract_lets s1
  have h1 : s₀.KeepsWith R s1 := by
    unfold s1
    refine .foldl h fun _ _ ht => ?_
    extract_lets _ _ s2
    have h2 : s₀.KeepsWith R s2 := .ite (.moverOpsEnd (.ite ht (.post (.modCourse ht)))) (.ite (.modCourse ht) ht)
    exact .ite h2 (.ite (.heatHold h2) (.ite (.modCourse h2) h2))
  exact .saveGoes h1

theorem State.KeepsWith.ckptGoes (h : s₀.KeepsWith R s) : s₀.KeepsWith R s.ckptGoes := by
  unfold State.ckptGoes
  split
  · exact .ite (.sealAsk (.modKeep h)) (.moverFill h)
  · exact h

theorem State.KeepsWith.savePage (h : s₀.KeepsWith R s) : s₀.KeepsWith R s.savePage :=
  .ite (.ite (.sealAsk (.modKeep h)) (.modKeep h)) h

theorem State.KeepsNext.pageProgramComplete (h : s₀.Keeps s) {k slot ok} : s₀.KeepsNext (execPageProgramComplete k slot ok
    s) := by
  unfold execPageProgramComplete
  refine .next ?_
  split
  · exact h
  · extract_lets s1 s2 s3 _ s4 s5
    have h1 : s₀.Keeps s1 := .savePage (.swapEntry h)
    have h2 : s₀.Keeps s2 := .retireSlot (.dropCopy h)
    have h3 : s₀.Keeps s3 := .markDirty h2
    have h4 : s₀.Keeps s4 := .ite (.ite (.sealAsk h1) h1) (.ite (.copyStart h3) h3)
    have h5 : s₀.Keeps s5 := .ite (.moverFill h4) h4
    exact .ite h (.ite (.waitCheck (.ite (.dropCopy h) (.retireSlot (.dropCopy h)))) (.saveGoes (.ckptGoes h5)))

theorem State.KeepsWith.poisonVersion (h : s₀.KeepsWith R s) {page} : s₀.KeepsWith R (s.poisonVersion page) := by
  unfold State.poisonVersion
  extract_lets _ _ _ _ _
  split
  · extract_lets _ _ s1 s2 s3
    have h1 : s₀.KeepsWith R s1 := .modCourse (.modCourse h)
    have h2 : s₀.KeepsWith R s2 := .modKeep h1
    have h3 : s₀.KeepsWith R s3 := .ask (.add64 h2)
    exact .ite (.retireSlot h3) h3
  · exact h

theorem State.KeepsWith.poisonPages (h : s₀.KeepsWith R s) : s₀.KeepsWith R s.poisonPages := by
  unfold State.poisonPages
  extract_lets s1
  have h1 : s₀.KeepsWith R s1 := .foldl h fun _ _ ht => .poisonVersion ht
  exact .ite h (.ite h1 (.sealAsk h1))

theorem State.KeepsWith.wearFolded (h : s₀.KeepsWith R s) : s₀.KeepsWith R s.wearFolded :=
  .foldl h fun _ _ ht => .ite ht (.wearWritten ht)

theorem State.KeepsWith.sealGoesOn (h : s₀.Keeps s) {r f} : s₀.Keeps (s.sealGoesOn r f) := by
  unfold State.sealGoesOn
  split
  · exact h
  · exact .ckptGoes (.modKeep h)
  · exact .ksEnds (.modKeep (.setReg64 h))
  · exact .ite (.saveGoes (.modKeep h)) (.saveNoKey h)
  · exact .enterSealed h
  · exact .enterSealed (.post h)
  · exact .wearFolded (.modKeep h)
  · exact .modKeep h

theorem State.KeepsNext.sealReadbackDone (h : s₀.Keeps s) {ok0 ok1} : s₀.KeepsNext (execSealReadbackDone ok0 ok1 s) := by
  unfold execSealReadbackDone
  extract_lets _ _
  refine .next ?_
  split
  · exact h
  · extract_lets _ _ s1 s2 s3 s4 s5
    have h1 : s₀.Keeps s1 := .recsWritten h
    have h2 : s₀.Keeps s2 := .modKeep (.modCourse (.modCourse h1))
    have h3 : s₀.Keeps s3 := .setReg64 (.setReg64 h2)
    have h4 : s₀.Keeps s4 := .sealNext (.foldCheck (.poisonPages (.sealGoesOn h3)))
    have h5 : s₀.Keeps s5 := .modKeep (.modCourse (.modCourse h1))
    exact .ite h (.ite (.ite (.saveGoes h4) (.moverFill h4)) (.sealStart h5))

theorem State.KeepsWith.formatKeep (h : s₀.KeepsWith R s) : s₀.KeepsWith R s.formatKeep := by
  unfold State.formatKeep
  extract_lets s1 s2 _ _ s3 s4 s5
  have h1 : s₀.KeepsWith R s1 := .modKeep h
  have h2 : s₀.KeepsWith R s2 := .writeWrap h1
  have h3 : s₀.KeepsWith R s3 := .modKeep h2
  have h4 : s₀.KeepsWith R s4 := .foldl h3 fun _ _ ht => .mapWritten (.mapWritten ht)
  have h5 : s₀.KeepsWith R s5 := .recsWritten h4
  exact .setReg64 (.setReg64 (.recAsked (.recAsked h5)))

theorem State.KeepsWith.stepClose (h : s₀.Keeps s) : s₀.Keeps s.stepClose := .updPwr (.ite h (.setFld h))
theorem State.KeepsWith.stepAt (h : s₀.Keeps s) {n} : s₀.Keeps (s.stepAt n) := .updPwr h
theorem State.KeepsWith.stepsEnd (h : s₀.Keeps s) : s₀.Keeps s.stepsEnd := .updPwr (.stepClose h)
theorem State.KeepsWith.enterReady (h : s₀.Keeps s) : s₀.Keeps s.enterReady :=
  .updPwr (.post (.writeRecord (.modKeep (.setDev (.stepsEnd h)))))
theorem State.KeepsWith.openAccess (h : s₀.Keeps s) : s₀.Keeps s.openAccess := .post (.modKeep (.setDev (.stepsEnd h)))
theorem State.KeepsWith.sharesCome (h : s₀.Keeps s) : s₀.Keeps s.sharesCome := .ite (.modKeep (.updPwr h)) h

theorem State.KeepsWith.restoreBegin (h : s₀.Keeps s) : s₀.Keeps s.restoreBegin := by
  unfold State.restoreBegin
  extract_lets _ s1 _ _ _ _ s2 _ _ s3 s4 _
  have h1 : s₀.Keeps s1 := .modKeep h
  have h2 : s₀.Keeps s2 := .ite (.formatKeep h1) h1
  have h3 : s₀.Keeps s3 := .modKeep h2
  have h4 : s₀.Keeps s4 := .post h3
  exact .ite (.updPwr h4) (.modKeep h4)

theorem State.KeepsWith.mapCheck (h : s₀.KeepsWith R s) : s₀.KeepsWith R s.mapCheck := .ite h (.modKeep h)

theorem State.KeepsWith.keepStep (h : s₀.Keeps s) : s₀.Keeps s.keepStep := by
  unfold State.keepStep
  extract_lets s1 s2 _ _ s3 s4 _ s5 s6
  have h1 : s₀.Keeps s1 := .setReg (.ite h (.stepAt h))
  have h2 : s₀.Keeps s2 := .ite (.post h1) h1
  have h3 : s₀.Keeps s3 := .updPwr h2
  have h4 : s₀.Keeps s4 := .post (.modKeep (.mapCheck h3))
  have h5 : s₀.Keeps s5 := .updPwr h4
  have h6 : s₀.Keeps s6 := .ite (.sealAsk h5) h5
  exact .ite (.ite (.ite (.setDev (.stepsEnd h6)) (.openAccess h6)) (.enterReady h6)) (.restoreBegin h3)

theorem State.KeepsWith.loadImage (h : s₀.KeepsWith R s) {r} : s₀.KeepsWith R (s.loadImage r) :=
  .setReg64 (.setReg64 (.setFld (.setFld (.setFld (.setReg (.modKeep (.setFld (.setFld h))))))))

theorem State.KeepsWith.chooseImage (h : s₀.KeepsWith R s) {read0 read1} : s₀.KeepsWith R (s.chooseImage read0 read1) := by
  unfold State.chooseImage
  extract_lets _ _ _ _ _ _ _ _ _ s1 s2 _ _ _ _ _ _ _ _ _ _ _ s3 s4 s5 s6
  have h1 : s₀.KeepsWith R s1 := .ite (.fenceCourse h) h
  have h2 : s₀.KeepsWith R s2 := .ite (.fenceCourse h1) h1
  have h3 : s₀.KeepsWith R s3 := .modCourse (.modCourse h2)
  have h4 : s₀.KeepsWith R s4 := .modKeep h3
  have h5 : s₀.KeepsWith R s5 := by
    unfold s5
    split
    · exact .setReg64 (.loadImage h4)
    · exact h4
  have h6 : s₀.KeepsWith R s6 := .setFld h5
  exact .ite (.post h6) h6

theorem State.KeepsNext.restoreImageChosen (h : s₀.Keeps s) {read0 read1} : s₀.KeepsNext (execRestoreImageChosen read0 read1 s) :=
  .next (.ite h (.ite (.modKeep h) (.chooseImage h)))

theorem State.KeepsWith.foldImage (h : s₀.KeepsWith R s) {n} : s₀.KeepsWith R (s.foldImage n) := by
  induction n generalizing s with
  | zero => exact h
  | succ n ih =>
    unfold State.foldImage
    extract_lets s1 f0 f1 r0 r1 s2 s3 s4
    have h1 : s₀.KeepsWith R s1 := .foldl h fun _ _ ht => .poisonVersion ht
    have h2 : s₀.KeepsWith R s2 := .recAsked (.recAsked (.recsWritten (.mapsWritten h1)))
    have h3 : s₀.KeepsWith R s3 := .wearFolded (.modKeep (.modCourse (.modCourse h2)))
    have h4 : s₀.KeepsWith R s4 := .setReg64 (.setReg64 h3)
    exact .ite h4 (ih h4)

theorem State.KeepsNext.restoreMapLoaded (h : s₀.Keeps s) : s₀.KeepsNext (execRestoreMapLoaded s) := by
  unfold execRestoreMapLoaded
  extract_lets s1 _ s2 _ s3 s4
  have h1 : s₀.Keeps s1 := .ite h (.foldImage h)
  have h2 : s₀.Keeps s2 := .modKeep h1
  have h3 : s₀.Keeps s3 := .updPwr h2
  have h4 : s₀.Keeps s4 := .ite (.sealAsk h3) h3
  exact .next (.ite h (.ite (.openAccess h4) h4))

theorem State.KeepsNext.hotPassTimeout (h : s₀.Keeps s) : s₀.KeepsNext (execHotPassTimeout s) := .next (.ite (.openAccess h) h)

theorem State.KeepsWith.restorePage (h : s₀.KeepsWith R s) {page bad} : s₀.KeepsWith R (s.restorePage page bad) := by
  unfold State.restorePage
  extract_lets _ _ _ v _ _ s1 s2
  have h1 : s₀.KeepsWith R s1 := by
    unfold s1
    clear_value v
    split
    · exact .memory h (Memory.wf_mpaste _ · _ _)
    · exact .memory h (Memory.wf_tdelRange · _ _)
  have h2 : s₀.KeepsWith R s2 := .ite (.ask h1) (.ask h1)
  exact .ite (.poisonPages (.incFld (.modKeep h2))) h2

theorem State.KeepsWith.restoreUnit (h : s₀.Keeps s) {u bad} : s₀.Keeps (s.restoreUnit u bad) := by
  unfold State.restoreUnit
  extract_lets s1 s2 s3 s4
  have h1 : s₀.Keeps s1 := .foldl h fun _ _ ht => .restorePage ht
  have h2 : s₀.Keeps s2 := .modKeep h1
  have h3 : s₀.Keeps s3 := .ite (.ksRetry h2) h2
  have h4 : s₀.Keeps s4 := .ite h3 (.openAccess h3)
  exact .ite (.enterReady (.post h4)) (.ite (.openAccess h3) h3)

theorem State.KeepsNext.restoreUnitDone (h : s₀.Keeps s) {unit bad} : s₀.KeepsNext (execRestoreUnitDone unit bad s) :=
  .next (.ite h (.restoreUnit h))
theorem State.KeepsNext.touchFetchDone (h : s₀.Keeps s) {unit bad ns} : s₀.KeepsNext (execTouchFetchDone unit bad ns s) :=
  .next (.ite h (.restoreUnit (.modKeep (.maxFld h))))

/-! ### Sensors -/

theorem State.KeepsWith.modSensor (h : s₀.KeepsWith R s) {n f} : s₀.KeepsWith R (s.modSensor n f) := .upd h
theorem State.KeepsWith.modelStart (h : s₀.KeepsWith R s) : s₀.KeepsWith R s.modelStart := .post (.upd h)

/-! ### Supplies and bring-up -/

theorem State.KeepsWith.runFw (h : s₀.KeepsWith R s) {v} : s₀.KeepsWith R (s.runFw v) := .upd (.setReg h)
theorem State.KeepsWith.chansDown (h : s₀.KeepsWith R s) : s₀.KeepsWith R s.chansDown := .upd h

theorem State.KeepsWith.recoveryPorts (h : s₀.KeepsWith R s) {wasOpen} : s₀.KeepsWith R (s.recoveryPorts wasOpen) := by
  unfold State.recoveryPorts
  extract_lets s1
  have h1 : s₀.KeepsWith R s1 := .startOver h
  refine .ite ?_ h
  split
  · exact .leaveActive (.bump h1)
  · exact h1
  · exact .startOver h1

theorem State.KeepsWith.enterRecovery (h : s₀.Keeps s) {cause step f} : s₀.Keeps (s.enterRecovery cause step f) := by
  unfold State.enterRecovery
  extract_lets s1 _ s2 s3 _ s4 _
  have h1 : s₀.Keeps s1 := .setFld (.setFld h)
  have h2 : s₀.Keeps s2 := .updPwr h1
  have h3 : s₀.Keeps s3 := .setDev (.chansDown h2)
  have h4 : s₀.Keeps s4 := .updPwr h3
  exact .post (.recoveryPorts (.updateLintels (.writeRecord h4)))

theorem State.KeepsWith.enterSafe (h : s₀.Keeps s) {test step} : s₀.Keeps (s.enterSafe test step) :=
  .post (.updPwr (.updateLintels (.setDev (.chansDown (.updPwr (.setFld h))))))
theorem State.KeepsWith.enterHold (h : s₀.Keeps s) : s₀.Keeps s.enterHold :=
  .updPwr (.updateLintels (.setDev (.chansDown (.ite (.updPwr h) (.modelStart (.updPwr h))))))
theorem State.KeepsWith.pauseNow (h : s₀.Keeps s) : s₀.Keeps s.pauseNow := .post (.updPwr h)

theorem State.KeepsWith.begin7 (h : s₀.Keeps s) : s₀.Keeps s.begin7 := by
  unfold State.begin7
  extract_lets s1 s2
  have h1 : s₀.Keeps s1 := .stepAt h
  have h2 : s₀.Keeps s2 := .foldl h1 fun _ _ ht => .ite ht (.modChan ht)
  exact .ite h2 (.keepStep (.stepClose h2))

theorem State.KeepsWith.begin6 (h : s₀.Keeps s) : s₀.Keeps s.begin6 := by
  unfold State.begin6
  extract_lets s1 _ s2 s3
  have h1 : s₀.Keeps s1 := .stepAt h
  have h2 : s₀.Keeps s2 := .updPwr h1
  have h3 : s₀.Keeps s3 := .stepClose (.updateLintels h2)
  exact .ite (.pauseNow h3) (.begin7 h3)

theorem State.KeepsWith.countStart {go : State → State} (h : s₀.Keeps s) (hgo : ∀ t, s₀.Keeps t → s₀.Keeps (go t)) {step} : s₀.Keeps
    (s.countStart step go) := by
  unfold State.countStart
  extract_lets _ _ s1 _ s2 _
  have h1 : s₀.Keeps s1 := .updPwr h
  have h2 : s₀.Keeps s2 := .ite (.post h1) h1
  exact .ite (.enterRecovery h2) (hgo _ (.writeRecord h2))

theorem State.KeepsWith.warmGoes (h : s₀.Keeps s) : s₀.Keeps s.warmGoes := by
  unfold State.warmGoes
  refine .countStart (.stepAt h) fun _ ht => ?_
  extract_lets s1 s2
  have h1 : s₀.Keeps s1 := .updateLintels (.stepAt ht)
  have h2 : s₀.Keeps s2 := .wakeChannels h1
  exact .ite h2 (.keepStep (.stepAt h2))

theorem State.KeepsWith.nextStep (h : s₀.Keeps s) : s₀.Keeps s.nextStep := by
  unfold State.nextStep
  extract_lets s1 _
  have h1 : s₀.Keeps s1 := .stepAt h
  refine .ite (.ite (.warmGoes h) (.keepStep (.stepAt h))) ?_
  split
  · exact .updPwr h1
  · exact .begin6 h
  · exact .begin7 h
  · exact .keepStep h
  · exact .stepAt h

theorem State.KeepsWith.stepEnds (h : s₀.Keeps s) : s₀.Keeps s.stepEnds :=
  .ite (.pauseNow (.stepClose h)) (.nextStep (.stepClose h))
theorem State.KeepsWith.resumeBringup (h : s₀.Keeps s) : s₀.Keeps s.resumeBringup :=
  .ite (.nextStep (.ite (.updPwr h) (.updPwr (.updPwr h)))) (.ite (.updPwr h) (.updPwr (.updPwr h)))

theorem State.KeepsWith.bootBegin (h : s₀.Keeps s) {warm} : s₀.Keeps (s.bootBegin warm) := by
  unfold State.bootBegin
  extract_lets _ s1 _ _ s2 s3 s4 _ s5
  have h1 : s₀.Keeps s1 := .setDev (.loadRestart h)
  have h2 : s₀.Keeps s2 := .updPwr h1
  have h3 : s₀.Keeps s3 := .setFld h2
  have h4 : s₀.Keeps s4 := .ite h3 (.post h3)
  have h5 : s₀.Keeps s5 := .ite (.post (.setFld (.updPwr h4))) h4
  exact .updateLintels h5

theorem State.KeepsWith.bootCold (h : s₀.Keeps s) : s₀.Keeps s.bootCold := .updPwr (.chansDown (.clearReg (.bootBegin h)))

theorem State.KeepsWith.bootWarm (h : s₀.Keeps s) : s₀.Keeps s.bootWarm := by
  unfold State.bootWarm
  extract_lets _ s1 s2 _
  have h1 : s₀.Keeps s1 := .bootBegin h
  have h2 : s₀.Keeps s2 := .ite (.modelStart (.runFw h1)) h1
  exact .ite (.warmGoes h2) (.updPwr h2)

theorem State.KeepsWith.tryBoot (h : s₀.Keeps s) {kind} : s₀.Keeps (s.tryBoot kind) :=
  .ite (.ite (.bootWarm h) (.bootCold h)) (.updPwr h)
theorem State.KeepsWith.retryBoot (h : s₀.Keeps s) : s₀.Keeps s.retryBoot := .ite h (.tryBoot h)

theorem State.KeepsNext.resetIntervalEnd (h : s₀.Keeps s) : s₀.KeepsNext (execResetIntervalEnd s) := by
  unfold execResetIntervalEnd
  refine .next ?_
  extract_lets +onlyGivenNames p
  refine .ite h ?_
  -- the state after the record is named, so that the cases by its device state do not compute it
  obtain ⟨u, he, hu⟩ : ∃ u, s.recordReset p.reach p.source p.endpoint p.mask = u ∧ s₀.Keeps u := ⟨_, rfl, .recordReset h⟩
  rw [he]
  extract_lets _ _ s1 s2
  have h1 : s₀.Keeps s1 := .updPwr hu
  have h2 : s₀.Keeps s2 := .ite (.modelStart h1) h1
  split
  · exact h1
  · exact h1
  · exact h1
  · exact .tryBoot h1
  · exact .ite (.enterHold h2) (.ite (.tryBoot h2) (.sealedExit h2))
  · exact .ite (.tryBoot h1) h1
  · exact .ite (.tryBoot h1) h1
  · exact .ite (.enterHold h1) (.ite (.tryBoot h1) (.tryBoot h1))

theorem State.KeepsWith.fullReset (h : s₀.Keeps s) : s₀.Keeps s.fullReset :=
  ⟨fun _ => rfl, fun _ => rfl, fun _ => rfl, (State.KeepsWith.dropCopies h).pending, trivial⟩
theorem State.KeepsNext.vauxLoss (h : s₀.Keeps s) : s₀.KeepsNext (execVauxLoss s) :=
  .next (.ite h (.updPwr (.fullReset (.abortFuse h))))
theorem State.KeepsNext.vauxRise (h : s₀.Keeps s) : s₀.KeepsNext (execVauxRise s) := .next (.ite h (.updPwr (.fullReset h)))
theorem State.KeepsNext.porRelease (h : s₀.Keeps s) {compat sbaddr} : s₀.KeepsNext (execPorRelease compat sbaddr s) :=
  .next (.ite h (.releaseLevel (.modKeep (.updPwr (.setReg h)))))
theorem State.KeepsNext.railGood (h : s₀.Keeps s) {r} : s₀.KeepsNext (execRailGood r s) :=
  .next (.ite h (.ite (.retryBoot (.sealedExit (.releaseLevel (.updPwr h)))) (.updPwr h)))

theorem State.KeepsNext.railUndervoltage (h : s₀.Keeps s) {r} : s₀.KeepsNext (execRailUndervoltage r s) := by
  unfold execRailUndervoltage
  extract_lets _ _ s1 s2 s3 _ s4
  have h1 : s₀.Keeps s1 := .updPwr h
  have h2 : s₀.Keeps s2 := .incFld (.setReg h1)
  have h3 : s₀.Keeps s3 := .post h2
  have h4 : s₀.Keeps s4 := .ite (.updPwr h3) h3
  exact .next (.ite h (.ite (.updPwr h) (.ite (.startSave h3) (.ite (.actReset h4) (.assertReset h4)))))

theorem State.KeepsNext.pwrFailNFall (h : s₀.Keeps s) : s₀.KeepsNext (execPwrFailNFall s) := by
  unfold execPwrFailNFall
  extract_lets _ _ s1 _ s2
  have h1 : s₀.Keeps s1 := .updPwr h
  have h2 : s₀.Keeps s2 := .updPwr h1
  exact .next (.ite h (.ite (.startSave h1) (.ite (.ite (.pauseNow h2) h2) h1)))

theorem State.KeepsNext.pwrFailNRise (h : s₀.Keeps s) : s₀.KeepsNext (execPwrFailNRise s) := .next (.retryBoot (.updPwr h))
theorem State.KeepsWith.holdExit (h : s₀.Keeps s) : s₀.Keeps s.holdExit := .ite (.tryBoot (.post h)) h
theorem State.KeepsNext.powerReturn10ms (h : s₀.Keeps s) : s₀.KeepsNext (execPowerReturn10ms s) :=
  .next (.ite h (.holdExit (.sealedExit (.ite (.resumeBringup (.updPwr h)) (.updPwr h)))))

theorem State.KeepsNext.powerupSelftestDone (h : s₀.Keeps s) {result test step ms} : s₀.KeepsNext (execPowerupSelftestDone result
    test step ms s) := by
  unfold execPowerupSelftestDone
  extract_lets _ _ s1
  have h1 : s₀.Keeps s1 := .setFld (.setFld (.setFld (.setFld (.setFld h))))
  exact .next (.ite h (.ite h1 (.ite (.enterSafe h1) (.ite (.enterHold h1) (.stepEnds h1)))))

theorem State.KeepsNext.fuseLoadCommit (h : s₀.Keeps s) : s₀.KeepsNext (execFuseLoadCommit s) := by
  unfold execFuseLoadCommit
  extract_lets s1 s2
  have h1 : s₀.Keeps s1 := .fuseCommit h
  have h2 : s₀.Keeps s2 := .foldl h1 fun _ _ ht => .ite (.fenceCourse ht) ht
  exact .next (.ite h (.ite (.enterRecovery h2) (.stepEnds h2)))

theorem State.KeepsNext.keepBusTrained (h : s₀.Keeps s) {eyes0 eyes1} : s₀.KeepsNext (execKeepBusTrained eyes0 eyes1 s) :=
  .next (.ite h (.countStart (.trainKeep (.trainKeep h)) fun _ ht => .stepEnds ht))

theorem State.KeepsNext.firmwareStart (h : s₀.Keeps s) : s₀.KeepsNext (execFirmwareStart s) := by
  unfold execFirmwareStart
  refine .next (.ite h ?_)
  split
  · exact .enterRecovery (.runFw h)
  · exact .stepEnds (.fuseRecord (.modelStart (.stickyLocks (.runFw h))))

theorem State.KeepsNext.powerupCalDone (h : s₀.Keeps s) {m} : s₀.KeepsNext (execPowerupCalDone m s) := by
  unfold execPowerupCalDone
  extract_lets s1 s2 s3 s4 _
  have h1 : s₀.Keeps s1 := .calClock (.calRefs h)
  have h2 : s₀.Keeps s2 := .incFld (.calValues h1)
  have h3 : s₀.Keeps s3 := .trainKeep (.trainKeep h2)
  have h4 : s₀.Keeps s4 := .post (.setFld (.calRise h3))
  exact .next (.ite (.calValues (.calClock (.calRefs h))) (.ite h (.ite h1 (.stepEnds (.upd h4)))))

theorem State.KeepsNext.channelTrainingDone (h : s₀.Keeps s) {c eyes stby} : s₀.KeepsNext (execChannelTrainingDone c eyes
    stby s) := by
  unfold execChannelTrainingDone
  extract_lets s1 s2
  have h1 : s₀.Keeps s1 := .trainChan h
  have h2 : s₀.Keeps s2 := .ite (.modChan h1) (.trained h1)
  exact .next (.ite h (.ite h2 (.stepEnds h2)))

theorem State.KeepsNext.startTimeout (h : s₀.Keeps s) : s₀.KeepsNext (execStartTimeout s) :=
  .next (.ite (.assertReset (.post h)) h)
theorem State.KeepsNext.ready60s (h : s₀.Keeps s) : s₀.KeepsNext (execReady60s s) := .next (.ite (.writeRecord (.updPwr h)) h)
theorem State.KeepsWith.recoverExit (h : s₀.Keeps s) {a v} : s₀.Keeps (s.recoverExit a v) :=
  .ite h (.ite (.assertReset (.post (.writeRecord h))) (.ite (.writeRecord h) h))
theorem State.KeepsNext.rstRecoverExit (h : s₀.Keeps s) {a v} : s₀.KeepsNext (execRstRecoverExit a v s) :=
  .next (.cfgWrite h fun _ ht => .recoverExit ht)
theorem State.KeepsWith.blockAsk (h : s₀.Keeps s) {target byFw} : s₀.Keeps (s.blockAsk target byFw) :=
  .ite (.setFld h) (.ite (.idleAsked (.updPwr h)) (.updPwr h))
theorem State.KeepsWith.blkreq (h : s₀.Keeps s) {a v} : s₀.Keeps (s.blkreq a v) := .ite h (.ite (.blockAsk (.setFld h)) (.setFld h))
theorem State.KeepsNext.rstBlkreq (h : s₀.Keeps s) {a v} : s₀.KeepsNext (execRstBlkreq a v s) :=
  .next (.cfgWrite h fun _ ht => .blkreq ht)

theorem State.KeepsWith.blockChannel (h : s₀.KeepsWith R s) {c} : s₀.KeepsWith R (s.blockChannel c).1 := by
  unfold State.blockChannel
  extract_lets s1 s2 s3 s4 s5
  have h1 : s₀.KeepsWith R s1 := .abandonVisits h
  have h2 : s₀.KeepsWith R s2 := by
    unfold s2
    split
    · exact .ite (.cutSlice h1) h1
    · exact h1
  have h3 : s₀.KeepsWith R s3 := .ite (.idleFails h2) h2
  have h4 : s₀.KeepsWith R s4.1 := .withdraw h3
  have h5 : s₀.KeepsWith R s5 := .modChan h4
  dsimp only
  split
  · exact .exitSref h5
  · exact .ite h5 (.modChan h5)
  · exact h5

theorem State.KeepsWith.blockKeep (h : s₀.KeepsWith R s) : s₀.KeepsWith R (s.blockKeep).1 := by
  unfold State.blockKeep
  extract_lets _ _ s1 _ s2 s3 s4 s5 s6 s7
  have h1 : s₀.KeepsWith R s1 := .armEnds (.moverOpsEnd h)
  have h2 : s₀.KeepsWith R s2 := .upd h1
  have h3 : s₀.KeepsWith R s3 := .foldl h2 fun _ _ ht => .ksEnds ht
  have h4 : s₀.KeepsWith R s4 := .abandonVisits h3
  have h5 : s₀.KeepsWith R s5 := .abandonCopies h4
  have h6 : s₀.KeepsWith R s6 := .dropCopies h5
  have h7 : s₀.KeepsWith R s7 := .abandonSeal h6
  exact .ite (.sealAsk h7) h7

theorem State.KeepsWith.bistOpsLeave (h : s₀.KeepsWith R s) : s₀.KeepsWith R s.bistOpsLeave := .upd h
theorem State.KeepsWith.blockKeystone (h : s₀.Keeps s) : s₀.Keeps (s.blockKeystone).1 :=
  .updPwr (.ksAborted (.emptyLatch (.bistOpsLeave (.moverOpsEnd h))))
theorem State.KeepsWith.blockSlicer (h : s₀.KeepsWith R s) : s₀.KeepsWith R (s.blockSlicer).1 :=
  .foldl (.stopSlicer (.upd (.upd h))) fun _ _ ht => .ksEnds ht

theorem State.KeepsWith.blockReset (h : s₀.Keeps s) {target} : s₀.Keeps (s.blockReset target).1 :=
  .ite_fst (.blockChannel h) (.ite_fst (.resetQueues h) (.ite_fst (.abortJobs h) (.ite_fst (.blockKeep h) (.ite_fst (.setReg h)
    (.ite_fst (.blockSlicer h) (.blockKeystone h))))))

theorem State.KeepsNext.blockUnitIdle (h : s₀.Keeps s) {timeout} : s₀.KeepsNext (execBlockUnitIdle timeout s) := by
  unfold execBlockUnitIdle
  extract_lets _ s1
  have h1 : s₀.Keeps s1 := .updPwr h
  refine .next ?_
  split
  · exact h
  · extract_lets s2 s3 s4 s5 s6 _ s7
    have h2 : s₀.Keeps s2.1 := .blockReset h1
    have h3 : s₀.Keeps s3.1 := .ite (.slicerBack h2) h2
    have h4 : s₀.Keeps s4 := .emptyLatchesOf h3
    have h5 : s₀.Keeps s5 := .setFld h4
    have h6 : s₀.Keeps s6 := .setFld (.setFld (.setFld h5))
    have h7 : s₀.Keeps s7 := .recordReset h6
    exact .ite h (.ite (.post h7) h7)

theorem State.KeepsNext.keystoneRestartDone (h : s₀.Keeps s) {started} : s₀.KeepsNext (execKeystoneRestartDone started s) := by
  unfold execKeystoneRestartDone
  extract_lets _ _ op _ s1 s2 s3
  have h1 : s₀.Keeps s1 := .updPwr h
  have h2 : s₀.Keeps s2 := .runFw h1
  have h3 : s₀.Keeps s3 := .ite h2 (.modelStart h2)
  clear_value op
  refine .next (.ite h ?_)
  split
  · exact .ksEnds h3
  · exact h3

/-! ### A nanosecond without a command -/

theorem State.KeepsWith.heldTick (h : s₀.KeepsWith R s) : s₀.KeepsWith R s.heldTick :=
  .foldl h fun _ _ ht => .ite (.ite (.incFld (.upd ht)) (.upd ht)) ht
theorem State.KeepsWith.tick (h : s₀.KeepsWith R s) : s₀.KeepsWith R s.tick := .upd (.heldTick h)
theorem State.KeepsWith.idleFlit (h : s₀.KeepsWith R s) {p} : s₀.KeepsWith R (s.idleFlit p) := .ite (.txIdle h) h
theorem State.KeepsWith.idle (h : s₀.KeepsWith R s) : s₀.KeepsWith R s.idle := .foldl (.tick h) fun _ _ ht => .idleFlit ht

/-! ### Descriptors and the operations they ask for -/

theorem State.KeepsWith.handOver (h : s₀.KeepsWith R s) {o} : s₀.KeepsWith R (s.handOver o) := by
  unfold State.handOver
  refine .ite (.complete h) (.ite (.hostError h) (.ite ?_ (.ite ?_ (.ite (.upd h) (.complete h)))))
  · split
    · exact .startRun h
    · exact h
  · split
    · exact .startCopy h
    · exact h

theorem State.KeepsWith.dispatch (h : s₀.KeepsWith R s) {q} : s₀.KeepsWith R (s.dispatch q) := by
  unfold State.dispatch
  split
  · exact h
  · exact .handOver (.upd (.modQueue h))

theorem State.KeepsNext.descriptorDispatch (h : s₀.Keeps s) : s₀.KeepsNext (execDescriptorDispatch s) := by
  unfold execDescriptorDispatch
  refine .next ?_
  split
  · exact .dispatch h
  · exact h

theorem State.KeepsWith.ksGo {go : State → Op → State} (h :
    s₀.KeepsWith R s) (hgo : ∀ t x0, s₀.KeepsWith R t → s₀.KeepsWith R (go t x0)) {q d} :
    s₀.KeepsWith R (s.ksGo q d go) := by
  unfold State.ksGo
  split
  · exact h
  · exact .ite (hgo _ _ (.upd h)) h

theorem State.KeepsWith.dispatchDesc (h : s₀.KeepsWith R s) {q d opc} : s₀.KeepsWith R (s.dispatchDesc q d opc) :=
  .ite h (.ite (.dispatch h) h)

theorem State.KeepsWith.perform {go : State → Op → State} (h :
    s₀.KeepsWith R s) (hgo : ∀ t x0, s₀.KeepsWith R t → s₀.KeepsWith R (go t x0)) {q d opc} :
    s₀.KeepsWith R (s.perform q d opc go) :=
  .ite h (.ite (.ksGo h hgo) (.ksGo (.dispatchDesc h) hgo))

theorem State.KeepsNext.nop (h : s₀.Keeps s) {q d} : s₀.KeepsNext (execNop q d s) := .next (.dispatchDesc h)
theorem State.KeepsNext.fence (h : s₀.Keeps s) {q d} : s₀.KeepsNext (execFence q d s) := .next (.dispatchDesc h)
theorem State.KeepsNext.chiselRun (h : s₀.Keeps s) {q d} : s₀.KeepsNext (execChiselRun q d s) := .next (.dispatchDesc h)
theorem State.KeepsNext.copy (h : s₀.Keeps s) {q d} : s₀.KeepsNext (execCopy q d s) := .next (.dispatchDesc h)
theorem State.KeepsNext.fill (h : s₀.Keeps s) {q d} : s₀.KeepsNext (execFill q d s) := .next (.dispatchDesc h)

theorem State.KeepsWith.checkpoint (h : s₀.KeepsWith R s) {o} : s₀.KeepsWith R (s.checkpoint o) := by
  unfold State.checkpoint
  extract_lets _ s1
  have h1 : s₀.KeepsWith R s1 := .modKeep h
  exact .ite (.ksEnds h) (.ite (.ksEnds h) (.ite (.ksEnds h) (.ite (.ckptGoes (.modKeep h1)) (.sealAsk h1))))

theorem State.KeepsNext.keepCheckpoint (h : s₀.Keeps s) {q d} : s₀.KeepsNext (execKeepCheckpoint q d s) :=
  .next (.perform h fun _ _ ht => .checkpoint ht)
theorem State.KeepsWith.armWaits (h : s₀.KeepsWith R s) {o} : s₀.KeepsWith R (s.armWaits o) := .modKeep (.upd h)

theorem State.KeepsWith.keepArm (h : s₀.KeepsWith R s) {o} : s₀.KeepsWith R (s.keepArm o) := by
  unfold State.keepArm
  extract_lets s1
  have h1 : s₀.KeepsWith R s1 := .ite (.newEpoch h) h
  split
  · exact .ksEnds h
  · exact .ksEnds h
  · split
    · exact .ksEnds h
    · exact .armWaits h
  · split
    · exact .ksEnds h
    · exact .ite (.ksEnds h) (.ite (.ksEnds h) (.armFollows (.armWaits (.modKeep h1))))

theorem State.KeepsNext.keepArm (h : s₀.Keeps s) {q d} : s₀.KeepsNext (execKeepArm q d s) :=
  .next (.perform h fun _ _ ht => .keepArm ht)
theorem State.KeepsWith.keepDisarm (h : s₀.KeepsWith R s) {o} : s₀.KeepsWith R (s.keepDisarm o) :=
  .ite (.ksEnds h) (.ksEnds (.disarm h))
theorem State.KeepsNext.keepDisarm (h : s₀.Keeps s) {q d} : s₀.KeepsNext (execKeepDisarm q d s) :=
  .next (.perform h fun _ _ ht => .keepDisarm ht)
theorem State.KeepsNext.keepStatus (h : s₀.Keeps s) {q d} : s₀.KeepsNext (execKeepStatus q d s) :=
  .next (.perform h fun _ _ ht => .ksWrite ht)

theorem State.KeepsWith.shareOffer (h : s₀.Keeps s) {o} : s₀.Keeps (s.shareOffer o) := by
  unfold State.shareOffer
  refine .ite (.ksEnds h) ?_
  split
  · exact .ksEnds (.sharesCome (.modKeep h))
  · exact .ite (.ksEnds h) (.ite (.ksEnds (.modKeep h)) (.ksEnds (.post (.incFld h))))

theorem State.KeepsNext.keyShareSupply (h : s₀.Keeps s) {q d} : s₀.KeepsNext (execKeyShareSupply q d s) :=
  .next (.perform h fun _ _ ht => .ite (.shareOffer ht) (.upd ht))
theorem State.KeepsWith.shareClear (h : s₀.KeepsWith R s) {o} : s₀.KeepsWith R (s.shareClear o) :=
  .ite (.ksEnds h) (.ite (.ksEnds (.modKeep h)) (.ksEnds h))
theorem State.KeepsNext.keyShareClear (h : s₀.Keeps s) {q d} : s₀.KeepsNext (execKeyShareClear q d s) :=
  .next (.perform h fun _ _ ht => .ite (.shareClear ht) (.upd ht))
theorem State.KeepsWith.characterize (h : s₀.KeepsWith R s) {o} : s₀.KeepsWith R (s.characterize o) :=
  .ite (.ksEnds h) (.ite (.ksEnds h) (.ite (.ksEnds h) (.moverFill (.modKeep h))))
theorem State.KeepsNext.holdupCharacterize (h : s₀.Keeps s) {q d} : s₀.KeepsNext (execHoldupCharacterize q d s) :=
  .next (.perform h fun _ _ ht => .characterize ht)
theorem State.KeepsWith.bistRequest (h : s₀.KeepsWith R s) {o} : s₀.KeepsWith R (s.bistRequest o) :=
  .ite (.ksEnds h) (.ite (.ksEnds h) (.upd h))
theorem State.KeepsNext.bistRequest (h : s₀.Keeps s) {q d} : s₀.KeepsNext (execBistRequest q d s) :=
  .next (.perform h fun _ _ ht => .bistRequest ht)
theorem State.KeepsWith.telemetry (h : s₀.KeepsWith R s) {o} : s₀.KeepsWith R (s.telemetry o) := .ksWrite (.bump h)
theorem State.KeepsNext.telemetrySnapshot (h : s₀.Keeps s) {q d} : s₀.KeepsNext (execTelemetrySnapshot q d s) :=
  .next (.perform h fun _ _ ht => .telemetry ht)
theorem State.KeepsWith.repairQuery (h : s₀.KeepsWith R s) {o} : s₀.KeepsWith R (s.repairQuery o) := .ksWrite h
theorem State.KeepsNext.repairQuery (h : s₀.Keeps s) {q d} : s₀.KeepsNext (execRepairQuery q d s) :=
  .next (.perform h fun _ _ ht => .repairQuery ht)
theorem State.KeepsWith.fwStage (h : s₀.KeepsWith R s) {obs o} : s₀.KeepsWith R (State.fwStage obs s o) :=
  .ite (.ksEnds h) (.ksRead h)
theorem State.KeepsNext.fwStage (h : s₀.Keeps s) {q d obs} : s₀.KeepsNext (execFwStage q d obs s) :=
  .next (.perform h fun _ _ ht => .fwStage ht)
theorem State.KeepsWith.fwActivate (h : s₀.Keeps s) {o} : s₀.Keeps (s.fwActivate o) := .ite (.ksEnds h) (.updPwr (.emptyLatch h))
theorem State.KeepsNext.fwActivate (h : s₀.Keeps s) {q d} : s₀.KeepsNext (execFwActivate q d s) :=
  .next (.perform h fun _ _ ht => .fwActivate ht)

/-! ### Responses and reset packets -/

theorem State.KeepsWith.readAnswered (h : s₀.KeepsWith R s) {o n status bs} : s₀.KeepsWith R (s.readAnswered o n status bs) :=
  .ite h (.ite (.copyArrive h) (.ite (.resend h) (.copyEnd (.jobFail h))))
theorem State.KeepsWith.writeAnswered (h : s₀.KeepsWith R s) {o n status} : s₀.KeepsWith R (s.writeAnswered o n status) :=
  .ite h (.ite (.ite (.copyEnd (.modJob h)) h) (.ite (.resend h) (.ite (.copyEnd (.jobFail h)) (.jobFail h))))

theorem State.KeepsWith.handRsp (h : s₀.KeepsWith R s) {o status bs} : s₀.KeepsWith R (s.handRsp o status bs) := by
  unfold State.handRsp
  extract_lets _ s1
  have h1 : s₀.KeepsWith R s1 := .upd h
  split
  · exact .fetchDone h1
  · exact .ite h1 (.queueError h1)
  · exact .ite h1 (.ite (.finishJob h1) (.ite (.programHeader h1) h1))
  · exact .readAnswered h1
  · exact .writeAnswered h1
  · exact .ite (.resend h1) (.ksAnswered h1)

theorem State.KeepsWith.matchRsp (h : s₀.KeepsWith R s) {k} : s₀.KeepsWith R (s.matchRsp k) := by
  unfold State.matchRsp
  split
  · exact .handRsp h
  · exact .incFld h

theorem State.KeepsNext.rspReceived (h : s₀.Keeps s) {p k} : s₀.KeepsNext (execRspReceived p k s) :=
  .next (.ite (.matchRsp (.upd h)) (.ite h (.ite (.hopOn h) (.ite (.dropLocal h) (.ite (.transit h) (.matchRsp (.takeRx h)))))))

theorem State.KeepsNext.responseTimeout (h : s₀.Keeps s) {tag} : s₀.KeepsNext (execResponseTimeout tag s) := by
  unfold execResponseTimeout
  refine .next ?_
  split
  · exact h
  · exact .handRsp (.post h)

theorem State.KeepsNext.keepRecoveryDone (h : s₀.Keeps s) {granule slotOk} : s₀.KeepsNext (execKeepRecoveryDone granule
    slotOk s) := by
  unfold execKeepRecoveryDone
  refine .next ?_
  split
  · exact h
  · exact .ite h (.ask (.ksRetry (.finishRecovery h)))

theorem State.KeepsWith.refuseRst (h : s₀.KeepsWith R s) {p k} : s₀.KeepsWith R (s.refuseRst p k) := .post (.answer h)

theorem State.KeepsWith.rstStart (h : s₀.Keeps s) : s₀.Keeps s.rstStart := by
  unfold State.rstStart
  extract_lets _ _ s1
  have h1 : s₀.Keeps s1 := .updPwr h
  split
  · exact h
  · exact .ite h1 (.ite (.ite (.deferReset h1) (.portReset h1)) (.assertReset h1))

theorem State.KeepsNext.rstPacket (h : s₀.Keeps s) {p k} : s₀.KeepsNext (execRstPacket p k s) := by
  unfold execRstPacket
  extract_lets s1 s2 s3 s4 _
  have h1 : s₀.Keeps s1 := .takeRx h
  have h2 : s₀.Keeps s2 := .rstStart h1
  have h3 : s₀.Keeps s3 := .setFld (.setFld (.setFld (.setFld h2)))
  have h4 : s₀.Keeps s4 := .answer (.post h3)
  exact .next (.ite h (.ite (.hopOn h) (.ite (.ite (.answer (.takeRx h)) (.refuseRst (.takeRx h))) (.ite (.transit h) (.ite
    (.answer h1) (.ite (.refuseRst h1) (.upd h4)))))))

theorem State.KeepsNext.rstPacketResetStart (h : s₀.Keeps s) : s₀.KeepsNext (execRstPacketResetStart s) := .next (.rstStart h)
theorem State.KeepsWith.writeCoord (h : s₀.KeepsWith R s) {v} : s₀.KeepsWith R (s.writeCoord v) := .setFld (.writeAcc h)
theorem State.KeepsNext.ltcCoordWrite (h : s₀.Keeps s) {a v} : s₀.KeepsNext (execLtcCoordWrite a v s) :=
  .next (.cfgWrite h fun _ ht => .writeCoord ht)
theorem State.KeepsWith.writeAuthLock (h : s₀.KeepsWith R s) {v} : s₀.KeepsWith R (s.writeAuthLock v) := .ite (.setFld h) h
theorem State.KeepsNext.ltcRstauthLockWrite (h : s₀.Keeps s) {a v} : s₀.KeepsNext (execLtcRstauthLockWrite a v s) :=
  .next (.cfgWrite h fun _ ht => .writeAuthLock ht)

/-! ### Temperature -/

theorem State.KeepsNext.segmentSample (h : s₀.Keeps s) {r} : s₀.KeepsNext (execSegmentSample r s) :=
  .next (.ite h (.ite (.upd h) (.upd h)))
theorem State.KeepsWith.failSensor (h : s₀.KeepsWith R s) {n} : s₀.KeepsWith R (s.failSensor n) := .ite h (.post (.modSensor h))
theorem State.KeepsWith.convert (h : s₀.KeepsWith R s) {n v} : s₀.KeepsWith R (s.convert n v) :=
  .modSensor (.ite (.failSensor h) (.modSensor h))

theorem State.KeepsWith.shutdown (h : s₀.Keeps s) {pos sens} : s₀.Keeps (s.shutdown pos sens) := by
  have trip {u : State} {f g k : Fld} {a b c v w d : Nat} (hu : s₀.Keeps u) :
      s₀.Keeps ((((u.incFld f 1).setFld g a).setFld k b).post c v w d) := .post (.setFld (.setFld (.incFld hu)))
  unfold State.shutdown
  refine .ite (.ite (.assertReset (.updPwr (trip (.updPwr h)))) (.assertReset (.startSave (trip (.updPwr h))))) ?_
  split
  · exact .assertReset (trip (.updPwr h))
  · exact .assertReset (.updPwr (trip (.updPwr h)))
  · exact .assertReset (.updPwr (trip (.updPwr h)))
  · exact trip (.updPwr h)

theorem State.KeepsWith.comparators (h : s₀.Keeps s) : s₀.Keeps s.comparators := by
  unfold State.comparators
  refine .ite h ?_
  split
  · exact .shutdown h
  · exact h

theorem State.KeepsNext.sensorConversion (h : s₀.Keeps s) {r} : s₀.KeepsNext (execSensorConversion r s) := by
  unfold execSensorConversion
  refine .next (.ite h (.comparators (.foldl h fun _ _ ht => ?_)))
  split
  · exact .convert ht
  · exact ht

theorem State.KeepsNext.sensorNoConversion (h : s₀.Keeps s) {n} : s₀.KeepsNext (execSensorNoConversion n s) :=
  .next (.ite h (.failSensor h))
theorem State.KeepsWith.writeSensmask (h : s₀.KeepsWith R s) {n v} : s₀.KeepsWith R (s.writeSensmask n v) := .setReg h
theorem State.KeepsNext.thmSensmaskWrite (h : s₀.Keeps s) {a n v} : s₀.KeepsNext (execThmSensmaskWrite a n v s) :=
  .next (.cfgWrite h fun _ ht => .writeSensmask ht)

theorem State.KeepsWith.checkSensors (h : s₀.KeepsWith R s) : s₀.KeepsWith R s.checkSensors := by
  unfold State.checkSensors
  refine .foldl h fun _ _ ht => ?_
  extract_lets _ _ _
  split
  · exact .modSensor ht
  · exact .ite (.post (.modSensor ht)) (.modSensor ht)

theorem State.KeepsWith.estimate (h : s₀.KeepsWith R s) : s₀.KeepsWith R s.estimate := by
  unfold State.estimate
  extract_lets _ _ s1
  have h1 : s₀.KeepsWith R s1 := .upd h
  refine .foldl h1 fun _ _ ht => ?_
  split
  · exact ht
  · exact .ite (.setFld ht) ht

theorem State.KeepsWith.bandUpdate (h : s₀.KeepsWith R s) {d} : s₀.KeepsWith R (s.bandUpdate d) := by
  unfold State.bandUpdate
  extract_lets _ _ _
  split
  · exact .upd h
  · exact .setBand (.upd h)

theorem State.KeepsWith.stepUpdate (h : s₀.KeepsWith R s) {pos} : s₀.KeepsWith R (s.stepUpdate pos) := by
  unfold State.stepUpdate
  extract_lets _ _ _ _ _ _ s1 s2
  have h1 : s₀.KeepsWith R s1 := .upd h
  have h2 : s₀.KeepsWith R s2 := .ite (.post h1) (.ite (.post h1) h1)
  exact .ite h2 (.post h2)

theorem State.KeepsWith.countSteps (h : s₀.KeepsWith R s) : s₀.KeepsWith R s.countSteps := .ite (.ite (.upd h) (.incFld (.upd h))) h
theorem State.KeepsWith.coolUpdate (h : s₀.Keeps s) : s₀.Keeps s.coolUpdate := .holdExit (.ite (.updPwr (.updPwr h)) (.updPwr h))

theorem State.KeepsWith.thermalActs (h : s₀.Keeps s) : s₀.Keeps s.thermalActs := by
  unfold State.thermalActs
  extract_lets _ s1 s2 s3 _ s4 s5 s6 _
  have h1 : s₀.Keeps s1 := .foldl h fun _ _ ht => .bandUpdate ht
  have h2 : s₀.Keeps s2 := .foldl h1 fun _ _ ht => .stepUpdate ht
  have h3 : s₀.Keeps s3 := .countSteps (.updateScale h2)
  have h4 : s₀.Keeps s4 := .foldl h3 fun _ _ ht => .thermalJobs ht
  have h5 : s₀.Keeps s5 := .ite h4 (.bistThermal h4)
  have h6 : s₀.Keeps s6 := .coolUpdate (.keepHeat h5)
  split
  · exact .ite (.ite h6 (.updPwr h6)) (.ite h6 (.shutdown h6))
  · exact h6

theorem State.KeepsWith.lidUpdate (h : s₀.KeepsWith R s) {aim} : s₀.KeepsWith R (s.lidUpdate aim) :=
  .ite (.upd h) (.ite (.post (.upd h)) (.upd h))
theorem State.KeepsNext.thermalModelUpdate (h : s₀.Keeps s) {nodes lid} : s₀.KeepsNext (execThermalModelUpdate nodes lid s) :=
  .next (.ite h (.thermalActs (.estimate (.checkSensors (.lidUpdate (.upd h))))))
theorem State.KeepsNext.hwEstimateUpdate (h : s₀.Keeps s) : s₀.KeepsNext (execHwEstimateUpdate s) :=
  .next (.ite h (.thermalActs (.estimate h)))

/-! ### The reference clock -/

theorem State.KeepsWith.clockStops (h : s₀.KeepsWith R s) {c} : s₀.KeepsWith R (s.clockStops c) :=
  .ite (.modChan h) (.ite (.modChan (.rowsClose h)) (.post (.modChan (.rowsClose h))))

theorem State.KeepsNext.refclkLoss (h : s₀.Keeps s) : s₀.KeepsNext (execRefclkLoss s) := by
  unfold execRefclkLoss
  extract_lets _ s1 s2 s3 s4
  have h1 : s₀.Keeps s1 := .upd h
  have h2 : s₀.Keeps s2 := .post h1
  have h3 : s₀.Keeps s3 := .ite (.setFld h2) h2
  have h4 : s₀.Keeps s4 := .foldl h3 fun _ _ ht => .ite (.leaveActive ht) ht
  exact .next (.ite h (.ite h1 (.foldl h4 fun _ _ ht => .clockStops ht)))

theorem State.KeepsNext.refclkReturn (h : s₀.Keeps s) : s₀.KeepsNext (execRefclkReturn s) :=
  .next (.ite h (.ite (.upd h) (.setFld (.upd h))))

/-! ### Semaphores and events -/

theorem State.KeepsWith.semCommand (h : s₀.KeepsWith R s) {a n cmd epoch} : s₀.KeepsWith R (s.semCommand a n cmd epoch) := .upd h
theorem State.KeepsNext.semAcquire (h : s₀.Keeps s) {a n epoch} : s₀.KeepsNext (execSemAcquire a n epoch s) :=
  .next (.cfgWrite h fun _ ht => .semCommand ht)
theorem State.KeepsNext.semRelease (h : s₀.Keeps s) {a n epoch} : s₀.KeepsNext (execSemRelease a n epoch s) :=
  .next (.cfgWrite h fun _ ht => .semCommand ht)
theorem State.KeepsNext.semRenew (h : s₀.Keeps s) {a n epoch} : s₀.KeepsNext (execSemRenew a n epoch s) :=
  .next (.cfgWrite h fun _ ht => .semCommand ht)
theorem State.KeepsNext.semLeaseExpiry (h : s₀.Keeps s) {n} : s₀.KeepsNext (execSemLeaseExpiry n s) := .next (.upd h)
theorem State.KeepsWith.session (h : s₀.KeepsWith R s) {a epoch} : s₀.KeepsWith R (s.session a epoch) := .breakSems h
theorem State.KeepsNext.ksSessionWrite (h : s₀.Keeps s) {a epoch} : s₀.KeepsNext (execKsSessionWrite a epoch s) :=
  .next (.cfgWrite h fun _ ht => .session ht)
theorem State.KeepsWith.writeAck (h : s₀.KeepsWith R s) {v} : s₀.KeepsWith R (s.writeAck v) := .ibiEdge (.setReg h)
theorem State.KeepsNext.evtAckSeqWrite (h : s₀.Keeps s) {a v} : s₀.KeepsNext (execEvtAckSeqWrite a v s) :=
  .next (.cfgWrite h fun _ ht => .writeAck ht)

theorem State.KeepsNext.eventMsgDeferredSend (h : s₀.Keeps s) {n} : s₀.KeepsNext (execEventMsgDeferredSend n s) := by
  unfold execEventMsgDeferredSend
  extract_lets _ _ _ s1
  have h1 : s₀.Keeps s1 := .upd h
  refine .next ?_
  split
  · exact h
  · exact .ite (.injectMsg h1) h1

/-! ### The register switch -/

theorem State.KeepsWith.writeKs (h : s₀.KeepsWith R s) {a r v} : s₀.KeepsWith R (s.writeKs a r v) := by
  unfold State.writeKs
  split
  · exact .semCommand h
  · exact .ite (.session h) (.writeAcc h)

theorem State.KeepsWith.writeRst (h : s₀.Keeps s) {a r v} : s₀.Keeps (s.writeRst a r v) :=
  .ite (.rstCmd h) (.ite (.recoverExit h) (.ite (.blkreq h) (.writeAcc h)))
theorem State.KeepsWith.writeFus (h : s₀.KeepsWith R s) {a r v} : s₀.KeepsWith R (s.writeFus a r v) :=
  .ite (.writeLock h) (.ite (.setReg h) (.ite (.pgCommand h) (.ite (.rawRead h) (.writeAcc h))))

theorem State.KeepsWith.writeLnk (h : s₀.KeepsWith R s) {r v} : s₀.KeepsWith R (s.writeLnk r v) := by
  unfold State.writeLnk
  split
  · exact .lnkCtlWrite h
  · exact .ite (.updateLintels (.writeAcc h)) (.writeAcc h)

theorem State.KeepsWith.writeLtc (h : s₀.KeepsWith R s) {r v} : s₀.KeepsWith R (s.writeLtc r v) :=
  .ite (.writeCoord h) (.ite (.writeAuthLock h) (.ite h (.writeAcc h)))
theorem State.KeepsWith.writeWq (h : s₀.KeepsWith R s) {a r v} : s₀.KeepsWith R (s.writeWq a r v) :=
  .ite (.writeCfg h) (.ite (.writeBase h) (.ite (.sqBell h) (.ite (.cqBell h) (.ite (.writeGctl h) (.writeAcc h)))))

theorem State.KeepsWith.writeMc (h : s₀.KeepsWith R s) {r v} : s₀.KeepsWith R (s.writeMc r v) := by
  unfold State.writeMc
  split
  · exact .ite (.dlyCommit h) h
  · exact .ite (.writeAcc h) (.setFld (.writeAcc h))
  · exact .writeAcc h

theorem State.KeepsWith.writeChs (h : s₀.KeepsWith R s) {r v} : s₀.KeepsWith R (s.writeChs r v) :=
  .ite (.setFld (.writeAcc h)) (.writeAcc h)
theorem State.KeepsWith.writeMtr (h : s₀.KeepsWith R s) {r v} : s₀.KeepsWith R (s.writeMtr r v) :=
  .ite (.ite (.mtrCommit h) h) (.writeAcc h)
theorem State.KeepsWith.writeKeep (h : s₀.KeepsWith R s) {r v} : s₀.KeepsWith R (s.writeKeep r v) :=
  .ite (.writeAcc h) (.ite (.writeHoldcap h) (.ite (.holdSetup (.writeAcc h)) (.ite h (.writeAcc h))))

theorem State.KeepsWith.writeInt (h : s₀.KeepsWith R s) {r v} : s₀.KeepsWith R (s.writeInt r v) := by
  unfold State.writeInt
  split
  · exact .writeCelog h
  · exact .writeAcc h

theorem State.KeepsWith.writeThm (h : s₀.KeepsWith R s) {r v} : s₀.KeepsWith R (s.writeThm r v) := by
  unfold State.writeThm
  split
  · exact .writeSensmask h
  · exact .ite h (.setFld h)
  · exact .writeAcc h

theorem State.KeepsWith.writeCal (h : s₀.KeepsWith R s) {r v} : s₀.KeepsWith R (s.writeCal r v) := by
  unfold State.writeCal
  extract_lets s1
  have h1 : s₀.KeepsWith R s1 := .writeAcc h
  refine .ite (.ite (.writeAcc h) h) (.ite (.ite (.writeAcc h) h) (.ite (.ite (.writeAcc h) h) (.ite (.ite (.writeAcc h) h) (.ite
    (.ite (.keepCommit h) h) (.ite (.ite (.keepCommit h) h) ?_)))))
  split
  · exact .ite h1 (.setFld h1)
  · exact .writeAcc h

theorem State.KeepsWith.writeBst (h : s₀.KeepsWith R s) {r v} : s₀.KeepsWith R (s.writeBst r v) := by
  unfold State.writeBst
  refine .ite (.writeAcc h) ?_
  split
  · exact .upd h
  · exact .writeAcc h

theorem State.KeepsWith.writeEvt (h : s₀.KeepsWith R s) {r v} : s₀.KeepsWith R (s.writeEvt r v) := .ite (.writeAck h) (.writeAcc h)

theorem State.KeepsWith.regWrite (h : s₀.Keeps s) {a r v} : s₀.Keeps (s.regWrite a r v) := by
  unfold State.regWrite
  split
  · exact h
  · split
    · exact .writeKs h
    · exact .writeRst h
    · exact .writeFus h
    · exact .writeLnk h
    · exact .writeLtc h
    · exact .writeWq h
    · exact .writeMc h
    · exact .writeMtr h
    · exact .writeChs h
    · exact .writeKeep h
    · exact .writeInt h
    · exact .writeThm h
    · exact .writeCal h
    · exact .writeBst h
    · exact .writeEvt h
    · exact .writeAcc h

theorem State.KeepsWith.setLatch (h : s₀.KeepsWith R s) {a l} : s₀.KeepsWith R (s.setLatch a l) := .upd h
theorem State.KeepsWith.write64 (h : s₀.KeepsWith R s) {lo low high} : s₀.KeepsWith R (s.write64 lo low high) :=
  .ite (.upd h) (.writeAcc (.writeAcc h))

theorem State.KeepsWith.busRead (h : s₀.KeepsWith R s) {a r} : s₀.KeepsWith R (s.busRead a r).1 := by
  unfold State.busRead
  refine .ite_fst (.setLatch h) (.ite_fst ?_ (.ite_fst h h))
  split <;> exact h

theorem State.KeepsWith.busWrite (h : s₀.Keeps s) {a r v} : s₀.Keeps (s.busWrite a r v).1 := by
  unfold State.busWrite
  refine .ite_fst (.setLatch h) (.ite_fst ?_ (.regWrite h))
  split
  · exact .write64 (.setLatch h)
  · exact h

theorem State.KeepsWith.cfgRead (h : s₀.KeepsWith R s) {a addr} : s₀.KeepsWith R (s.cfgRead a addr) := by
  unfold State.cfgRead
  refine .portGate h fun _ ht => ?_
  split
  · exact .respond ht
  · exact .ite (.respond (.busRead ht)) (.respond ht)

theorem State.KeepsWith.cfgStore (h : s₀.Keeps s) {a addr v} : s₀.Keeps (s.cfgStore a addr v) := by
  unfold State.cfgStore
  split
  · exact .portGate h fun _ ht => .respond ht
  · exact .cfgWriteSt h fun _ ht => .busWrite ht

theorem State.KeepsNext.regLoRead (h : s₀.Keeps s) {a addr} : s₀.KeepsNext (execRegLoRead a addr s) := .next (.cfgRead h)
theorem State.KeepsNext.regHiRead (h : s₀.Keeps s) {a addr} : s₀.KeepsNext (execRegHiRead a addr s) := .next (.cfgRead h)
theorem State.KeepsNext.regLoWrite (h : s₀.Keeps s) {a addr v} : s₀.KeepsNext (execRegLoWrite a addr v s) := .next (.cfgStore h)
theorem State.KeepsNext.regHiWrite (h : s₀.Keeps s) {a addr v} : s₀.KeepsNext (execRegHiWrite a addr v s) := .next (.cfgStore h)
theorem State.KeepsNext.registerWrite (h : s₀.Keeps s) {a addr v} : s₀.KeepsNext (execRegisterWrite a addr v s) :=
  .next (.cfgStore h)

theorem State.KeepsWith.consumeHop (h : s₀.Keeps s) {p k} : s₀.Keeps (s.consumeHop p k) := by
  unfold State.consumeHop
  extract_lets _ _ s1
  have h1 : s₀.Keeps s1 := .takeRx h
  exact .ite (.dropLocal h) (.ite (.answer h1) (.ite (.refuseRst h1) (.ite (.cfgRead h1) (.ite (.cfgStore h1) (.answer h1)))))

theorem State.KeepsNext.hopPacketForward (h : s₀.Keeps s) {p k} : s₀.KeepsNext (execHopPacketForward p k s) :=
  .next (.ite h (.ite (.consumeHop h) (.hopOn h)))

/-! ### The sideband -/

theorem State.KeepsWith.onSideband {f : State → State} (h : s₀.KeepsWith R s) (hf : ∀ t, s₀.KeepsWith R t → s₀.KeepsWith R (f t)) :
    s₀.KeepsWith R
    (s.onSideband f) :=
  .ite h (hf _ h)

theorem State.KeepsWith.setAddr (h : s₀.KeepsWith R s) {d} : s₀.KeepsWith R (s.setAddr d) := .upd h
theorem State.KeepsNext.entdaa (h : s₀.Keeps s) {da} : s₀.KeepsNext (execEntdaa da s) :=
  .next (.onSideband h fun _ ht => .ite (.setAddr ht) ht)
theorem State.KeepsNext.setdasa (h : s₀.Keeps s) {a} : s₀.KeepsNext (execSetdasa a s) :=
  .next (.onSideband h fun _ ht => .ite (.setAddr ht) ht)
theorem State.KeepsNext.setnewda (h : s₀.Keeps s) {da} : s₀.KeepsNext (execSetnewda da s) :=
  .next (.onSideband h fun _ ht => .ite (.setAddr ht) ht)
theorem State.KeepsNext.rstdaa (h : s₀.Keeps s) : s₀.KeepsNext (execRstdaa s) := .next (.onSideband h fun _ ht => .setAddr ht)
theorem State.KeepsWith.setIbi (h : s₀.KeepsWith R s) {b} : s₀.KeepsWith R (s.setIbi b) := .upd h
theorem State.KeepsNext.enec (h : s₀.Keeps s) : s₀.KeepsNext (execEnec s) := .next (.onSideband h fun _ ht => .setIbi ht)
theorem State.KeepsNext.disec (h : s₀.Keeps s) : s₀.KeepsNext (execDisec s) := .next (.onSideband h fun _ ht => .setIbi ht)
theorem State.KeepsNext.getpid (h : s₀.Keeps s) : s₀.KeepsNext (execGetpid s) := .next (.onSideband h fun _ ht => .emit ht)
theorem State.KeepsNext.getbcr (h : s₀.Keeps s) : s₀.KeepsNext (execGetbcr s) := .next (.onSideband h fun _ ht => .emit ht)
theorem State.KeepsNext.getdcr (h : s₀.Keeps s) : s₀.KeepsNext (execGetdcr s) := .next (.onSideband h fun _ ht => .emit ht)
theorem State.KeepsNext.getstatus (h : s₀.Keeps s) : s₀.KeepsNext (execGetstatus s) :=
  .next (.onSideband h fun _ ht => .emit ht)
theorem State.KeepsNext.getmwl (h : s₀.Keeps s) : s₀.KeepsNext (execGetmwl s) := .next (.onSideband h fun _ ht => .emit ht)
theorem State.KeepsNext.getmrl (h : s₀.Keeps s) : s₀.KeepsNext (execGetmrl s) := .next (.onSideband h fun _ ht => .emit ht)
theorem State.KeepsNext.rstactNoReset (h : s₀.Keeps s) : s₀.KeepsNext (execRstactNoReset s) := .next h
theorem State.KeepsNext.rstactSidebandReset (h : s₀.Keeps s) : s₀.KeepsNext (execRstactSidebandReset s) :=
  .next (.onSideband h fun _ ht => .breakSems (.emptyLatch (.upd ht)))
theorem State.KeepsWith.privateWrite (h : s₀.Keeps s) {f} : s₀.Keeps (s.privateWrite f) :=
  .onSideband h fun _ ht => .ite (.cfgRead ht) (.ite (.cfgStore ht) (.updPwr ht))
theorem State.KeepsNext.privateWriteReadOp (h : s₀.Keeps s) {frame} : s₀.KeepsNext (execPrivateWriteReadOp frame s) :=
  .next (.privateWrite h)
theorem State.KeepsNext.privateWriteWriteOp (h : s₀.Keeps s) {frame} : s₀.KeepsNext (execPrivateWriteWriteOp frame s) :=
  .next (.privateWrite h)
theorem State.KeepsNext.privateWriteInvalid (h : s₀.Keeps s) {frame} : s₀.KeepsNext (execPrivateWriteInvalid frame s) :=
  .next (.privateWrite h)
theorem State.KeepsNext.privateRead (h : s₀.Keeps s) : s₀.KeepsNext (execPrivateRead s) :=
  .next (.onSideband h fun _ ht => .emit ht)

/-! ### The dispatch and the step -/

theorem State.KeepsNext.exec (h : s₀.Keeps s) (i : Instr) : s₀.KeepsNext (exec i s) := by
  cases i
  exacts [.lintelForceNChange h, .pageProgramComplete h, .regLoRead h, .regHiRead h, .regLoWrite h, .regHiWrite h,
    .registerWrite h, .entdaa h, .setdasa h, .setnewda h, .rstdaa h, .enec h, .disec h, .getpid h, .getbcr h, .getdcr h,
    .getstatus h, .next h, .next h, .getmwl h, .getmrl h, .rstactNoReset h, .rstactSidebandReset h, .rstactColdReset h,
    .next (.onSideband h fun _ ht => .emit ht), .privateWriteReadOp h, .privateWriteWriteOp h, .privateWriteInvalid h,
    .privateRead h, .semAcquire h, .semRelease h, .semRenew h, .semLeaseExpiry h, .ksSessionWrite h, .evtAckSeqWrite h,
    .eventMsgDeferredSend h, .signalDetect h, .capabilityMarkerReceived h, .negotiateTimeout h, .trainGenerationDone h,
    .alignDone h, .fomWindowEnd h, .alignmentMarkerReceived h, .laneLossOfLock h, .signalLossTimeout h, .lnkRetrain h,
    .lnkDisable h, .lnkLintelCloseWrite h, .dataFlitReceived h, .idleFlitReceived h, .initFlitReceived h, .nakRepeatTimer h,
    .ackTimer h, .initTimer h, .replayTimeout h, .rd h, .wr h, .fadd h, .cas64 h, .cas128 h, .msgReceived h, .rstPacket h,
    .rstPacketResetStart h, .rspReceived h, .reservedOpcPacket h, .packetTransit h, .hopPacketForward h, .responseTimeout h,
    .linkwaitExpiry h, .masterPortAdmit h, .wqEnable h, .wqDisable h, .sqDoorbell h, .cqDoorbell h, .descriptorFetchStart h,
    .descriptorDispatch h, .nop h, .fence h, .chiselRun h, .copy h, .fill h, .keepCheckpoint h, .keepArm h, .keepDisarm h,
    .keepStatus h, .keyShareSupply h, .keyShareClear h, .holdupCharacterize h, .characterizeEnd h, .bistRequest h,
    .telemetrySnapshot h, .repairQuery h, .fwStage h, .fwActivate h, .keystoneRestartDone h, .completionMsgTimer h,
    .channelRequestAccept h, .commandSlot h, .refreshDue h, .openRowIdleTimeout h, .channelIdleRequest h, .channelIdleTimeout h,
    .selfRefreshExit h, .mcDlyapply h, .dlyApplyPullinTimeout h, .mortarHeaderHandshake h, .mortarDataBeat h,
    .guaranteeMeterTick h, .guaranteeWindowEnd h, .throttleCapWindow h, .paceMeterWindow h, .mtrCommit h, .programReadDone h,
    .jobAdmit h, .sliceIssue h, .sliceDataArrive h, .chiselCycle h, .groupSortDone h, .outputWritesAnswered h,
    .jobCompletionSent h, .chiselPaceWindow h, .trickleCopyStart h, .sealTimer h, .sealReadbackDone h, .foldMapWritten h,
    .holdSenseSample h, .energyBudgetUpdate h, .pwrFailNFall h, .pwrFailNRise h, .powerReturn10ms h, .saveUnitsDrained h,
    .saveHoldTimeout h, .restoreImageChosen h, .restoreMapLoaded h, .hotPassTimeout h, .restoreUnitDone h, .touchFetchDone h,
    .vauxRise h, .vauxLoss h, .porRelease h, .railGood h, .railUndervoltage h, .resetNAssert h, .resetNRelease h, .rstCmdWarm h,
    .rstCmdCold h, .rstRecoverExit h, .rstBlkreq h, .blockUnitIdle h, .watchdogExpiry h, .startTimeout h, .ready60s h,
    .resetProgramWaitTimeout h, .resetIntervalEnd h, .powerupSelftestDone h, .fuseLoadCommit h, .keepBusTrained h,
    .firmwareStart h, .powerupCalDone h, .channelTrainingDone h, .keepRecoveryDone h, .scrubUnitIssue h, .scrubBehindTimeout h,
    .repairFuseRetry h, .rowRepairHold h, .celogEntryFree h, .segmentSample h, .sensorConversion h, .sensorNoConversion h,
    .thermalModelUpdate h, .hwEstimateUpdate h, .thmSensmaskWrite h, .rollVisitStart h, .sweepDone h, .visitIncompleteTimeout h,
    .calKapply h, .keepBusGap h, .trackStepTimer h, .trackImpedanceTimer h, .trackGainTimer h, .trackOffsetTimer h, .sliceTick h,
    .sliceResourceGranted h, .sliceEnd h, .sliceBudgetExpiry h, .bypass h, .idcode h, .samplePreload h, .extest h, .clamp h,
    .highz h, .unlockNonce h, .unlockLoad h, .scanEnter h, .fuseProgramWord h, .lifecycleAdvance h, .lifecycleRetire h,
    .fuseProgramDone h, .fusLockWrite h, .fusRdaddrWrite h, .ltcRstauthLockWrite h, .refclkLoss h, .refclkReturn h,
    .markerMissing h, .lnkEnable h, .keepHoldcapWrite h, .ltcCoordWrite h]

end

/-- A step keeps what the state with the queue's rest has. -/
theorem step_keepsNext (s : State) : State.KeepsNext { s with pending := s.pending.tail } (step s) := by
  unfold step
  split
  next hq =>
    have hs : State.Keeps { s with pending := s.pending.tail } s := ⟨id, id, id, hq.trans (congrArg List.tail hq).symm, trivial⟩
    exact .next (.idle hs)
  next c cs hq =>
    have hs : State.Keeps { s with pending := s.pending.tail } { s with pending := cs } :=
      ⟨id, id, id, (congrArg List.tail hq).symm, trivial⟩
    exact .exec hs c

/-- Settles O59: by `State.KeepsNext.exec`, which goes through every command, and `State.KeepsWith.idle`. -/
theorem stepKeepsForm : Obligations.StepKeepsForm := by
  unfold Obligations.StepKeepsForm
  intro s t ht
  obtain ⟨u, hu, hmem, hregs, hact, hpending, -⟩ := step_keepsNext s
  obtain rfl : u = t := Host.Outcome.next.inj (hu.symm.trans ht)
  refine ⟨hmem, fun hr => ?_, hpending⟩
  rw [State.regsWf, Bool.and_eq_true] at hr ⊢
  exact ⟨hregs hr.1, hact hr.2⟩

end Sys2Proof.Machine

/-! SUPPORT. Semaphores (R45): what a command makes of one, as it stands once its lease is applied, and O5. -/

namespace Sys2Proof.Machine

/-- Changing the entry that stands at a number puts the changed entry there. -/
theorem modAt_eq_set {α : Type} {l : List α} {n : Nat} {x : α} (h : l[n]? = some x) (f : α → α) :
    modAt l n f = l.set n (f x) := by
  rw [modAt, List.modify_eq_set_getElem?, h]
  rfl

theorem Sem.held_of_ownedBy {x : Sem} {a : Access} (h : x.ownedBy a = true) : x.held = true := by
  simp only [Sem.ownedBy, Bool.and_eq_true] at h
  exact h.1.1

/-! ### What a command makes of a semaphore -/

theorem Sem.command_acquire_free {y : Sem} (h : y.held = false) (a : Access) (e : Nat) (t : Option Nat) :
    y.command a 1 e t = Sem.grant a e y.broken t := by simp [Sem.command, h]

theorem Sem.command_acquire_mine {y : Sem} {a : Access} {e : Nat} (h : y.ownedBy a = true) (he : y.epoch = e) (t : Option Nat) :
    y.command a 1 e t = { y with expiry := t } := by simp [Sem.command, Sem.held_of_ownedBy h, h, he]

theorem Sem.command_acquire_epoch {y : Sem} {a : Access} {e : Nat} (h : y.ownedBy a = true) (he : y.epoch ≠ e)
    (t : Option Nat) : y.command a 1 e t = Sem.grant a e true t := by simp [Sem.command, Sem.held_of_ownedBy h, h, he]

theorem Sem.command_acquire_other {y : Sem} {a : Access} (h : y.held = true) (ho : y.ownedBy a = false) (e : Nat)
    (t : Option Nat) : y.command a 1 e t = y := by simp [Sem.command, h, ho]

theorem Sem.command_release (y : Sem) (a : Access) (e : Nat) (t : Option Nat) :
    y.command a 2 e t = if y.ownedBy a = true ∧ y.epoch = e then {} else y := by simp [Sem.command]

theorem Sem.command_renew (y : Sem) (a : Access) (e : Nat) (t : Option Nat) :
    y.command a 3 e t = if y.ownedBy a = true ∧ y.epoch = e then { y with expiry := t } else y := by simp [Sem.command]

/-! ### What reaches the semaphores -/

theorem State.arrived_ks (s : State) (a : Access) (o : Nat) : (s.arrived a o).ks = s.ks :=
  ((s.arrived_only a o).1 .ks).resolve_left (by simp)

theorem State.arrived_clock (s : State) (a : Access) (o : Nat) : (s.arrived a o).clock = s.clock :=
  ((s.arrived_only a o).1 .clock).resolve_left (by simp)

theorem State.arrived_leaseEnd (s : State) (a : Access) (o : Nat) : (s.arrived a o).leaseEnd = s.leaseEnd := by
  have hf : (s.arrived a o).fld KS_SEM_LEASE_LEASE_MS = s.fld KS_SEM_LEASE_LEASE_MS :=
    State.fld_congr (s.arrived_reg a o (by decide))
  simp only [State.leaseEnd, hf, State.arrived_clock]

/-- A served command of KS_SEM_CMD_n puts what it makes of the semaphore in its place, and is answered. -/
theorem State.semCommand_served {s : State} {a : Access} {n : Nat} {x : Sem} (h : s.served a (KS_SEM_CMD n) = true)
    (hx : s.ks.sems[n]? = some x) (cmd e : Nat) :
    s.cfgWrite a (KS_SEM_CMD n) (fun s => s.semCommand a n cmd e) = ({ s.arrived a 9 with ks := { s.ks with
      sems := s.ks.sems.set n ((x.expire s.clock).command a cmd e s.leaseEnd) } }).respond a 9 0 0 := by
  rw [State.cfgWrite_served h]
  simp only [State.semCommand, State.arrived_ks, State.arrived_clock, State.arrived_leaseEnd, modAt_eq_set hx]

/-- Breaking semaphores breaks those that are held and meet the test. -/
theorem State.breakSems_eq (s : State) {p : Sem → Bool} {q : Sem → Prop} [DecidablePred q]
    (h : ∀ x : Sem, (x.held && p x) = true ↔ q x) :
    s.breakSems p = { s with ks := { s.ks with
      sems := s.ks.sems.map fun x => if q x then { broken := true } else x } } := by
  have hf : (fun x : Sem => if (x.held && p x) = true then ({ broken := true } : Sem) else x) =
      fun x => if q x then { broken := true } else x := by
    funext x
    simp only [h]
  unfold State.breakSems
  rw [hf]

/-- A write of KS_SESSION breaks what its writer holds under another epoch. -/
theorem State.session_eq (s : State) (a : Access) (e : Nat) :
    s.session a e = { s with ks := { s.ks with
      sems := s.ks.sems.map fun x => if x.ownedBy a = true ∧ x.epoch ≠ e then { broken := true } else x } } := by
  refine s.breakSems_eq fun x => ?_
  simp only [Bool.and_eq_true, bne_iff_ne, ne_eq]
  exact ⟨fun h => h.2, fun h => ⟨Sem.held_of_ownedBy h.1, h⟩⟩

/-- Settles O5: a command acts on the semaphore as its lease leaves it, by one rule per command and owner. -/
theorem semaphores : Obligations.Semaphores := by
  refine ⟨fun s a n e x h hx => ?_, fun s n x hx hh hl => ?_, fun s a e h => ?_⟩
  · have run : ∀ {cmd z}, (x.expire s.clock).command a cmd e.toNat s.leaseEnd = z →
        Host.Outcome.next (s.cfgWrite a (KS_SEM_CMD n) fun s => s.semCommand a n cmd e.toNat) =
          (.next (({ s.arrived a 9 with ks := { s.ks with sems := s.ks.sems.set n z } }).respond a 9 0 0) :
            Host.Outcome State Fault Refusal) := fun hz => by rw [State.semCommand_served h hx, hz]
    refine ⟨fun hf => run (Sem.command_acquire_free hf _ _ _), fun hm => run (Sem.command_acquire_mine hm.1 hm.2 _),
      fun ho he => run (Sem.command_acquire_epoch ho he _), fun hh ho => run (Sem.command_acquire_other hh ho _ _),
      fun hm => run ?_, fun hm => run ?_, fun hm => run ?_, fun hm => run ?_⟩
    · rw [Sem.command_release, if_pos hm]
    · rw [Sem.command_release, if_neg hm]
    · rw [Sem.command_renew, if_pos hm]
    · rw [Sem.command_renew, if_neg hm]
  · show execSemLeaseExpiry n s = _
    unfold execSemLeaseExpiry
    rw [modAt_eq_set hx]
    simp only [hh, hl, Bool.and_self, if_true]
  · show Host.Outcome.next (s.cfgWrite a KS_SESSION fun s => s.session a e.toNat) = _
    rw [State.cfgWrite_served h, State.session_eq, State.arrived_ks]

end Sys2Proof.Machine

/-! SUPPORT. Events (R46-R48): what an alert's edge sends, what logging one leaves in the Keystone, and O6. -/

namespace Sys2Proof.Machine

/-! ### The alert's edge (R42) -/

/-- The in-band interrupt of an edge is all that it adds. -/
theorem State.ibiEdge_eq (was : Bool) (s : State) :
    State.ibiEdge was s = { s with
      out := s.out ++ if was = false ∧ s.alert = true ∧ s.ks.ibi = true then [.ibi s.ks.alertClass] else [] } := by
  unfold State.ibiEdge
  by_cases h : was = false ∧ s.alert = true ∧ s.ks.ibi = true
  · simp [h]
  · have hb : ¬((!was && s.alert && s.ks.ibi) = true) := by simpa [Bool.and_eq_true, and_assoc] using h
    rw [if_neg hb, if_neg h, List.append_nil]

theorem State.ibiEdge_ks (was : Bool) (s : State) : (State.ibiEdge was s).ks = s.ks := by rw [State.ibiEdge_eq]

theorem State.ibiEdge_only (was : Bool) (s : State) : s.only (State.ibiEdge was s) [.out] fun _ => False := by
  rw [State.ibiEdge_eq]
  exact ⟨fun p => by cases p <;> simp [Part.same], fun r => .inr rfl⟩

/-! ### Logging an event (R46, R47) -/

/-- What an event makes of the Keystone. -/
def Ks.logged (k : Ks) (up : Bool) (c v u d : Nat) : Ks :=
  { k with
    log := tset k.log (k.wrSeq % 4096) ⟨k.wrSeq, k.time, c, v, u, d % 2 ^ 32⟩
    wrSeq := (k.wrSeq + 1) % 2 ^ 32
    alertSeq := if up then k.wrSeq else k.alertSeq
    alertClass := if up then c / 256 else k.alertClass }

/-- An event makes that of the Keystone, and an edge of the alert may follow. -/
theorem State.logEvent_eq (s : State) (c v u d : Nat) : s.logEvent c v u d =
    State.ibiEdge s.alert { s with ks := s.ks.logged (decide (s.fld EVT_ALERT_SEV_SEV ≤ v)) c v u d } := by
  unfold State.logEvent Ks.logged
  simp only [decide_eq_true_eq]

theorem State.logEvent_ks (s : State) (c v u d : Nat) :
    (s.logEvent c v u d).ks = s.ks.logged (decide (s.fld EVT_ALERT_SEV_SEV ≤ v)) c v u d := by
  rw [State.logEvent_eq, State.ibiEdge_ks]

theorem State.logEvent_only (s : State) (c v u d : Nat) : s.only (s.logEvent c v u d) [.ks, .out] fun _ => False := by
  rw [State.logEvent_eq]
  refine State.only_trans ?_ (State.only_mono (State.ibiEdge_only _ _) (by simp) fun _ h => h)
  exact ⟨fun p => by cases p <;> simp [Part.same], fun r => .inr rfl⟩

/-! ### Writing EVT_ACK_SEQ (R47) -/

theorem State.writeAck_reg (s : State) (v : Word) : (s.writeAck v.toNat).reg EVT_ACK_SEQ = v.toNat := by
  rw [State.writeAck, State.ibiEdge_reg, State.reg_setReg_self]
  exact Nat.mod_eq_of_lt v.isLt

theorem State.writeAck_ks (s : State) (v : Nat) : (s.writeAck v).ks = s.ks := by
  rw [State.writeAck, State.ibiEdge_eq]
  rfl

theorem State.writeAck_alert (s : State) (v : Word) : (s.writeAck v.toNat).alert = seqAfter s.ks.alertSeq v.toNat := by
  rw [State.alert, State.writeAck_reg, State.writeAck_ks]

theorem State.alert_congr {s t : State} (hk : t.ks = s.ks) (hr : t.reg EVT_ACK_SEQ = s.reg EVT_ACK_SEQ) :
    t.alert = s.alert := by rw [State.alert, State.alert, hk, hr]

/-- The interrupt of a write of EVT_ACK_SEQ, by the alert before it and after it. -/
theorem State.writeAck_out (s : State) (v : Nat) :
    (s.writeAck v).out = s.out ++
      if s.alert = false ∧ (s.writeAck v).alert = true ∧ s.ks.ibi = true then [.ibi s.ks.alertClass] else [] := by
  have ha : (s.writeAck v).alert = (s.setReg EVT_ACK_SEQ v).alert :=
    State.alert_congr (s.writeAck_ks v) (by rw [State.writeAck, State.ibiEdge_reg])
  rw [ha, State.writeAck, State.ibiEdge_eq]
  rfl

theorem State.writeAck_only (s : State) (v : Nat) : s.only (s.writeAck v) [.out] fun r => r = EVT_ACK_SEQ :=
  State.only_trans (State.only_mono (s.setReg_only _ _) (by simp) fun _ h => h)
    (State.only_mono (State.ibiEdge_only _ _) (by simp) fun _ h => h.elim)

theorem State.arrived_alert (s : State) (a : Access) (o : Nat) : (s.arrived a o).alert = s.alert :=
  State.alert_congr (s.arrived_ks a o) (s.arrived_reg a o (by decide))

theorem State.arrived_out (s : State) (a : Access) (o : Nat) : (s.arrived a o).out = s.out :=
  ((s.arrived_only a o).1 .out).resolve_left (by simp)

/-! ### A message held back (R48) -/

theorem State.me_setKs (s : State) (k : Ks) : State.me { s with ks := k } = s.me := rfl

theorem State.fld_setKs (s : State) (k : Ks) (f : Fld) : State.fld { s with ks := k } f = s.fld f := rfl

/-- What an enabled destination holds back leaves as one message. -/
theorem exec_eventMsgDeferredSend {s : State} {n : Nat} {e : Ev} (he : (s.ks.dests.getD n {}).newest = some e)
    (hen : s.flag (EVT_MSGDEST_EN n) = true) :
    exec (.eventMsgDeferredSend n) s =
      .next ({ s with ks := { s.ks with dests := s.ks.dests.set n { lastSend := some s.clock } } }.injectMsg
        (eventMsg s.me (s.fld (EVT_MSGDEST_DEST n)) e (s.ks.dests.getD n {}).unsent)) := by
  show execEventMsgDeferredSend n s = _
  unfold execEventMsgDeferredSend
  simp only [he, hen, if_true, setAt, State.me_setKs, State.fld_setKs]

/-- Settles O6: what logging an event, the write of EVT_ACK_SEQ and the send of a held message leave. -/
theorem events : Obligations.Events := by
  refine ⟨fun s c v u d => ?_, fun s a v h => ?_, fun s n d e hd he hen => ?_⟩
  · simp only [State.logEvent_ks, Ks.logged, tget_tset_self, decide_eq_true_eq, true_and]
    exact ⟨fun q hq => tget_tset_ne _ _ hq, s.logEvent_only c v u d⟩
  · refine ⟨(s.arrived a 9).writeAck v.toNat, ?_, State.writeAck_reg _ v, ?_, ?_, State.writeAck_only _ _⟩
    · show Host.Outcome.next (s.cfgWrite a EVT_ACK_SEQ fun s => s.writeAck v.toNat) = _
      rw [State.cfgWrite_served h]
    · rw [State.writeAck_alert, State.arrived_ks]
    · rw [State.writeAck_out, State.arrived_out, State.arrived_alert, State.arrived_ks]
  · have hget : s.ks.dests.getD n {} = d := by rw [List.getD_eq_getElem?_getD, hd]; rfl
    have run := exec_eventMsgDeferredSend (n := n) (hget.symm ▸ he) hen
    rwa [hget] at run

end Sys2Proof.Machine

/-! SUPPORT. The register switch (R36-R38): what a read and a write of each kind of register give, and O3. -/

namespace Sys2Proof.Machine

/-! ### Pairs -/

theorem isHi_add_four {r : Nat} (h : isLo r = true) : isHi (r + 4) = true := by
  rw [isHi, Nat.add_sub_cancel, h]
  simp

/-- The byte counters of the master ports are pairs. -/
theorem isLo_mtrBytes : ∀ m < 8, isLo (MTR_BYTES_LO m) = true := by decide

/-- The high half is served where the low half is. -/
theorem State.served_hi {s : State} {a : Access} {r : Nat} (h : s.served a r = true) (hl : isLo r = true) :
    s.served a (r + 4) = true := by
  obtain ⟨-, -, -, hb⟩ := isLo_props hl
  rwa [State.served, hb]

/-- An access that arrives moves no register that is not half of a pair. -/
theorem State.arrived_reg_single (s : State) (a : Access) (o : Nat) {r : Nat} (hl : isLo r = false) (hh : isHi r = false) :
    (s.arrived a o).reg r = s.reg r := by
  refine State.only_reg_eq (s.arrived_only a o) ?_
  rintro ⟨m, hm, rfl | rfl⟩
  · simp [isLo_mtrBytes m hm] at hl
  · simp [isHi_add_four (isLo_mtrBytes m hm)] at hh

/-! ### Latches -/

theorem State.latch_congr {s t : State} (h : t.ks = s.ks) (a : Access) : t.latch a = s.latch a := by
  rw [State.latch, State.latch, h]

theorem State.latched_congr {s t : State} (h : t.ks = s.ks) (a : Access) (r : Nat) (b : Bool) :
    t.latched a r b = s.latched a r b := by
  rw [State.latched, State.latched, State.latch_congr h]

theorem State.latched_of_latch {s : State} {a : Access} {r h : Nat} {b : Bool}
    (hl : s.latch a = some { lo := r, requester := a.requester, isRead := b, half := h }) :
    s.latched a (r + 4) b = some h := by simp [State.latched, hl]

theorem State.latch_setLatch_none (s : State) (a : Access) : (s.setLatch a none).latch a = none := by
  simp only [State.latch, State.setLatch, setAt, List.getD_eq_getElem?_getD, List.getElem?_set]
  split
  · split <;> rfl
  · contradiction

theorem State.setLatch_only (s : State) (a : Access) (l : Option Latch) : s.only (s.setLatch a l) [.ks] fun _ => False :=
  ⟨fun p => by cases p <;> simp [Part.same, State.setLatch], fun _ => .inr rfl⟩

/-! ### Reads at the register switch -/

section
variable {s : State} {a : Access} {r : Nat}

theorem State.busRead_lo (h : isLo r = true) : s.busRead a r =
    (s.setLatch a (some { lo := r, requester := a.requester, isRead := true, half := s.view (r + 4) }), 0, s.view r) := by
  rw [State.busRead, if_pos h]

theorem State.busRead_hi {x : Nat} (h : isLo r = true) (hx : s.latched a (r + 4) true = some x) :
    s.busRead a (r + 4) = (s, 0, x) := by
  obtain ⟨-, -, hl, -⟩ := isLo_props h
  simp only [State.busRead, hl, isHi_add_four h, hx, Bool.false_eq_true, if_false, if_true]

theorem State.busRead_hi_retry (h : isLo r = true) (hx : s.latched a (r + 4) true = none) :
    s.busRead a (r + 4) = (s, 5, 0) := by
  obtain ⟨-, -, hl, -⟩ := isLo_props h
  simp only [State.busRead, hl, isHi_add_four h, hx, Bool.false_eq_true, if_false, if_true]

/-- A read of a register that is no half of a pair changes nothing. -/
theorem State.busRead_single (hl : isLo r = false) (hh : isHi r = false) (hf : s.fuseBusy = false) :
    s.busRead a r = (s, 0, s.view r) := by
  simp [State.busRead, hl, hh, hf]

/-! ### Writes at the register switch -/

theorem State.busWrite_lo (h : isLo r = true) (v : Nat) : s.busWrite a r v =
    (s.setLatch a (some { lo := r, requester := a.requester, isRead := false, half := v }), 0) := by
  rw [State.busWrite, if_pos h]

theorem State.busWrite_hi {x : Nat} (h : isLo r = true) (hx : s.latched a (r + 4) false = some x) (v : Nat) :
    s.busWrite a (r + 4) v = ((s.setLatch a none).write64 r x v, 0) := by
  obtain ⟨-, -, hl, -⟩ := isLo_props h
  simp only [State.busWrite, hl, isHi_add_four h, hx, Bool.false_eq_true, if_false, if_true, Nat.add_sub_cancel]

theorem State.busWrite_hi_retry (h : isLo r = true) (hx : s.latched a (r + 4) false = none) (v : Nat) :
    s.busWrite a (r + 4) v = (s, 5) := by
  obtain ⟨-, -, hl, -⟩ := isLo_props h
  simp only [State.busWrite, hl, isHi_add_four h, hx, Bool.false_eq_true, if_false, if_true]

theorem State.busWrite_single (hl : isLo r = false) (hh : isHi r = false) (v : Nat) :
    s.busWrite a r v = (s.regWrite a r v, 0) := by simp [State.busWrite, hl, hh]

/-- Every register of the mortar block but MTR_COMMIT takes what its access types let through, and nothing happens beside. -/
theorem State.regWrite_mtr (hb : r / 0x100000 = 7) (hc : r ≠ MTR_COMMIT) (v : Nat) : s.regWrite a r v = s.writeAcc r v := by
  unfold State.regWrite
  cases hr : rowOf r with
  | none => simp [State.writeAcc, hr]
  | some row => simp only [hb, State.writeMtr, if_neg hc]

/-! ### Both halves at once -/

theorem State.write64_time (low high : Nat) :
    s.write64 KS_TIME_LO low high = { s with ks := { s.ks with time := high * 2 ^ 32 + low } } := by
  rw [State.write64, if_pos rfl]

theorem State.write64_pair (h : r ≠ KS_TIME_LO) (low high : Nat) :
    s.write64 r low high = (s.writeAcc r low).writeAcc (r + 4) high := by
  rw [State.write64, if_neg h]

theorem State.write64_reg_lo (h : r ≠ KS_TIME_LO) (low high : Nat) : (s.write64 r low high).reg r = s.taken r low := by
  rw [State.write64_pair h, State.only_reg_eq (State.writeAcc_only _ _ _) (by omega), State.writeAcc_reg_self]

theorem State.write64_reg_hi (h : r ≠ KS_TIME_LO) (low high : Nat) :
    (s.write64 r low high).reg (r + 4) = s.taken (r + 4) high := by
  rw [State.write64_pair h, State.writeAcc_reg_self]
  exact State.taken_congr (State.only_reg_eq (s.writeAcc_only _ _) (by omega)) _

theorem State.write64_only (low high : Nat) : s.only (s.write64 r low high) [.ks] fun x => x = r ∨ x = r + 4 := by
  unfold State.write64
  split
  · exact ⟨fun p => by cases p <;> simp [Part.same], fun _ => .inr rfl⟩
  · exact State.only_trans (State.only_mono (s.writeAcc_only _ _) (by simp) fun _ h => .inl h)
      (State.only_mono (State.writeAcc_only _ _ _) (by simp) fun _ h => .inr h)

theorem State.write64_latch (low high : Nat) : (s.write64 r low high).latch a = s.latch a := by
  by_cases h : r = KS_TIME_LO
  · subst h; rw [State.write64_time]; rfl
  · have hk : (s.write64 r low high).ks = s.ks := by
      rw [State.write64_pair h]
      exact (((State.writeAcc_only _ _ _).1 .ks).resolve_left (by simp)).trans
        (((s.writeAcc_only _ _).1 .ks).resolve_left (by simp))
    exact State.latch_congr hk a

/-! ### Accesses by local address -/

/-- A write to a block that cannot be reached is answered NO_TARGET and changes nothing else (R34, R36). -/
theorem State.cfgStore_refused (h : s.gateOpen a = true) (hr : s.reachable a.path (r / 0x100000) = false) (hw : r < 0xF00000)
    (h4 : r % 4 = 0) (v : Nat) : s.cfgStore a (0xFF00000000 + r) v = (s.arrived a 9).respond a 9 4 0 := by
  unfold State.cfgStore
  rw [winAddr_of hw h4]
  unfold State.cfgWriteSt
  dsimp only
  rw [State.portGate_open h]
  simp only [State.reachable_arrived, hr, Bool.false_eq_true, if_false]

/-- A served access finds the latches as they were. -/
theorem State.arrived_latched (o : Nat) (b : Bool) : (s.arrived a o).latched a r b = s.latched a r b :=
  State.latched_congr (s.arrived_ks a o) a r b

end

/-- The mortar block's part of O3. -/
theorem exec_registerWrite_mtr {s : State} {a : Access} {r : Nat} (h : s.served a r = true) (hw : r < 0xF00000)
    (h4 : r % 4 = 0) (hb : r / 0x100000 = 7) (hc : r ≠ MTR_COMMIT) (hl : isLo r = false) (hh : isHi r = false) (v : Word) :
    exec (.registerWrite a (0xFF00000000 + r) v) s = .next (((s.arrived a 9).writeAcc r v.toNat).respond a 9 0 0) := by
  show Host.Outcome.next (s.cfgStore a (0xFF00000000 + r) v.toNat) = _
  rw [State.cfgStore_served h hw h4, State.busWrite_single hl hh, State.regWrite_mtr hb hc]

/-- Settles O3: the register switch's cases, by the kind of register and what its latch holds. -/
theorem registerAccesses : Obligations.RegisterAccesses := by
  refine ⟨fun s a r v hg hw h4 => ⟨fun hr => ?_, fun hr hb hc hl hh => ?_⟩, fun s a r h hl => ?_, fun s a r v h hl => ?_,
    fun s a r v h hl => ?_⟩
  · show Host.Outcome.next (s.cfgStore a (0xFF00000000 + r) v.toNat) = _
    rw [State.cfgStore_refused hg hr hw h4]
  · have hs : s.served a r = true := by simp [State.served, hg, hr]
    refine ⟨_, exec_registerWrite_mtr hs hw h4 hb hc hl hh v, fun hn => ?_, ?_, State.writeAcc_only _ _ _⟩
    · simp only [State.writeAcc, hn]
    · rw [State.writeAcc_reg_self]
      exact State.taken_congr (s.arrived_reg_single a 9 hl hh) _
  all_goals obtain ⟨hw, h4, -, hb⟩ := isLo_props hl
  all_goals have hw' : r + 4 < 0xF00000 := by omega
  all_goals have h4' : (r + 4) % 4 = 0 := by omega
  · refine ⟨?_, fun x hx => ?_⟩
    · show Host.Outcome.next (s.cfgRead a (0xFF00000000 + r)) = _
      rw [State.cfgRead_served h hw h4, State.busRead_lo hl]
      simp only [if_true]
    · show Host.Outcome.next (s.cfgRead a (0xFF00000000 + (r + 4))) = _
      rw [State.cfgRead_served (State.served_hi h hl) hw' h4',
        State.busRead_hi hl ((State.arrived_latched _ _).trans (State.latched_of_latch hx))]
      simp only [if_true]
  · refine ⟨?_, fun x hx => ⟨((s.arrived a 9).setLatch a none).write64 r x v.toNat, ?_, ?_, fun ht => ?_, fun ht => ⟨?_, ?_⟩, ?_⟩⟩
    · show Host.Outcome.next (s.cfgStore a (0xFF00000000 + r) v.toNat) = _
      rw [State.cfgStore_served h hw h4, State.busWrite_lo hl]
    · show Host.Outcome.next (s.cfgStore a (0xFF00000000 + (r + 4)) v.toNat) = _
      rw [State.cfgStore_served (State.served_hi h hl) hw' h4',
        State.busWrite_hi hl ((State.arrived_latched _ _).trans (State.latched_of_latch hx))]
    · rw [State.write64_latch, State.latch_setLatch_none]
    · subst ht; rw [State.write64_time]
    · rw [State.write64_reg_lo ht]; rfl
    · rw [State.write64_reg_hi ht]; rfl
    · exact State.only_trans (State.only_mono (State.setLatch_only _ _ _) (by simp) fun _ h => h.elim)
        (State.write64_only _ _)
  · refine ⟨fun hn => ?_, fun hn => ?_⟩
    · show Host.Outcome.next (s.cfgRead a (0xFF00000000 + (r + 4))) = _
      rw [State.cfgRead_served (State.served_hi h hl) hw' h4',
        State.busRead_hi_retry hl ((State.arrived_latched _ _).trans hn)]
      rfl
    · show Host.Outcome.next (s.cfgStore a (0xFF00000000 + (r + 4)) v.toNat) = _
      rw [State.cfgStore_served (State.served_hi h hl) hw' h4',
        State.busWrite_hi_retry hl ((State.arrived_latched _ _).trans hn)]

end Sys2Proof.Machine

/-! SUPPORT. The sideband (R40-R42): its commands where it works, the reset of its logic, the accesses that its frames form, and O4. -/

namespace Sys2Proof.Machine

theorem State.onSideband_of {s : State} (h : s.dev ≠ .off) (f : State → State) : s.onSideband f = f s := if_neg h

/-! ### The reset of the sideband's logic (R38, R41, R45) -/

theorem State.breakSems_only (s : State) (p : Sem → Bool) : s.only (s.breakSems p) [.ks] fun _ => False :=
  ⟨fun q => by cases q <;> simp [Part.same, State.breakSems], fun _ => .inr rfl⟩

/-- What the reset of the sideband's logic makes of the Keystone. -/
def Ks.sidebandReset (k : Ks) : Ks :=
  { k with
    dynAddr := none, ibi := true, result := none, latches := setAt k.latches 4 none
    sems := k.sems.map fun (x : Sem) => if x.held = true ∧ x.src = 1 then { broken := true } else x }

theorem exec_rstactSidebandReset {s : State} (h : s.dev ≠ .off) :
    exec .rstactSidebandReset s = .next { s with ks := s.ks.sidebandReset } := by
  show Host.Outcome.next (s.onSideband _) = _
  rw [State.onSideband_of h,
    State.breakSems_eq (q := fun x => x.held = true ∧ x.src = 1) _ fun x => by rw [Bool.and_eq_true, beq_iff_eq]]
  rfl

/-! ### Private writes (R42) -/

theorem sbAccess_arrived (s : State) (o : Nat) : s.arrived sbAccess o = s.cfgBeat 7 := rfl

theorem sbAccess_served {s : State} {r : Nat} (h : s.dev ≠ .off) (hr : s.reachable .sideband (r / 0x100000) = true) :
    s.served sbAccess r = true := by
  rw [State.served, Bool.and_eq_true]
  exact ⟨bne_iff_ne.2 h, hr⟩

/-- A frame forms one kind of access at most. -/
theorem frameReads_of_writes {f : List Byte} (h : frameWrites f = true) : frameReads f = false := by
  simp only [frameWrites, Bool.and_eq_true, beq_iff_eq] at h
  simp [frameReads, h.1.1]

theorem State.privateWrite_read {s : State} {f : List Byte} (h : s.dev ≠ .off) (hf : frameReads f = true) :
    s.privateWrite f = s.cfgRead sbAccess (frameAddr f) := by
  rw [State.privateWrite, State.onSideband_of h, if_pos hf]

theorem State.privateWrite_write {s : State} {f : List Byte} (h : s.dev ≠ .off) (hf : frameWrites f = true) :
    s.privateWrite f = s.cfgStore sbAccess (frameAddr f) (fieldB f 5 4) := by
  rw [State.privateWrite, State.onSideband_of h, if_neg (by simp [frameReads_of_writes hf]), if_pos hf]

theorem State.privateWrite_invalid {s : State} {f : List Byte} (h : s.dev ≠ .off) (hr : frameReads f = false)
    (hw : frameWrites f = false) : s.privateWrite f = { s with ks := { s.ks with result := some (0, 1) } } := by
  rw [State.privateWrite, State.onSideband_of h, if_neg (by simp [hr]), if_neg (by simp [hw])]

theorem State.cfgBeat_ks (s : State) (m : Nat) : (s.cfgBeat m).ks = s.ks :=
  ((s.cfgBeat_only m).1 .ks).resolve_left (by simp)

theorem State.cfgBeat_fuseBusy (s : State) (m : Nat) : (s.cfgBeat m).fuseBusy = s.fuseBusy := by
  have hf : (s.cfgBeat m).fus = s.fus := ((s.cfgBeat_only m).1 .fus).resolve_left (by simp)
  rw [State.fuseBusy, State.fuseBusy, hf]

/-- A read of a register that is no half of a pair leaves its value. -/
theorem State.privateWrite_reg_read {s : State} {f : List Byte} {r : Nat} (h : s.dev ≠ .off) (hf : frameReads f = true)
    (ha : frameAddr f = 0xFF00000000 + r) (hw : r < 0xF00000) (h4 : r % 4 = 0)
    (hr : s.reachable .sideband (r / 0x100000) = true) (hl : isLo r = false) (hh : isHi r = false)
    (hb : s.fuseBusy = false) :
    s.privateWrite f = { s.cfgBeat 7 with ks := { s.ks with result := some ((s.cfgBeat 7).view r, 0) } } := by
  rw [State.privateWrite_read h hf, ha, State.cfgRead_served (sbAccess_served h hr) hw h4, sbAccess_arrived,
    State.busRead_single hl hh ((s.cfgBeat_fuseBusy 7).trans hb)]
  simp only [State.respond, sbAccess, sbStatus, if_true, State.cfgBeat_ks]

/-- A write of a plain register of the mortar block does what a register write does and leaves status 0. -/
theorem State.privateWrite_reg_write {s : State} {f : List Byte} {r : Nat} (h : s.dev ≠ .off) (hf : frameWrites f = true)
    (ha : frameAddr f = 0xFF00000000 + r) (hw : r < 0xF00000) (h4 : r % 4 = 0) (hb : r / 0x100000 = 7)
    (hr : s.reachable .sideband 7 = true) (hl : isLo r = false) (hh : isHi r = false) (hc : r ≠ MTR_COMMIT) :
    s.privateWrite f = ((s.cfgBeat 7).writeAcc r (fieldB f 5 4)).respond sbAccess 9 0 0 := by
  rw [State.privateWrite_write h hf, ha, State.cfgStore_served (sbAccess_served h (by rwa [hb])) hw h4, sbAccess_arrived,
    State.busWrite_single hl hh, State.regWrite_mtr hb hc]

/-- What an access of the sideband is answered is its result, and nothing else. -/
theorem State.respond_sideband (s : State) (o : Nat) :
    s.respond sbAccess o 0 0 = { s with ks := { s.ks with result := some (0, 0) } } := rfl

/-- Settles O4: the common command codes, the reset of the logic, the codes that return data, and the accesses by frame. -/
theorem sidebandCommands : Obligations.SidebandCommands := by
  refine ⟨fun s h => ?_, fun s h => ?_, fun s h => ?_, fun s f h => ⟨?_, ?_, ?_⟩⟩
  · have on : ∀ f : State → State, Host.Outcome.next (s.onSideband f) = (.next (f s) : Host.Outcome State Fault Refusal) :=
      fun f => by rw [State.onSideband_of h]
    refine ⟨fun da hn => ?_, fun sa da => ⟨fun ⟨hs, hn⟩ => ?_, fun hs => ?_⟩, fun da d hd => ?_, on _, on _, on _,
      fun _ => rfl, fun _ => rfl, rfl⟩
    · refine (on _).trans ?_
      rw [hn]
      rfl
    · refine (on _).trans ?_
      rw [if_pos ⟨hs, by rw [hn]; rfl⟩]
      rfl
    · refine (on _).trans ?_
      rw [if_neg]
      rintro ⟨h1, h2⟩
      exact hs.elim (fun h => h h1) fun h => h (Option.isNone_iff_eq_none.1 h2)
    · refine (on _).trans ?_
      rw [hd]
      rfl
  · exact ⟨_, exec_rstactSidebandReset h, rfl, fun p => by cases p <;> simp [Part.same], fun _ => .inr rfl⟩
  · have sends : ∀ o : State → Out, Host.Outcome.next (s.onSideband fun s => s.emit (o s)) =
        (.next { s with out := s.out ++ [o s] } : Host.Outcome State Fault Refusal) :=
      fun o => by rw [State.onSideband_of h]; rfl
    refine ⟨sends _, sends _, sends _, ?_, sends _, sends _, fun _ _ => sends _, fun w st hr => ?_⟩
    · refine (sends fun s => .sideband (beBytes 2 (b2n s.alert))).trans ?_
      cases s.alert <;> rfl
    · refine (sends fun s => .sideband (leBytes 4 (s.ks.result.getD (0, 1)).1 ++ leBytes 1 (s.ks.result.getD (0, 1)).2)).trans ?_
      rw [hr]
      rfl
  · intro r hf ha hw h4 hr hl hh hb
    exact congrArg Host.Outcome.next (State.privateWrite_reg_read h hf ha hw h4 hr hl hh hb)
  · intro r hf ha hw h4 hb hr hl hh hc
    refine ⟨_, congrArg Host.Outcome.next ((State.privateWrite_reg_write h hf ha hw h4 hb hr hl hh hc).trans
      (State.respond_sideband _ _)), ?_, ?_, ?_⟩
    · have hk : ((s.cfgBeat 7).writeAcc r (fieldB f 5 4)).ks = s.ks :=
        (((State.writeAcc_only _ _ _).1 .ks).resolve_left (by simp)).trans (s.cfgBeat_ks 7)
      simp only [hk]
    · have hreg : (s.cfgBeat 7).reg r = s.reg r := s.arrived_reg_single sbAccess 9 hl hh
      exact (State.writeAcc_reg_self _ _ _).trans (State.taken_congr hreg _)
    · exact State.only_trans (State.only_mono (State.writeAcc_only _ _ _) (by simp) fun _ h => h)
        ⟨fun p => by cases p <;> simp [Part.same], fun _ => .inr rfl⟩
  · exact fun hr hw => congrArg Host.Outcome.next (State.privateWrite_invalid h hr hw)

end Sys2Proof.Machine

/-! SUPPORT. A nanosecond on an empty queue (R43, R75): what the clocks count, what the ports send, and O2. -/

namespace Sys2Proof.Machine

/-! ### One port's IDLE (R75) -/

/-- What an IDLE settles in its port: the ACK, the NAK and the credits that it carries. -/
def Port.idled (x : Port) : Port :=
  { x with
    unacked := 0, nakDue := false, txSlot := (x.txSlot + 8) % 16
    ret := List.zipWith (· - ·) x.ret (x.ret.map (min 255)) }

/-- The bytes of a port's IDLE. -/
def Port.idleBytes (x : Port) : List Byte :=
  flitBytes 0 15 x.seq x.rxSeq (if x.nakDue = true then 2 else 1) (x.ret.map (min 255)) []

/-- A port that does not exist is not ACTIVE. -/
theorem State.active_lt {s : State} {p : Nat} (h : (s.port p).st = .active) : p < s.lnk.ports.length := by
  by_contra hp
  rw [s.port_absent (Nat.not_lt.1 hp)] at h
  exact PSt.noConfusion h

theorem State.idleFlit_active {s : State} {p : Nat} (h : (s.port p).st = .active) : s.idleFlit p = s.txIdle p := if_pos h

theorem State.idleFlit_inactive {s : State} {p : Nat} (h : (s.port p).st ≠ .active) : s.idleFlit p = s := if_neg h

theorem State.idleFlit_port_self (s : State) (p : Nat) :
    (s.idleFlit p).port p = if (s.port p).st = .active then (s.port p).idled else s.port p := by
  by_cases h : (s.port p).st = .active
  · rw [State.idleFlit_active h, if_pos h, s.txIdle_port p (State.active_lt h)]
    rfl
  · rw [State.idleFlit_inactive h, if_neg h]

theorem State.idleFlit_port_ne (s : State) {p q : Nat} (h : q ≠ p) : (s.idleFlit p).port q = s.port q := by
  unfold State.idleFlit
  split
  · exact (s.port_modPort_eq _ _ _).trans (if_neg fun hq => h hq.1)
  · rfl

theorem State.txIdle_out (s : State) (p : Nat) : ∃ lanes, (s.txIdle p).out = s.out ++ [.flit p (s.port p).idleBytes lanes] :=
  ⟨_, rfl⟩

theorem State.idleFlit_sends {s : State} {p : Nat} (h : (s.port p).st = .active) :
    ∃ lanes, .flit p (s.port p).idleBytes lanes ∈ (s.idleFlit p).out := by
  obtain ⟨lanes, hl⟩ := s.txIdle_out p
  exact ⟨lanes, by simp [State.idleFlit_active h, hl]⟩

theorem State.idleFlit_out (s : State) (p : Nat) {o : Out} (h : o ∈ s.out) : o ∈ (s.idleFlit p).out := by
  unfold State.idleFlit
  split
  · obtain ⟨lanes, hl⟩ := s.txIdle_out p
    rw [hl]
    exact List.mem_append_left _ h
  · exact h

theorem State.idleFlit_only (s : State) (p : Nat) : s.only (s.idleFlit p) [.lnk, .out] fun _ => False := by
  unfold State.idleFlit
  split
  · exact s.txIdle_only p
  · exact s.only_refl _ _

/-! ### The IDLEs of several ports -/

theorem State.idleFlits_port (s : State) {l : List Nat} {q : Nat} (h : q ∉ l) : (l.foldl State.idleFlit s).port q = s.port q := by
  induction l generalizing s with
  | nil => rfl
  | cons p l ih =>
    rw [List.mem_cons, not_or] at h
    exact (ih _ h.2).trans (s.idleFlit_port_ne h.1)

theorem State.idleFlits_out (s : State) (l : List Nat) {o : Out} (h : o ∈ s.out) : o ∈ (l.foldl State.idleFlit s).out := by
  induction l generalizing s with
  | nil => exact h
  | cons p l ih => exact ih _ (s.idleFlit_out p h)

/-- A port named once sends once, whatever the ports before and after it do. -/
theorem State.idleFlits_mem (s : State) {l : List Nat} (hl : l.Nodup) {q : Nat} (hq : q ∈ l) :
    (l.foldl State.idleFlit s).port q = (if (s.port q).st = .active then (s.port q).idled else s.port q) ∧
      ((s.port q).st = .active → ∃ lanes, .flit q (s.port q).idleBytes lanes ∈ (l.foldl State.idleFlit s).out) := by
  obtain ⟨l₁, l₂, rfl⟩ := List.append_of_mem hq
  obtain ⟨-, ⟨h₂, -⟩, h₁⟩ := by simpa only [List.nodup_append, List.nodup_cons] using hl
  have hq₁ : q ∉ l₁ := fun h => h₁ q h q List.mem_cons_self rfl
  have hu := s.idleFlits_port hq₁
  rw [List.foldl_append, List.foldl_cons]
  refine ⟨?_, fun ha => ?_⟩
  · rw [State.idleFlits_port _ h₂, State.idleFlit_port_self, hu]
  · obtain ⟨lanes, hf⟩ := State.idleFlit_sends (by rwa [hu])
    rw [hu] at hf
    exact ⟨lanes, State.idleFlits_out _ _ hf⟩

theorem State.idleFlits_only (s : State) (l : List Nat) : s.only (l.foldl State.idleFlit s) [.lnk, .out] fun _ => False :=
  State.only_foldl _ _ s fun s p _ => s.idleFlit_only p

/-! ### The clocks (R43, R311) -/

theorem State.heldTick_part (s : State) {p : Part} (h : p ≠ .mtr) : p.same s s.heldTick :=
  (s.heldTick_only.1 p).resolve_left (by simpa using h)

theorem State.heldTick_scrubbing (s : State) : s.heldTick.scrubbing = s.scrubbing := by
  have hd : s.heldTick.dev = s.dev := s.heldTick_part (p := .dev) (by decide)
  have hr : s.heldTick.reg INT_CTL = s.reg INT_CTL := State.only_reg_eq s.heldTick_only (by
    rintro ⟨m, -, h⟩
    simp only [INT_CTL, MTR_HELD] at h
    omega)
  simp only [State.scrubbing, State.inService, hd, State.flag_congr (f := INT_CTL_SCRUBEN) hr]

theorem State.tick_only (s : State) : s.only s.tick [.clock, .ks, .intg, .mtr] fun r => ∃ m < 8, r = MTR_HELD m := by
  have h := s.heldTick_only
  unfold State.tick
  generalize s.heldTick = u at h
  refine State.only_trans (State.only_mono h (by simp) fun _ h => h) ⟨fun p => ?_, fun r => .inr rfl⟩
  cases p <;> simp [Part.same]

theorem State.tick_clock (s : State) : s.tick.clock = s.clock + 1 :=
  congrArg (· + 1) (s.heldTick_part (p := .clock) (by decide))

theorem State.tick_ks (s : State) :
    s.tick.ks = { s.ks with time := if s.dev = .off then s.ks.time else (s.ks.time + 1) % 2 ^ 64 } := by
  have hk : s.heldTick.ks = s.ks := s.heldTick_part (p := .ks) (by decide)
  have hd : s.heldTick.dev = s.dev := s.heldTick_part (p := .dev) (by decide)
  simp only [State.tick, hk, hd]

theorem State.tick_intg (s : State) :
    s.tick.intg = { s.intg with scrubRun := s.intg.scrubRun + b2n s.scrubbing } := by
  have hi : s.heldTick.intg = s.intg := s.heldTick_part (p := .intg) (by decide)
  simp only [State.tick, hi, State.heldTick_scrubbing]

theorem State.tick_port (s : State) (p : Nat) : s.tick.port p = s.port p := by
  have hl : s.tick.lnk = s.lnk := (s.tick_only.1 .lnk).resolve_left (by simp)
  rw [State.port, State.port, hl]

/-- What a part holds that the ports' IDLEs leave alone is what the tick left in it. -/
theorem State.idle_part (s : State) {p : Part} (hl : p ≠ .lnk) (ho : p ≠ .out) : p.same s.tick s.idle :=
  ((s.tick.idleFlits_only _).1 p).resolve_left (by simp [hl, ho])

theorem step_empty {s : State} (h : s.pending = []) : step s = .next s.idle := by
  rw [step, h]

/-- Settles O2: the clocks' part from the tick, the ports' part from their IDLEs. -/
theorem tickOnEmptyQueue : Obligations.TickOnEmptyQueue := by
  intro s h
  refine ⟨s.idle, step_empty h, ?_, ?_, ?_, fun p hp => ?_, ?_⟩
  · exact (s.idle_part (p := .clock) (by decide) (by decide)).trans s.tick_clock
  · exact (s.idle_part (p := .ks) (by decide) (by decide)).trans s.tick_ks
  · exact (s.idle_part (p := .intg) (by decide) (by decide)).trans s.tick_intg
  · obtain ⟨hport, hsend⟩ := s.tick.idleFlits_mem List.nodup_range (List.mem_range.2 hp)
    rw [s.tick_port] at hport hsend
    exact ⟨fun ha => ⟨hport.trans (if_pos ha), hsend ha⟩, fun ha => hport.trans (if_neg ha)⟩
  · exact State.only_trans (State.only_mono s.tick_only (by simp) fun _ h => h)
      (State.only_mono (s.tick.idleFlits_only _) (by simp) fun _ h => h.elim)

end Sys2Proof.Machine

/-! SUPPORT. What asserts a reset (R282-R288): the interval that a source opens or joins, the sources one by one, and O44. -/

namespace Sys2Proof.Machine

/-! ### A source asserts a reset (R284, R287) -/

/-- Taking a reset leaves what its interval stands for. -/
theorem State.takeReset_stands (s : State) : s.takeReset.pwr.stands = s.pwr.stands := by
  have h : s.KeepsWith (fun p q => q.stands = p.stands) s := ⟨id, id, id, rfl, rfl⟩
  exact (h.takeReset fun _ _ _ hq hr => hr.trans hq).pwr

theorem State.post_pwr (s : State) (c v u d : Nat) : (s.post c v u d).pwr = s.pwr :=
  State.only_part (s.post_only c v u d) .pwr (by simp [wires])

section
variable {s : State} {src reach ep : Nat} {level : Bool}

/-- The levels that stand once a source acts. -/
def Pwr.levelsWith (p : Pwr) (src : Nat) (level : Bool) : List Nat :=
  if level = true then (if src ∈ p.levels then p.levels else p.levels ++ [src]) else p.levels

theorem State.assertReset_off (h : s.dev = .off) : s.assertReset src reach ep level = s := if_pos h

theorem State.assertReset_saving (h : s.dev = .saving) :
    s.assertReset src reach ep level = s.deferReset { source := src, reach := reach, endpoint := ep } := by
  rw [State.assertReset, if_neg (by rw [h]; decide), if_pos h]

theorem State.assertReset_acts (ho : s.dev ≠ .off) (hs : s.dev ≠ .saving) :
    s.assertReset src reach ep level = s.actReset src reach ep level := by
  rw [State.assertReset, if_neg ho, if_neg hs]

/-- With no interval open a source opens one of its own reach. -/
theorem State.actReset_opens (h : s.pwr.interval = false) :
    (s.actReset src reach ep level).pwr.stands = (true, reach, src, 2 ^ src, s.pwr.levelsWith src level) := by
  unfold State.actReset
  extract_lets p d levels q u
  rw [if_neg (by simp [p, h]), State.takeReset_stands]
  simp only [Pwr.stands, levels, p, Pwr.levelsWith, List.contains_eq_mem, decide_eq_true_eq]

/-- A source of no wider reach joins the open interval. -/
theorem State.actReset_joins (h : s.pwr.interval = true) (hr : reach ≤ s.pwr.reach) :
    (s.actReset src reach ep level).pwr.stands =
        (true, s.pwr.reach, s.pwr.source, s.pwr.mask ||| 2 ^ src, s.pwr.levelsWith src level) ∧
      s.only (s.actReset src reach ep level) [.pwr, .thm] fun _ => False := by
  unfold State.actReset
  extract_lets p d levels q u
  rw [if_pos h, if_neg (Nat.not_lt.2 hr)]
  have hu : s.only u [.pwr, .thm] fun _ => False := by
    unfold u
    split
    · exact ⟨fun q => by cases q <;> simp [Part.same], fun _ => .inr rfl⟩
    · exact s.only_refl _ _
  clear_value u
  refine ⟨?_, State.only_trans hu ⟨fun q => by cases q <;> simp [Part.same], fun _ => .inr rfl⟩⟩
  simp only [Pwr.stands, levels, p, h, Pwr.levelsWith, List.contains_eq_mem, decide_eq_true_eq]

/-- A source that waits is among those that wait, and nothing but the event that says so follows. -/
theorem State.deferReset_waits (s : State) (d : Deferred) :
    d ∈ (s.deferReset d).pwr.deferred ∧ (s.deferReset d).pwr.interval = s.pwr.interval ∧
      s.only (s.deferReset d) (.pwr :: wires) inLtc := by
  unfold State.deferReset
  extract_lets seen p u
  have hu : d ∈ u.pwr.deferred ∧ u.pwr.interval = s.pwr.interval ∧ s.only u (.pwr :: wires) inLtc := by
    unfold u
    split
    · next h => exact ⟨List.contains_iff_mem.1 h, rfl, s.only_refl _ _⟩
    · exact ⟨List.mem_append_right _ List.mem_cons_self, rfl,
        fun q => by cases q <;> simp [Part.same], fun _ => .inr rfl⟩
  clear_value u
  split
  · exact hu
  · obtain ⟨hd, hi, ho⟩ := hu
    rw [State.post_pwr]
    exact ⟨hd, hi, State.only_trans ho (State.only_mono (u.post_only _ _ _ _) (fun _ h => List.mem_cons_of_mem _ h) fun _ h => h)⟩

end

/-! ### The start record (R296) -/

/-- What is written into the reserved parts of the courses moves them and the mover's port. -/
theorem State.writeReserved_only (s : State) (f : Course → Course) : s.only (s.writeReserved f) [.keep, .mtr] fun _ => False := by
  have hcopies : s.only (s.writeCopies f) [.keep, .mtr] fun _ => False := by
    refine State.only_foldl _ _ s fun t k _ => ?_
    split
    · exact t.only_refl _ _
    · exact State.only_mono (t.modCourse_only _ _) (by simp) fun _ h => h
  refine State.only_trans hcopies (State.only_foldl _ _ _ fun t k _ => ?_)
  split
  · exact t.only_refl _ _
  · exact State.only_foldl _ _ _ fun u x _ => State.only_mono (u.ask_only _ _ _ _) (by simp) fun _ h => h

/-- The start record as a write of it leaves it. -/
def State.recordWritten (s : State) (f : StartRec → StartRec) : StartRec :=
  { f s.pwr.record with seq := (f s.pwr.record).seq + 1, time := s.ks.time }

theorem State.writeRecord_eq (s : State) (f : StartRec → StartRec) : ∃ u : State,
    u.pwr = { s.pwr with record := s.recordWritten f } ∧ s.only u [.pwr, .keep, .mtr] (fun _ => False) ∧
    s.writeRecord f = ((u.setFld RST_START_STARTS (s.recordWritten f).starts).setFld RST_START_INPROG
      (b2n (s.recordWritten f).inprog)).setFld RST_START_FAILS (s.recordWritten f).fails := by
  have hu := State.writeReserved_only { s with pwr := { s.pwr with record := s.recordWritten f } }
    fun c => { c with start := (s.recordWritten f).bytes }
  refine ⟨_, State.only_part hu .pwr (by simp), State.only_trans ?_ (State.only_mono hu (by simp) fun _ h => h), rfl⟩
  exact ⟨fun q => by cases q <;> simp [Part.same], fun _ => .inr rfl⟩

theorem State.setFld_pwr (s : State) (f : Fld) (v : Nat) : (s.setFld f v).pwr = s.pwr := rfl

theorem State.writeRecord_pwr (s : State) (f : StartRec → StartRec) :
    (s.writeRecord f).pwr = { s.pwr with record := s.recordWritten f } := by
  obtain ⟨u, hp, -, hw⟩ := s.writeRecord_eq f
  rw [hw, State.setFld_pwr, State.setFld_pwr, State.setFld_pwr, hp]

theorem State.writeRecord_fails (s : State) (f : StartRec → StartRec) :
    (s.writeRecord f).fld RST_START_FAILS = (f s.pwr.record).fails % 16 := by
  obtain ⟨u, -, -, hw⟩ := s.writeRecord_eq f
  rw [hw]
  exact State.fld_setFld _ _ _ (by decide) (by decide)

theorem State.writeRecord_only (s : State) (f : StartRec → StartRec) :
    s.only (s.writeRecord f) [.pwr, .keep, .mtr] fun r => r = RST_START := by
  obtain ⟨u, -, ho, hw⟩ := s.writeRecord_eq f
  have fld : ∀ (t : State) (g : Fld) (v : Nat), g.addr = RST_START →
      t.only (t.setFld g v) [.pwr, .keep, .mtr] fun r => r = RST_START := fun t g v hg =>
    State.only_mono (t.setFld_only g v) (by simp) fun r hr => hr.trans hg
  rw [hw]
  exact State.only_trans (State.only_mono ho (fun _ h => h) fun _ h => h.elim)
    (State.only_trans (fld _ _ _ rfl) (State.only_trans (fld _ _ _ rfl) (fld _ _ _ rfl)))

/-! ### The sources one by one -/

theorem exec_resetNAssert {s : State} (h : s.pins.resetN = true) :
    exec .resetNAssert s = .next ({ s with pins := { s.pins with resetN := false } }.assertReset 2 4 0 true) := by
  show execResetNAssert s = _
  rw [execResetNAssert, if_neg (by simp [h])]

theorem exec_resetNAssert_again {s : State} (h : s.pins.resetN = false) : exec .resetNAssert s = .next s := by
  show execResetNAssert s = _
  rw [execResetNAssert, if_pos h]

theorem exec_resetNRelease_again {s : State} (h : s.pins.resetN = true) : exec .resetNRelease s = .next s := by
  show execResetNRelease s = _
  rw [execResetNRelease, if_pos h]

/-- The release of RESET_N takes its level back and ends scan. -/
theorem exec_resetNRelease {s : State} (h : s.pins.resetN = false) : ∃ t : State, exec .resetNRelease s = .next t ∧
    t.pins.resetN = true ∧ t.pwr.levels = s.pwr.levels.filter (· != 2) ∧ t.bst.ir ≠ 0x20 ∧
    s.only t [.pins, .pwr, .bst] fun _ => False := by
  show ∃ t : State, execResetNRelease s = _ ∧ _
  rw [execResetNRelease, if_neg (by simp [h])]
  refine ⟨_, rfl, ?_⟩
  extract_lets _ u _
  have hu : u.pins.resetN = true ∧ u.pwr.levels = s.pwr.levels.filter (· != 2) ∧
      s.only u [.pins, .pwr, .bst] fun _ => False :=
    ⟨rfl, rfl, fun q => by cases q <;> simp [Part.same, u, State.releaseLevel], fun _ => .inr rfl⟩
  clear_value u
  obtain ⟨hpin, hlev, ho⟩ := hu
  split
  · exact ⟨hpin, hlev, (by decide : (0xFF : Nat) ≠ 0x20),
      State.only_trans ho ⟨fun q => by cases q <;> simp [Part.same], fun _ => .inr rfl⟩⟩
  · next hir => exact ⟨hpin, hlev, fun h => hir (.inl h), ho⟩

theorem exec_rstactColdReset {s : State} (h : s.dev ≠ .off) :
    exec .rstactColdReset s = .next ((s.breakSems fun x => x.src == 1).assertReset 4 4 0 false) := by
  show execRstactColdReset s = _
  rw [execRstactColdReset, if_neg h]

theorem exec_rstactColdReset_off {s : State} (h : s.dev = .off) : exec .rstactColdReset s = .next s := by
  show execRstactColdReset s = _
  rw [execRstactColdReset, if_pos h]

/-- A semaphore that the sideband owns is broken, and the others stay. -/
theorem State.breakSems_sideband {s : State} {n : Nat} {x : Sem} (h : s.ks.sems[n]? = some x) :
    (s.breakSems fun x => x.src == 1).ks.sems[n]? = some (if x.held = true ∧ x.src = 1 then { broken := true } else x) := by
  rw [State.breakSems_eq (q := fun x => x.held = true ∧ x.src = 1) _ fun x => by rw [Bool.and_eq_true, beq_iff_eq]]
  simp only [List.getElem?_map, h, Option.map_some]

/-! ### The watchdog (R288) -/

/-- A second expiry within 10 s. -/
def State.wdogAgain (s : State) : Bool :=
  match s.pwr.wdogLast with
  | some t => decide (s.clock ≤ t + 10 ^ 10)
  | none => false

/-- An expiry is counted, noted and posted. -/
def State.wdogNoted (s : State) (esc : Bool) : State :=
  { s.incFld RST_WDOG_COUNT 1 with pwr := { s.pwr with wdogLast := some s.clock } }.post 0x0107 2 0xFF (b2n esc)

theorem State.wdogNoted_pwr (s : State) (esc : Bool) : (s.wdogNoted esc).pwr.wdogLast = some s.clock := by
  rw [State.wdogNoted, State.post_pwr]

theorem State.wdogNoted_count (s : State) (esc : Bool) :
    (s.wdogNoted esc).fld RST_WDOG_COUNT = satAdd 16 (s.fld RST_WDOG_COUNT) 1 := by
  have hp : (s.wdogNoted esc).reg RST_WDOG = (s.incFld RST_WDOG_COUNT 1).reg RST_WDOG :=
    State.only_reg_eq (State.post_only _ _ _ _ _) (by simp [inLtc, RST_WDOG])
  rw [State.fld_congr (s := s.incFld RST_WDOG_COUNT 1) hp]
  exact s.fld_incFld RST_WDOG_COUNT 1 (by decide) (by decide)

theorem State.wdogNoted_only (s : State) (esc : Bool) :
    s.only (s.wdogNoted esc) (.pwr :: wires) fun r => inLtc r ∨ r = RST_WDOG := by
  refine State.only_trans (State.only_mono (s.incFld_only RST_WDOG_COUNT 1) (by simp) fun _ h => .inr h)
    (State.only_trans ?_ (State.only_mono (State.post_only _ _ _ _ _) (fun _ h => List.mem_cons_of_mem _ h) fun _ h => .inl h))
  exact ⟨fun q => by cases q <;> simp [Part.same], fun _ => .inr rfl⟩

theorem exec_watchdogExpiry_idle {s : State} (h : s.dev = .off ∨ s.dev = .aux ∨ s.dev = .safe) :
    exec .watchdogExpiry s = .next s := by
  show execWatchdogExpiry s = _
  rw [execWatchdogExpiry, if_pos h]

/-- In RECOVERY the Keystone restarts and nothing more; elsewhere the expiry asserts WARM, or COLD the second time within 10 s. -/
theorem exec_watchdogExpiry {s : State} (h : ¬(s.dev = .off ∨ s.dev = .aux ∨ s.dev = .safe)) : ∃ esc, exec .watchdogExpiry s = .next (
    if s.dev = .recovery then ((s.wdogNoted esc).emptyLatch 5).ksAborted
    else if s.wdogAgain = true then (s.wdogNoted esc).assertReset 7 4 0 false
    else (s.wdogNoted esc).assertReset 6 3 0 false) := by
  show ∃ esc, execWatchdogExpiry s = _
  rw [execWatchdogExpiry, if_neg h]
  extract_lets esc _ _ _ u
  have hesc : esc = (s.wdogAgain && s.dev != .recovery) := by
    unfold esc State.wdogAgain
    cases s.pwr.wdogLast <;> rfl
  have hu : u = s.wdogNoted esc := rfl
  have hdev : u.dev = s.dev := State.only_part (s.wdogNoted_only esc) .dev (by simp [wires])
  refine ⟨esc, ?_⟩
  clear_value u
  subst hu
  rw [hdev]
  by_cases hr : s.dev = .recovery
  · rw [if_pos hr, if_pos hr]
  · have hagain : esc = true ↔ s.wdogAgain = true := by rw [hesc, bne_iff_ne.2 hr, Bool.and_true]
    simp only [if_neg hr, hagain]

/-! ### A start that takes too long, and one that has held (R296, R297) -/

theorem exec_startTimeout {s : State} (hd : s.dev = .bringup ∨ s.dev = .restoring) (hw : s.pwr.waitAt = none)
    (hi : s.pwr.interval = false) :
    exec .startTimeout s = .next ((s.post 0x010D 2 0xFF 0).assertReset 9 4 0 false) := by
  show execStartTimeout s = _
  rw [execStartTimeout, if_pos ⟨hd, by rw [hw]; rfl, hi⟩]

theorem exec_startTimeout_idle {s : State}
    (h : (s.dev ≠ .bringup ∧ s.dev ≠ .restoring) ∨ s.pwr.waitAt ≠ none ∨ s.pwr.interval = true) :
    exec .startTimeout s = .next s := by
  show execStartTimeout s = _
  rw [execStartTimeout, if_neg]
  rintro ⟨hd, hw, hi⟩
  rcases h with ⟨h1, h2⟩ | h | h
  · exact hd.elim h1 h2
  · exact h (Option.isNone_iff_eq_none.1 hw)
  · exact Bool.noConfusion (hi.symm.trans h)

theorem exec_ready60s_idle {s : State} (h : s.dev ≠ .ready ∨ s.pwr.readyAt = none) : exec .ready60s s = .next s := by
  show execReady60s s = _
  rw [execReady60s, if_neg]
  rintro ⟨hd, hr⟩
  rcases h with h | h
  · exact h hd
  · rw [h] at hr
    exact Bool.noConfusion hr

/-- 60 s in READY end the count of failed starts. -/
theorem exec_ready60s {s : State} (hd : s.dev = .ready) (hr : s.pwr.readyAt ≠ none) : ∃ t : State, exec .ready60s s = .next t ∧
    t.pwr.record.fails = 0 ∧ t.fld RST_START_FAILS = 0 ∧ t.pwr.readyAt = none ∧
    s.only t [.pwr, .keep, .mtr] fun r => r = RST_START := by
  show ∃ t : State, execReady60s s = _ ∧ _
  rw [execReady60s, if_pos ⟨hd, Option.isSome_iff_ne_none.2 hr⟩]
  refine ⟨_, rfl, ?_, State.writeRecord_fails _ _, ?_, ?_⟩
  · rw [State.writeRecord_pwr]; rfl
  · rw [State.writeRecord_pwr]
  · refine State.only_trans (t := { s with pwr := { s.pwr with readyAt := none } }) ?_ (State.writeRecord_only _ _)
    exact ⟨fun q => by cases q <;> simp [Part.same], fun _ => .inr rfl⟩

/-! ### RST_CMD (R282, R300) -/

section
variable {s : State} {a : Access} {v : Nat}

theorem State.rstCmd_warm (hp : a.path = .sideband) (hk : v / 65536 = 0xA5C3) (hv : v % 4 = 1) :
    s.rstCmd a v = s.assertReset 5 3 0 false := by simp only [State.rstCmd, hp, hk, hv, ne_eq, not_true, if_false, if_true]

theorem State.rstCmd_cold (hp : a.path = .sideband) (hk : v / 65536 = 0xA5C3) (hv : v % 4 = 2) :
    s.rstCmd a v = s.assertReset 5 4 0 false := by
  simp only [State.rstCmd, hp, hk, hv, ne_eq, not_true, if_false, if_true, (by decide : ¬(2 : Nat) = 1)]

/-- Without the sideband and its key nothing happens. -/
theorem State.rstCmd_ignored (h : a.path ≠ .sideband ∨ v / 65536 ≠ 0xA5C3) : s.rstCmd a v = s := by
  unfold State.rstCmd
  split
  · next hp => exact if_pos (h.resolve_left (not_not.2 hp))
  · rfl

end

/-- The four parts of an assertion: off, deferred, opening an interval, joining one. -/
theorem State.assertReset_facts (s : State) (src reach ep : Nat) (level : Bool) : let t := s.assertReset src reach ep level
    (s.dev = .off → t = s) ∧
    (s.dev = .saving → { source := src, reach := reach, endpoint := ep } ∈ t.pwr.deferred ∧ t.pwr.interval = s.pwr.interval ∧
      s.only t (.pwr :: wires) inLtc) ∧
    (s.dev ≠ .off → s.dev ≠ .saving → s.pwr.interval = false →
      t.pwr.stands = (true, reach, src, 2 ^ src, s.pwr.levelsWith src level)) ∧
    (s.dev ≠ .off → s.dev ≠ .saving → s.pwr.interval = true → reach ≤ s.pwr.reach →
      t.pwr.stands = (true, s.pwr.reach, s.pwr.source, s.pwr.mask ||| 2 ^ src, s.pwr.levelsWith src level) ∧
      s.only t [.pwr, .thm] fun _ => False) := by
  refine ⟨fun h => State.assertReset_off h, fun h => ?_, fun ho hs hi => ?_, fun ho hs hi hr => ?_⟩
  · rw [State.assertReset_saving h]
    exact s.deferReset_waits _
  · rw [State.assertReset_acts ho hs]
    exact State.actReset_opens hi
  · rw [State.assertReset_acts ho hs]
    exact State.actReset_joins hi hr

/-- Settles O44: what an assertion does, and what each of the sources asserts. -/
theorem resetSources : Obligations.ResetSources := by
  refine ⟨fun s src reach ep level _ _ _ => ?_, fun s => ?_, fun s a v h => ⟨fun hp hk => ⟨fun hv => ?_, fun hv => ?_⟩, fun hi => ?_⟩⟩
  · obtain ⟨hoff, hsav, hopen, hjoin⟩ := s.assertReset_facts src reach ep level
    refine ⟨hoff, hsav, fun ho hs hi => ?_, fun ho hs hi hr => ?_⟩
    · obtain ⟨h1, h2, h3, h4, h5⟩ : _ ∧ _ ∧ _ ∧ _ ∧ _ := by
        simpa only [Pwr.stands, Prod.mk.injEq] using hopen ho hs hi
      exact ⟨h1, h2, h3, h4, h5⟩
    · obtain ⟨hst, hon⟩ := hjoin ho hs hi hr
      obtain ⟨-, h2, h3, h4, -⟩ : _ ∧ _ ∧ _ ∧ _ ∧ _ := by simpa only [Pwr.stands, Prod.mk.injEq] using hst
      exact ⟨h4, h2, h3, hon⟩
  · refine ⟨exec_resetNAssert_again, exec_resetNAssert, exec_resetNRelease_again, fun h => ?_, exec_rstactColdReset_off,
      fun h => ⟨_, exec_rstactColdReset h, fun n x hx => State.breakSems_sideband hx, s.breakSems_only _⟩,
      exec_watchdogExpiry_idle, fun h1 h2 h3 => ?_, exec_startTimeout, exec_startTimeout_idle, exec_ready60s_idle, exec_ready60s⟩
    · obtain ⟨t, ht, hpin, hlev, hir, ho⟩ := exec_resetNRelease h
      refine ⟨t, ht, hpin, by simp [hlev], fun x hx hne => ?_, hir, ho⟩
      rw [hlev, List.mem_filter]
      exact ⟨hx, bne_iff_ne.2 hne⟩
    · obtain ⟨esc, he⟩ := exec_watchdogExpiry (s := s) (by rintro (h | h | h) <;> contradiction)
      exact ⟨s.wdogNoted esc, he, s.wdogNoted_count esc, s.wdogNoted_pwr esc, s.wdogNoted_only esc⟩
  · show Host.Outcome.next (s.cfgWrite a RST_CMD fun s => s.rstCmd a v.toNat) = _
    rw [State.cfgWrite_served h, State.rstCmd_warm hp hk hv]
  · show Host.Outcome.next (s.cfgWrite a RST_CMD fun s => s.rstCmd a v.toNat) = _
    rw [State.cfgWrite_served h, State.rstCmd_cold hp hk hv]
  · have hw : s.cfgWrite a RST_CMD (fun s => s.rstCmd a v.toNat) = (s.arrived a 9).respond a 9 0 0 := by
      rw [State.cfgWrite_served h, State.rstCmd_ignored hi]
    exact ⟨congrArg Host.Outcome.next hw, congrArg Host.Outcome.next hw⟩

end Sys2Proof.Machine

/-! SUPPORT. Rules of registers that lie beside each other, loops over the lanes of a port, and LNK_CTL (R53, R61, R69, R71). -/

namespace Sys2Proof.Machine

/-! ### Fields beside each other -/

/-- A field lies within a 32-bit register. -/
def Fld.inWord (f : Fld) : Bool := decide (f.lo ≤ f.hi) && decide (f.hi < 32)

/-- Two fields lie within 32-bit registers and share no bit number. -/
def Fld.beside (f g : Fld) : Bool := f.inWord && g.inWord && (decide (f.hi < g.lo) || decide (g.hi < f.lo))

theorem getBits_mod_word (y : Nat) {hi lo : Nat} (hl : lo ≤ hi) (hh : hi < 32) :
    getBits (y % 2 ^ 32) hi lo = getBits y hi lo := by
  unfold getBits
  obtain ⟨k, hk⟩ := Nat.exists_eq_add_of_le (show lo ≤ 32 by omega)
  rw [hk, Nat.pow_add, Nat.mod_mul_right_div_self, Nat.mod_mod_of_dvd]
  exact Nat.pow_dvd_pow 2 (by omega)

theorem Fld.inWord_iff {f : Fld} : f.inWord = true ↔ f.lo ≤ f.hi ∧ f.hi < 32 := by simp [Fld.inWord]

/-- A field reads as before once one that shares no bit with it is set, be it in the same register or in another. -/
theorem State.fld_setFld_beside (s : State) {f g : Fld} (v : Nat) (h : f.beside g = true) :
    (s.setFld g v).fld f = s.fld f := by
  simp only [Fld.beside, Bool.and_eq_true, Bool.or_eq_true, decide_eq_true_eq, Fld.inWord_iff] at h
  obtain ⟨⟨⟨hf, h32⟩, hg, -⟩, hd⟩ := h
  by_cases ha : f.addr = g.addr
  · unfold State.fld State.setFld
    rw [ha, State.reg_setReg_self, getBits_mod_word _ hf h32]
    rcases hd with hd | hd
    · exact getBits_setBits_low _ _ _ _ _ _ (by omega) hd hf
    · exact getBits_setBits_high _ _ _ _ _ _ (by omega) hd
  · exact s.fld_setFld_ne f g v ha

theorem State.flag_setFld_beside (s : State) {f g : Fld} (v : Nat) (h : f.beside g = true) :
    (s.setFld g v).flag f = s.flag f := by simp only [State.flag, s.fld_setFld_beside v h]

/-- A field of a register reads as what was set of it. -/
theorem State.fld_setFld_self (s : State) {f : Fld} (v : Nat) (h : f.inWord = true) :
    (s.setFld f v).fld f = v % 2 ^ (f.hi + 1 - f.lo) :=
  s.fld_setFld f v (Fld.inWord_iff.1 h).1 (Fld.inWord_iff.1 h).2

/-- A field reads as the value set where that value fits. -/
theorem State.fld_setFld_lt (s : State) {f : Fld} {v : Nat} (hv : v < 2 ^ (f.hi + 1 - f.lo)) (h : f.inWord = true := by rfl) :
    (s.setFld f v).fld f = v := by
  rw [s.fld_setFld_self v h, Nat.mod_eq_of_lt hv]

/-- A counter field reads as its saturating sum. -/
theorem State.fld_incFld_self (s : State) {f : Fld} (d : Nat) (h : f.inWord = true) :
    (s.incFld f d).fld f = satAdd (f.hi + 1 - f.lo) (s.fld f) d :=
  s.fld_incFld f d (Fld.inWord_iff.1 h).1 (Fld.inWord_iff.1 h).2

/-- A field of one bit set from a truth value reads as that value. -/
theorem State.flag_setFld_b2n (s : State) {f : Fld} (b : Bool) (h : f.hi = f.lo := by rfl) (hw : f.inWord = true := by rfl) :
    (s.setFld f (b2n b)).flag f = b := by
  rw [State.flag, s.fld_setFld_self _ hw, h]
  cases b <;> simp [b2n]

theorem State.fld_lt (s : State) (f : Fld) : s.fld f < 2 ^ (f.hi + 1 - f.lo) := Nat.mod_lt _ (by positivity)

/-! ### Frames step by step -/

theorem State.only.andThen {s t u : State} {ps qs : List Part} {rs ts : Nat → Prop} (h : s.only t ps rs) (h' : t.only u qs ts)
    (hp : ∀ p ∈ qs, p ∈ ps) (hr : ∀ r, ts r → rs r) : s.only u ps rs := State.only_trans h (State.only_mono h' hp hr)

theorem State.only.setFld {s t : State} {ps : List Part} {rs : Nat → Prop} (h : s.only t ps rs) {f : Fld} {v : Nat}
    (hf : rs f.addr) : s.only (t.setFld f v) ps rs := h.andThen (t.setFld_only f v) (by simp) fun _ hr => hr ▸ hf

theorem State.only.setReg {s t : State} {ps : List Part} {rs : Nat → Prop} (h : s.only t ps rs) {a v : Nat} (ha : rs a) :
    s.only (t.setReg a v) ps rs := h.andThen (t.setReg_only a v) (by simp) fun _ hr => hr ▸ ha

theorem State.only.modPort {s t : State} {ps : List Part} {rs : Nat → Prop} (h : s.only t ps rs) {p : Nat} {f : Port → Port}
    (hl : Part.lnk ∈ ps := by simp) : s.only (t.modPort p f) ps rs :=
  h.andThen (t.modPort_only p f) (by simpa using hl) fun _ hr => hr.elim

/-! ### Loops over the lanes of a port -/

/-- A loop whose round `n` makes a fact about `n` true, which the other rounds keep, makes each of its facts true. -/
theorem foldl_range_each {P : Nat → State → Prop} {f : State → Nat → State} {k : Nat}
    (hset : ∀ n < k, ∀ s, P n (f s n)) (hkeep : ∀ n m s, m ≠ n → P n s → P n (f s m)) (s : State) {n : Nat}
    (hn : n < k) : P n ((List.range k).foldl f s) := by
  induction k with
  | zero => omega
  | succ k ih =>
    rw [List.range_succ, List.foldl_append, List.foldl_cons, List.foldl_nil]
    by_cases h : n = k
    · subst h; exact hset n hn _
    · exact hkeep n k _ (Ne.symm h) (ih (fun n hn => hset n (by omega)) (by omega))

/-- LNK_LSTAT of two lanes of a port are two registers. -/
theorem LNK_LSTAT_ne (p : Nat) {n m : Nat} (h : m ≠ n) : LNK_LSTAT p n ≠ LNK_LSTAT p m := by
  simp only [LNK_LSTAT]; omega

end Sys2Proof.Machine

namespace Sys2Proof.Machine

/-! ### What starting over leaves in the registers (R71) -/

theorem LNK_LSTAT_ne_STAT (p n : Nat) : LNK_LSTAT p n ≠ LNK_STAT p := by
  simp only [LNK_LSTAT, LNK_STAT]; omega

/-- No lane of the port is marked failed or in use once the loop over the lanes is done. -/
theorem State.lanesForgotten_flags (s : State) (p : Nat) {n : Nat} (hn : n < 17) :
    (s.lanesForgotten p).flag (LNK_LSTAT_FAILED p n) = false ∧ (s.lanesForgotten p).flag (LNK_LSTAT_INUSE p n) = false := by
  refine foldl_range_each
    (P := fun n t => t.flag (LNK_LSTAT_FAILED p n) = false ∧ t.flag (LNK_LSTAT_INUSE p n) = false)
    (fun n _ s => ⟨?_, State.flag_setFld_b2n _ false⟩) (fun n m s h hP => ?_) s hn
  · rw [State.flag_setFld_beside _ _ (by rfl)]
    exact State.flag_setFld_b2n _ false
  · have hr : ((s.setFld (LNK_LSTAT_FAILED p m) 0).setFld (LNK_LSTAT_INUSE p m) 0).reg (LNK_LSTAT p n) = s.reg (LNK_LSTAT p n) :=
      (State.reg_setFld_ne _ _ _ (LNK_LSTAT_ne p h)).trans (State.reg_setFld_ne _ _ _ (LNK_LSTAT_ne p h))
    exact ⟨(State.flag_congr (f := LNK_LSTAT_FAILED p n) hr).trans hP.1,
      (State.flag_congr (f := LNK_LSTAT_INUSE p n) hr).trans hP.2⟩

theorem State.startOver_flags (s : State) (p : Nat) (st : PSt) {n : Nat} (hn : n < 17) :
    (s.startOver p st).flag (LNK_LSTAT_FAILED p n) = false ∧ (s.startOver p st).flag (LNK_LSTAT_INUSE p n) = false := by
  have hr : (s.startOver p st).reg (LNK_LSTAT p n) =
      ((s.modPort p (Port.restarted st)).lanesForgotten p).reg (LNK_LSTAT p n) := by
    rw [State.startOver_eq]
    iterate 5 rw [State.reg_setFld_ne _ _ _ (by exact LNK_LSTAT_ne_STAT p n)]
  obtain ⟨hf, hu⟩ := (s.modPort p (Port.restarted st)).lanesForgotten_flags p hn
  exact ⟨(State.flag_congr (f := LNK_LSTAT_FAILED p n) hr).trans hf, (State.flag_congr (f := LNK_LSTAT_INUSE p n) hr).trans hu⟩

/-- The port's status shows no generation, width or group, and no lane on LS. -/
theorem State.startOver_stat (s : State) (p : Nat) (st : PSt) :
    (s.startOver p st).fld (LNK_STAT_GEN p) = 0 ∧ (s.startOver p st).fld (LNK_STAT_WIDTH p) = 0 ∧
    (s.startOver p st).fld (LNK_STAT_GROUP p) = 0 ∧ (s.startOver p st).fld (LNK_STAT_LS_USE p) = 16 := by
  rw [State.startOver_eq]
  refine ⟨?_, ?_, ?_, ?_⟩
  · iterate 4 rw [State.fld_setFld_beside _ _ (by rfl)]
    exact State.fld_setFld_self _ 0 rfl
  · iterate 3 rw [State.fld_setFld_beside _ _ (by rfl)]
    exact State.fld_setFld_self _ 0 rfl
  · iterate 2 rw [State.fld_setFld_beside _ _ (by rfl)]
    exact State.fld_setFld_self _ 0 rfl
  · rw [State.fld_setFld_beside _ _ (by rfl)]
    exact State.fld_setFld_self _ 16 rfl

/-! ### A write of LNK_CTL (R53, R69) -/

theorem rowOf_LNK_CTL (p : Fin 4) :
    rowOf (LNK_CTL p) = some ⟨0x300000, [(65536, 4)], [⟨3, 3, .wo, 0⟩, ⟨2, 2, .rw, 1⟩, ⟨1, 0, .rw, 3⟩]⟩ := by
  fin_cases p <;> rfl

/-- What a write of LNK_CTL_p leaves in ENABLE is bit 2 of the value. -/
theorem State.writeAcc_enable (s : State) (p : Fin 4) (v : Nat) :
    (s.writeAcc (LNK_CTL p) v).flag (LNK_CTL_ENABLE p) = bitAt v 2 := by
  have hf : (s.writeAcc (LNK_CTL p) v).fld (LNK_CTL_ENABLE p) = v / 2 ^ 2 % 2 := by
    obtain ⟨hl, hh⟩ := Fld.inWord_iff.1 (show (LNK_CTL_ENABLE p).inWord = true from rfl)
    rw [State.fld, show (LNK_CTL_ENABLE p).addr = LNK_CTL p from rfl, State.writeAcc_reg_self, State.taken, rowOf_LNK_CTL]
    simp only [List.foldl_cons, List.foldl_nil, writeField]
    rw [getBits_mod_word _ hl hh, show (LNK_CTL_ENABLE p).hi = 2 from rfl, show (LNK_CTL_ENABLE p).lo = 2 from rfl,
      getBits_setBits_high _ _ _ _ _ _ (by decide) (by decide), getBits_setBits]
    simp [getBits]
  simp only [State.flag, hf, bitAt]

theorem State.takeRx_port_st (s : State) (p q : Nat) (k : Pkt) : ((s.takeRx p k).port q).st = (s.port q).st := by
  unfold State.takeRx
  split
  · rw [State.port_modPort_eq]
    split <;> rfl
  · rfl

/-- The packet of an access that arrives leaves every port in its state. -/
theorem State.arrived_port_st (s : State) (a : Access) (o p : Nat) : ((s.arrived a o).port p).st = (s.port p).st := by
  have beat (t : State) (m : Nat) : ((t.cfgBeat m).port p).st = (t.port p).st := by
    have h : (t.cfgBeat m).lnk = t.lnk := State.only_part (t.cfgBeat_only m) .lnk
    simp only [State.port, h]
  unfold State.arrived State.takeAccess
  split
  · rw [beat]
    split
    · exact ite_keeps (fun t : State => (t.port p).st) (s.takeRx_port_st _ _ _) rfl
    · rfl
  · exact beat s 7

/-- What a write of LNK_CTL_p has a port do, by its state, ENABLE and RETRAIN, once the register is written. -/
theorem State.lnkCtlWrite_eq (s : State) (p v : Nat) :
    s.lnkCtlWrite p v =
      let w := s.writeAcc (LNK_CTL p) v
      if (s.port p).st = .bypassed then w
      else if bitAt v 2 = false then w.startOver p .disabled
      else if (s.port p).st = .disabled then w.startOver p (w.portIdleState p)
      else if bitAt v 3 then if (s.port p).st = .active then w.leaveActive p 4 else w.startOver p .detect
      else w := by
  have h : (s.writeAcc (LNK_CTL p) v).port p = s.port p := by simp [State.port]
  simp only [State.lnkCtlWrite, h]

theorem bitAt_toNat (v : Word) (i : Nat) : bitAt v.toNat i = v.getLsbD i := by
  simp [bitAt, BitVec.getLsbD, Nat.testBit_eq_decide_div_mod_eq, beq_eq_decide]

/-- The three writes of LNK_CTL_p have one effect. -/
theorem exec_lnkCtl {s : State} {a : Access} {p : Fin 4} (h : s.served a (LNK_CTL p) = true) (v : Word) :
    let t := Host.Outcome.next (((s.arrived a 9).lnkCtlWrite p v.toNat).respond a 9 0 0)
    exec (.lnkEnable a p v) s = t ∧ exec (.lnkDisable a p v) s = t ∧ exec (.lnkRetrain a p v) s = t := by
  have hw := congrArg (Host.Outcome.next (φ := Fault) (ρ := Refusal))
    (State.cfgWrite_served h fun s => s.lnkCtlWrite p v.toNat)
  exact ⟨hw, hw, hw⟩

/-- The state that an enabled port takes, by the device's state alone. -/
theorem State.portIdleState_enabled {s : State} {p : Fin 4} (h : s.flag (LNK_CTL_ENABLE p) = true) :
    s.portIdleState p = if s.dev = .recovery ∧ p = 1 then .disabled else .detect := by
  have hp : p.val = 1 ↔ p = 1 := by omega
  simp only [State.portIdleState, hp, h, if_true]

/-- Settles O10: what starting over leaves, and by the port's state, ENABLE and RETRAIN what a write of LNK_CTL_p does. -/
theorem portControl : Obligations.PortControl := by
  refine ⟨fun s p st x hx => ?_, fun s a p v h => ?_⟩
  · have hl : p.val < s.lnk.ports.length := (List.getElem?_eq_some_iff.1 hx).1
    obtain ⟨hgen, hwidth, hgroup, hls⟩ := s.startOver_stat p st
    have hp : (s.startOver p st).port p = Port.restarted st (s.port p) := by rw [State.startOver_port, if_pos ⟨rfl, hl⟩]
    refine ⟨?_, ?_, ?_, ?_, fun n hn => s.startOver_flags p st hn, hgen, hwidth, hgroup, hls, fun q hq => ?_,
      s.startOver_only p st⟩
    iterate 4 rw [hp]; rfl
    rw [State.startOver_port, if_neg fun h => hq h.1]
  · obtain ⟨hen, hdis, hre⟩ := exec_lnkCtl h v
    have hst := s.arrived_port_st a 9 p
    have hdev : ((s.arrived a 9).writeAcc (LNK_CTL p) v.toNat).dev = s.dev :=
      (State.only_part (State.writeAcc_only _ _ _) .dev).trans (State.only_part (s.arrived_only a 9) .dev)
    refine ⟨?_, State.writeAcc_only _ _ _, fun hb => ?_, fun hb h2 => ?_, fun hd h2 => ?_, fun ha h2 h3 => ?_,
      fun ha hb hd h2 h3 => ?_, fun hb hd h2 h3 => ?_⟩
    · rw [State.writeAcc_reg_self]
      refine State.taken_congr (s.arrived_reg a 9 ?_) _
      simp only [LNK_CTL]; omega
    · have e : (s.arrived a 9).lnkCtlWrite p v.toNat = (s.arrived a 9).writeAcc (LNK_CTL p) v.toNat := by
        rw [State.lnkCtlWrite_eq]; simp only [hst, hb, if_true]
      rw [hen, hdis, hre, e]
      exact ⟨rfl, rfl, rfl⟩
    · rw [hdis, State.lnkCtlWrite_eq]
      simp only [hst, hb, bitAt_toNat, h2, if_true, if_false]
    · have he := (s.arrived a 9).writeAcc_enable p v.toNat
      rw [bitAt_toNat, h2] at he
      rw [hen, State.lnkCtlWrite_eq]
      simp only [State.portIdleState_enabled he, hst, hd, bitAt_toNat, h2, hdev, reduceCtorEq, if_true, if_false]
    · rw [hre, State.lnkCtlWrite_eq]
      simp only [hst, ha, bitAt_toNat, h2, h3, reduceCtorEq, if_true, if_false, State.leaveActive]
    · rw [hre, State.lnkCtlWrite_eq]
      simp only [hst, ha, hb, hd, bitAt_toNat, h2, h3, reduceCtorEq, if_true, if_false]
    · rw [hen, State.lnkCtlWrite_eq]
      simp only [hst, hb, hd, bitAt_toNat, h2, h3, reduceCtorEq, if_false]

end Sys2Proof.Machine

/-! SUPPORT. DETECT, NEGOTIATE, and the first good capability marker (R53, R54, R62, R69, R71). -/

namespace Sys2Proof.Machine

/-! ### Loops over the lanes' status -/

/-- A register of status of one of the lanes of a port. -/
def lstatRegs (p r : Nat) : Prop := ∃ n < 17, r = LNK_LSTAT p n

/-- A loop that sets one field of LNK_LSTAT of every lane touches these registers alone. -/
theorem State.lstatLoop_only (s : State) (p : Nat) (g : Nat → Fld) (v : Nat → Nat) (hg : ∀ n, (g n).addr = LNK_LSTAT p n) :
    s.only ((List.range 17).foldl (fun s n => s.setFld (g n) (v n)) s) [] (lstatRegs p) :=
  State.only_foldl _ _ _ fun s n hn => (s.only_refl _ _).setFld ⟨n, List.mem_range.1 hn, hg n⟩

/-- After such a loop the field of each lane reads as it was set. -/
theorem State.lstatLoop_fld (s : State) (p : Nat) (g : Nat → Fld) (v : Nat → Nat) (hg : ∀ n, (g n).addr = LNK_LSTAT p n)
    (hw : ∀ n, (g n).inWord = true) {n : Nat} (hn : n < 17) :
    ((List.range 17).foldl (fun s n => s.setFld (g n) (v n)) s).fld (g n) = v n % 2 ^ ((g n).hi + 1 - (g n).lo) :=
  foldl_range_each (P := fun n t => t.fld (g n) = v n % 2 ^ ((g n).hi + 1 - (g n).lo))
    (fun n _ s => s.fld_setFld_self _ (hw n))
    (fun n m s h hP => (s.fld_setFld_ne _ _ _ (by rw [hg, hg]; exact LNK_LSTAT_ne p h)).trans hP) s hn

theorem State.lstatLoop_lnk (s : State) (g : Nat → Fld) (v : Nat → Nat) :
    ((List.range 17).foldl (fun s n => s.setFld (g n) (v n)) s).lnk = s.lnk := foldl_keeps State.lnk _ (fun _ _ => by simp) _ _

/-! ### Markers -/

/-- One byte of a marker is below 256. -/
theorem fieldB_byte_lt (m : List Byte) (off : Nat) : fieldB m off 1 < 256 := by
  obtain ⟨b, hb⟩ := List.length_eq_one_iff.1 (length_sliceB m off 1)
  rw [fieldB, hb]
  exact b.isLt

theorem Port.receives_iff (t : Port) :
    t.receives = true ↔ t.st = .negotiate ∨ t.st = .train ∨ t.st = .align ∨ t.st = .active := by
  simp [Port.receives, or_assoc]

theorem Port.not_receives {t : Port} (h : t.st = .disabled ∨ t.st = .detect) : t.receives = false := by
  rcases h with h | h <;> simp [Port.receives, h]

/-- A marker error is counted, and fails the lane where it is not the first in a row, but not in NEGOTIATE. -/
theorem State.markerError_eq (s : State) (p n : Nat) :
    s.markerError p n =
      if 2 ≤ ((s.port p).lanes.getD n {}).mkRun + 1 ∧ (s.port p).st ≠ .negotiate ∧ s.flag (LNK_LSTAT_FAILED p n) = false
      then (s.countMarker p n).1.laneFailed p n else (s.countMarker p n).1 := rfl

theorem State.countMarker_only (s : State) (p n : Nat) :
    s.only (s.countMarker p n).1 [.lnk] fun r => r = LNK_LMKERR p n :=
  State.only.modPort (State.only_mono (s.incFld_only (LNK_LMKERR_COUNT p n) 1) (by simp) fun _ h => h)

theorem State.countMarker_count (s : State) (p n : Nat) :
    (s.countMarker p n).1.fld (LNK_LMKERR_COUNT p n) = satAdd 32 (s.fld (LNK_LMKERR_COUNT p n)) 1 :=
  s.fld_incFld_self (f := LNK_LMKERR_COUNT p n) 1 rfl

theorem State.countMarker_port_st (s : State) (p n : Nat) : ((s.countMarker p n).1.port p).st = (s.port p).st := by
  show (((s.incFld (LNK_LMKERR_COUNT p n) 1).modPort p _).port p).st = _
  rw [State.port_modPort_eq]
  split <;> rfl

section
variable {s : State} {p : Fin 4} {lane : Nat} {m : List Byte}

/-- The capability marker that starts TRAIN has CAP set and the encoding at which the port negotiates. -/
def Port.capFits (t : Port) (m : List Byte) : Prop :=
  bitAt (fieldB m 1 1) 7 = true ∧ fieldB m 1 1 / 32 % 4 = if t.slowNeg then 1 else 3

theorem exec_capabilityMarker_bypassed (h : (s.port p).st = .bypassed) (hn : lane < 17) :
    exec (.capabilityMarkerReceived p ⟨lane, m⟩) s = .next { s with out := s.out ++ [.pass (p.val ^^^ 1) lane m] } := by
  show execCapabilityMarkerReceived p ⟨lane, m⟩ s = _
  simp only [execCapabilityMarkerReceived, h, if_true, State.bypass, hn, State.emit]

theorem exec_capabilityMarker_ignored (h : (s.port p).st ≠ .bypassed) (hn : 17 ≤ lane ∨ (s.port p).receives = false) :
    exec (.capabilityMarkerReceived p ⟨lane, m⟩) s = .next s := by
  show execCapabilityMarkerReceived p ⟨lane, m⟩ s = _
  simp only [execCapabilityMarkerReceived, h, if_false, hn, if_true]

theorem exec_capabilityMarker_bad (h : (s.port p).receives = true) (hn : lane < 17) (hm : markerOk m = false) :
    exec (.capabilityMarkerReceived p ⟨lane, m⟩) s = .next (s.markerError p lane) := by
  have hb : (s.port p).st ≠ .bypassed := fun e => by simp [Port.receives, e] at h
  have hl : ¬(17 ≤ lane ∨ (s.port p).receives = false) := by simp [h, hn]
  show execCapabilityMarkerReceived p ⟨lane, m⟩ s = _
  simp only [execCapabilityMarkerReceived, hb, hl, hm, if_false, if_true]

theorem exec_capabilityMarker_unfit (h : (s.port p).receives = true) (hn : lane < 17) (hm : markerOk m = true)
    (hf : ¬((s.port p).st = .negotiate ∧ (s.port p).capFits m)) :
    exec (.capabilityMarkerReceived p ⟨lane, m⟩) s = .next (s.markerGood p lane) := by
  have hb : (s.port p).st ≠ .bypassed := fun e => by simp [Port.receives, e] at h
  have hl : ¬(17 ≤ lane ∨ (s.port p).receives = false) := by simp [h, hn]
  show execCapabilityMarkerReceived p ⟨lane, m⟩ s = _
  unfold Port.capFits at hf
  simp only [execCapabilityMarkerReceived, hb, hl, hm, hf, if_false, Bool.true_eq_false]

/-- The state in which a port has taken its partner's capabilities and starts TRAIN at generation `g`, before the event. -/
def State.capTaken (s : State) (p g cap : Nat) : State :=
  let s := s.modPort p fun t =>
    { t with st := .train, gen := g, maxCommon := g, tried := [], partnerLs := cap / 4 % 4 != 2 && bitAt cap 4 }
  let s := (((s.laneCal p).unmeasured p).setFld (LNK_STAT_PARTNER p) (cap / 4 % 4)).setFld (LNK_STAT_PGEN p) (cap % 4)
  s.setFld (LNK_PARTNER_CAP p) cap

/-- The highest generation that both ends offer, which a kind 2 partner holds to 2 (R51, R54). -/
def Port.common (t : Port) (cap : Nat) : Nat := min t.genMax (min (max 1 (cap % 4)) (if cap / 4 % 4 = 2 then 2 else 3))

theorem exec_capabilityMarker_fits (h : (s.port p).st = .negotiate) (hn : lane < 17) (hm : markerOk m = true)
    (hf : (s.port p).capFits m) :
    exec (.capabilityMarkerReceived p ⟨lane, m⟩) s =
      .next (let cap := fieldB m 3 1
        let u := (s.markerGood p lane).capTaken p (if s.dev = .recovery then 1 else (s.port p).common cap) cap
        if cap / 4 % 4 = 2 then u.post 0x020A 0 p 0 else u) := by
  have hr : (s.port p).receives = true := (Port.receives_iff _).2 (.inl h)
  have hl : ¬(17 ≤ lane ∨ (s.port p).receives = false) := by simp [hr, hn]
  have hc : (s.port p).st = .negotiate ∧ (s.port p).capFits m := ⟨h, hf⟩
  unfold Port.capFits at hc
  show execCapabilityMarkerReceived p ⟨lane, m⟩ s = _
  simp only [execCapabilityMarkerReceived, hl, hm, hc, reduceCtorEq, if_false, Bool.true_eq_false]
  rfl

end

/-! ### What taking the capabilities leaves -/

theorem State.laneCal_only (s : State) (p : Nat) : s.only (s.laneCal p) [.cal] fun r => r = CAL_ZLANE p := by
  unfold State.laneCal
  split
  · next v _ =>
    refine State.only_trans (t := s.setReg (CAL_ZLANE p) v) (State.only_mono (s.setReg_only _ _) (by simp) fun _ h => h)
      ⟨fun q => ?_, fun _ => .inr rfl⟩
    cases q <;> first | exact Or.inr rfl | exact Or.inl (by simp)
  · exact s.only_refl _ _

theorem State.laneCal_lnk (s : State) (p : Nat) : (s.laneCal p).lnk = s.lnk := State.only_part (s.laneCal_only p) .lnk

theorem State.unmeasured_lnk (s : State) (p : Nat) : (s.unmeasured p).lnk = s.lnk := s.lstatLoop_lnk _ _

theorem State.unmeasured_only (s : State) (p : Nat) : s.only (s.unmeasured p) [] (lstatRegs p) :=
  s.lstatLoop_only p (LNK_LSTAT_CLASS p) (fun _ => 3) fun _ => rfl

theorem State.unmeasured_class (s : State) (p : Nat) {n : Nat} (hn : n < 17) :
    (s.unmeasured p).fld (LNK_LSTAT_CLASS p n) = 3 :=
  s.lstatLoop_fld p (LNK_LSTAT_CLASS p) (fun _ => 3) (fun _ => rfl) (fun _ => rfl) hn

theorem State.capTaken_port (s : State) (p g cap : Nat) (hp : p < s.lnk.ports.length) :
    (s.capTaken p g cap).port p =
      { s.port p with st := .train, gen := g, maxCommon := g, tried := [], partnerLs := cap / 4 % 4 != 2 && bitAt cap 4 } := by
  have hl : (s.capTaken p g cap).lnk = (s.modPort p fun t =>
      { t with st := .train, gen := g, maxCommon := g, tried := [], partnerLs := cap / 4 % 4 != 2 && bitAt cap 4 }).lnk := by
    simp [State.capTaken, State.unmeasured_lnk, State.laneCal_lnk]
  rw [State.port, hl]
  exact (s.port_modPort p p _ hp).trans (if_pos rfl)

theorem State.capTaken_fld (s : State) (p g cap : Nat) (hc : cap < 256) :
    (s.capTaken p g cap).fld (LNK_STAT_PARTNER p) = cap / 4 % 4 ∧ (s.capTaken p g cap).fld (LNK_STAT_PGEN p) = cap % 4 ∧
    (s.capTaken p g cap).fld (LNK_PARTNER_CAP p) = cap ∧ ∀ n < 17, (s.capTaken p g cap).fld (LNK_LSTAT_CLASS p n) = 3 := by
  unfold State.capTaken
  refine ⟨?_, ?_, ?_, fun n hn => ?_⟩
  · iterate 2 rw [State.fld_setFld_beside _ _ (by rfl)]
    exact State.fld_setFld_lt _ (Nat.mod_lt _ (by decide))
  · rw [State.fld_setFld_beside _ _ (by rfl)]
    exact State.fld_setFld_lt _ (Nat.mod_lt _ (by decide))
  · exact State.fld_setFld_lt _ hc
  · iterate 3 rw [State.fld_setFld_beside _ _ (by rfl)]
    exact State.unmeasured_class _ p hn

theorem State.capTaken_only (s : State) (p g cap : Nat) :
    s.only (s.capTaken p g cap) [.lnk, .cal]
      fun r => r = LNK_STAT p ∨ r = LNK_PARTNER p ∨ r = CAL_ZLANE p ∨ ∃ n < 17, r = LNK_LSTAT p n := by
  unfold State.capTaken
  refine State.only.setFld (State.only.setFld (State.only.setFld (State.only.andThen (State.only.andThen
    (s.only_refl _ _).modPort (State.laneCal_only _ p) (by simp) fun _ h => .inr (.inr (.inl h)))
    (State.unmeasured_only _ p) (by simp) fun _ h => .inr (.inr (.inr h))) (.inl rfl)) (.inl rfl)) (.inr (.inl rfl))

/-- Settles O7: each command by the port's state, and the capability marker by its CRC and by whether it fits. -/
theorem portNegotiates : Obligations.PortNegotiates := by
  intro s p lane m
  refine ⟨fun h => ?_, fun h => ?_, fun h => ?_, fun h => ?_, fun h => ?_, fun hn h => ?_, fun hn h => ?_, fun hn h => ?_,
    fun hn h hm => ?_, fun hn h hm hf => ?_, fun hn h hm hf => ?_⟩
  · exact congrArg Host.Outcome.next (if_pos h)
  · exact congrArg Host.Outcome.next (if_neg h)
  · exact congrArg Host.Outcome.next (if_pos h)
  · exact congrArg Host.Outcome.next (if_neg h)
  · exact exec_capabilityMarker_ignored (by rcases h with h | h <;> simp [h]) (.inr (Port.not_receives h))
  · exact exec_capabilityMarker_ignored h (.inl hn)
  · have hr : (s.port p).receives = true := (Port.receives_iff _).2 (.inr h)
    by_cases hm : markerOk m = true
    · rw [if_pos hm]
      refine exec_capabilityMarker_unfit hr hn hm fun e => ?_
      simp [e.1] at h
    · rw [if_neg hm]
      exact exec_capabilityMarker_bad hr hn (by simpa using hm)
  · exact exec_capabilityMarker_bypassed h hn
  · refine ⟨(s.countMarker p lane).1, ?_, (s.countMarker_port_st p lane).trans h, s.countMarker_count p lane,
      s.countMarker_only p lane⟩
    rw [exec_capabilityMarker_bad ((Port.receives_iff _).2 (.inl h)) hn hm, State.markerError_eq, if_neg fun e => e.2.1 h]
  · exact exec_capabilityMarker_unfit ((Port.receives_iff _).2 (.inl h)) hn hm fun e => hf e.2
  · have hp : p.val < (s.markerGood p lane).lnk.ports.length := by
      rw [State.markerGood, State.modPort_length]
      exact State.port_exists (by simp [h])
    obtain ⟨hpartner, hpgen, hcap, hclass⟩ := (s.markerGood p lane).capTaken_fld p
      (if s.dev = .recovery then 1 else (s.port p).common (fieldB m 3 1)) (fieldB m 3 1) (fieldB_byte_lt m 3)
    have hport := (s.markerGood p lane).capTaken_port p
      (if s.dev = .recovery then 1 else (s.port p).common (fieldB m 3 1)) (fieldB m 3 1) hp
    refine ⟨_, exec_capabilityMarker_fits h hn hm hf, ?_, ?_, hpartner, hpgen, hcap, hclass,
      State.only_trans (s.only_refl _ _).modPort (State.capTaken_only _ _ _ _)⟩
    · rw [hport]
    · rw [hport]; rfl

end Sys2Proof.Machine

/-! SUPPORT. The windows of a lane, its losses and its markers (R53, R57-R60, R62). -/

namespace Sys2Proof.Machine

/-! ### The figure of merit of a window (R57, R59) -/

theorem fomOf_le (hist : List Nat) : fomOf hist ≤ 255 := min_le_left _ _

/-- The state in which LNK_LFOM holds a window's figure and the extremes so far. -/
def State.fomNoted (s : State) (p n fom : Nat) : State :=
  ((s.setFld (LNK_LFOM_FOM p n) fom).maxFld (LNK_LFOM_MAXFOM p n) fom).minFld (LNK_LFOM_MINFOM p n) fom

/-- The histogram takes a window's bins, unless HFREEZE holds it. -/
def State.histTaken (s : State) (p n : Nat) (hist : List Nat) : State :=
  if s.flag (LNK_LCTL_HFREEZE p n) then s
  else (List.range 16).foldl (fun s k => s.setReg (LNK_HIST p n k)
    (min 0xFFFF (hist.getD (2 * k) 0) + 65536 * min 0xFFFF (hist.getD (2 * k + 1) 0))) s

theorem State.maxFld_only (s : State) (f : Fld) (v : Nat) : s.only (s.maxFld f v) [] fun r => r = f.addr := s.setFld_only f _

theorem State.minFld_only (s : State) (f : Fld) (v : Nat) : s.only (s.minFld f v) [] fun r => r = f.addr := s.setFld_only f _

theorem State.fld_maxFld (s : State) {f : Fld} (v : Nat) (h : f.inWord = true) :
    (s.maxFld f v).fld f = max (s.fld f) (min v (2 ^ (f.hi + 1 - f.lo) - 1)) :=
  State.fld_setFld_lt _ (max_lt (s.fld_lt f) (min_lt_of_right_lt (Nat.sub_lt (by positivity) one_pos))) h

theorem State.fld_minFld (s : State) {f : Fld} (v : Nat) (h : f.inWord = true) : (s.minFld f v).fld f = min (s.fld f) v :=
  State.fld_setFld_lt _ (min_lt_of_left_lt (s.fld_lt f)) h

theorem State.fld_maxFld_beside (s : State) {f g : Fld} (v : Nat) (h : f.beside g = true) : (s.maxFld g v).fld f = s.fld f :=
  s.fld_setFld_beside _ h

theorem State.fld_minFld_beside (s : State) {f g : Fld} (v : Nat) (h : f.beside g = true) : (s.minFld g v).fld f = s.fld f :=
  s.fld_setFld_beside _ h

theorem State.fomNoted_only (s : State) (p n fom : Nat) : s.only (s.fomNoted p n fom) [] fun r => r = LNK_LFOM p n :=
  State.only_trans (State.only_trans (s.setFld_only _ _) (State.maxFld_only _ (LNK_LFOM_MAXFOM p n) _))
    (State.minFld_only _ (LNK_LFOM_MINFOM p n) _)

theorem State.fomNoted_fld (s : State) (p n : Nat) {fom : Nat} (hf : fom ≤ 255) :
    (s.fomNoted p n fom).fld (LNK_LFOM_FOM p n) = fom ∧
    (s.fomNoted p n fom).fld (LNK_LFOM_MAXFOM p n) = max (s.fld (LNK_LFOM_MAXFOM p n)) fom ∧
    (s.fomNoted p n fom).fld (LNK_LFOM_MINFOM p n) = min (s.fld (LNK_LFOM_MINFOM p n)) fom := by
  unfold State.fomNoted
  refine ⟨?_, ?_, ?_⟩
  · rw [State.fld_minFld_beside _ _ (by rfl), State.fld_maxFld_beside _ _ (by rfl)]
    exact State.fld_setFld_lt _ (Nat.lt_succ_of_le hf)
  · rw [State.fld_minFld_beside _ _ (by rfl), State.fld_maxFld _ _ (by rfl), State.fld_setFld_beside _ _ (by rfl)]
    exact congrArg (max _) (Nat.min_eq_left hf)
  · rw [State.fld_minFld _ _ (by rfl), State.fld_maxFld_beside _ _ (by rfl), State.fld_setFld_beside _ _ (by rfl)]

theorem State.histTaken_only (s : State) (p n : Nat) (hist : List Nat) :
    s.only (s.histTaken p n hist) [] fun r => ∃ k < 16, r = LNK_HIST p n k := by
  unfold State.histTaken
  split
  · exact s.only_refl _ _
  · exact State.only_foldl _ _ _ fun t k hk => (t.only_refl _ _).setReg ⟨k, List.mem_range.1 hk, rfl⟩

theorem State.histTaken_reg (s : State) (p n : Nat) (hist : List Nat) {k : Nat} (hk : k < 16) :
    (s.histTaken p n hist).reg (LNK_HIST p n k) =
      if s.flag (LNK_LCTL_HFREEZE p n) = true then s.reg (LNK_HIST p n k)
      else min 0xFFFF (hist.getD (2 * k) 0) + 65536 * min 0xFFFF (hist.getD (2 * k + 1) 0) := by
  unfold State.histTaken
  split
  · rfl
  · refine foldl_range_each (P := fun k t => State.reg t (LNK_HIST p n k) =
      min 0xFFFF (hist.getD (2 * k) 0) + 65536 * min 0xFFFF (hist.getD (2 * k + 1) 0)) (fun k _ t => ?_) (fun k j t h hP => ?_) s hk
    · rw [State.reg_setReg_self, Nat.mod_eq_of_lt (by omega)]
    · rw [State.reg_setReg_ne _ _ (by simp only [LNK_HIST]; omega), hP]

theorem State.adapt_only (s : State) (p n fom leq txeq : Nat) :
    s.only (s.adapt p n fom leq txeq) [.lnk] fun r => r = LNK_LEQ p n := by
  have put (t : State) (f : Port → Port) (h : s.only t [.lnk] fun r => r = LNK_LEQ p n) :
      s.only (t.modPort p f) [.lnk] fun r => r = LNK_LEQ p n := h.modPort
  unfold State.adapt
  dsimp only
  split_ifs
  · exact put _ _ ((s.only_refl _ _).setReg rfl)
  · exact put _ _ ((s.only_refl _ _).setReg rfl)
  · exact put _ _ (s.only_refl _ _)
  · exact put _ _ (s.only_refl _ _)

/-- The equaliser's setting after a window: the one before where the last step lowered the figure, else one step further. -/
theorem State.adapt_leq (s : State) (p n fom leq txeq : Nat) :
    (s.adapt p n fom leq txeq).reg (LNK_LEQ p n) =
      if ((s.port p).lanes.getD n {}).stepped = true ∧ fom < ((s.port p).lanes.getD n {}).prevFom
      then ((s.port p).lanes.getD n {}).prevLeq % 2 ^ 32
      else if oneStep (s.reg (LNK_LEQ p n)) leq = true then leq % 2 ^ 32 else s.reg (LNK_LEQ p n) := by
  unfold State.adapt
  dsimp only
  split_ifs <;> simp

/-- The state at the end of a window, before the figure is classed. -/
def State.measured (s : State) (p n : Nat) (hist : List Nat) (leq txeq : Nat) : State :=
  ((s.fomNoted p n (fomOf hist)).histTaken p n hist).adapt p n (fomOf hist) leq txeq

theorem exec_fomWindowEnd {s : State} {p : Fin 4} {n : Nat} (hist : List Nat) (step : EqStep)
    (h : (s.port p).st = .train ∨ (s.port p).st = .align ∨ (s.port p).st = .active) (hn : n < 17) :
    exec (.fomWindowEnd p n hist step) s =
      .next ((s.measured p n hist step.leq.toNat step.txeq.toNat).laneWindow p n (fomOf hist)) := by
  refine congrArg Host.Outcome.next (if_neg ?_)
  rintro (hl | ⟨h1, h2, h3⟩)
  · omega
  · rcases h with h | h | h <;> contradiction

theorem exec_fomWindowEnd_idle {s : State} {p : Fin 4} {n : Nat} (hist : List Nat) (step : EqStep)
    (h : 17 ≤ n ∨ (s.port p).st = .detect ∨ (s.port p).st = .negotiate ∨ (s.port p).st = .disabled ∨
      (s.port p).st = .bypassed) : exec (.fomWindowEnd p n hist step) s = .next s := by
  refine congrArg Host.Outcome.next (if_pos ?_)
  rcases h with h | h | h | h | h
  · exact .inl h
  all_goals exact .inr (by simp [h])

/-- The end of a window touches the lane's figure, its equaliser and its histogram. -/
theorem State.measured_only (s : State) (p n : Nat) (hist : List Nat) (leq txeq : Nat) :
    s.only (s.measured p n hist leq txeq) [.lnk]
      fun r => r = LNK_LFOM p n ∨ r = LNK_LEQ p n ∨ ∃ k < 16, r = LNK_HIST p n k :=
  (((s.only_refl _ _).andThen (s.fomNoted_only p n _) (by simp) fun _ h => .inl h).andThen
    (State.histTaken_only _ p n hist) (by simp) fun _ h => .inr (.inr h)).andThen
    (State.adapt_only _ p n _ leq txeq) (by simp) fun _ h => .inr (.inl h)

section
variable (s : State) (p n : Nat) (hist : List Nat) (leq txeq : Nat)

theorem State.measured_lfom :
    (s.measured p n hist leq txeq).reg (LNK_LFOM p n) = (s.fomNoted p n (fomOf hist)).reg (LNK_LFOM p n) :=
  (State.only_reg_eq (State.adapt_only _ _ _ _ _ _) (by simp only [LNK_LFOM, LNK_LEQ]; omega)).trans
    (State.only_reg_eq (State.histTaken_only _ _ _ _) (by rintro ⟨k, hk, h⟩; simp only [LNK_LFOM, LNK_HIST] at h; omega))

theorem State.measured_hist {k : Nat} (hk : k < 16) : (s.measured p n hist leq txeq).reg (LNK_HIST p n k) =
    if s.flag (LNK_LCTL_HFREEZE p n) = true then s.reg (LNK_HIST p n k)
    else min 0xFFFF (hist.getD (2 * k) 0) + 65536 * min 0xFFFF (hist.getD (2 * k + 1) 0) := by
  have hfreeze : (s.fomNoted p n (fomOf hist)).flag (LNK_LCTL_HFREEZE p n) = s.flag (LNK_LCTL_HFREEZE p n) :=
    State.flag_congr (State.only_reg_eq (s.fomNoted_only p n _)
      (show LNK_LCTL p n ≠ LNK_LFOM p n by simp only [LNK_LCTL, LNK_LFOM]; omega))
  have hreg : (s.fomNoted p n (fomOf hist)).reg (LNK_HIST p n k) = s.reg (LNK_HIST p n k) :=
    State.only_reg_eq (s.fomNoted_only p n _) (by simp only [LNK_HIST, LNK_LFOM]; omega)
  rw [State.measured, State.only_reg_eq (State.adapt_only _ _ _ _ _ _) (by simp only [LNK_HIST, LNK_LEQ]; omega),
    State.histTaken_reg _ p n hist hk, hfreeze, hreg]

theorem State.measured_leq : (s.measured p n hist leq txeq).reg (LNK_LEQ p n) =
    if ((s.port p).lanes.getD n {}).stepped = true ∧ fomOf hist < ((s.port p).lanes.getD n {}).prevFom
    then ((s.port p).lanes.getD n {}).prevLeq % 2 ^ 32
    else if oneStep (s.reg (LNK_LEQ p n)) leq = true then leq % 2 ^ 32 else s.reg (LNK_LEQ p n) := by
  have h : s.only ((s.fomNoted p n (fomOf hist)).histTaken p n hist) []
      fun r => r = LNK_LFOM p n ∨ ∃ k < 16, r = LNK_HIST p n k :=
    (State.only_mono (s.fomNoted_only p n _) (by simp) fun _ h => Or.inl h).andThen (State.histTaken_only _ p n hist)
      (by simp) fun _ h => .inr h
  have hreg : ((s.fomNoted p n (fomOf hist)).histTaken p n hist).reg (LNK_LEQ p n) = s.reg (LNK_LEQ p n) := by
    refine State.only_reg_eq h ?_
    rintro (h | ⟨k, hk, h⟩) <;> simp only [LNK_LEQ, LNK_LFOM, LNK_HIST] at h <;> omega
  have hport : ((s.fomNoted p n (fomOf hist)).histTaken p n hist).port p = s.port p := by
    have hl : ((s.fomNoted p n (fomOf hist)).histTaken p n hist).lnk = s.lnk := State.only_part h .lnk
    rw [State.port, hl, State.port]
  rw [State.measured, State.adapt_leq, hreg, hport]

end

/-! ### The class of a window (R58) -/

/-- A lane's runs once a window of class `c` has ended. -/
def Lane.windowed (ln : Lane) (c : Nat) : Lane :=
  let marg := if c = 1 then ln.margRun + 1 else 0
  let good := if c = 0 then ln.goodRun + 1 else 0
  { ln with
    margRun := min marg 16, goodRun := min good 16, failRun := min (if c = 2 then ln.failRun + 1 else 0) 4
    posted := if marg = 16 ∧ ln.posted = false then true else if good = 16 then false else ln.posted }

/-- The state in which a window has been classed, before what its runs bring. -/
def State.classed (s : State) (p n c : Nat) : State :=
  (s.modPort p fun t => { t with lanes := setAt t.lanes n (((s.port p).lanes.getD n {}).windowed c) }).setFld
    (LNK_LSTAT_CLASS p n) c

theorem State.classed_only (s : State) (p n c : Nat) : s.only (s.classed p n c) [.lnk] fun r => r = LNK_LSTAT p n :=
  State.only.setFld (s.only_refl _ _).modPort rfl

theorem State.classed_class (s : State) (p n : Nat) {c : Nat} (hc : c < 4) : (s.classed p n c).fld (LNK_LSTAT_CLASS p n) = c :=
  State.fld_setFld_lt _ hc

theorem State.classed_failed (s : State) (p n c : Nat) :
    (s.classed p n c).flag (LNK_LSTAT_FAILED p n) = s.flag (LNK_LSTAT_FAILED p n) := by
  rw [State.classed, State.flag_setFld_beside _ _ (by rfl)]
  simp

/-- A window by its class: the sixteenth marginal one in a row posts, the fourth failing one fails the lane. -/
theorem State.laneWindow_eq (s : State) (p n f : Nat) :
    let ln := (s.port p).lanes.getD n {}
    let u := s.classed p n (fomClass f)
    s.laneWindow p n f =
      if fomClass f = 1 ∧ ln.margRun = 15 ∧ ln.posted = false then u.post 0x0203 1 p (n + 256 * f)
      else if fomClass f = 2 ∧ 3 ≤ ln.failRun ∧ s.flag (LNK_LSTAT_FAILED p n) = false then u.laneFailed p n
      else u := by
  intro ln u
  have hw : s.laneWindow p n f =
      let marg := if fomClass f = 1 then ln.margRun + 1 else 0
      let v := if marg = 16 ∧ ln.posted = false then u.post 0x0203 1 p (n + 256 * f) else u
      if 4 ≤ (if fomClass f = 2 then ln.failRun + 1 else 0) ∧ v.flag (LNK_LSTAT_FAILED p n) = false then v.laneFailed p n
      else v := rfl
  rw [hw, ← s.classed_failed p n (fomClass f)]
  by_cases h1 : fomClass f = 1
  · simp [h1]
  · by_cases h2 : fomClass f = 2
    · simp [h2, u]
    · simp [h1, h2]

/-! ### A lane that fails (R58, R60) -/

theorem State.laneFailed_inactive {s : State} {p : Nat} (h : (s.port p).st ≠ .active) (n : Nat) :
    s.laneFailed p n = s.setFld (LNK_LSTAT_FAILED p n) 1 := if_pos h

/-- A lane in use of an ACTIVE port that fails: a free LS takes its place. -/
theorem State.laneFailed_swaps {s : State} {p n : Nat} (h : (s.port p).st = .active) (hn : n < 16)
    (hu : s.flag (LNK_LSTAT_INUSE p n) = true) (hl : s.logicalOf p n < 16) (hp : (s.port p).partnerLs = true)
    (hls : s.fld (LNK_STAT_LS_USE p) = 16) (hx : (s.port p).rxSwap = none) (hf : s.flag (LNK_LSTAT_FAILED p 16) = false) :
    s.laneFailed p n = (s.setFld (LNK_LSTAT_FAILED p n) 1).modPort p fun t =>
      { t with rxSwap := some (s.logicalOf p n, s.fld (LNK_LFOM_FOM p n)) } := by
  have hport : (s.setFld (LNK_LSTAT_FAILED p n) 1).port p = s.port p := by simp [State.port]
  have hlog : (s.setFld (LNK_LSTAT_FAILED p n) 1).logicalOf p n = s.logicalOf p n := State.fld_setFld_beside _ _ rfl
  have huse : (s.setFld (LNK_LSTAT_FAILED p n) 1).flag (LNK_LSTAT_INUSE p n) = true :=
    (State.flag_setFld_beside _ _ rfl).trans hu
  have hlsu : (s.setFld (LNK_LSTAT_FAILED p n) 1).fld (LNK_STAT_LS_USE p) = 16 := (State.fld_setFld_beside _ _ rfl).trans hls
  have hf16 : (s.setFld (LNK_LSTAT_FAILED p n) 1).flag (LNK_LSTAT_FAILED p 16) = false :=
    (State.flag_congr (State.reg_setFld_ne _ _ _ (LNK_LSTAT_ne p (by omega)))).trans hf
  have hfom : (s.setFld (LNK_LSTAT_FAILED p n) 1).fld (LNK_LFOM_FOM p n) = s.fld (LNK_LFOM_FOM p n) :=
    State.fld_setFld_ne _ _ _ _ (show LNK_LFOM p n ≠ LNK_LSTAT p n by simp only [LNK_LFOM, LNK_LSTAT]; omega)
  have hlane : (s.setFld (LNK_LSTAT_FAILED p n) 1).lsLane p = 16 := by simp only [State.lsLane, hport, hx, hlsu]
  have hfree : (s.setFld (LNK_LSTAT_FAILED p n) 1).lsFree p = true := by simp [State.lsFree, hport, hp, hlsu, hx, hf16]
  have hne : ¬(16 = s.logicalOf p n) := by omega
  simp only [State.laneFailed, hport, h, hn, huse, hlane, hlog, hne, hfree, hfom, ne_eq, not_true, Bool.true_eq_false,
    or_self, if_true, if_false]

theorem exec_laneLossOfLock {n : Nat} (hn : n < 17) (s : State) (p : Fin 4) :
    exec (.laneLossOfLock p n) s = .next (s.laneFailed p n) := congrArg Host.Outcome.next (if_pos hn)

theorem exec_laneLossOfLock_absent {n : Nat} (hn : 17 ≤ n) (s : State) (p : Fin 4) :
    exec (.laneLossOfLock p n) s = .next s := congrArg Host.Outcome.next (if_neg (by omega))

/-! ### An alignment marker that arrives or is missing (R62) -/

theorem exec_markerMissing (s : State) (p : Fin 4) (n : Nat) :
    exec (.markerMissing p n) s = .next (if s.markerDue p n = true then s.markerError p n else s) := rfl

theorem exec_alignmentMarker_bad {s : State} {p : Fin 4} {n : Nat} {m : List Byte} (h : (s.port p).receives = true) (hn : n < 17)
    (hm : markerOk m = false) : exec (.alignmentMarkerReceived p n m) s = .next (s.markerError p n) := by
  have hb : (s.port p).st ≠ .bypassed := fun e => by simp [Port.receives, e] at h
  have hl : ¬(17 ≤ n ∨ (s.port p).receives = false) := by simp [h, hn]
  show execAlignmentMarkerReceived p n m s = _
  simp only [execAlignmentMarkerReceived, hb, hl, hm, if_false, if_true]

/-- The state in which a marker of receive lane `n` has named the logical lane `l` that it carries (R52). -/
def State.laneNamed (s : State) (p n l : Nat) : State :=
  if n < 16 ∧ l < 16 then (s.setFld (LNK_LSTAT_LOGICAL p n) l).modPort p fun t =>
      { t with lanes := modAt t.lanes n fun ln => { ln with named := true } }
  else s

/-- The state in which LNK_PARTNER_p shows the receive lane that carries logical lane 0. -/
def State.zeroMapped (s : State) (p n l : Nat) : State :=
  if n < 16 ∧ l = 0 then s.setFld (LNK_PARTNER_MAP p) (s.fld (LNK_PARTNER_MAP p) % 16 + 16 * n) else s

/-- The state in which a good alignment marker of receive lane `n` has said which lane it carries. -/
def State.markerNamed (s : State) (p n l : Nat) : State := ((s.markerGood p n).laneNamed p n l).zeroMapped p n l

/-- What the partner says of logical lane `l`: its figure, and the steps of the taps that it asks for. -/
def State.partnerSays (s : State) (p l pfom req : Nat) : State :=
  let s := s.setFld (LNK_LFOM_PFOM p l) pfom
  (s.setFld (LNK_LTXEQ_PRE p l) (tapStep (s.fld (LNK_LTXEQ_PRE p l)) (req % 4))).setFld
    (LNK_LTXEQ_POST p l) (tapStep (s.fld (LNK_LTXEQ_POST p l)) (req / 4 % 4))

theorem exec_alignmentMarker_train {s : State} {p : Fin 4} {n : Nat} {m : List Byte} (h : (s.port p).st = .train) (hn : n < 17)
    (hm : markerOk m = true) (hc : bitAt (fieldB m 1 1) 7 = false) (hl : fieldB m 1 1 % 32 < 17) :
    exec (.alignmentMarkerReceived p n m) s =
      .next ((s.markerNamed p n (fieldB m 1 1 % 32)).partnerSays p (fieldB m 1 1 % 32) (fieldB m 5 1) (fieldB m 6 1)) := by
  have hr : (s.port p).receives = true := (Port.receives_iff _).2 (.inr (.inl h))
  have ha : ¬(17 ≤ n ∨ (s.port p).receives = false) := by simp [hr, hn]
  have hl : ¬(17 ≤ fieldB m 1 1 % 32) := by omega
  show execAlignmentMarkerReceived p n m s = _
  simp only [execAlignmentMarkerReceived, h, ha, hm, hc, hl, reduceCtorEq, if_false, Bool.true_eq_false, Bool.false_eq_true,
    or_self]
  rfl

theorem State.laneNamed_only (s : State) (p n l : Nat) : s.only (s.laneNamed p n l) [.lnk] fun r => r = LNK_LSTAT p n := by
  unfold State.laneNamed
  split
  · exact State.only.modPort (State.only_mono (s.setFld_only (LNK_LSTAT_LOGICAL p n) l) (by simp) fun _ h => h)
  · exact s.only_refl _ _

theorem State.zeroMapped_only (s : State) (p n l : Nat) : s.only (s.zeroMapped p n l) [] fun r => r = LNK_PARTNER p := by
  unfold State.zeroMapped
  split
  · exact s.setFld_only _ _
  · exact s.only_refl _ _

theorem State.markerNamed_only (s : State) (p n l : Nat) :
    s.only (s.markerNamed p n l) [.lnk] fun r => r = LNK_LSTAT p n ∨ r = LNK_PARTNER p :=
  ((State.only_mono (s.modPort_only p _) (fun _ h => h) fun _ h => h.elim).andThen (State.laneNamed_only _ p n l) (by simp)
    fun _ h => .inl h).andThen (State.zeroMapped_only _ p n l) (by simp) fun _ h => .inr h

theorem State.markerNamed_logical (s : State) (p : Nat) {n l : Nat} (hn : n < 16) (hl : l < 16) :
    (s.markerNamed p n l).fld (LNK_LSTAT_LOGICAL p n) = l := by
  have hset : ((s.markerGood p n).laneNamed p n l).fld (LNK_LSTAT_LOGICAL p n) = l := by
    rw [State.laneNamed, if_pos ⟨hn, hl⟩]
    exact State.fld_setFld_lt (s.markerGood p n) (f := LNK_LSTAT_LOGICAL p n) (show l < 32 by omega)
  have hne : LNK_LSTAT p n ≠ LNK_PARTNER p := by simp only [LNK_LSTAT, LNK_PARTNER]; omega
  exact (State.fld_congr (State.only_reg_eq (State.zeroMapped_only _ p n l) hne)).trans hset

/-- A run of marker errors that an update of the lane ends or keeps. -/
theorem mkRun_modAt {f : Lane → Lane} {g : Nat → Nat} (hf : ∀ x, (f x).mkRun = g x.mkRun) (h0 : g 0 = 0) (l : List Lane)
    (n : Nat) : ((modAt l n f).getD n {}).mkRun = g (l.getD n {}).mkRun := by
  by_cases h : n < l.length
  · rw [getD_modAt _ _ _ _ _ h, if_pos rfl, hf]
  · rw [modAt, List.modify_eq_self (by omega), List.getD_eq_default _ _ (by omega), h0]

/-- A lane's name changes no run of marker errors. -/
theorem State.laneNamed_mkRun (s : State) {p : Nat} (n l : Nat) (hp : p < s.lnk.ports.length) :
    (((s.laneNamed p n l).port p).lanes.getD n {}).mkRun = ((s.port p).lanes.getD n {}).mkRun := by
  unfold State.laneNamed
  split
  · rw [State.port_modPort _ _ _ _ (by simpa using hp), if_pos rfl]
    exact mkRun_modAt (f := fun ln => { ln with named := true }) (g := id) (fun _ => rfl) rfl _ n
  · rfl

theorem State.markerNamed_mkRun (s : State) {p : Nat} (n l : Nat) (hp : p < s.lnk.ports.length) :
    (((s.markerNamed p n l).port p).lanes.getD n {}).mkRun = 0 := by
  have hgood : (((s.markerGood p n).port p).lanes.getD n {}).mkRun = 0 := by
    rw [State.markerGood, State.port_modPort _ _ _ _ hp, if_pos rfl]
    exact mkRun_modAt (g := fun _ => 0) (fun _ => rfl) rfl _ n
  have hlnk : (s.markerNamed p n l).lnk = ((s.markerGood p n).laneNamed p n l).lnk :=
    State.only_part (State.zeroMapped_only _ p n l) .lnk
  rw [State.port, hlnk]
  exact ((s.markerGood p n).laneNamed_mkRun n l (by simpa [State.markerGood] using hp)).trans hgood

theorem tapStep_lt {x : Nat} (h : x < 64) (r : Nat) : tapStep x r < 64 := by
  unfold tapStep; split_ifs <;> omega

theorem State.partnerSays_only (s : State) (p l pfom req : Nat) :
    s.only (s.partnerSays p l pfom req) [] fun r => r = LNK_LFOM p l ∨ r = LNK_LTXEQ p l :=
  State.only.setFld (State.only.setFld (State.only.setFld (s.only_refl _ _) (.inl rfl)) (.inr rfl)) (.inr rfl)

theorem State.partnerSays_fld (s : State) (p l : Nat) {pfom : Nat} (req : Nat) (hf : pfom < 256) :
    (s.partnerSays p l pfom req).fld (LNK_LFOM_PFOM p l) = pfom ∧
    (s.partnerSays p l pfom req).fld (LNK_LTXEQ_PRE p l) = tapStep (s.fld (LNK_LTXEQ_PRE p l)) (req % 4) ∧
    (s.partnerSays p l pfom req).fld (LNK_LTXEQ_POST p l) = tapStep (s.fld (LNK_LTXEQ_POST p l)) (req / 4 % 4) := by
  have hpre : (s.setFld (LNK_LFOM_PFOM p l) pfom).fld (LNK_LTXEQ_PRE p l) = s.fld (LNK_LTXEQ_PRE p l) :=
    State.fld_setFld_beside _ _ rfl
  have hpost : (s.setFld (LNK_LFOM_PFOM p l) pfom).fld (LNK_LTXEQ_POST p l) = s.fld (LNK_LTXEQ_POST p l) :=
    State.fld_setFld_beside _ _ rfl
  unfold State.partnerSays
  refine ⟨?_, ?_, ?_⟩
  · iterate 2 rw [State.fld_setFld_beside _ _ (by rfl)]
    exact State.fld_setFld_lt _ hf
  · exact (State.fld_setFld_beside _ _ rfl).trans
      ((State.fld_setFld_lt _ (tapStep_lt (State.fld_lt _ (LNK_LTXEQ_PRE p l)) _)).trans (congrArg (tapStep · _) hpre))
  · exact (State.fld_setFld_lt _ (tapStep_lt (State.fld_lt _ (LNK_LTXEQ_POST p l)) _)).trans (congrArg (tapStep · _) hpost)

/-- What the partner says moves no lane's logical number. -/
theorem State.partnerSays_logical (s : State) (p n l pfom req : Nat) :
    (s.partnerSays p l pfom req).fld (LNK_LSTAT_LOGICAL p n) = s.fld (LNK_LSTAT_LOGICAL p n) := by
  unfold State.partnerSays
  iterate 3 rw [State.fld_setFld_beside (f := LNK_LSTAT_LOGICAL p n) _ _ (by rfl)]

/-- A marker that names its lane leaves the taps of the transmitter as they are. -/
theorem State.markerNamed_ltxeq (s : State) (p n l m : Nat) :
    (s.markerNamed p n l).reg (LNK_LTXEQ p m) = s.reg (LNK_LTXEQ p m) :=
  State.only_reg_eq (s.markerNamed_only p n l) (by simp only [LNK_LTXEQ, LNK_LSTAT, LNK_PARTNER]; omega)

/-- A good alignment marker moves its lane's status, the partner's map, and the figure and taps of the lane it names. -/
theorem State.markerTaken_only (s : State) (p n l pfom req : Nat) :
    s.only ((s.markerNamed p n l).partnerSays p l pfom req) [.lnk]
      fun r => r = LNK_LSTAT p n ∨ r = LNK_PARTNER p ∨ r = LNK_LFOM p l ∨ r = LNK_LTXEQ p l :=
  (State.only_mono (s.markerNamed_only p n l) (fun _ h => h) fun _ h => h.imp_right .inl).andThen
    (State.partnerSays_only _ p l pfom req) (by simp) fun _ h => .inr (.inr h)

theorem State.markerTaken_mkRun (s : State) {p : Nat} (n l pfom req : Nat) (hp : p < s.lnk.ports.length) :
    ((((s.markerNamed p n l).partnerSays p l pfom req).port p).lanes.getD n {}).mkRun = 0 := by
  have hlnk : ((s.markerNamed p n l).partnerSays p l pfom req).lnk = (s.markerNamed p n l).lnk :=
    State.only_part (State.partnerSays_only _ p l pfom req) .lnk
  rw [State.port, hlnk]
  exact s.markerNamed_mkRun n l hp

/-- Settles O9: windows, classes, losses and markers, each by the lemmas of its part. -/
theorem laneHealth : Obligations.LaneHealth := by
  refine ⟨fun s p lane hist leq txeq => ⟨fun h hn => ?_, exec_fomWindowEnd_idle hist _⟩, fun s p n f => ?_,
    fun s p n => ⟨fun h hn hu hl hp hls hx hf => ?_, fun hn => exec_laneLossOfLock_absent hn s p, fun hn h => ?_,
      fun h => congrArg Host.Outcome.next (if_pos h), fun h => congrArg Host.Outcome.next (if_neg h)⟩,
    fun s p n m hn => ⟨fun h => ?_, fun h => ?_, fun h hm => ?_, fun h hm hc hl => ?_⟩⟩
  · obtain ⟨hfom, hmax, hmin⟩ := s.fomNoted_fld p lane (fomOf_le hist)
    have hreg := s.measured_lfom p lane hist leq.toNat txeq.toNat
    refine ⟨_, exec_fomWindowEnd hist _ h hn, (State.fld_congr hreg).trans hfom, (State.fld_congr hreg).trans hmax,
      (State.fld_congr hreg).trans hmin, fun k hk => s.measured_hist p lane hist _ _ hk, ⟨fun hw => ?_, fun hw => ?_⟩,
      s.measured_only p lane hist _ _⟩
    · rw [State.measured_leq, if_pos hw]
    · rw [State.measured_leq, if_neg hw, Nat.mod_eq_of_lt leq.isLt]
  · exact ⟨s.classed p n (fomClass f), s.classed_class p n (by unfold fomClass; split_ifs <;> decide), s.classed_only p n _,
      s.laneWindow_eq p n f⟩
  · rw [exec_laneLossOfLock (by omega), State.laneFailed_swaps h hn hu hl hp hls hx hf]
  · rw [exec_laneLossOfLock hn, State.laneFailed_inactive h]
  · rw [exec_markerMissing, h]; rfl
  · rw [exec_markerMissing, if_pos h, State.markerError_eq]; rfl
  · rw [exec_alignmentMarker_bad ((Port.receives_iff _).2 h) hn hm, State.markerError_eq]; rfl
  · have hp : p.val < s.lnk.ports.length := State.port_exists (by simp [h])
    obtain ⟨hpfom, hpre, hpost⟩ := (s.markerNamed p n (fieldB m 1 1 % 32)).partnerSays_fld p (fieldB m 1 1 % 32) (fieldB m 6 1)
      (fieldB_byte_lt m 5)
    have htx := s.markerNamed_ltxeq p n (fieldB m 1 1 % 32) (fieldB m 1 1 % 32)
    refine ⟨_, exec_alignmentMarker_train h hn hm hc hl, s.markerTaken_mkRun n _ _ _ hp, fun hn' hl' => ?_, hpfom, ?_, ?_,
      s.markerTaken_only p n _ _ _⟩
    · rw [State.partnerSays_logical, State.markerNamed_logical _ _ hn' hl']
    · rw [hpre, State.fld_congr (f := LNK_LTXEQ_PRE p (fieldB m 1 1 % 32)) htx]
    · rw [hpost, State.fld_congr (f := LNK_LTXEQ_POST p (fieldB m 1 1 % 32)) htx]

end Sys2Proof.Machine

/-! SUPPORT. How training at a generation and deskew end (R52, R53, R55, R61, R63, R69). -/

namespace Sys2Proof.Machine

/-! ### Polarity (R52) -/

/-- The polarity bits of the lanes, without the count of inverted lanes. -/
def State.invSet (s : State) (p : Nat) (inv : BitVec 17) : State :=
  (List.range 17).foldl (fun s n => s.setFld (LNK_LSTAT_INV p n) (b2n (inv.getLsbD n))) s

theorem State.setPolarity_eq (s : State) (p : Nat) (inv : BitVec 17) :
    s.setPolarity p inv = (s.invSet p inv).setFld (LNK_PARTNER_MAP p)
      ((s.invSet p inv).fld (LNK_PARTNER_MAP p) / 16 * 16 + min 15 (popcount 17 inv.toNat)) := rfl

theorem LNK_LSTAT_ne_PARTNER (p n : Nat) : LNK_LSTAT p n ≠ LNK_PARTNER p := by
  simp only [LNK_LSTAT, LNK_PARTNER]; omega

theorem State.setPolarity_only (s : State) (p : Nat) (inv : BitVec 17) :
    s.only (s.setPolarity p inv) [] fun r => r = LNK_PARTNER p ∨ ∃ n < 17, r = LNK_LSTAT p n := by
  rw [State.setPolarity_eq]
  refine State.only.setFld (State.only_mono (s.lstatLoop_only p (LNK_LSTAT_INV p) _ fun _ => rfl) (by simp) fun _ h => .inr h) ?_
  exact .inl rfl

theorem State.setPolarity_inv (s : State) (p : Nat) (inv : BitVec 17) {n : Nat} (hn : n < 17) :
    (s.setPolarity p inv).flag (LNK_LSTAT_INV p n) = inv.getLsbD n := by
  have h := s.lstatLoop_fld p (LNK_LSTAT_INV p) (fun n => b2n (inv.getLsbD n)) (fun _ => rfl) (fun _ => rfl) hn
  rw [State.setPolarity_eq, State.flag_congr (State.reg_setFld_ne _ _ _ (LNK_LSTAT_ne_PARTNER p n)), State.flag]
  cases hb : inv.getLsbD n <;> simp_all [State.invSet, b2n, LNK_LSTAT_INV]

theorem State.setPolarity_port (s : State) (p q : Nat) (inv : BitVec 17) : (s.setPolarity p inv).port q = s.port q := by
  have h : (s.setPolarity p inv).lnk = s.lnk := State.only_part (s.setPolarity_only p inv) .lnk
  rw [State.port, h, State.port]

theorem State.setPolarity_logical (s : State) (p n : Nat) (inv : BitVec 17) :
    (s.setPolarity p inv).logicalOf p n = s.logicalOf p n := by
  have h : (s.invSet p inv).fld (LNK_LSTAT_LOGICAL p n) = s.fld (LNK_LSTAT_LOGICAL p n) :=
    foldl_keeps (fun s : State => s.fld (LNK_LSTAT_LOGICAL p n)) _ (fun _ _ => State.fld_setFld_beside _ _ rfl) _ _
  rw [State.logicalOf, State.setPolarity_eq]
  exact (State.fld_setFld_ne _ _ _ _ (LNK_LSTAT_ne_PARTNER p n)).trans h

/-- Which receive lane carries a logical lane does not depend on the polarity. -/
theorem State.setPolarity_physOf (s : State) (p l : Nat) (inv : BitVec 17) : (s.setPolarity p inv).physOf p l = s.physOf p l := by
  have h (l : Nat) : (s.setPolarity p inv).namedAs p l = s.namedAs p l := by
    simp only [State.namedAs, State.setPolarity_port, State.setPolarity_logical]
  have h' : (s.setPolarity p inv).namedAs p = s.namedAs p := funext h
  simp only [State.physOf, h']

theorem State.setPolarity_trainedOk (s : State) (p : Nat) (inv good : BitVec 17) :
    (s.setPolarity p inv).trainedOk p good = s.trainedOk p good := by
  funext n
  have h : (s.setPolarity p inv).flag (LNK_LCTL_OUT p n) = s.flag (LNK_LCTL_OUT p n) := by
    refine State.flag_congr (State.only_reg_eq (s.setPolarity_only p inv) ?_)
    rintro (h | ⟨m, hm, h⟩) <;> simp only [LNK_LCTL_OUT, LNK_LCTL, LNK_PARTNER, LNK_LSTAT] at h <;> omega
  simp only [State.trainedOk, State.setPolarity_port, h]

/-! ### The group found and the generations tried (R55, R61) -/

theorem bestGroup_some {good : Nat → Bool} {ls : Bool} {order : List (Nat × Nat)} {w g l : Nat}
    (h : bestGroup good ls order = some (w, g, l)) : (w, g) ∈ order ∧ groupWorks good ls w g = some l := by
  induction order with
  | nil => simp [bestGroup] at h
  | cons x xs ih =>
    obtain ⟨a, b⟩ := x
    unfold bestGroup at h
    cases hw : groupWorks good ls a b with
    | some k =>
      simp only [hw, Option.some.injEq, Prod.mk.injEq] at h
      obtain ⟨rfl, rfl, rfl⟩ := h
      exact ⟨List.mem_cons_self, hw⟩
    | none =>
      simp only [hw] at h
      exact ⟨List.mem_cons_of_mem _ (ih h).1, (ih h).2⟩

/-- The lane on LS is none, or one of the group. -/
theorem groupWorks_lane {good : Nat → Bool} {ls : Bool} {w g l : Nat} (h : groupWorks good ls w g = some l) :
    l = 16 ∨ l ∈ groupLanes w g := by
  unfold groupWorks at h
  split at h
  · exact .inl (Option.some.inj h).symm
  · next x e =>
    split at h
    · cases h
      exact .inr (List.mem_filter.1 (e ▸ List.mem_singleton_self _)).1
    · cases h
  · cases h

/-- The width that a port wants: 16 lanes, and in RECOVERY the four lanes L0-L3 (R69). -/
def State.wantWidth (s : State) : Nat := if s.dev = .recovery then 4 else 16

/-- A group of the width wanted is the whole of it. -/
theorem State.groups_want {s : State} {g : Nat} (h : (s.wantWidth, g) ∈ s.groups) : g = 0 := by
  unfold State.wantWidth State.groups at h
  split at h <;> simpa [groupOrder] using h

theorem State.wantWidth_lane {s : State} {good : Nat → Bool} {ls : Bool} {l : Nat}
    (h : groupWorks good ls s.wantWidth 0 = some l) : l ≤ 16 := by
  have hw : s.wantWidth ≤ 16 := by unfold State.wantWidth; split <;> decide
  rcases groupWorks_lane h with h | h
  · exact h.le
  · simp only [groupLanes, List.mem_map, List.mem_range] at h
    omega

/-- The widest group that training at this generation leaves workable: width, group, lane on LS. -/
def State.groupFound (s : State) (p : Nat) (good : BitVec 17) : Option (Nat × Nat × Nat) :=
  bestGroup (fun l => s.trainedOk p good (s.physOf p l)) ((s.port p).partnerLs && s.trainedOk p good 16) s.groups

/-- What training found at the generation that ends. -/
def State.triedNow (s : State) (p : Nat) (good : BitVec 17) : Tried :=
  let b := (s.groupFound p good).getD (0, 0, 16)
  ⟨(s.port p).gen, b.1, b.2.1, b.2.2, (List.range 17).filter fun n => !s.trainedOk p good n⟩

theorem State.setPolarity_triedNow (s : State) (p : Nat) (inv good : BitVec 17) :
    (s.setPolarity p inv).triedNow p good = s.triedNow p good := by
  have hdev : (s.setPolarity p inv).dev = s.dev := State.only_part (s.setPolarity_only p inv) .dev
  simp only [State.triedNow, State.groupFound, State.groups, State.setPolarity_trainedOk, State.setPolarity_physOf,
    State.setPolarity_port, hdev]

theorem State.triedNow_failed (s : State) (p : Nat) (good : BitVec 17) {n : Nat} (hn : n < 17) :
    (s.triedNow p good).failed.contains n = !s.trainedOk p good n := by
  simp [State.triedNow, hn]

/-- The width found is the one wanted only where the group found is the whole of it. -/
theorem State.triedNow_width {s : State} {p : Nat} {good : BitVec 17}
    (h : ∀ ls, s.groupFound p good ≠ some (s.wantWidth, 0, ls)) : (s.triedNow p good).width ≠ s.wantWidth := by
  intro hw
  unfold State.triedNow at hw
  cases hg : s.groupFound p good with
  | none =>
    simp only [hg, Option.getD_none] at hw
    unfold State.wantWidth at hw
    split at hw <;> contradiction
  | some b =>
    obtain ⟨w, g, l⟩ := b
    simp only [hg, Option.getD_some] at hw
    subst hw
    have h0 := State.groups_want (bestGroup_some hg).1
    exact h l (h0 ▸ hg)

theorem State.triedNow_some {s : State} {p w g l : Nat} {good : BitVec 17} (h : s.groupFound p good = some (w, g, l)) :
    s.triedNow p good = ⟨(s.port p).gen, w, g, l, (List.range 17).filter fun n => !s.trainedOk p good n⟩ := by
  rw [State.triedNow, h]; rfl

theorem State.triedNow_none (s : State) (p : Nat) (good : BitVec 17) (h : s.groupFound p good = none) :
    (s.triedNow p good).width = 0 := by
  rw [State.triedNow, h]; rfl

/-- Once a generation has been tried, one of those tried is the best. -/
theorem bestTried_append (l : List Tried) (x : Tried) : ∃ y, bestTried (l ++ [x]) = some y := by
  cases l with
  | nil => exact ⟨x, rfl⟩
  | cons z zs =>
    rw [List.cons_append, bestTried]
    split
    · exact ⟨z, rfl⟩
    · split_ifs <;> exact ⟨_, rfl⟩

theorem bestTried_mem {l : List Tried} {y : Tried} (h : bestTried l = some y) : y ∈ l := by
  induction l generalizing y with
  | nil => cases h
  | cons x xs ih =>
    unfold bestTried at h
    cases hb : bestTried xs with
    | none =>
      simp only [hb, Option.some.injEq] at h
      exact h ▸ List.mem_cons_self
    | some z =>
      simp only [hb] at h
      split_ifs at h <;> cases h
      · exact List.mem_cons_self
      · exact List.mem_cons_self
      · exact List.mem_cons_of_mem _ (ih hb)

/-- The tried generation `y` goes before `z`: it has the higher payload, or the same at the lower generation. -/
def Tried.beats (y z : Tried) : Prop :=
  laneRate z.gen * z.width < laneRate y.gen * y.width ∨ (laneRate z.gen * z.width = laneRate y.gen * y.width ∧ y.gen < z.gen)

/-- What goes before all others of a list is the one taken. -/
theorem bestTried_of_beats {l : List Tried} {y : Tried} (hy : y ∈ l) (h : ∀ z ∈ l, z ≠ y → y.beats z) : bestTried l = some y := by
  induction l with
  | nil => cases hy
  | cons x xs ih =>
    unfold bestTried
    by_cases hx : x = y
    · subst hx
      cases hb : bestTried xs with
      | none => rfl
      | some z =>
        dsimp only
        by_cases hz : z = x
        · subst hz; simp
        · rcases h z (List.mem_cons_of_mem _ (bestTried_mem hb)) hz with hlt | heq
          · rw [if_pos hlt]
          · rw [if_neg (by omega), if_pos ⟨heq.1.symm, heq.2⟩]
    · have hm : y ∈ xs := (List.mem_cons.1 hy).resolve_left (Ne.symm hx)
      rw [ih hm fun z hz => h z (List.mem_cons_of_mem _ hz)]
      dsimp only
      rcases h x List.mem_cons_self hx with hlt | heq
      · rw [if_neg (by omega), if_neg (by omega)]
      · rw [if_neg (by omega), if_neg (by omega)]

/-! ### A port that accepts a generation (R53, R55) -/

/-- The port's status shows the group of a tried generation. -/
def State.groupShown (s : State) (p : Nat) (x : Tried) : State :=
  (((s.setFld (LNK_STAT_WIDTH p) (widthCode x.width)).setFld (LNK_STAT_GROUP p) x.group).setFld (LNK_STAT_LS_USE p) x.ls).setFld
    (LNK_STAT_GEN p) x.gen

/-- The lanes that failed at a tried generation are marked. -/
def State.failuresMarked (s : State) (p : Nat) (x : Tried) : State :=
  (List.range 17).foldl (fun s l => s.setFld (LNK_LSTAT_FAILED p l) (b2n (x.failed.contains l))) s

/-- The port aligns at a tried generation. -/
def State.takesTried (s : State) (p : Nat) (tried : List Tried) (x : Tried) : State :=
  ((s.modPort p fun t => { t with st := .align, tried := tried, gen := x.gen }).groupShown p x).failuresMarked p x

theorem State.groupShown_only (s : State) (p : Nat) (x : Tried) : s.only (s.groupShown p x) [] fun r => r = LNK_STAT p := by
  unfold State.groupShown
  iterate 4 refine State.only.setFld ?_ rfl
  exact s.only_refl _ _

theorem State.failuresMarked_only (s : State) (p : Nat) (x : Tried) : s.only (s.failuresMarked p x) [] (lstatRegs p) :=
  s.lstatLoop_only p (LNK_LSTAT_FAILED p) _ fun _ => rfl

theorem State.takesTried_only (s : State) (p : Nat) (tried : List Tried) (x : Tried) :
    s.only (s.takesTried p tried x) [.lnk] fun r => r = LNK_STAT p ∨ ∃ l < 17, r = LNK_LSTAT p l :=
  ((State.only_mono (s.modPort_only p _) (fun _ h => h) fun _ h => h.elim).andThen (State.groupShown_only _ p x) (by simp)
    fun _ h => .inl h).andThen (State.failuresMarked_only _ p x) (by simp) fun _ h => .inr h

theorem State.takesTried_port (s : State) {p : Nat} (hp : p < s.lnk.ports.length) (tried : List Tried) (x : Tried) :
    (s.takesTried p tried x).port p = { s.port p with st := .align, tried := tried, gen := x.gen } := by
  have h : (s.takesTried p tried x).lnk = (s.modPort p fun t => { t with st := .align, tried := tried, gen := x.gen }).lnk :=
    (State.only_part (State.failuresMarked_only _ p x) .lnk).trans (State.only_part (State.groupShown_only _ p x) .lnk)
  rw [State.port, h]
  exact (s.port_modPort p p _ hp).trans (if_pos rfl)

theorem State.groupShown_fld (s : State) (p : Nat) (x : Tried) :
    (s.groupShown p x).fld (LNK_STAT_WIDTH p) = widthCode x.width ∧ (s.groupShown p x).fld (LNK_STAT_GROUP p) = x.group % 8 ∧
    (s.groupShown p x).fld (LNK_STAT_LS_USE p) = x.ls % 32 ∧ (s.groupShown p x).fld (LNK_STAT_GEN p) = x.gen % 4 := by
  unfold State.groupShown
  refine ⟨?_, ?_, ?_, State.fld_setFld_self _ _ rfl⟩
  · iterate 3 rw [State.fld_setFld_beside _ _ (by rfl)]
    exact State.fld_setFld_lt _ (show widthCode x.width < 4 by unfold widthCode; split_ifs <;> decide)
  · iterate 2 rw [State.fld_setFld_beside _ _ (by rfl)]
    exact State.fld_setFld_self _ _ rfl
  · rw [State.fld_setFld_beside _ _ (by rfl)]
    exact State.fld_setFld_self _ _ rfl

theorem not_lstatRegs_STAT (p : Nat) : ¬lstatRegs p (LNK_STAT p) := fun ⟨n, _, h⟩ => LNK_LSTAT_ne_STAT p n h.symm

theorem State.failuresMarked_stat (s : State) (p : Nat) (x : Tried) {f : Fld} (hf : f.addr = LNK_STAT p) :
    (s.failuresMarked p x).fld f = s.fld f :=
  State.fld_congr (hf ▸ State.only_reg_eq (s.failuresMarked_only p x) (not_lstatRegs_STAT p))

theorem State.takesTried_stat (s : State) (p : Nat) (tried : List Tried) (x : Tried) :
    (s.takesTried p tried x).fld (LNK_STAT_WIDTH p) = widthCode x.width ∧
    (s.takesTried p tried x).fld (LNK_STAT_GROUP p) = x.group % 8 ∧
    (s.takesTried p tried x).fld (LNK_STAT_LS_USE p) = x.ls % 32 ∧ (s.takesTried p tried x).fld (LNK_STAT_GEN p) = x.gen % 4 := by
  unfold State.takesTried
  rw [State.failuresMarked_stat _ p x (f := LNK_STAT_WIDTH p) rfl, State.failuresMarked_stat _ p x (f := LNK_STAT_GROUP p) rfl,
    State.failuresMarked_stat _ p x (f := LNK_STAT_LS_USE p) rfl, State.failuresMarked_stat _ p x (f := LNK_STAT_GEN p) rfl]
  exact State.groupShown_fld _ p x

theorem State.takesTried_failed (s : State) (p : Nat) (tried : List Tried) (x : Tried) {n : Nat} (hn : n < 17) :
    (s.takesTried p tried x).flag (LNK_LSTAT_FAILED p n) = x.failed.contains n :=
  foldl_range_each (P := fun n t => t.flag (LNK_LSTAT_FAILED p n) = x.failed.contains n)
    (fun n _ s => s.flag_setFld_b2n _)
    (fun n m s h hP => (State.flag_congr (s.reg_setFld_ne _ _ (LNK_LSTAT_ne p h))).trans hP) _ hn

theorem State.takesTried_inv (s : State) (p : Nat) (tried : List Tried) (x : Tried) (n : Nat) :
    (s.takesTried p tried x).flag (LNK_LSTAT_INV p n) = s.flag (LNK_LSTAT_INV p n) := by
  have hshown : ((s.modPort p fun t => { t with st := .align, tried := tried, gen := x.gen }).groupShown p x).flag
      (LNK_LSTAT_INV p n) = s.flag (LNK_LSTAT_INV p n) :=
    State.flag_congr (State.only_reg_eq (State.groupShown_only _ p x) (LNK_LSTAT_ne_STAT p n))
  exact (foldl_keeps (fun s : State => s.flag (LNK_LSTAT_INV p n)) _ (fun _ _ => State.flag_setFld_beside _ _ rfl) _ _).trans hshown

/-! ### Training at a generation ends -/

section
variable {s : State} {p : Fin 4} (found : TrainFound)

theorem exec_trainGenerationDone_idle (h : (s.port p).st ≠ .train) : exec (.trainGenerationDone p found) s = .next s :=
  congrArg Host.Outcome.next (if_pos h)

/-- The whole width ends the training; else the next lower generation is tried; at the last the best of those tried is taken. -/
theorem exec_trainGenerationDone (h : (s.port p).st = .train) :
    exec (.trainGenerationDone p found) s = .next (
      let v := s.setPolarity p found.inv
      let x := s.triedNow p found.good
      let tried := (s.port p).tried ++ [x]
      if x.width = s.wantWidth then v.takesTried p tried x
      else if 1 < (s.port p).gen then v.modPort p fun t => { t with tried := tried, gen := t.gen - 1 }
      else match bestTried tried with
        | some y => if y.width = 0 then v.noGroup p else v.takesTried p tried y
        | none => v.noGroup p) := by
  have hdev : (s.setPolarity p found.inv).dev = s.dev := State.only_part (s.setPolarity_only p found.inv) .dev
  have hw : s.wantWidth = if (s.setPolarity p found.inv).dev = .recovery then 4 else 16 := by rw [hdev]; rfl
  rw [hw, ← s.setPolarity_triedNow p found.inv found.good]
  have hp := s.setPolarity_port p p found.inv
  show execTrainGenerationDone p found s = _
  unfold execTrainGenerationDone State.triedNow State.groupFound
  rw [hp]
  simp only [h, ne_eq, not_true, if_false]
  rfl

theorem exec_trainGenerationDone_whole (h : (s.port p).st = .train) {ls : Nat}
    (hg : s.groupFound p found.good = some (s.wantWidth, 0, ls)) :
    exec (.trainGenerationDone p found) s = .next ((s.setPolarity p found.inv).takesTried p
      ((s.port p).tried ++ [s.triedNow p found.good]) (s.triedNow p found.good)) := by
  have hw : (s.triedNow p found.good).width = s.wantWidth := by rw [State.triedNow_some hg]
  rw [exec_trainGenerationDone found h]
  exact congrArg Host.Outcome.next (if_pos hw)

theorem exec_trainGenerationDone_lower (h : (s.port p).st = .train)
    (hg : ∀ ls, s.groupFound p found.good ≠ some (s.wantWidth, 0, ls)) (h1 : 1 < (s.port p).gen) :
    exec (.trainGenerationDone p found) s = .next ((s.setPolarity p found.inv).modPort p fun t =>
      { t with tried := (s.port p).tried ++ [s.triedNow p found.good], gen := t.gen - 1 }) := by
  rw [exec_trainGenerationDone found h]
  exact congrArg Host.Outcome.next ((if_neg (State.triedNow_width hg)).trans (if_pos h1))

theorem exec_trainGenerationDone_last (h : (s.port p).st = .train)
    (hg : ∀ ls, s.groupFound p found.good ≠ some (s.wantWidth, 0, ls)) (h1 : (s.port p).gen ≤ 1) {y : Tried}
    (hy : bestTried ((s.port p).tried ++ [s.triedNow p found.good]) = some y) :
    exec (.trainGenerationDone p found) s = .next (if y.width = 0 then (s.setPolarity p found.inv).noGroup p
      else (s.setPolarity p found.inv).takesTried p ((s.port p).tried ++ [s.triedNow p found.good]) y) := by
  rw [exec_trainGenerationDone found h]
  simp only [State.triedNow_width hg, Nat.not_lt.2 h1, hy, if_false]

end

/-- What the port goes back to DETECT with names the attempt that found no group. -/
theorem State.noGroup_eq (s : State) (p : Nat) :
    s.noGroup p = (s.startOver p .detect).post 0x0202 2 p (if (s.port p).skewTried = true then 5 else 2) := rfl

/-- A port that takes a tried generation, seen from before the polarity was corrected. -/
theorem State.takesTried_polarized {s : State} {p : Nat} (hp : p < s.lnk.ports.length) (inv : BitVec 17) (tried : List Tried)
    (x : Tried) : ((s.setPolarity p inv).takesTried p tried x).port p = { s.port p with st := .align, tried := tried, gen := x.gen } := by
  have hl : (s.setPolarity p inv).lnk = s.lnk := State.only_part (s.setPolarity_only p inv) .lnk
  rw [State.takesTried_port _ (by rw [hl]; exact hp), State.setPolarity_port]

/-! ### A port that comes out of deskew (R53, R63) -/

theorem State.namedAs_lt {s : State} {p l n : Nat} (h : s.namedAs p l = some n) : n < 16 :=
  List.mem_range.1 (List.mem_of_find?_eq_some h)

theorem getD_lt {l : List Nat} {k d : Nat} (h : ∀ x ∈ l, x < k) (hd : d < k) (i : Nat) : l.getD i d < k := by
  by_cases hi : i < l.length
  · rw [List.getD_eq_getElem _ _ hi]
    exact h _ (List.getElem_mem hi)
  · rw [List.getD_eq_default _ _ (by omega)]
    exact hd

/-- A logical data lane is carried by a data lane. -/
theorem State.physOf_lt (s : State) (p : Nat) {l : Nat} (hl : l < 16) : s.physOf p l < 16 := by
  unfold State.physOf
  split
  · next n h => exact State.namedAs_lt h
  · dsimp only
    exact getD_lt (fun n hn => List.mem_range.1 (List.mem_filter.1 hn).1) hl _

theorem State.settleMap_only (s : State) (p : Nat) : s.only (s.settleMap p) [] (lstatRegs p) :=
  State.only_foldl _ _ _ fun t l hl => State.only_mono (t.setFld_only (LNK_LSTAT_LOGICAL p (s.physOf p l)) l) (by simp)
    fun _ hr => ⟨_, (s.physOf_lt p (List.mem_range.1 hl)).trans (by decide), hr⟩

theorem State.markInUse_only (s : State) (p : Nat) : s.only (s.markInUse p) [] (lstatRegs p) := by
  unfold State.markInUse
  dsimp only
  refine State.only.setFld (State.only.setFld (State.only_trans (s.settleMap_only p) ?_) ?_) ?_
  · refine State.only_foldl _ _ _ fun t n hn => State.only_mono (t.setFld_only (LNK_LSTAT_INUSE p n) _) (by simp) fun _ hr => ?_
    exact ⟨n, (List.mem_range.1 hn).trans (by decide), hr⟩
  · exact ⟨16, by decide, rfl⟩
  · exact ⟨16, by decide, rfl⟩

/-- LNK_SKEW_p shows the largest skew and its lane. -/
def State.skewNoted (s : State) (p skewPs lane : Nat) : State :=
  (s.setFld (LNK_SKEW_SKEW_PS p) (min skewPs 0xFFFF)).setFld (LNK_SKEW_LANE p) lane

theorem State.skewNoted_only (s : State) (p skewPs lane : Nat) : s.only (s.skewNoted p skewPs lane) [] fun r => r = LNK_SKEW p :=
  State.only_trans (s.setFld_only (LNK_SKEW_SKEW_PS p) _) (State.setFld_only _ (LNK_SKEW_LANE p) _)

theorem State.skewNoted_skew (s : State) (p skewPs lane : Nat) :
    (s.skewNoted p skewPs lane).fld (LNK_SKEW_SKEW_PS p) = min skewPs 0xFFFF := by
  rw [State.skewNoted, State.fld_setFld_beside _ _ (by rfl)]
  exact State.fld_setFld_lt _ (show min skewPs 0xFFFF < 65536 by omega)

theorem State.skewNoted_lnk (s : State) (p skewPs lane : Nat) : (s.skewNoted p skewPs lane).lnk = s.lnk :=
  State.only_part (s.skewNoted_only p skewPs lane) .lnk

theorem State.skewNoted_port (s : State) (p q skewPs lane : Nat) : (s.skewNoted p skewPs lane).port q = s.port q := by
  rw [State.port, State.skewNoted_lnk, State.port]

/-- What a port that becomes ACTIVE begins anew. -/
def Port.activated (t : Port) : Port :=
  { t with st := .active, initRx := false, expired := 0, outage := false, txSlot := 0, rxSlot := 0, ret := List.replicate 6 0 }

/-- The port is ACTIVE, its training counted and what limits its generation shown. -/
def State.activated (s : State) (p : Nat) : State :=
  let s := (s.modPort p Port.activated).incFld (LNK_TRAINCNT_TRAINS p) 1
  s.setFld (LNK_STAT_LIMIT p) (s.genLimit p)

theorem State.genLimit_lt (s : State) (p : Nat) : s.genLimit p < 4 := by
  unfold State.genLimit; dsimp only; split_ifs <;> decide

theorem State.genLimit_congr {s t : State} {p : Nat} (hg : (t.port p).gen = (s.port p).gen)
    (hm : (t.port p).maxCommon = (s.port p).maxCommon) (hx : (t.port p).genMax = (s.port p).genMax) :
    t.genLimit p = s.genLimit p := by simp only [State.genLimit, hg, hm, hx]

theorem State.activated_only (s : State) (p : Nat) :
    s.only (s.activated p) [.lnk] fun r => r = LNK_TRAINCNT p ∨ r = LNK_STAT p := by
  unfold State.activated
  exact ((State.only_mono (s.modPort_only p _) (fun _ h => h) fun _ h => h.elim).andThen
    (State.incFld_only _ (LNK_TRAINCNT_TRAINS p) 1) (by simp) fun _ h => .inl h).andThen
    (State.setFld_only _ (LNK_STAT_LIMIT p) _) (by simp) fun _ h => .inr h

theorem State.activated_port (s : State) {p : Nat} (hp : p < s.lnk.ports.length) :
    (s.activated p).port p = Port.activated (s.port p) := by
  have h : (s.activated p).lnk = (s.modPort p Port.activated).lnk := by simp [State.activated]
  rw [State.port, h]
  exact (s.port_modPort p p _ hp).trans (if_pos rfl)

theorem State.activated_trains (s : State) (p : Nat) :
    (s.activated p).fld (LNK_TRAINCNT_TRAINS p) = satAdd 16 (s.fld (LNK_TRAINCNT_TRAINS p)) 1 := by
  have h : (s.modPort p Port.activated).fld = s.fld := by simp
  unfold State.activated
  rw [State.fld_setFld_beside _ _ (by rfl), State.fld_incFld_self _ _ (by rfl), h]
  rfl

theorem State.activated_limit (s : State) {p : Nat} (hp : p < s.lnk.ports.length) :
    (s.activated p).fld (LNK_STAT_LIMIT p) = s.genLimit p := by
  have hport : ((s.modPort p Port.activated).incFld (LNK_TRAINCNT_TRAINS p) 1).port p = Port.activated (s.port p) :=
    (s.port_modPort p p _ hp).trans (if_pos rfl)
  have hl : ((s.modPort p Port.activated).incFld (LNK_TRAINCNT_TRAINS p) 1).genLimit p = s.genLimit p :=
    State.genLimit_congr (by rw [hport]; rfl) (by rw [hport]; rfl) (by rw [hport]; rfl)
  unfold State.activated
  dsimp only
  rw [hl]
  exact State.fld_setFld_lt _ (s.genLimit_lt p)

/-- The width and the group of the port stay. -/
theorem State.activated_group (s : State) (p : Nat) :
    (s.activated p).fld (LNK_STAT_WIDTH p) = s.fld (LNK_STAT_WIDTH p) ∧
    (s.activated p).fld (LNK_STAT_GROUP p) = s.fld (LNK_STAT_GROUP p) := by
  have hne : LNK_STAT p ≠ LNK_TRAINCNT p := by simp only [LNK_STAT, LNK_TRAINCNT]; omega
  have h (f : Fld) (hf : f.addr = LNK_STAT p) :
      ((s.modPort p Port.activated).incFld (LNK_TRAINCNT_TRAINS p) 1).fld f = s.fld f :=
    (State.fld_incFld_ne _ _ _ _ (hf ▸ hne)).trans (by simp)
  unfold State.activated
  exact ⟨(State.fld_setFld_beside _ _ rfl).trans (h _ rfl), (State.fld_setFld_beside _ _ rfl).trans (h _ rfl)⟩

/-- The state in which a port has come out of deskew, before its events. -/
def State.aligned (s : State) (p skewPs lane : Nat) : State :=
  (((s.skewNoted p skewPs lane).activated p).markInUse p).setFld (LTC_NBR_VALID p) 0

theorem State.aligned_only (s : State) (p skewPs lane : Nat) :
    s.only (s.aligned p skewPs lane) [.lnk]
      fun r => r = LNK_SKEW p ∨ r = LNK_TRAINCNT p ∨ r = LNK_STAT p ∨ r = LTC_NBR p ∨ ∃ n < 17, r = LNK_LSTAT p n :=
  State.only.andThen (State.only.andThen (State.only.andThen (State.only_mono (s.skewNoted_only p skewPs lane) (by simp)
    fun _ h => .inl h) (State.activated_only _ p) (by simp) fun _ h => .inr (h.imp_right .inl))
    (State.markInUse_only _ p) (by simp) fun _ h => .inr (.inr (.inr (.inr h))))
    (State.setFld_only _ (LTC_NBR_VALID p) 0) (by simp) fun _ h => .inr (.inr (.inr (.inl h)))

/-- The last two steps leave the registers of the port that are no lane's as they are. -/
theorem State.aligned_fld (s : State) (p skewPs lane : Nat) {f : Fld} (hl : ¬lstatRegs p f.addr) (hn : f.addr ≠ LTC_NBR p) :
    (s.aligned p skewPs lane).fld f = ((s.skewNoted p skewPs lane).activated p).fld f :=
  (State.fld_setFld_ne _ _ _ _ hn).trans (State.fld_congr (State.only_reg_eq (State.markInUse_only _ p) hl))

theorem State.aligned_port (s : State) {p : Nat} (skewPs lane : Nat) (hp : p < s.lnk.ports.length) :
    (s.aligned p skewPs lane).port p = Port.activated (s.port p) := by
  have h : (s.aligned p skewPs lane).lnk = ((s.skewNoted p skewPs lane).activated p).lnk :=
    (State.only_part (State.setFld_only _ (LTC_NBR_VALID p) 0) .lnk).trans (State.only_part (State.markInUse_only _ p) .lnk)
  rw [State.port, h]
  exact (State.activated_port _ (by rw [State.skewNoted_lnk]; exact hp)).trans
    (congrArg Port.activated (s.skewNoted_port p p skewPs lane))

/-- The port shows its skew, one training more, and what limits its generation. -/
theorem State.aligned_fields (s : State) {p skewPs : Nat} (lane : Nat) (hp : p < s.lnk.ports.length) (hk : skewPs ≤ 0xFFFF) :
    (s.aligned p skewPs lane).fld (LNK_SKEW_SKEW_PS p) = skewPs ∧
    (s.aligned p skewPs lane).fld (LNK_TRAINCNT_TRAINS p) = satAdd 16 (s.fld (LNK_TRAINCNT_TRAINS p)) 1 ∧
    (s.aligned p skewPs lane).fld (LNK_STAT_LIMIT p) = s.genLimit p := by
  have hlane : ¬lstatRegs p (LNK_SKEW p) ∧ ¬lstatRegs p (LNK_TRAINCNT p) := by
    constructor <;> rintro ⟨n, hn, e⟩ <;> simp only [LNK_SKEW, LNK_TRAINCNT, LNK_LSTAT] at e <;> omega
  have hnbr : LNK_SKEW p ≠ LTC_NBR p ∧ LNK_TRAINCNT p ≠ LTC_NBR p ∧ LNK_STAT p ≠ LTC_NBR p := by
    simp only [LNK_SKEW, LNK_TRAINCNT, LNK_STAT, LTC_NBR]; omega
  have hreg : ((s.skewNoted p skewPs lane).activated p).reg (LNK_SKEW p) = (s.skewNoted p skewPs lane).reg (LNK_SKEW p) :=
    State.only_reg_eq (State.activated_only _ p) (by simp only [LNK_SKEW, LNK_TRAINCNT, LNK_STAT]; omega)
  have htrains : (s.skewNoted p skewPs lane).fld (LNK_TRAINCNT_TRAINS p) = s.fld (LNK_TRAINCNT_TRAINS p) :=
    State.fld_congr (State.only_reg_eq (s.skewNoted_only p skewPs lane)
      (show LNK_TRAINCNT p ≠ LNK_SKEW p by simp only [LNK_SKEW, LNK_TRAINCNT]; omega))
  have hport := s.skewNoted_port p p skewPs lane
  refine ⟨?_, ?_, ?_⟩
  · rw [s.aligned_fld p skewPs lane hlane.1 hnbr.1, State.fld_congr (f := LNK_SKEW_SKEW_PS p) hreg, State.skewNoted_skew]
    exact Nat.min_eq_left hk
  · rw [s.aligned_fld p skewPs lane hlane.2 hnbr.2.1, State.activated_trains, htrains]
  · rw [s.aligned_fld p skewPs lane (not_lstatRegs_STAT p) hnbr.2.2,
      State.activated_limit _ (by rw [State.skewNoted_lnk]; exact hp)]
    exact State.genLimit_congr (by rw [hport]) (by rw [hport]) (by rw [hport])

/-! ### Deskew ends -/

theorem exec_alignDone_idle {s : State} {p : Fin 4} (h : (s.port p).st ≠ .align) (skewPs lane : Nat) :
    exec (.alignDone p skewPs lane) s = .next s := congrArg Host.Outcome.next (if_pos h)

/-- The state in which the worst lane is given up and the port trains once more, from the highest common generation. -/
def State.retrained (s : State) (p lane : Nat) : State :=
  ((s.laneCal p).unmeasured p).modPort p fun x => { x with
    st := .train, skewTried := true, skewLane := some lane, tried := [], gen := x.maxCommon }

section
variable {s : State} {p : Fin 4} {skewPs : Nat} (lane : Nat) (h : (s.port p).st = .align)
include h

/-- A skew of up to 40 ns: the port is ACTIVE, and its events say at which generation, width and group. -/
theorem exec_alignDone_aligned (hk : skewPs ≤ 40000) :
    let t := s.port p
    let v := (s.aligned p skewPs lane).post 0x0201 0 p
      (t.gen + 4 * s.fld (LNK_STAT_WIDTH p) + 16 * s.fld (LNK_STAT_GROUP p) + 256 * t.tried.length)
    exec (.alignDone p skewPs lane) s =
      .next ((if t.gen < t.maxCommon then v.post 0x0206 1 p (t.gen + 4 * t.maxCommon) else v).failedInAlign p) := by
  have hskew (f : Fld) (hf : f.addr = LNK_STAT p) : (s.skewNoted p skewPs lane).fld f = s.fld f := by
    refine State.fld_congr (State.only_reg_eq (s.skewNoted_only p skewPs lane) ?_)
    rw [hf]; simp only [LNK_STAT, LNK_SKEW]; omega
  have hmark (f : Fld) (hf : f.addr = LNK_STAT p) :
      (((s.skewNoted p skewPs lane).activated p).markInUse p).fld f = ((s.skewNoted p skewPs lane).activated p).fld f :=
    State.fld_congr (hf ▸ State.only_reg_eq (State.markInUse_only _ p) (not_lstatRegs_STAT p))
  obtain ⟨hw, hg⟩ := (s.skewNoted p skewPs lane).activated_group p
  rw [← hskew (LNK_STAT_WIDTH p) rfl, ← hskew (LNK_STAT_GROUP p) rfl, ← hw, ← hg, ← hmark (LNK_STAT_WIDTH p) rfl,
    ← hmark (LNK_STAT_GROUP p) rfl]
  show execAlignDone p skewPs lane s = _
  simp only [execAlignDone, h, hk, ne_eq, not_true, if_true, if_false]
  rfl

theorem exec_alignDone_again (hk : 40000 < skewPs) (ht : (s.port p).skewTried = true) :
    exec (.alignDone p skewPs lane) s =
      .next (((s.skewNoted p skewPs lane).startOver p .detect).post 0x0207 2 p (skewPs / 1000 % 65536 + 65536 * (lane % 32))) := by
  show execAlignDone p skewPs lane s = _
  simp only [execAlignDone, h, ht, Nat.not_le.2 hk, ne_eq, not_true, if_true, if_false]
  rfl

theorem exec_alignDone_first (hk : 40000 < skewPs) (ht : (s.port p).skewTried = false) :
    exec (.alignDone p skewPs lane) s = .next ((s.skewNoted p skewPs lane).retrained p lane) := by
  show execAlignDone p skewPs lane s = _
  simp only [execAlignDone, h, ht, Nat.not_le.2 hk, ne_eq, not_true, Bool.false_eq_true, if_false]
  rfl

end

theorem State.retrained_port (s : State) {p : Nat} (lane : Nat) (hp : p < s.lnk.ports.length) :
    (s.retrained p lane).port p = { s.port p with
      st := .train, skewTried := true, skewLane := some lane, tried := [], gen := (s.port p).maxCommon } := by
  have hl : ((s.laneCal p).unmeasured p).lnk = s.lnk := (State.unmeasured_lnk _ _).trans (s.laneCal_lnk p)
  have hport : ((s.laneCal p).unmeasured p).port p = s.port p := by rw [State.port, hl, State.port]
  rw [State.retrained, State.port_modPort _ _ _ _ (by rw [hl]; exact hp), if_pos rfl, hport]

theorem State.retrained_only (s : State) (p lane : Nat) :
    s.only (s.retrained p lane) [.lnk, .cal] fun r => r = CAL_ZLANE p ∨ ∃ n < 17, r = LNK_LSTAT p n :=
  State.only.modPort ((State.only_mono (s.laneCal_only p) (by simp) fun _ h => .inl h).andThen (State.unmeasured_only _ p) (by simp)
    fun _ h => .inr h)

/-- Where no lane in use is marked failed nothing is left to treat. -/
theorem State.failedInAlign_none {s : State} {p : Nat}
    (h : ∀ n < 17, s.flag (LNK_LSTAT_FAILED p n) = false ∨ s.flag (LNK_LSTAT_INUSE p n) = false) : s.failedInAlign p = s := by
  refine List.foldlRecOn (motive := fun t => t = s) _ _ rfl fun t ht n hn => ?_
  subst ht
  refine if_neg fun hb => ?_
  rcases h n (List.mem_range.1 hn) with h | h <;> simp [h] at hb

/-- The registers that show a port's skew and its lanes, once the second attempt has ended in DETECT. -/
theorem State.skewGivenUp_only (s : State) (p skewPs lane : Nat) :
    s.only ((s.skewNoted p skewPs lane).startOver p .detect) [.lnk]
      fun r => r = LNK_SKEW p ∨ r = LNK_STAT p ∨ ∃ n < 17, r = LNK_LSTAT p n :=
  (State.only_mono (s.skewNoted_only p skewPs lane) (by simp) fun _ h => .inl h).andThen (State.startOver_only _ p .detect)
    (by simp) fun _ h => .inr h

theorem State.skewGivenUp_skew (s : State) (p skewPs lane : Nat) :
    ((s.skewNoted p skewPs lane).startOver p .detect).fld (LNK_SKEW_SKEW_PS p) = min skewPs 0xFFFF := by
  have hne : ¬trainRegs p (LNK_SKEW p) := by
    rintro (e | ⟨n, hn, e⟩) <;> simp only [LNK_SKEW, LNK_STAT, LNK_LSTAT] at e <;> omega
  rw [State.fld_congr (f := LNK_SKEW_SKEW_PS p) (State.only_reg_eq (State.startOver_only _ p .detect) hne), State.skewNoted_skew]

/-- Settles O8: how training at a generation ends by the group that it found, how deskew ends by the skew and by whether it is the
first attempt, and that no failed lane in use means nothing is left to treat. -/
theorem trainingResults : Obligations.TrainingResults := by
  refine ⟨fun s p good inv => ⟨fun n hn => s.setPolarity_inv p inv hn, s.setPolarity_only p inv,
    fun h => exec_trainGenerationDone_idle _ h, fun h ls hb => ?whole,
    fun h hb hg => exec_trainGenerationDone_lower ⟨good, inv⟩ h hb hg, fun h hb hg y hy hw hbeats => ?best, fun h hb hg hx => ?none⟩,
    fun s p skewPs lane => ⟨fun h => exec_alignDone_idle h skewPs lane, fun h hk => ?aligned, fun h hk ht => ?again,
      fun h hk ht => ?first⟩,
    fun s p h => State.failedInAlign_none h⟩
  case whole =>
    have hx := State.triedNow_some (s := s) (p := p) (good := good) hb
    have hls : ls < 32 := (State.wantWidth_lane (bestGroup_some hb).2).trans_lt (by decide)
    obtain ⟨hwidth, hgroup, huse, hgen⟩ :=
      (s.setPolarity p inv).takesTried_stat p ((s.port p).tried ++ [s.triedNow p good]) (s.triedNow p good)
    refine ⟨_, exec_trainGenerationDone_whole ⟨good, inv⟩ h hb, State.takesTried_polarized (State.port_exists (by simp [h])) inv _ _,
      hwidth.trans (congrArg (widthCode ·.width) hx), hgroup.trans (congrArg (·.group % 8) hx),
      huse.trans ((congrArg (·.ls % 32) hx).trans (Nat.mod_eq_of_lt hls)), hgen.trans (congrArg (·.gen % 4) hx),
      fun l hl => ?_, fun n hn => ?_, State.takesTried_only _ _ _ _⟩
    · exact (State.takesTried_failed _ _ _ _ hl).trans (s.triedNow_failed p good hl)
    · rw [State.takesTried_inv, s.setPolarity_inv p inv hn]
  case best =>
    have hbest : bestTried ((s.port p).tried ++ [s.triedNow p good]) = some y := bestTried_of_beats hy hbeats
    obtain ⟨hwidth, hgroup, huse, hgen⟩ := (s.setPolarity p inv).takesTried_stat p ((s.port p).tried ++ [s.triedNow p good]) y
    have he := exec_trainGenerationDone_last ⟨good, inv⟩ h hb hg hbest
    rw [if_neg hw.ne'] at he
    refine ⟨_, he, State.takesTried_polarized (State.port_exists (by simp [h])) inv _ _, hwidth, hgroup, huse, hgen,
      fun l hl => State.takesTried_failed _ _ _ _ hl, fun n hn => ?_, State.takesTried_only _ _ _ _⟩
    rw [State.takesTried_inv, s.setPolarity_inv p inv hn]
  case none =>
    obtain ⟨y, hy⟩ := bestTried_append (s.port p).tried (s.triedNow p good)
    have hw : y.width = 0 := by
      rcases List.mem_append.1 (bestTried_mem hy) with hm | hm
      · exact hx y hm
      · rw [List.mem_singleton.1 hm, s.triedNow_none p good hb]
    have he := exec_trainGenerationDone_last ⟨good, inv⟩ h (fun ls e => Option.some_ne_none _ (e.symm.trans hb)) hg hy
    rw [if_pos hw, State.noGroup_eq, s.setPolarity_port] at he
    exact he
  case aligned =>
    have hp : p.val < s.lnk.ports.length := State.port_exists (by simp [h])
    obtain ⟨hskew, htrains, hlimit⟩ := s.aligned_fields lane hp (hk.trans (by decide))
    exact ⟨s.aligned p skewPs lane, exec_alignDone_aligned lane h hk, s.aligned_port skewPs lane hp, hskew, htrains, hlimit,
      s.aligned_only p skewPs lane⟩
  case again =>
    have hp : p.val < (s.skewNoted p skewPs lane).lnk.ports.length := by
      rw [State.skewNoted_lnk]; exact State.port_exists (by simp [h])
    refine ⟨_, exec_alignDone_again lane h hk ht, ?_, s.skewGivenUp_skew p skewPs lane, s.skewGivenUp_only p skewPs lane⟩
    rw [State.startOver_port, if_pos ⟨rfl, hp⟩]; rfl
  case first =>
    have hp : p.val < (s.skewNoted p skewPs lane).lnk.ports.length := by
      rw [State.skewNoted_lnk]; exact State.port_exists (by simp [h])
    refine ⟨_, exec_alignDone_first lane h hk ht, ?_, ?_⟩
    · rw [State.retrained_port _ _ hp, State.skewNoted_port]
    · exact (State.only_mono (s.skewNoted_only p skewPs lane) (by simp) fun _ h => .inl h).andThen (State.retrained_only _ p lane)
        (by simp) fun _ h => .inr h

end Sys2Proof.Machine

/-! SUPPORT. Byte strings of numbers, flits and packets: what is read from a string is what it was formed of (R73, R74, R81). -/

namespace Sys2Proof.Machine

/-! ### What a port puts into a flit (R73, R74) -/

/-- What a port forms a flit of. -/
structure FlitParts where
  ftype : Nat
  first : Nat
  seq : Nat
  ack : Nat
  ackType : Nat
  cred : List Nat
  payload : List Byte

/-- The parts fit the fields of a flit. -/
structure FlitParts.Fit (x : FlitParts) : Prop where
  ftype : x.ftype ≤ 2
  first : x.first < 16
  ackType : x.ackType < 256
  creds : x.cred.length = 6
  cred : ∀ c ∈ x.cred, c < 256

def FlitParts.bytes (x : FlitParts) : List Byte := flitBytes x.ftype x.first x.seq x.ack x.ackType x.cred x.payload

/-- What the CRC of a flit covers: its header and its payload. -/
def FlitParts.covered (x : FlitParts) : List Byte :=
  [BitVec.ofNat 8 (x.ftype + 16 * x.first)] ++ (leBytes 3 (x.seq % 4096 + 4096 * (x.ack % 4096)) ++
    ([BitVec.ofNat 8 x.ackType] ++ (x.cred.map (BitVec.ofNat 8) ++ ([0] ++ sliceB x.payload 0 240))))

theorem FlitParts.bytes_eq (x : FlitParts) : x.bytes = x.covered ++ leBytes 4 (crc32 x.covered).toNat := by
  simp only [FlitParts.bytes, flitBytes, FlitParts.covered, List.append_assoc]

/-! ### Little-endian strings -/

@[simp] theorem length_leBytes (n v : Nat) : (leBytes n v).length = n := by
  induction n generalizing v with
  | zero => rfl
  | succ n ih => rw [leBytes, List.length_cons, ih]

/-- The value of the `n` low bytes of a number. -/
theorem leNat_leBytes (n v : Nat) : leNat (leBytes n v) = v % 256 ^ n := by
  induction n generalizing v with
  | zero => rw [Nat.pow_zero, Nat.mod_one]; rfl
  | succ n ih =>
    rw [leBytes, leNat, ih, BitVec.toNat_ofNat, Nat.pow_succ' (m := 256) (n := n), Nat.mod_mul]

/-- A byte string is that of its value. -/
theorem leBytes_leNat (bs : List Byte) : leBytes bs.length (leNat bs) = bs := by
  induction bs with
  | nil => rfl
  | cons b bs ih =>
    have hb := b.isLt
    have hlow : BitVec.ofNat 8 (b.toNat + 256 * leNat bs) = b := BitVec.eq_of_toNat_eq (by rw [BitVec.toNat_ofNat]; omega)
    have hrest : (b.toNat + 256 * leNat bs) / 256 = leNat bs := by omega
    rw [List.length_cons, leNat, leBytes, hlow, hrest, ih]

theorem leNat_lt (bs : List Byte) : leNat bs < 256 ^ bs.length := by
  have h := leNat_leBytes bs.length (leNat bs)
  rw [leBytes_leNat] at h
  exact h ▸ Nat.mod_lt _ (by positivity)

theorem fieldB_lt (bs : List Byte) (off n : Nat) : fieldB bs off n < 256 ^ n := by
  simpa [fieldB] using leNat_lt (sliceB bs off n)

/-! ### Fields of strings laid end to end -/

/-- A slice that begins behind a string's first part is one of the rest. -/
theorem sliceB_skip {a : List Byte} {k : Nat} (ha : a.length = k) (b : List Byte) (off n : Nat) :
    sliceB (a ++ b) (k + off) n = sliceB b off n := by
  subst ha
  simp only [sliceB, List.drop_append, List.drop_eq_nil_of_le (Nat.le_add_right a.length off), List.nil_append,
    Nat.add_sub_cancel_left]

/-- A slice that ends within a string's first part is one of that part. -/
theorem sliceB_left {a : List Byte} {off n : Nat} (ha : off + n ≤ a.length) (b : List Byte) :
    sliceB (a ++ b) off n = sliceB a off n := by
  have hd : (a.drop off).length = a.length - off := List.length_drop
  simp only [sliceB]
  rw [List.drop_append_of_le_length (by omega), List.take_append_of_le_length (by omega)]

theorem fieldB_skip {a : List Byte} {k : Nat} (ha : a.length = k) (b : List Byte) (off n : Nat) :
    fieldB (a ++ b) (k + off) n = fieldB b off n := congrArg leNat (sliceB_skip ha b off n)

/-- The field that a string's first part is. -/
theorem fieldB_head {a : List Byte} {n : Nat} (ha : a.length = n) (b : List Byte) : fieldB (a ++ b) 0 n = leNat a :=
  congrArg leNat (sliceB_append (a := []) rfl ha)

theorem fieldB_left {a : List Byte} {off n : Nat} (ha : off + n ≤ a.length) (b : List Byte) :
    fieldB (a ++ b) off n = fieldB a off n := congrArg leNat (sliceB_left ha b)

/-- A slice, byte by byte. -/
theorem sliceB_eq_map (bs : List Byte) (off n : Nat) : sliceB bs off n = (List.range n).map fun i => byteB bs (off + i) := by
  refine List.ext_getElem (by simp) fun i hi _ => ?_
  rw [length_sliceB] at hi
  by_cases h : off + i < bs.length
  · have ht : i < ((bs.drop off).take n).length := by simp; omega
    simp [sliceB, byteB, List.getElem_append_left ht, h]
  · have ht : ((bs.drop off).take n).length ≤ i := by simp; omega
    simp [sliceB, byteB, List.getElem_append_right ht, Nat.le_of_not_lt h]

theorem sliceB_one (bs : List Byte) (off : Nat) : sliceB bs off 1 = [byteB bs off] := by
  rw [sliceB_eq_map]
  rfl

theorem sliceB_take {bs : List Byte} {n : Nat} (h : n ≤ bs.length) : sliceB bs 0 n = bs.take n := by
  simp [sliceB, h]

/-! ### Flits (R73, R74) -/

theorem FlitParts.Fit.length_covered {x : FlitParts} (h : x.Fit) : x.covered.length = 252 := by
  simp [FlitParts.covered, h.creds]

theorem FlitParts.Fit.length_bytes {x : FlitParts} (h : x.Fit) : x.bytes.length = 256 := by
  rw [x.bytes_eq, List.length_append, h.length_covered, length_leBytes]

/-- A field of a flit before its CRC. -/
theorem FlitParts.Fit.fieldB_covered {x : FlitParts} (h : x.Fit) {off n : Nat} (hn : off + n ≤ 252) :
    fieldB x.bytes off n = fieldB x.covered off n := by
  rw [x.bytes_eq, fieldB_left (by rwa [h.length_covered])]

/-- The field of a flit's type and FIRST. -/
theorem FlitParts.Fit.typeFirst {x : FlitParts} (h : x.Fit) : fieldB x.bytes 0 1 = x.ftype + 16 * x.first := by
  have ht := h.ftype
  have hf := h.first
  rw [h.fieldB_covered (by omega), FlitParts.covered, fieldB_head (n := 1) rfl]
  simp only [leNat, BitVec.toNat_ofNat]
  omega

theorem FlitParts.Fit.seqAck {x : FlitParts} (h : x.Fit) :
    fieldB x.bytes 1 3 = x.seq % 4096 + 4096 * (x.ack % 4096) := by
  rw [h.fieldB_covered (by omega)]
  refine (fieldB_skip (k := 1) rfl _ 0 3).trans ((fieldB_head (length_leBytes _ _) _).trans ?_)
  rw [leNat_leBytes]
  omega

theorem FlitParts.Fit.ackField {x : FlitParts} (h : x.Fit) : fieldB x.bytes 4 1 = x.ackType := by
  have ha := h.ackType
  rw [h.fieldB_covered (by omega)]
  refine (fieldB_skip (k := 1) rfl _ 3 1).trans ((fieldB_skip (length_leBytes 3 _) _ 0 1).trans ((fieldB_head rfl _).trans ?_))
  simp only [leNat, BitVec.toNat_ofNat]
  omega

theorem FlitParts.Fit.credField {x : FlitParts} (h : x.Fit) {i : Nat} (hi : i < 6) :
    fieldB x.bytes (5 + i) 1 = x.cred.getD i 0 := by
  have hic : i < x.cred.length := h.creds ▸ hi
  have hbyte : fieldB (x.cred.map (BitVec.ofNat 8)) i 1 = x.cred.getD i 0 := by
    rw [fieldB, sliceB_one]
    have hb := h.cred _ (List.getElem_mem hic)
    simp only [byteB, leNat, List.getD_eq_getElem?_getD, List.getElem?_map, List.getElem?_eq_getElem hic, Option.map_some,
      Option.getD_some, BitVec.toNat_ofNat]
    omega
  rw [h.fieldB_covered (by omega)]
  rw [show 5 + i = 1 + (3 + (1 + i)) by omega, FlitParts.covered, fieldB_skip (k := 1) rfl, fieldB_skip (length_leBytes 3 _),
    fieldB_skip (k := 1) rfl, fieldB_left (by simp [h.creds]; omega), hbyte]

theorem FlitParts.Fit.payloadField {x : FlitParts} (h : x.Fit) : sliceB x.bytes 12 240 = sliceB x.payload 0 240 := by
  rw [x.bytes_eq, sliceB_left (by rw [h.length_covered])]
  refine (sliceB_skip (k := 1) rfl _ 11 240).trans ((sliceB_skip (length_leBytes 3 _) _ 8 240).trans
    ((sliceB_skip (k := 1) rfl _ 7 240).trans ((sliceB_skip (k := 6) (by simp [h.creds]) _ 1 240).trans
    ((sliceB_skip (k := 1) rfl _ 0 240).trans (sliceB_self (length_sliceB _ _ _))))))

/-- The CRC of a flit is that of what stands before it. -/
theorem FlitParts.Fit.crc {x : FlitParts} (h : x.Fit) : fieldB x.bytes 252 4 = (crc32 (x.bytes.take 252)).toNat := by
  rw [x.bytes_eq, List.take_left' h.length_covered]
  refine (fieldB_skip h.length_covered _ 0 4).trans ?_
  rw [fieldB, sliceB_self (length_leBytes _ _), leNat_leBytes]
  exact Nat.mod_eq_of_lt (BitVec.isLt _)

/-- A flit that a port forms passes the receiver's checks, unless a codeword could not be corrected. -/
theorem FlitParts.Fit.flitOk {x : FlitParts} (h : x.Fit) (ok : Bool) : flitOk x.bytes ok = ok := by
  have ht := h.ftype
  have htype : fieldB x.bytes 0 1 % 16 ≤ 2 := by
    rw [h.typeFirst]
    omega
  simp [Machine.flitOk, h.length_bytes, htype, h.crc]

/-! ### Packets (R81) -/

theorem b2n_bitAt (x i : Nat) : b2n (bitAt x i) = x / 2 ^ i % 2 := by
  rcases Nat.mod_two_eq_zero_or_one (x / 2 ^ i) with h | h <;> simp [b2n, bitAt, h]

theorem bitAt_b2n {x i : Nat} {b : Bool} (h : x / 2 ^ i % 2 = b2n b) : bitAt x i = b := by
  cases b <;> simp [bitAt, h, b2n]

theorem b2n_lt (b : Bool) : b2n b < 2 := by cases b <;> decide

theorem length_pktHeader (k : Pkt) : (pktHeader k).length = 16 := by simp [pktHeader]

/-- The bytes of a packet, field by field. -/
theorem pktBytes_eq (k : Pkt) : pktBytes k =
    [BitVec.ofNat 8 (k.opc.toNat + 32 * k.vc.toNat)] ++ ([BitVec.ofNat 8 (k.hops.toNat + 128 * b2n k.dir)] ++
      (leBytes 2 (k.dest.toNat + 16384 * b2n k.leg + 32768 * b2n k.nbr) ++ (leBytes 2 k.src.toNat ++
        (leBytes 2 k.tag.toNat ++ (leBytes 5 k.addr.toNat ++ ([k.len, k.b14, k.b15] ++ k.payload)))))) := by
  simp only [pktBytes, pktHeader, List.append_assoc, List.cons_append, List.nil_append]

section
variable (k : Pkt)

theorem pktBytes_opcVc : fieldB (pktBytes k) 0 1 = k.opc.toNat + 32 * k.vc.toNat := by
  rw [pktBytes_eq, fieldB_head (n := 1) rfl]
  simp only [leNat, BitVec.toNat_ofNat]
  omega

theorem pktBytes_hopsDir : fieldB (pktBytes k) 1 1 = k.hops.toNat + 128 * b2n k.dir := by
  have hd := b2n_lt k.dir
  rw [pktBytes_eq]
  refine (fieldB_skip (k := 1) rfl _ 0 1).trans ((fieldB_head rfl _).trans ?_)
  simp only [leNat, BitVec.toNat_ofNat]
  omega

theorem pktBytes_dest :
    fieldB (pktBytes k) 2 2 = k.dest.toNat + 16384 * b2n k.leg + 32768 * b2n k.nbr := by
  have hl := b2n_lt k.leg
  have hn := b2n_lt k.nbr
  rw [pktBytes_eq]
  refine (fieldB_skip (k := 1) rfl _ 1 2).trans ((fieldB_skip (k := 1) rfl _ 0 2).trans
    ((fieldB_head (length_leBytes _ _) _).trans ?_))
  rw [leNat_leBytes]
  omega

theorem pktBytes_src : fieldB (pktBytes k) 4 2 = k.src.toNat := by
  rw [pktBytes_eq]
  refine (fieldB_skip (k := 1) rfl _ 3 2).trans ((fieldB_skip (k := 1) rfl _ 2 2).trans
    ((fieldB_skip (length_leBytes 2 _) _ 0 2).trans ((fieldB_head (length_leBytes _ _) _).trans ?_)))
  rw [leNat_leBytes]
  omega

theorem pktBytes_tag : fieldB (pktBytes k) 6 2 = k.tag.toNat := by
  rw [pktBytes_eq]
  refine (fieldB_skip (k := 1) rfl _ 5 2).trans ((fieldB_skip (k := 1) rfl _ 4 2).trans
    ((fieldB_skip (length_leBytes 2 _) _ 2 2).trans ((fieldB_skip (length_leBytes 2 _) _ 0 2).trans
    ((fieldB_head (length_leBytes _ _) _).trans ?_))))
  rw [leNat_leBytes]
  omega

theorem pktBytes_addr : fieldB (pktBytes k) 8 5 = k.addr.toNat := by
  rw [pktBytes_eq]
  refine (fieldB_skip (k := 1) rfl _ 7 5).trans ((fieldB_skip (k := 1) rfl _ 6 5).trans
    ((fieldB_skip (length_leBytes 2 _) _ 4 5).trans ((fieldB_skip (length_leBytes 2 _) _ 2 5).trans
    ((fieldB_skip (length_leBytes 2 _) _ 0 5).trans ((fieldB_head (length_leBytes _ _) _).trans ?_)))))
  rw [leNat_leBytes]
  omega

/-- Bytes 13 to 15 of a packet and its payload. -/
theorem pktBytes_tail :
    byteB (pktBytes k) 13 = k.len ∧ byteB (pktBytes k) 14 = k.b14 ∧ byteB (pktBytes k) 15 = k.b15 ∧
    (pktBytes k).drop 16 = k.payload := ⟨rfl, rfl, rfl, rfl⟩

end

/-- The packet read from a packet's bytes is the packet. -/
theorem pktOfBytes_pktBytes (k : Pkt) : pktOfBytes (pktBytes k) = k := by
  have hdir := b2n_lt k.dir
  have hleg := b2n_lt k.leg
  have hnbr := b2n_lt k.nbr
  obtain ⟨hlen, h14, h15, hpay⟩ := pktBytes_tail k
  have hb : ∀ {w x : Nat} {b : BitVec w}, x % 2 ^ w = b.toNat → BitVec.ofNat w x = b := fun h =>
    BitVec.eq_of_toNat_eq ((BitVec.toNat_ofNat _ _).trans h)
  simp only [pktOfBytes, hlen, h14, h15, hpay, pktBytes_opcVc, pktBytes_hopsDir, pktBytes_dest, pktBytes_src, pktBytes_tag,
    pktBytes_addr]
  rw [hb (b := k.opc) (by omega), hb (b := k.vc) (by omega), hb (b := k.hops) (by omega), hb (b := k.dest) (by omega),
    hb (b := k.src) (by omega), hb (b := k.tag) (by omega), hb (b := k.addr) (by omega), bitAt_b2n (b := k.dir) (by omega),
    bitAt_b2n (b := k.leg) (by omega), bitAt_b2n (b := k.nbr) (by omega)]

/-- A number of `n` bytes that is a field of a string is that slice of it. -/
theorem leBytes_fieldB (bs : List Byte) (off n : Nat) : leBytes n (fieldB bs off n) = sliceB bs off n := by
  have h := leBytes_leNat (sliceB bs off n)
  rwa [length_sliceB] at h

theorem ofNat_fieldB (bs : List Byte) (off : Nat) : BitVec.ofNat 8 (fieldB bs off 1) = byteB bs off :=
  (List.singleton_inj.1 ((leBytes_fieldB bs off 1).trans (sliceB_one bs off)) :)

/-- The header of a packet read from bytes whose two reserved bits are 0 is the bytes' own. -/
theorem pktHeader_pktOfBytes {bs : List Byte} (hl : 16 ≤ bs.length) (hr : byteB bs 5 < 0x40) :
    pktHeader (pktOfBytes bs) = bs.take 16 := by
  have h0 := fieldB_lt bs 0 1
  have h1 := fieldB_lt bs 1 1
  have h2 := fieldB_lt bs 2 2
  have h6 := fieldB_lt bs 6 2
  have h8 := fieldB_lt bs 8 5
  have h4 : fieldB bs 4 2 < 2 ^ 14 := by
    have hb : (byteB bs 5).toNat < 0x40 := hr
    have hl := (byteB bs 4).isLt
    have h45 : fieldB bs 4 2 = (byteB bs 4).toNat + 256 * (byteB bs 5).toNat := by
      simp [fieldB, sliceB_eq_map, List.range_succ, leNat]
    omega
  have e0 : fieldB bs 0 1 % 2 ^ 5 + 32 * (fieldB bs 0 1 / 32 % 2 ^ 3) = fieldB bs 0 1 := by omega
  have e1 : fieldB bs 1 1 % 2 ^ 7 + 128 * (fieldB bs 1 1 / 2 ^ 7 % 2) = fieldB bs 1 1 := by omega
  have e2 : fieldB bs 2 2 % 2 ^ 14 + 16384 * (fieldB bs 2 2 / 2 ^ 14 % 2) + 32768 * (fieldB bs 2 2 / 2 ^ 15 % 2) =
      fieldB bs 2 2 := by omega
  have e6 : fieldB bs 6 2 % 2 ^ 16 = fieldB bs 6 2 := Nat.mod_eq_of_lt h6
  have e8 : fieldB bs 8 5 % 2 ^ 40 = fieldB bs 8 5 := Nat.mod_eq_of_lt h8
  rw [← sliceB_take hl]
  simp only [pktHeader, pktOfBytes, BitVec.toNat_ofNat, b2n_bitAt, e0, e1, e2, Nat.mod_eq_of_lt h4, e6, e8, leBytes_fieldB]
  simp [ofNat_fieldB, sliceB_eq_map, List.range_succ]

/-- Settles O12: a flit by the place of each of its fields and its CRC, a packet's header field by field in both directions. -/
theorem encodingsRoundTrip : Obligations.EncodingsRoundTrip := by
  refine ⟨fun ftype first seq ack ackType cred payload ht hf ha hc hlt => ?_, fun k => ⟨pktOfBytes_pktBytes k, ?_⟩,
    fun bs hl hr => ?_⟩
  · have h : (⟨ftype, first, seq, ack, ackType, cred, payload⟩ : FlitParts).Fit := ⟨ht, hf, ha, hc, hlt⟩
    have htype := h.typeFirst
    have hseq := h.seqAck
    simp only [FlitParts.bytes] at htype hseq
    exact ⟨h.length_bytes, h.flitOk true, h.flitOk false, by omega, by omega, by omega, by omega, h.ackField,
      fun i hi => h.credField hi, h.payloadField⟩
  · rw [pktBytes, List.length_append, length_pktHeader]
  · rw [pktBytes, pktHeader_pktOfBytes hl hr]
    exact List.take_append_drop 16 bs

end Sys2Proof.Machine

/-! SUPPORT. Packets that pass, that are dropped, that expire and that end here (R82, R86-R93, R101-R108), and O16 to O19. -/

namespace Sys2Proof.Machine

/-! ### Which packets reach this stack (R90, R93, R103) -/

theorem State.forMe_iff {s : State} {p : Nat} {k : Pkt} :
    s.forMe p k = true ↔ s.packetsReach p = true ∧ k.nbr = false ∧ s.hasCoord = true ∧ k.dest.toNat = s.me := by
  simp [State.forMe, and_assoc]

/-- Packets reach the base course in four states of the device. -/
theorem State.packetsReach_dev {s : State} {p : Nat} (h : s.packetsReach p = true) :
    s.dev = .bringup ∨ s.dev = .restoring ∨ s.dev = .ready ∨ s.dev = .recovery := by
  unfold State.packetsReach at h
  cases hd : s.dev <;> simp_all

theorem State.packetsReach_not_saving {s : State} {p : Nat} (h : s.packetsReach p = true) : s.dev ≠ .saving := by
  rcases s.packetsReach_dev h with hd | hd | hd | hd <;> simp [hd]

theorem hopsOn_of_not_nbr {k : Pkt} (h : k.nbr = false) : hopsOn k = false := by simp [hopsOn, h]

/-- The coordinate of a stack is what LTC_COORD says. -/
theorem State.me_congr {s t : State} (h : t.reg LTC_COORD = s.reg LTC_COORD) : t.me = s.me := by
  have hx : t.fld LTC_COORD_X = s.fld LTC_COORD_X := State.fld_congr h
  have hy : t.fld LTC_COORD_Y = s.fld LTC_COORD_Y := State.fld_congr h
  simp only [State.me, hx, hy]

/-! ### Packets that pass (R90, R93, R94, R96) -/

theorem exec_packetTransit {k : Pkt} (h : k.nbr = false) (s : State) (p : Fin 4) :
    exec (.packetTransit p k) s = .next (s.transit p k) := congrArg Host.Outcome.next (by simp [h])

theorem exec_hopPacketForward {s : State} {p : Fin 4} {k : Pkt} (hp : s.packetsReach p = true) (hn : k.nbr = true)
    (hh : 1 < k.hops.toNat) : exec (.hopPacketForward p k) s = .next (s.hopOn p k) :=
  congrArg Host.Outcome.next ((if_neg (by simp [hp, hn])).trans (if_neg (by omega)))

section
variable {s : State} {p : Nat} {k : Pkt} (hp : s.packetsReach p = true)
include hp

theorem State.transit_behind (hb : s.behind p k = true) : s.transit p k = s.waitRx p k := by
  simp [State.transit, hp, hb]

variable (hb : s.behind p k = false) (hd : s.dev ≠ .recovery)
include hb hd

theorem State.transit_out (hc : s.hasCoord = true) {p' : Nat} {k' : Pkt} (hr : routeReceive s k = .out p' k') :
    s.transit p k = (s.takeRx p k).enqueue p' k' (srcOf p p') := by
  simp only [State.transit, hp, hb, hd, hc, hr, Bool.true_eq_false, Bool.false_eq_true, if_false]

theorem State.transit_drop (hc : s.hasCoord = true) {c : Nat} (hr : routeReceive s k = .drop c) :
    s.transit p k = (s.takeRx p k).discardOrRefuse p k c := by
  simp only [State.transit, hp, hb, hd, hc, hr, Bool.true_eq_false, Bool.false_eq_true, if_false]

theorem State.transit_unplaced (hc : s.hasCoord = false) (hh : k.hops.toNat < 127) :
    s.transit p k = (s.takeRx p k).enqueue (p ^^^ 1) { k with hops := k.hops + 1 } p := by
  have hlim : ¬127 < k.hops.toNat + 1 := by omega
  simp only [State.transit, hp, hb, hd, hc, hlim, Bool.true_eq_false, Bool.false_eq_true, if_false, if_true]

end

theorem State.hopOn_behind {s : State} {p : Nat} {k : Pkt} (hb : s.behind p k = true) : s.hopOn p k = s.waitRx p k := if_pos hb

theorem State.hopOn_passes {s : State} {p : Nat} {k : Pkt} (hb : s.behind p k = false) (hd : s.dev ≠ .recovery) :
    s.hopOn p k = (s.takeRx p k).enqueue (p ^^^ 1) { k with hops := k.hops - 1 } p := by
  simp [State.hopOn, hb, hd]

/-- A packet that is sent on may change its virtual channel and nothing else (R93). -/
theorem routeSend_out {s : State} {k k' : Pkt} {p : Nat} (h : routeSend s k = .out p k') : k' = { k with vc := k'.vc } := by
  unfold routeSend at h
  dsimp only at h
  split at h
  · split at h
    · cases h
    · split at h <;> cases h <;> rfl
  · cases h; rfl

/-- A packet that is routed on changes HOPS, VC and LEG, and DIR only where it turns onto the Y ring (R94). -/
theorem routeReceive_out {s : State} {k k' : Pkt} {p : Nat} (h : routeReceive s k = .out p k') :
    k' = { k with hops := k'.hops, vc := k'.vc, leg := k'.leg, dir := k'.dir } ∧
    (k'.dir ≠ k.dir → k.leg = false ∧ k'.leg = true) := by
  have straight {x : Pkt} (hs : routeSend s x = .out p k') (hx : x = { k with hops := x.hops }) :
      k' = { k with hops := k'.hops, vc := k'.vc, leg := k'.leg, dir := k'.dir } ∧
      (k'.dir ≠ k.dir → k.leg = false ∧ k'.leg = true) := by
    rw [routeSend_out hs, hx]
    exact ⟨rfl, fun hne => absurd rfl hne⟩
  unfold routeReceive at h
  dsimp only at h
  split at h
  · cases h
  split at h
  · cases h
  split at h
  next hturn =>
    rw [routeSend_out h]
    exact ⟨rfl, fun _ => ⟨hturn.1, rfl⟩⟩
  split at h
  · exact straight h rfl
  split at h
  · exact straight h rfl
  · cases h

/-- Settles O16: what passes by the routes of `transit` and `hopOn`; what they leave of the packet by `routeReceive_out`. -/
theorem forwardingKeepsThePacket : Obligations.ForwardingKeepsThePacket := by
  intro s p k hp
  refine ⟨fun hb => ⟨fun hn => ?_, fun hn hh => ?_⟩, fun hb hd => ⟨fun p' k' hn hc hr => ⟨?_, routeReceive_out hr⟩,
    fun hn hc hh => ?_, fun hn hh => ?_⟩⟩
  · rw [exec_packetTransit hn, State.transit_behind hp hb]
  · rw [exec_hopPacketForward hp hn hh, State.hopOn_behind hb]
  · rw [exec_packetTransit hn, State.transit_out hp hb hd hc hr]
  · rw [exec_packetTransit hn, State.transit_unplaced hp hb hd hc hh]
  · rw [exec_hopPacketForward hp hn hh, State.hopOn_passes hb hd]

/-! ### Packets dropped and packets that expire (R88, R93, R102) -/

/-- A packet dropped in routing is counted, and where its event is due the port notes when it was posted (R93, R107). -/
def State.dropNoted (s : State) (p : Nat) : State :=
  if s.dropDue p = true then (s.incFld LTC_DROP_ROUTE 1).modPort (min p 3) fun t => { t with routeAt := some s.clock }
  else s.incFld LTC_DROP_ROUTE 1

theorem State.dropRoute_eq (s : State) (p : Nat) (k : Pkt) (c : Nat) :
    s.dropRoute p k c = if s.dropDue p = true then
      (s.dropNoted p).post 0x020F 1 p (k.dest.toNat + 65536 * k.opc.toNat + 2 ^ 24 * c) else s.dropNoted p := by
  have hdue : (s.incFld LTC_DROP_ROUTE 1).dropDue p = s.dropDue p := rfl
  unfold State.dropRoute State.dropCount State.dropNoted
  dsimp only
  rw [hdue]
  split <;> rfl

theorem State.dropNoted_route (s : State) (p : Nat) :
    (s.dropNoted p).fld LTC_DROP_ROUTE = satAdd 16 (s.fld LTC_DROP_ROUTE) 1 :=
  ite_keeps (fun t : State => t.fld LTC_DROP_ROUTE) (s.fld_incFld_self (f := LTC_DROP_ROUTE) 1 rfl)
    (s.fld_incFld_self (f := LTC_DROP_ROUTE) 1 rfl)

theorem State.dropNoted_only (s : State) (p : Nat) : s.only (s.dropNoted p) [.lnk] fun r => r = LTC_DROP := by
  have h : s.only (s.incFld LTC_DROP_ROUTE 1) [.lnk] fun r => r = LTC_DROP :=
    State.only_mono (s.incFld_only _ _) (by simp) fun _ h => h
  exact ite_has (s.only · _ _) h.modPort h

/-- A packet has left port `p`'s output queue because it waited too long, and is counted (R102). -/
def State.expiredOut (s : State) (p i : Nat) : State :=
  (s.modPort p fun t => { t with outq := t.outq.eraseIdx i, expired := (s.port p).expired + 1, outage := true }).incFld
    (LTC_LOST_EXPIRED p) 1

theorem State.expiredOut_only (s : State) (p i : Nat) : s.only (s.expiredOut p i) [.lnk] fun r => r = LTC_LOST p :=
  (State.only_mono (s.modPort_only p _) (by simp) fun _ h => h.elim).andThen (State.incFld_only _ _ _) (by simp) fun _ h => h

theorem State.expiredOut_me (s : State) (p i : Nat) : (s.expiredOut p i).me = s.me :=
  State.me_congr (State.only_reg_eq (s.expiredOut_only p i) (by simp only [LTC_COORD, LTC_LOST]; omega))

theorem State.expiredOut_outq {s : State} {p : Nat} (hp : p < s.lnk.ports.length) (i : Nat) :
    ((s.expiredOut p i).port p).outq = (s.port p).outq.eraseIdx i := by
  rw [State.expiredOut, State.port, (State.incFld_same _ _ _).2.2.2.2.2.2.2.2.2.1, ← State.port, s.port_modPort _ _ _ hp, if_pos rfl]

/-- What a request that has expired has this stack answer (R102). -/
def State.expiryAnswered (s : State) (p : Nat) (k : Pkt) : State :=
  if isRequest k.opc.toNat = false then s
  else if k.nbr = true then s.enqueue (p ^^^ 1)
    { mkRsp s.me k 4 0 [] with hops := BitVec.ofNat 7 (k.b15.toNat - k.hops.toNat) } 5
  else s.injectRaw (mkRsp s.me k 4 0 [])

theorem exec_linkwaitExpiry {s : State} {p : Fin 4} {i : Nat} {o : OutPkt} (ho : (s.port p).outq[i]? = some o)
    (h : (s.port p).st ≠ .active) : exec (.linkwaitExpiry p i) s = .next (
      let v := (s.expiredOut p i).expiryAnswered p o.pkt
      if (s.port p).outage = true then v else v.post 0x0211 2 p ((s.port p).expired + 1)) := by
  refine congrArg Host.Outcome.next ?_
  simp only [ho, h, if_false, State.expiryAnswered]
  cases isRequest o.pkt.opc.toNat <;> rfl

theorem exec_linkwaitExpiry_active {s : State} {p : Fin 4} (h : (s.port p).st = .active) (i : Nat) :
    exec (.linkwaitExpiry p i) s = .next s := by
  refine congrArg Host.Outcome.next ?_
  dsimp only
  split
  · rfl
  · exact if_pos h

/-- A packet that this stack discards is counted (R82, R88). -/
theorem State.discardHere_forMe {s : State} {p : Nat} {k : Pkt} (h : s.forMe p k = true) :
    s.discardHere p k = (s.takeRx p k).incFld LTC_DROP_LOCAL 1 := by
  obtain ⟨hp, hn, hc, hd⟩ := State.forMe_iff.1 h
  simp [State.discardHere, State.dropLocal, hp, hn, hc, hd, hopsOn_of_not_nbr hn]

/-- Settles O17: drops by `dropRoute_eq`, discards by `discardHere_forMe`, expiry by the state that the packet leaves behind. -/
theorem packetsDiscarded : Obligations.PacketsDiscarded := by
  refine ⟨fun s p k hp hn hd hc hb cause hr => ?_, fun s p k h => ?_,
    fun s p k c => ⟨s.dropNoted p, s.dropRoute_eq p k c, s.dropNoted_route p, s.dropNoted_only p⟩,
    fun s p i o ho => ⟨fun h => exec_linkwaitExpiry_active h i, fun h => ⟨s.expiredOut p i, ?_, ?_, ?_, s.expiredOut_only p i⟩⟩⟩
  · rw [exec_packetTransit hn, State.transit_drop hp hb hd hc hr]
    rfl
  · have hdiscard := congrArg (Host.Outcome.next (φ := Fault) (ρ := Refusal)) (State.discardHere_forMe h)
    exact ⟨hdiscard, hdiscard⟩
  · rw [exec_linkwaitExpiry ho h, State.expiryAnswered, s.expiredOut_me]
  · refine State.expiredOut_outq ?_ i
    by_contra hlen
    rw [State.port_absent (Nat.le_of_not_lt hlen)] at ho
    cases ho
  · exact State.fld_incFld_self _ 1 rfl

/-! ### Responses (R86, R101) -/

theorem exec_rspReceived {s : State} {p : Fin 4} {k : Pkt} (h : s.forMe p k = true) (hl : k ∉ s.lnk.loop) :
    exec (.rspReceived p k) s = .next ((s.takeRx p k).matchRsp k) := by
  obtain ⟨hp, hn, hc, hd⟩ := State.forMe_iff.1 h
  refine congrArg Host.Outcome.next ?_
  simp [hl, hp, hn, hc, hd, hopsOn_of_not_nbr hn]

theorem State.takeRx_outst (s : State) (p : Nat) (k : Pkt) : (s.takeRx p k).lnk.outst = s.lnk.outst := by
  unfold State.takeRx
  split <;> rfl

theorem State.matchRsp_found {s : State} {k : Pkt} {o : Outst} (h : s.lnk.outst.find? (fun o => o.tag == k.tag.toNat) = some o) :
    s.matchRsp k = s.handRsp o (rspStatus k) k.payload := by simp only [State.matchRsp, h]

theorem State.matchRsp_late {s : State} {k : Pkt} (h : s.lnk.outst.find? (fun o => o.tag == k.tag.toNat) = none) :
    s.matchRsp k = s.incFld LTC_DROP_LOCAL 1 := by simp only [State.matchRsp, h]

theorem exec_responseTimeout {s : State} {tag : BitVec 16} {o : Outst}
    (h : s.lnk.outst.find? (fun o => o.tag == tag.toNat) = some o) :
    exec (.responseTimeout tag) s = .next ((s.post 0x0210 2 0xFF (o.pkt.dest.toNat + 65536 * o.tag)).handRsp o 4 []) :=
  congrArg Host.Outcome.next (by simp only [h])

/-! ### The coordinate and the lock of the reset authority (R90, R108) -/

theorem rowOf_LTC_COORD :
    rowOf LTC_COORD = some ⟨0x400000, [], [⟨31, 31, .rws, 0⟩, ⟨13, 7, .rws, 0⟩, ⟨6, 0, .rws, 0⟩]⟩ := by
  decide

/-- What a write leaves in a register, from the register's row. -/
theorem State.taken_of_row {r : Nat} {row : RegRow} (h : rowOf r = some row) (s : State) (v : Nat) :
    s.taken r v = row.flds.foldl (fun old f => writeField v old f) (s.reg r) % 2 ^ 32 := by simp only [State.taken, h]

theorem writeField_rws (v old hi lo rst : Nat) :
    writeField v old ⟨hi, lo, .rws, rst⟩ = setBits old hi lo (getBits v hi lo) := rfl

/-- What a write by access types leaves of the coordinate is the value's. -/
theorem State.writeAcc_coord (s : State) (v : Nat) :
    (s.writeAcc LTC_COORD v).fld LTC_COORD_X = getBits v 13 7 ∧ (s.writeAcc LTC_COORD v).fld LTC_COORD_Y = getBits v 6 0 := by
  have hreg : (s.writeAcc LTC_COORD v).reg LTC_COORD =
      setBits (setBits (setBits (s.reg LTC_COORD) 31 31 (getBits v 31 31)) 13 7 (getBits v 13 7)) 6 0 (getBits v 6 0) % 2 ^ 32 := by
    rw [State.writeAcc_reg_self, State.taken_of_row rowOf_LTC_COORD, List.foldl_cons, List.foldl_cons, List.foldl_cons,
      List.foldl_nil, writeField_rws, writeField_rws, writeField_rws]
  simp only [State.fld, LTC_COORD_X, LTC_COORD_Y, hreg]
  refine ⟨?_, ?_⟩
  · rw [getBits_mod_word _ (by decide) (by decide), getBits_setBits_high _ _ _ _ _ _ (by decide) (by decide), getBits_setBits]
    exact Nat.mod_mod _ _
  · rw [getBits_mod_word _ (by decide) (by decide), getBits_setBits]
    exact Nat.mod_mod _ _

theorem State.writeCoord_flds (s : State) (v : Nat) :
    (s.writeCoord v).hasCoord = true ∧ (s.writeCoord v).fld LTC_COORD_X = getBits v 13 7 ∧
    (s.writeCoord v).fld LTC_COORD_Y = getBits v 6 0 := by
  obtain ⟨hx, hy⟩ := s.writeAcc_coord v
  refine ⟨State.flag_setFld_b2n _ (f := LTC_COORD_VALID) true, ?_, ?_⟩
  · rw [← hx]
    exact State.fld_setFld_beside _ _ rfl
  · rw [← hy]
    exact State.fld_setFld_beside _ _ rfl

theorem State.writeCoord_only (s : State) (v : Nat) : s.only (s.writeCoord v) [] fun r => r = LTC_COORD :=
  (s.writeAcc_only _ _).setFld rfl

theorem State.writeAuthLock_only (s : State) (v : Nat) : s.only (s.writeAuthLock v) [] fun r => r = LTC_RSTAUTH_LOCK :=
  ite_has (s.only · _ _) (s.setFld_only _ _) (s.only_refl _ _)

/-- A write of the lock sets it or leaves it. -/
theorem State.writeAuthLock_lock (s : State) (v : Nat) :
    (s.writeAuthLock v).flag LTC_RSTAUTH_LOCK_LOCK = (s.flag LTC_RSTAUTH_LOCK_LOCK || bitAt v 0) := by
  unfold State.writeAuthLock
  split
  next h => rw [h, Bool.or_true]; exact State.flag_setFld_b2n _ (f := LTC_RSTAUTH_LOCK_LOCK) true
  next h => rw [Bool.eq_false_of_not_eq_true h, Bool.or_false]

theorem exec_ltcCoordWrite {s : State} {a : Access} (h : s.served a LTC_COORD = true) (v : Word) :
    exec (.ltcCoordWrite a v) s = .next (((s.arrived a 9).writeCoord v.toNat).respond a 9 0 0) :=
  congrArg Host.Outcome.next (State.cfgWrite_served h fun s => s.writeCoord v.toNat)

theorem exec_ltcRstauthLockWrite {s : State} {a : Access} (h : s.served a LTC_RSTAUTH_LOCK = true) (v : Word) :
    exec (.ltcRstauthLockWrite a v) s = .next (((s.arrived a 9).writeAuthLock v.toNat).respond a 9 0 0) :=
  congrArg Host.Outcome.next (State.cfgWrite_served h fun s => s.writeAuthLock v.toNat)

/-- Settles O18: responses by their TAG, the loss of one, and what the two registers hold once they are written. -/
theorem responsesMatched : Obligations.ResponsesMatched := by
  refine fun s p k => ⟨fun h hl => ⟨fun o ho => ?_, fun ho => ?_⟩, fun tag o ho => exec_responseTimeout ho,
    fun a v => ⟨fun h => ⟨_, exec_ltcCoordWrite h v, ?_⟩, fun h => ⟨_, exec_ltcRstauthLockWrite h v, ?_⟩⟩⟩
  · rw [exec_rspReceived h hl, State.matchRsp_found ((congrArg _ (s.takeRx_outst p k)).trans ho)]
    rfl
  · rw [exec_rspReceived h hl, State.matchRsp_late ((congrArg _ (s.takeRx_outst p k)).trans ho)]
  · obtain ⟨hc, hx, hy⟩ := (s.arrived a 9).writeCoord_flds v.toNat
    exact ⟨hc, hx, hy, State.writeCoord_only _ _⟩
  · refine ⟨?_, State.writeAuthLock_only _ _⟩
    rw [State.writeAuthLock_lock, bitAt_toNat]
    exact congrArg (· || _) (State.flag_congr (s.arrived_reg a 9 (by decide)))

/-! ### Reset packets (R92, R105) -/

section
variable {s : State} {p : Fin 4} {k : Pkt} (h : s.forMe p k = true)

/-- An accepted RST stands in LTC_RSTLAST (R105). -/
def State.rstRecorded (s : State) (k : Pkt) : State :=
  (((s.setFld LTC_RSTLAST_VALID 1).setFld LTC_RSTLAST_PSEL (rstPsel k)).setFld LTC_RSTLAST_REACH (rstReach k)).setFld
    LTC_RSTLAST_SRC k.src.toNat

include h

theorem exec_rstPacket_refused
    (hr : vcClass k.vc.toNat ≠ 2 ∨ rstReach k = 3 ∨ (s.takeRx p k).rstAuth k.src.toNat (rstReach k) = false) :
    exec (.rstPacket p k) s = .next ((s.takeRx p k).refuseRst p k) := by
  obtain ⟨hp, hn, hc, hd⟩ := State.forMe_iff.1 h
  refine congrArg Host.Outcome.next ?_
  simp only [hp, hn, hc, hd, hopsOn_of_not_nbr hn, State.takeRx_same, s.packetsReach_not_saving hp, hr, Bool.true_eq_false,
    Bool.false_eq_true, ne_eq, not_true_eq_false, or_false, if_false, if_true]

theorem exec_rstPacket_accepted (hv : vcClass k.vc.toNat = 2) (hr : rstReach k ≠ 3)
    (ha : (s.takeRx p k).rstAuth k.src.toNat (rstReach k) = true) :
    exec (.rstPacket p k) s = .next
      (let t := (((s.takeRx p k).rstStart.rstRecorded k).post 0x020D 1 p (rstData k)).answer p k 0 0 []
       { t with lnk := { t.lnk with rst := some (rstReach k, rstPsel k), rstSrc := k.src.toNat } }) := by
  obtain ⟨hp, hn, hc, hd⟩ := State.forMe_iff.1 h
  refine congrArg Host.Outcome.next ?_
  simp only [hp, hn, hc, hd, hopsOn_of_not_nbr hn, State.takeRx_same, s.packetsReach_not_saving hp, hv, hr, ha, Bool.true_eq_false,
    Bool.false_eq_true, ne_eq, not_true_eq_false, or_false, if_false]
  rfl

end

theorem State.rstRecorded_only (s : State) (k : Pkt) : s.only (s.rstRecorded k) [] fun r => r = LTC_RSTLAST := by
  have hvalid : s.only (s.setFld LTC_RSTLAST_VALID 1) [] fun r => r = LTC_RSTLAST := s.setFld_only _ _
  exact ((hvalid.setFld rfl).setFld rfl).setFld rfl

theorem State.rstRecorded_flds (s : State) (k : Pkt) :
    (s.rstRecorded k).fld LTC_RSTLAST_SRC = k.src.toNat ∧ (s.rstRecorded k).fld LTC_RSTLAST_REACH = rstReach k ∧
    (s.rstRecorded k).fld LTC_RSTLAST_PSEL = rstPsel k ∧ (s.rstRecorded k).flag LTC_RSTLAST_VALID = true := by
  unfold State.rstRecorded
  refine ⟨State.fld_setFld_lt _ k.src.isLt, ?_, ?_, ?_⟩
  · rw [State.fld_setFld_beside _ _ rfl]
    exact State.fld_setFld_lt _ (Nat.mod_lt _ (by decide))
  · rw [State.fld_setFld_beside _ _ rfl, State.fld_setFld_beside _ _ rfl]
    exact State.fld_setFld_lt _ (Nat.mod_lt _ (by decide))
  · rw [State.flag_setFld_beside _ _ rfl, State.flag_setFld_beside _ _ rfl, State.flag_setFld_beside _ _ rfl]
    exact State.flag_setFld_b2n _ (f := LTC_RSTLAST_VALID) true

/-- The reset of an accepted RST begins (R105, R282, R287). -/
theorem State.rstStart_some {s : State} {reach psel : Nat} (h : s.lnk.rst = some (reach, psel)) (hd : s.dev ≠ .off) :
    let t := { s with lnk := { s.lnk with rst := none } }
    s.rstStart = if reach ≠ 0 then t.assertReset 3 (reach + 2) s.lnk.rstSrc false
      else if s.dev = .saving then t.deferReset { source := 3, reach := 2, endpoint := s.lnk.rstSrc, port := psel }
      else t.portReset psel 3 s.lnk.rstSrc := by
  simp only [State.rstStart, h, hd, if_false]
  rw [ite_not]

theorem State.rstStart_none {s : State} (h : s.lnk.rst = none) : s.rstStart = s := by simp only [State.rstStart, h]

theorem exec_rstPacketResetStart (s : State) : exec .rstPacketResetStart s = .next s.rstStart := rfl

/-- Settles O19: an RST refused, one accepted and what it records, and the reset that begins. -/
theorem resetPackets : Obligations.ResetPackets := by
  refine fun s p k => ⟨fun h => ⟨exec_rstPacket_refused h, fun hv hr ha => ⟨_, exec_rstPacket_accepted h hv hr ha, ?_⟩⟩,
    fun reach psel hrst hd => ?_, fun hrst => ?_⟩
  · obtain ⟨hsrc, hreach, hpsel, hvalid⟩ := (s.takeRx p k).rstStart.rstRecorded_flds k
    exact ⟨hsrc, hreach, hpsel, hvalid, State.rstRecorded_only _ _⟩
  · rw [exec_rstPacketResetStart, State.rstStart_some hrst hd]
  · rw [exec_rstPacketResetStart, State.rstStart_none hrst]

end Sys2Proof.Machine

/-! SUPPORT. The link's timers, its start, its resumption and its fresh start (R76-R79), and O14. -/

namespace Sys2Proof.Machine

/-! ### The timers of an ACTIVE port (R76-R78) -/

theorem exec_nakRepeatTimer (s : State) (p : Fin 4) :
    exec (.nakRepeatTimer p) s = .next (if (s.port p).st = .active ∧ (s.port p).nakOut = true then
      (s.modPort p fun t => { t with nakDue := true }).txIdle p else s) := rfl

theorem exec_ackTimer (s : State) (p : Fin 4) :
    exec (.ackTimer p) s = .next (if (s.port p).st = .active ∧ 0 < (s.port p).unacked then s.txIdle p else s) := rfl

theorem exec_initTimer (s : State) (p : Fin 4) :
    exec (.initTimer p) s = .next (if (s.port p).st = .active then s.txFlit p 2 15 (s.port p).seq (s.initPayload p) else s) := rfl

theorem exec_replayTimeout_waits {s : State} {p : Fin 4} (h : (s.port p).st = .active) {g : RFlit} {gs : List RFlit}
    (hr : (s.port p).replay = g :: gs) : exec (.replayTimeout p) s =
      .next (((s.post 0x0212 2 p (g.seq % 4096 + 4096)).startOver p .detect).post 0x0202 2 p 4) :=
  congrArg Host.Outcome.next (by simp only [h, hr]; rfl)

theorem exec_replayTimeout_idle {s : State} {p : Fin 4} (h : (s.port p).st ≠ .active ∨ (s.port p).replay = []) :
    exec (.replayTimeout p) s = .next s := by
  refine congrArg Host.Outcome.next ?_
  dsimp only
  split
  next ha hr => rcases h with h | h <;> simp_all
  next => rfl

/-! ### What leaves, and an event, leave every port's link as far started as it was (R79) -/

theorem State.modPort_initRx (s : State) (p q : Nat) {f : Port → Port} (hf : (f (s.port p)).initRx = (s.port p).initRx) :
    ((s.modPort p f).port q).initRx = (s.port q).initRx := by
  rw [State.port_modPort_eq]
  split
  next h => rw [h.1, hf]
  next => rfl

theorem State.port_of_lnk {s t : State} (h : t.lnk = s.lnk) (q : Nat) : t.port q = s.port q := by simp only [State.port, h]

theorem State.txFlit_initRx (s : State) (p a b c q : Nat) (pl : List Byte) :
    ((s.txFlit p a b c pl).port q).initRx = (s.port q).initRx := by
  unfold State.txFlit
  exact s.modPort_initRx p q rfl

theorem State.txData_initRx (s : State) (p q : Nat) (fs : List (Nat × Nat × List Byte)) :
    ((s.txData p fs).port q).initRx = (s.port q).initRx := by
  induction fs generalizing s with
  | nil => rfl
  | cons f fs ih =>
    obtain ⟨first, npk, pay⟩ := f
    rw [State.txData, ih, State.txFlit_initRx]
    exact s.modPort_initRx p q rfl

theorem Port.drain_initRx (t : Port) (fuel used : Nat) : (t.drain fuel used).2.initRx = t.initRx := by
  induction fuel generalizing t used with
  | zero => rfl
  | succ fuel ih =>
    unfold Port.drain
    split
    · rfl
    · dsimp only
      split
      · rfl
      · exact ih _ _

theorem State.pump_initRx (s : State) (p q : Nat) : ((s.pump p).port q).initRx = (s.port q).initRx := by
  have hdrained := s.modPort_initRx p q (f := fun _ => ((s.port p).drain (s.port p).outq.length 0).2)
    ((s.port p).drain_initRx _ _)
  unfold State.pump
  dsimp only
  split
  · split
    · exact hdrained
    · rw [State.port_of_lnk (State.add64_same _ _ _).2.2.2.2.2.2.2.2.2.1, State.txData_initRx]
      exact hdrained
  · rfl

theorem State.enqueue_initRx (s : State) (p q : Nat) (k : Pkt) (src : Nat) :
    ((s.enqueue p k src).port q).initRx = (s.port q).initRx := by
  rw [State.enqueue, State.pump_initRx]
  exact s.modPort_initRx p q rfl

theorem State.logEvent_lnk (s : State) (c v u d : Nat) : (s.logEvent c v u d).lnk = s.lnk :=
  State.only_part (s.logEvent_only c v u d) .lnk

theorem State.holdEvent_lnk (s : State) (n : Nat) (e : Ev) : (s.holdEvent n e).lnk = s.lnk := ite_keeps State.lnk rfl rfl

theorem State.noteEvent_lnk (s : State) (e : Ev) (n : Nat) : (s.noteEvent e n).lnk = s.lnk :=
  ite_keeps State.lnk rfl (s.holdEvent_lnk n e)

theorem State.postHeld_lnk (s : State) (c v u d : Nat) : (s.postHeld c v u d).lnk = s.lnk := by
  unfold State.postHeld
  exact (foldl_keeps State.lnk (fun s n => s.holdEvent n _) (fun s n => s.holdEvent_lnk n _) _ _).trans (s.logEvent_lnk c v u d)

theorem State.injectMsg_initRx (s : State) (k : Pkt) (q : Nat) : ((s.injectMsg k).port q).initRx = (s.port q).initRx := by
  have hdrop (p c : Nat) : ((s.dropCount p k c State.postHeld).port q).initRx = (s.port q).initRx := by
    refine ite_keeps (fun t : State => (t.port q).initRx) ?_ rfl
    rw [State.port_of_lnk (State.postHeld_lnk _ _ _ _ _)]
    exact State.modPort_initRx _ _ _ rfl
  unfold State.injectMsg
  split
  · split
    · rfl
    · exact s.enqueue_initRx _ _ _ _
    · exact hdrop _ _
  · rfl

theorem State.post_initRx (s : State) (c v u d q : Nat) : ((s.post c v u d).port q).initRx = (s.port q).initRx := by
  unfold State.post
  refine (foldl_keeps (fun t : State => (t.port q).initRx) _ (fun t _ => t.injectMsg_initRx _ q) _ _).trans ?_
  rw [State.port_of_lnk ((foldl_keeps State.lnk _ (fun t n => t.noteEvent_lnk _ n) _ _).trans (s.logEvent_lnk c v u d))]

/-- What an INIT says of the partner does not start the link. -/
theorem State.noteInit_initRx (s : State) (p q : Nat) (f : List Byte) :
    ((s.noteInit p f).port q).initRx = (s.port q).initRx := by
  unfold State.noteInit
  extract_lets ep e cv kind was onRing mis old s1 s2 s3 s4
  have h3 : s.only s3 [] fun _ => True :=
    (((((((s.only_refl _ _).setFld trivial).setFld trivial).setFld trivial).setFld trivial).setFld trivial).setFld trivial).setFld
      trivial
  have h3' : (s3.port q).initRx = (s.port q).initRx := congrArg Port.initRx (State.port_of_lnk (State.only_part h3 .lnk) q)
  have h4 : (s4.port q).initRx = (s3.port q).initRx :=
    ite_keeps (fun t : State => (t.port q).initRx) ((State.post_initRx _ _ _ _ _ q).trans
      (congrArg Port.initRx (State.port_of_lnk (State.only_part (s3.setFld_only _ _) .lnk) q))) rfl
  clear_value s1 s2 s3 s4
  exact ite_keeps (fun t : State => (t.port q).initRx) ((s4.post_initRx _ _ _ _ q).trans (h4.trans h3')) (h4.trans h3')

/-! ### An INIT flit (R79) -/

theorem State.initFlit_starts {s : State} {p : Nat} {f : List Byte} {ok : Bool} (hok : flitOk f ok = true)
    (hty : fieldB f 0 1 % 16 = 2)
    (h : (s.port p).initRx = false ∨ (s.noteInit p f).partnerReset p f = true) :
    s.initFlit p f ok = (s.noteInit p f).startLink p f := by
  have hlater : ((s.port p).initRx && !(s.noteInit p f).partnerReset p f) = false := by rcases h with h | h <;> simp [h]
  simp [State.initFlit, hok, hty, hlater]

theorem State.initFlit_later {s : State} {p : Nat} {f : List Byte} {ok : Bool} (hok : flitOk f ok = true)
    (hty : fieldB f 0 1 % 16 = 2) (hi : (s.port p).initRx = true) (h : (s.noteInit p f).partnerReset p f = false) :
    s.initFlit p f ok = ((s.noteInit p f).noteHeld p f).flitNews p f := by
  simp [State.initFlit, hok, hty, hi, h]

/-- A port takes the partner's credits, and its link has started. -/
def Port.started (f : List Byte) (t : Port) : Port :=
  { t with initRx := true, rstHold := false, txCred := (List.range 6).map fun v => fieldB f (24 + 2 * v) 2 }

theorem State.startLink_first {s : State} {p : Nat} (hi : (s.port p).initRx = false) (f : List Byte) :
    s.startLink p f = ((if s.mayResume p f = true then s.resumeLink p f else s.freshStart p f).modPort p (Port.started f)).pump p := by
  unfold State.startLink
  rw [hi, Bool.not_false, Bool.true_and]
  rfl

theorem State.startLink_again {s : State} {p : Nat} (hi : (s.port p).initRx = true) (f : List Byte) :
    s.startLink p f = ((s.freshStart p f).modPort p (Port.started f)).pump p := by
  unfold State.startLink
  rw [hi, Bool.not_true, Bool.false_and, if_neg Bool.false_ne_true]
  rfl

/-! ### A fresh start (R79) -/

/-- A port's link state afresh: nothing is held for the partner, and SEQ starts from 0. -/
def Port.freshened (f : List Byte) (t : Port) : Port :=
  { t with
    replay := [], seq := 0, rxSeq := 4095, part := [], nakOut := false, nakDue := false, nakRun := 0, unacked := 0
    ret := modAt t.ret t.partSlots.1 (· + t.partSlots.2)
    haveLink := true, heldPartner := fieldB f 12 2 % 16384, heldEpoch := (fieldB f 14 2 + 1) % 65536 }

/-- A fresh start without its event. -/
def State.freshened (s : State) (p : Nat) (f : List Byte) : State :=
  (((s.modPort p (Port.freshened f)).setFld (LTC_PEPOCH_OWN p) ((s.fld (LTC_PEPOCH_OWN p) + 1) % 65536)).setFld
    (LTC_NBR_RESUMED p) 0).incFld (LTC_LOST_DISCARD p) (replayPackets (s.port p).replay)

theorem State.freshStart_eq (s : State) (p : Nat) (f : List Byte) :
    s.freshStart p f = if replayPackets (s.port p).replay = 0 then s.freshened p f
      else (s.freshened p f).post 0x020B 2 p
        (min (replayPackets (s.port p).replay) 65535 + 65536 * ((s.fld (LTC_PEPOCH_OWN p) + 1) % 65536)) := rfl

theorem State.freshened_port {s : State} {p : Nat} (hp : p < s.lnk.ports.length) (f : List Byte) :
    (s.freshened p f).port p = (s.port p).freshened f := by
  have hlnk : (s.freshened p f).lnk = (s.modPort p (Port.freshened f)).lnk := by
    simp only [State.freshened, State.incFld_same, State.setFld_same]
  rw [State.port_of_lnk hlnk, s.port_modPort _ _ _ hp, if_pos rfl]

theorem State.freshened_only (s : State) (p : Nat) (f : List Byte) :
    s.only (s.freshened p f) [.lnk] fun r => r = LTC_PEPOCH p ∨ r = LTC_NBR p ∨ r = LTC_LOST p :=
  (((State.only_refl s _ _).modPort.setFld (f := LTC_PEPOCH_OWN p) (.inl rfl)).setFld (f := LTC_NBR_RESUMED p)
    (.inr (.inl rfl))).setFld (f := LTC_LOST_DISCARD p) (.inr (.inr rfl))

/-- The epoch, RESUMED and the count of packets lost after a fresh start. -/
theorem State.freshened_flds (s : State) (p : Nat) (f : List Byte) :
    (s.freshened p f).fld (LTC_PEPOCH_OWN p) = (s.fld (LTC_PEPOCH_OWN p) + 1) % 65536 ∧
    (s.freshened p f).flag (LTC_NBR_RESUMED p) = false ∧
    (s.freshened p f).fld (LTC_LOST_DISCARD p) =
      satAdd 16 (s.fld (LTC_LOST_DISCARD p)) (replayPackets (s.port p).replay) := by
  have hpn : LTC_PEPOCH p ≠ LTC_NBR p := by simp only [LTC_PEPOCH, LTC_NBR]; omega
  have hpl : LTC_PEPOCH p ≠ LTC_LOST p := by simp only [LTC_PEPOCH, LTC_LOST]; omega
  have hnl : LTC_NBR p ≠ LTC_LOST p := by simp only [LTC_NBR, LTC_LOST]; omega
  unfold State.freshened
  refine ⟨?_, ?_, ?_⟩
  · rw [State.fld_incFld_ne _ _ _ _ hpl, State.fld_setFld_ne _ _ _ _ hpn]
    exact State.fld_setFld_lt _ (Nat.mod_lt _ (by decide))
  · rw [State.flag, State.fld_incFld_ne _ _ _ _ hnl]
    exact State.flag_setFld_b2n _ (f := LTC_NBR_RESUMED p) false
  · rw [State.fld_incFld_self _ _ rfl, State.fld_setFld_ne _ _ _ _ hnl.symm, State.fld_setFld_ne _ _ _ _ hpl.symm]
    rfl

/-- Settles O14: the timers by the port's state, an INIT flit by whether the link has started, and what a fresh start leaves. -/
theorem linkStarts : Obligations.LinkStarts := by
  refine fun s p ls fs f => ⟨fun ha => ⟨fun hn => ?_, fun hn => ?_, fun hu => ?_, fun hu => ?_, ?_,
    fun hr => exec_replayTimeout_idle (.inr hr), fun g gs hr => exec_replayTimeout_waits ha hr⟩,
    fun ha => ⟨?_, ?_, ?_, exec_replayTimeout_idle (.inl ha)⟩, fun ha hok hty => ?flit, fun ha => ?fresh⟩
  iterate 2 rw [exec_nakRepeatTimer]; simp only [ha, hn, and_self, Bool.false_eq_true, and_false, if_true, if_false]
  iterate 2 rw [exec_ackTimer]; simp only [ha, hu, and_self, Nat.lt_irrefl, and_false, if_true, if_false]
  · rw [exec_initTimer, if_pos ha]
  · rw [exec_nakRepeatTimer, if_neg fun h => ha h.1]
  · rw [exec_ackTimer, if_neg fun h => ha h.1]
  · rw [exec_initTimer, if_neg ha]
  case flit =>
    have hp : p.val < s.lnk.ports.length := State.port_exists (by simp [ha])
    have hcount : ((s.countFec p fs).port p).initRx = (s.port p).initRx := by rw [s.countFec_port p fs hp]
    have hnote (w : List Byte) : (((s.countFec p fs).noteInit p w).port p).initRx = (s.port p).initRx :=
      (State.noteInit_initRx _ _ _ _).trans hcount
    rw [exec_initFlitReceived, State.onFlit_active ha]
    refine ⟨fun hi => ?_, fun hi hr => ?_, fun hi hr => ?_⟩
    · rw [State.initFlit_starts hok hty (.inl (hcount.trans hi)), State.startLink_first ((hnote _).trans hi)]
      rfl
    · rw [State.initFlit_starts hok hty (.inr hr), State.startLink_again ((hnote _).trans hi)]
      rfl
    · rw [State.initFlit_later hok hty (hcount.trans hi) hr]
  case fresh =>
    have hport := State.freshened_port (State.port_exists (by simp [ha] : (s.port p).st ≠ .bypassed)) f
    obtain ⟨hown, hres, hlost⟩ := s.freshened_flds p f
    refine ⟨s.freshened p f, s.freshStart_eq p f, ?_, ?_, ?_, ?_, ?_, hown, hres, hlost, s.freshened_only p f⟩ <;>
      rw [hport] <;> rfl

end Sys2Proof.Machine

/-! SUPPORT. Memory requests to this stack (R82-R87, R173, R243): what a RD, a WR and an atomic whose way is idle leave, and O15. -/

namespace Sys2Proof.Machine

/-! ### Bytes of memory -/

/-- A masked string written from an address up: where its mask is set it reads as written, elsewhere as before. -/
theorem mget_mputMask (bs : List Byte) (m : List Host.Cell) (a mask b : Nat) :
    mget (mputMask m a mask bs) b =
      if a ≤ b ∧ b < a + bs.length ∧ mask.testBit (b - a) = true then bs.getD (b - a) 0 else mget m b := by
  induction bs generalizing m a mask with
  | nil => rw [if_neg (by rw [List.length_nil]; omega)]; rfl
  | cons c bs ih =>
    rw [mputMask, ih]
    by_cases hb : b = a
    · subst hb
      by_cases hm : mask % 2 = 1 <;> simp [hm, mget_mset]
    · have hold : mget (if mask % 2 = 1 then mset m a c else m) b = mget m b :=
        ite_keeps (mget · b) (by rw [mget_mset, if_neg hb]) rfl
      rw [hold]
      by_cases hlt : a ≤ b
      · obtain ⟨j, rfl⟩ := Nat.exists_eq_add_of_le (show a + 1 ≤ b by omega)
        have hs : a + 1 + j - a = j + 1 := by omega
        have ht : a + 1 + j - (a + 1) = j := by omega
        have hin : (a + 1 ≤ a + 1 + j ∧ a + 1 + j < a + 1 + bs.length ∧ (mask / 2).testBit j = true) ↔
            (a ≤ a + 1 + j ∧ a + 1 + j < a + (bs.length + 1) ∧ (mask / 2).testBit j = true) :=
          and_congr (by omega) (and_congr (by omega) Iff.rfl)
        simp only [hs, ht, Nat.testBit_succ, List.getD_cons_succ, List.length_cons, hin]
      · rw [if_neg (by omega), if_neg (by omega)]

theorem mread_append (m : List Host.Cell) (a x y : Nat) : mread m a (x + y) = mread m a x ++ mread m (a + x) y := by
  simp only [mread, List.range_add, List.map_append, List.map_map, Function.comp_def, Nat.add_assoc]

@[simp] theorem length_mread (m : List Host.Cell) (a n : Nat) : (mread m a n).length = n := by simp [mread]

/-- The bytes of granules in a row. -/
theorem mread_grans (m : List Host.Cell) (g n : Nat) :
    ((List.range n).map fun i => mread m (64 * (g + i)) 64).flatten = mread m (64 * g) (64 * n) := by
  induction n with
  | zero => rfl
  | succ n ih =>
    rw [List.range_succ, List.map_append, List.flatten_append, ih, Nat.mul_add 64 n 1, mread_append, List.map_singleton,
      List.flatten_singleton, Nat.mul_add 64 g n]

/-- A slice of bytes read is what is read there. -/
theorem sliceB_mread (m : List Host.Cell) (a : Nat) {n off w : Nat} (h : off + w ≤ n) :
    sliceB (mread m a n) off w = mread m (a + off) w := by
  obtain ⟨r, rfl⟩ := Nat.exists_eq_add_of_le h
  rw [Nat.add_assoc, mread_append, mread_append m (a + off) w r]
  exact sliceB_append (length_mread _ _ _) (length_mread _ _ _)

/-! ### A column command's counters, and a read of a plain granule (R303, R317) -/

/-- The registers that count what column commands read and write. -/
def granCounters (r : Nat) : Prop :=
  ∃ c < 32, r = MC_RD_LO c ∨ r = MC_RD_LO c + 4 ∨ r = MC_WR_LO c ∨ r = MC_WR_LO c + 4

/-- A granule counted moves the activity of its channel and its counter (R327). -/
theorem State.countGran_counters (s : State) (w : Bool) (g : Nat) : s.only (s.countGran w g) [.mc] granCounters := by
  unfold State.countGran
  refine State.only_trans (State.only_mono (s.busyBg_only _ _ _) (by simp) fun _ h => h.elim)
    (State.only_mono (State.add64_only _ _ _) (by simp) fun r h => ⟨_, decodeAddr_ch_lt (64 * g), ?_⟩)
  cases w
  · exact h.elim .inl fun h => .inr (.inl h)
  · exact h.elim (fun h => .inr (.inr (.inl h))) fun h => .inr (.inr (.inr h))

theorem State.countGran_dram (s : State) (w : Bool) (g : Nat) : (s.countGran w g).dram = s.dram :=
  State.only_part (s.countGran_counters w g) .dram

theorem State.countGran_intg (s : State) (w : Bool) (g : Nat) : (s.countGran w g).intg = s.intg :=
  State.only_part (s.countGran_counters w g) .intg

/-- Which granules are fenced is a matter of the repairs in force. -/
theorem State.fencedGran_congr {s t : State} (h : t.intg = s.intg) (g : Nat) : t.fencedGran g = s.fencedGran g := by
  have hwords (kind : Nat) : t.words kind = s.words kind := by simp only [State.words, h]
  have hchan (c : Nat) : t.chanFenced c = s.chanFenced c := by simp only [State.chanFenced, hwords]
  have herased (c pc : Nat) : t.erasures c pc = s.erasures c pc := by
    simp only [State.erasures, State.erasedPins, hwords]
  have hrow (l : Loc) : t.rowFenced l = s.rowFenced l := by simp only [State.rowFenced, h]
  unfold State.fencedGran State.pcFenced
  dsimp only
  rw [hchan, herased, hrow]

theorem State.poisoned_congr {s t : State} (h : t.dram = s.dram) (g : Nat) : t.poisoned g = s.poisoned g := by
  simp only [State.poisoned, h]

theorem State.plainGran_congr {s t : State} (hi : t.intg = s.intg) (hd : t.dram = s.dram) (g : Nat) :
    t.plainGran g = s.plainGran g := by
  simp only [State.plainGran, State.fencedGran_congr hi, State.poisoned_congr hd]

theorem State.granData_congr {s t : State} (h : t.dram = s.dram) (g : Nat) : t.granData g = s.granData g := by
  simp only [State.granData, h]

theorem State.plainGran_iff {s : State} {g : Nat} :
    s.plainGran g = true ↔ s.fencedGran g = false ∧ s.poisoned g = false := by simp [State.plainGran]

/-- A read that meets no symbol in error decodes clean. -/
theorem State.decodeSyms_nil (s : State) (l : Loc) : s.decodeSyms l [] = .clean := rfl

/-- A plain granule that meets no error is read as it is, and nothing else happens. -/
theorem State.readGran_plain {s : State} {g : Nat} (h : s.plainGran g = true) (m : Nat) (scrub clean : Bool) :
    s.readGran [] g m scrub clean = (s, .data (s.granData g)) := by
  obtain ⟨hf, hp⟩ := State.plainGran_iff.1 h
  have hobs : obsOf [] g = { granule := g, syms := [], addrErr := false, repeatOk := true } := rfl
  unfold State.readGran
  simp only [hf, hp, hobs, State.decodeSyms_nil, Bool.false_eq_true, false_and, if_false]

/-! ### A RD (R83, R86, R87) -/

/-- A RD of plain granules gives their bytes, and moves the counters alone. -/
theorem State.readGrans_plain (m : Nat) {gs : List Nat} {s : State} (h : ∀ g ∈ gs, s.plainGran g = true) :
    (s.readGrans m [] gs).2 = (gs.map fun g => some (s.granData g), false) ∧
    s.only (s.readGrans m [] gs).1 [.mc] granCounters := by
  induction gs generalizing s with
  | nil => exact ⟨rfl, s.only_refl _ _⟩
  | cons g gs ih =>
    have hplain (x : Nat) : (s.countGran false g).plainGran x = s.plainGran x :=
      State.plainGran_congr (s.countGran_intg _ _) (s.countGran_dram _ _) x
    have hdata (x : Nat) : (s.countGran false g).granData x = s.granData x := State.granData_congr (s.countGran_dram _ _) x
    obtain ⟨hds, hframe⟩ := ih (s := s.countGran false g) fun x hx => (hplain x).trans (h x (List.mem_cons_of_mem _ hx))
    have hread := State.readGran_plain ((hplain g).trans (h g List.mem_cons_self)) m false (s.clean g)
    unfold State.readGrans
    simp only [hread, hds, hdata, List.map_cons]
    exact ⟨trivial, State.only_trans (s.countGran_counters _ _) hframe⟩

theorem State.doRead_plain {s : State} {k : Pkt} (m : Nat) (hk : k.opc = 1) (ha : k.addr.toNat % 64 = 0)
    (h : ∀ i < k.len.toNat + 1, s.plainGran (k.addr.toNat / 64 + i) = true) :
    ∃ u, s.doRead m k [] = (u, some (0, mread s.dram.mem k.addr.toNat (64 * (k.len.toNat + 1)))) ∧
      s.only u [.mc] granCounters := by
  have hgs : pktGranList k = (List.range (k.len.toNat + 1)).map (k.addr.toNat / 64 + ·) := by
    simp [pktGranList, pktGrans, hk]
  obtain ⟨hds, hframe⟩ := State.readGrans_plain m (s := s) (gs := pktGranList k) (by
    rw [hgs]
    simpa using h)
  have hall : ((pktGranList k).map fun g => some (s.granData g)).all Option.isSome = true := by simp
  have hdata : rdData ((pktGranList k).map fun g => some (s.granData g)) =
      mread s.dram.mem k.addr.toNat (64 * (k.len.toNat + 1)) := by
    rw [show k.addr.toNat = 64 * (k.addr.toNat / 64) by omega, ← mread_grans, rdData, hgs]
    simp [Function.comp_def, State.granData]
  refine ⟨_, ?_, hframe⟩
  unfold State.doRead
  simp only [hds, hall, hdata, Bool.false_eq_true, if_false, if_true]

/-! ### A WR (R84, R87) -/

/-- The granule of a WR can be written: its mask enables nothing, or it is not fenced, and not poisoned unless it is written whole. -/
def State.writable (s : State) (g mask : Nat) : Prop :=
  mask = 0 ∨ (s.fencedGran g = false ∧ (mask = fullMask ∨ s.poisoned g = false))

/-- What writing some granules of a WR from granule `q` up has left: the bytes that their masks enable, the poison of those written
whole gone, and the counters. -/
structure State.Written (s u : State) (q : Nat) (k : Pkt) (is : List Nat) : Prop where
  frame : s.only u [.mc, .dram] granCounters
  mem : ∀ b, mget u.dram.mem b =
    if 64 * q ≤ b ∧ (b - 64 * q) / 64 ∈ is ∧ (wrMask k ((b - 64 * q) / 64)).testBit ((b - 64 * q) % 64) = true
    then (wrData k ((b - 64 * q) / 64)).getD ((b - 64 * q) % 64) 0 else mget s.dram.mem b
  poison : ∀ g, u.poisoned g = true → s.poisoned g = true
  cured : ∀ i ∈ is, wrMask k i = fullMask → u.poisoned (q + i) = false

theorem State.Written.nil (s : State) (q : Nat) (k : Pkt) : s.Written s q k [] :=
  ⟨s.only_refl _ _, fun b => by simp, fun _ h => h, fun _ h => by simp at h⟩

theorem State.Written.append {s t u : State} {q : Nat} {k : Pkt} {is js : List Nat} (h : s.Written t q k is)
    (h' : t.Written u q k js) : s.Written u q k (is ++ js) where
  frame := State.only_trans h.frame h'.frame
  mem b := by
    rw [h'.mem, h.mem]
    by_cases hb : 64 * q ≤ b ∧ (wrMask k ((b - 64 * q) / 64)).testBit ((b - 64 * q) % 64) = true
    · by_cases hi : (b - 64 * q) / 64 ∈ is <;> simp [hb, hi]
    · rw [if_neg fun hx => hb ⟨hx.1, hx.2.2⟩, if_neg fun hx => hb ⟨hx.1, hx.2.2⟩, if_neg fun hx => hb ⟨hx.1, hx.2.2⟩]
  poison g hg := h.poison g (h'.poison g hg)
  cured i hi hm := by
    rcases List.mem_append.1 hi with hi | hi
    · exact Bool.eq_false_of_not_eq_true fun hp => Bool.false_ne_true ((h.cured i hi hm).symm.trans (h'.poison _ hp))
    · exact h'.cured i hi hm

/-- The granules that can be written are so still once others are. -/
theorem State.Written.writable {s u : State} {q g mask : Nat} {k : Pkt} {is : List Nat} (h : s.Written u q k is)
    (hw : s.writable g mask) : u.writable g mask := by
  have hi : u.intg = s.intg := State.only_part h.frame .intg
  refine hw.imp_right fun ⟨hf, hp⟩ => ⟨(State.fencedGran_congr hi g).trans hf, hp.imp_right fun hp => ?_⟩
  exact Bool.eq_false_of_not_eq_true fun hu => Bool.false_ne_true (hp.symm.trans (h.poison g hu))

/-- One granule written, from what its memory and its poison have become. -/
theorem State.Written.one {s u : State} {q i : Nat} {k : Pkt} (frame : s.only u [.mc, .dram] granCounters)
    (mem : ∀ b, mget u.dram.mem b =
      if 64 * (q + i) ≤ b ∧ b < 64 * (q + i) + 64 ∧ (wrMask k i).testBit (b - 64 * (q + i)) = true
      then (wrData k i).getD (b - 64 * (q + i)) 0 else mget s.dram.mem b)
    (poison : ∀ g, u.poisoned g = (s.poisoned g && !(wrMask k i == fullMask && g == q + i))) : s.Written u q k [i] where
  frame := frame
  mem b := by
    rw [mem]
    by_cases hb : 64 * (q + i) ≤ b ∧ b < 64 * (q + i) + 64
    · obtain ⟨j, rfl⟩ := Nat.exists_eq_add_of_le hb.1
      have hi : (64 * (q + i) + j - 64 * q) / 64 = i := by omega
      have hj : (64 * (q + i) + j - 64 * q) % 64 = j := by omega
      have hj' : 64 * (q + i) + j - 64 * (q + i) = j := by omega
      have hq : 64 * q ≤ 64 * (q + i) + j := by omega
      simp only [hi, hj, hj', hq, hb.1, hb.2, List.mem_singleton, true_and]
    · rw [if_neg fun h => hb ⟨h.1, h.2.1⟩, if_neg]
      rintro ⟨hq, hi, -⟩
      have := List.mem_singleton.1 hi
      omega
  poison g hg := by
    rw [poison, Bool.and_eq_true] at hg
    exact hg.1
  cured j hj hm := by
    rw [List.mem_singleton.1 hj] at hm ⊢
    simp [poison, hm]

theorem State.setDram_only (s : State) (d : Dram) : s.only { s with dram := d } [.dram] fun _ => False := by
  refine ⟨fun p => ?_, fun _ => .inr rfl⟩
  cases p
  case dram => exact .inl (by simp)
  all_goals exact .inr rfl

theorem State.putGran_only (s : State) (g : Nat) (bs : List Byte) : s.only (s.putGran g bs) [.dram] fun _ => False :=
  s.setDram_only _

theorem State.putMasked_only (s : State) (g mask : Nat) (bs : List Byte) :
    s.only (s.putMasked g mask bs) [.dram] fun _ => False := s.setDram_only _

theorem length_wrData (k : Pkt) (i : Nat) : (wrData k i).length = 64 := length_sliceB _ _ _

theorem fullMask_testBit (j : Nat) : fullMask.testBit j = decide (j < 64) := Nat.testBit_two_pow_sub_one 64 j

/-- A number taken out of a rising list. -/
theorem contains_sdel (l : List Nat) (k g : Nat) : (sdel l k).contains g = (l.contains g && !(g == k)) := by
  rw [Bool.eq_iff_iff]
  simp [sdel]

/-- A granule of a WR that can be written is written (R84, R87). -/
theorem State.writeGran_written {s : State} {q i : Nat} {k : Pkt} (h : s.writable (q + i) (wrMask k i)) (m : Nat) (d : Bool) :
    (s.writeGran m [] d (q + i) (wrMask k i) (wrData k i)).2 = (true, false) ∧
    s.Written (s.writeGran m [] d (q + i) (wrMask k i) (wrData k i)).1 q k [i] := by
  have counted (t : State) (w : Bool) : t.only (t.countGran w (q + i)) [.mc, .dram] granCounters :=
    State.only_mono (t.countGran_counters w _) (by simp) fun _ h => h
  have hdata : sliceB (wrData k i) 0 64 = wrData k i := sliceB_self (length_wrData k i)
  unfold State.writeGran
  by_cases h0 : wrMask k i = 0
  · rw [if_pos h0]
    refine ⟨rfl, .one (s.only_refl _ _) (fun b => ?_) fun g => ?_⟩
    · rw [if_neg]
      simp [h0]
    · simp [h0, fullMask]
  obtain ⟨hf, hp⟩ := h.resolve_left h0
  rw [if_neg h0, hf, if_neg Bool.false_ne_true]
  by_cases hm : wrMask k i = fullMask
  · rw [if_pos hm]
    refine ⟨rfl, .one ((State.only_mono (s.putGran_only _ _) (by simp) fun _ h => h.elim).andThen (counted _ true) (by simp)
      fun _ h => h) (fun b => ?_) fun g => ?_⟩
    · rw [State.countGran_dram, State.putGran, mget_mput, hdata, length_wrData, hm, fullMask_testBit]
      refine if_congr ?_ rfl rfl
      simp only [decide_eq_true_eq]
      omega
    · rw [State.poisoned_congr (State.countGran_dram _ _ _), hm, State.poisoned, State.putGran, contains_sdel, beq_self_eq_true,
        Bool.true_and]
      rfl
  · rw [if_neg hm]
    have hplain : (s.countGran false (q + i)).plainGran (q + i) = true :=
      (State.plainGran_congr (s.countGran_intg _ _) (s.countGran_dram _ _) _).trans
        (State.plainGran_iff.2 ⟨hf, hp.resolve_left hm⟩)
    simp only [State.readGran_plain hplain]
    refine ⟨trivial, .one (((counted s false).andThen (State.putMasked_only _ _ _ _) (by simp) fun _ h => h.elim).andThen
      (counted _ true) (by simp) fun _ h => h) (fun b => ?_) fun g => ?_⟩
    · rw [State.countGran_dram, State.putMasked, State.countGran_dram, mget_mputMask, hdata, length_wrData]
    · rw [State.poisoned_congr (State.countGran_dram _ _ _), State.poisoned, State.putMasked, State.countGran_dram]
      simp [hm, State.poisoned]

theorem State.writeGrans_written {q : Nat} {k : Pkt} (m : Nat) (d : Bool) {is : List Nat} {s : State}
    (h : ∀ i ∈ is, s.writable (q + i) (wrMask k i)) :
    (s.writeGrans m k [] d (is.map fun i => (i, q + i))).2 = (true, false) ∧
    s.Written (s.writeGrans m k [] d (is.map fun i => (i, q + i))).1 q k is := by
  induction is generalizing s with
  | nil => exact ⟨rfl, .nil s q k⟩
  | cons i is ih =>
    obtain ⟨hres, hone⟩ := State.writeGran_written (h i List.mem_cons_self) m d
    obtain ⟨hrest, hmore⟩ := ih fun j hj => hone.writable (h j (List.mem_cons_of_mem _ hj))
    rw [List.map_cons, State.writeGrans]
    refine ⟨?_, hone.append hmore⟩
    simp only [hres, hrest, Bool.and_self, Bool.or_self]

/-- A WR whose granules can all be written writes them, and answers OK (R84, R87). -/
theorem State.doWrite_written {s : State} {k : Pkt} (m : Nat) (d : Bool) (hk : k.opc = 2)
    (h : ∀ i < k.len.toNat + 1, s.writable (k.addr.toNat / 64 + i) (wrMask k i)) :
    ∃ u, s.doWrite m k [] d = (u, some (0, [])) ∧
      s.Written u (k.addr.toNat / 64) k (List.range (k.len.toNat + 1)) := by
  have hgs : (pktGranList k).zipIdx.map (fun x => (x.2, x.1)) =
      (List.range (k.len.toNat + 1)).map fun i => (i, k.addr.toNat / 64 + i) := by
    refine List.ext_getElem (by simp [pktGranList, pktGrans, hk]) fun i hi _ => ?_
    simp [pktGranList]
  obtain ⟨hres, hwritten⟩ := State.writeGrans_written (q := k.addr.toNat / 64) (is := List.range (k.len.toNat + 1)) m d
    fun i hi => h i (List.mem_range.1 hi)
  refine ⟨_, ?_, hwritten⟩
  unfold State.doWrite
  rw [hgs]
  simp only [hres, Bool.false_eq_true, if_false, if_true]

/-! ### An atomic (R85, R87) -/

/-- The bytes of an operand within its granule. -/
theorem operandMask_testBit (n off j : Nat) : ((2 ^ n - 1) * 2 ^ off).testBit j = (decide (off ≤ j) && decide (j - off < n)) := by
  rw [Nat.testBit_mul_two_pow, Nat.testBit_two_pow_sub_one]

/-- A string of zeros with a word put in holds the word there. -/
theorem getD_putB {off : Nat} {word : List Byte} (h : off + word.length ≤ 64) {j : Nat} (hj : j < word.length) :
    (sliceB (putB (List.replicate 64 0) off word) 0 64).getD (off + j) 0 = word.getD j 0 := by
  have hlow : ((padB off (List.replicate 64 (0 : Byte))).take off).length = off := by
    rw [List.length_take, padB, List.length_append, List.length_replicate, List.length_replicate]
    omega
  have hbyte : byteB (putB (List.replicate 64 0) off word) (off + j) = word.getD j 0 := by
    simp only [byteB, putB, List.append_assoc, List.getD_eq_getElem?_getD]
    rw [List.getElem?_append_right (by omega), List.getElem?_append_left (by omega), hlow, Nat.add_sub_cancel_left]
  have hin : off + j < 64 := by omega
  rw [sliceB_eq_map, ← hbyte]
  simp [hin]

/-- A word written into a granule is read where it was put, and every other byte is as before. -/
theorem State.mget_putWord (s : State) (g : Nat) {off : Nat} {word : List Byte} (h : off + word.length ≤ 64) (b : Nat) :
    mget (s.putMasked g ((2 ^ word.length - 1) * 2 ^ off) (putB (List.replicate 64 0) off word)).dram.mem b =
      if 64 * g + off ≤ b ∧ b < 64 * g + off + word.length then word.getD (b - (64 * g + off)) 0 else mget s.dram.mem b := by
  rw [State.putMasked, mget_mputMask, length_sliceB, operandMask_testBit]
  by_cases hb : 64 * g + off ≤ b ∧ b < 64 * g + off + word.length
  · obtain ⟨j, rfl⟩ := Nat.exists_eq_add_of_le hb.1
    have hj : 64 * g + off + j - 64 * g = off + j := by omega
    rw [if_pos hb, hj, if_pos ⟨by omega, by omega, by simp; omega⟩, getD_putB h (by omega), Nat.add_sub_cancel_left]
  · rw [if_neg hb, if_neg]
    rintro ⟨h1, h2, h3⟩
    simp only [Bool.and_eq_true, decide_eq_true_eq] at h3
    omega

/-- An atomic on a plain granule answers the operand's old value and writes the new one (R85, R87). -/
theorem State.doAtomic_plain {s : State} {k : Pkt} (m : Nat) (d : Bool) {w old : Nat} (hw : atomicSize k.opc.toNat = w)
    (hold : leNat (mread s.dram.mem k.addr.toNat w) = old) (hfit : k.addr.toNat % 64 + w ≤ 64)
    (h : s.plainGran (k.addr.toNat / 64) = true) :
    ∃ u, s.doAtomic m k [] d = (u, some (0, padB 16 (leBytes w old))) ∧ s.only u [.mc, .dram] granCounters ∧
      ∀ b, mget u.dram.mem b = if k.addr.toNat ≤ b ∧ b < k.addr.toNat + w then
        (leBytes w (atomicNew k.opc.toNat old k.payload)).getD (b - k.addr.toNat) 0 else mget s.dram.mem b := by
  have hplain : (s.countGran false (k.addr.toNat / 64)).plainGran (k.addr.toNat / 64) = true :=
    (State.plainGran_congr (s.countGran_intg _ _) (s.countGran_dram _ _) _).trans h
  have hread : fieldB ((s.countGran false (k.addr.toNat / 64)).granData (k.addr.toNat / 64)) (k.addr.toNat % 64) w = old := by
    rw [State.granData_congr (s.countGran_dram _ _), fieldB, State.granData, sliceB_mread _ _ hfit, Nat.div_add_mod, hold]
  have hf := (State.plainGran_iff.1 hplain).1
  have hword : (leBytes w (atomicNew k.opc.toNat old k.payload)).length = w := length_leBytes _ _
  have counted (t : State) (c : Bool) : t.only (t.countGran c (k.addr.toNat / 64)) [.mc, .dram] granCounters :=
    State.only_mono (t.countGran_counters c _) (by simp) fun _ h => h
  have hmem := (s.countGran false (k.addr.toNat / 64)).mget_putWord (k.addr.toNat / 64) (off := k.addr.toNat % 64)
    (word := leBytes w (atomicNew k.opc.toNat old k.payload)) (by rw [hword]; exact hfit)
  rw [hword, Nat.div_add_mod, s.countGran_dram] at hmem
  have hput := (counted s false).andThen (State.putMasked_only _ (k.addr.toNat / 64)
    ((2 ^ w - 1) * 2 ^ (k.addr.toNat % 64)) (putB (List.replicate 64 0) (k.addr.toNat % 64)
    (leBytes w (atomicNew k.opc.toNat old k.payload)))) (by simp) fun _ h => h.elim
  unfold State.doAtomic
  simp only [State.readGran_plain hplain, hf, Bool.false_eq_true, if_false, hw]
  rw [hread]
  refine ⟨_, rfl, ite_has (s.only · _ _) hput (hput.andThen (counted _ true) (by simp) fun _ h => h), fun b => ?_⟩
  rw [← hmem b]
  exact ite_keeps (fun t : State => mget t.dram.mem b) rfl (by rw [State.countGran_dram])

/-! ### A memory request at its port (R82, R83, R103, R173) -/

/-- The packet's place in the receive buffer has no part in its way through mortar. -/
theorem State.clearWay_takeRx (s : State) (p q : Nat) (k j : Pkt) : (s.takeRx p k).clearWay q j = s.clearWay q j := by
  unfold State.takeRx
  split <;> rfl

theorem State.takeRx_only (s : State) (p : Nat) (k : Pkt) : s.only (s.takeRx p k) [.lnk] fun _ => False := by
  unfold State.takeRx
  split
  · exact s.modPort_only _ _
  · exact s.only_refl _ _

theorem exec_memReq {c : Fin 4 → Pkt → List CellObs → Instr} (h : c = .rd ∨ c = .wr ∨ c = .fadd ∨ c = .cas64 ∨ c = .cas128)
    (s : State) (p : Fin 4) (k : Pkt) (obs : List CellObs) : exec (c p k obs) s = .next (s.memReq p k obs) := by
  rcases h with rfl | rfl | rfl | rfl | rfl <;> rfl

theorem State.memReq_unreached {s : State} {p : Nat} {k : Pkt} (obs : List CellObs) (h : s.packetsReach p = false) :
    s.memReq p k obs = s := if_pos h

/-- What comes of a memory request for this stack. -/
theorem State.memReq_forMe {s : State} {p : Nat} {k : Pkt} (obs : List CellObs) (h : s.forMe p k = true) :
    s.memReq p k obs =
      if reqBad k then (s.takeRx p k).answer p k 4 0 []
      else if s.dev = .bringup then (s.takeRx p k).answer p k 5 0 []
      else if s.dev = .recovery then (s.takeRx p k).answer p k 4 0 []
      else if s.mustPark p k || (s.port p).rstHold then s.park p k
      else (s.takeRx p k).admitReq p k obs := by
  obtain ⟨hp, hn, hc, hd⟩ := State.forMe_iff.1 h
  unfold State.memReq
  simp only [hp, hn, hc, hd, hopsOn_of_not_nbr hn, s.packetsReach_not_saving hp, Bool.true_eq_false, Bool.false_eq_true, ne_eq,
    not_true_eq_false, or_false, if_false]

theorem State.inService_dev {s : State} (h : s.inService = true) : s.dev ≠ .bringup ∧ s.dev ≠ .recovery := by
  unfold State.inService at h
  constructor <;> intro hd <;> simp [hd] at h

theorem State.admitted_iff {s : State} {p : Nat} {k : Pkt} : s.admitted p k = true ↔
    s.forMe p k = true ∧ s.inService = true ∧ reqBad k = false ∧ s.mustPark p k = false ∧ (s.port p).rstHold = false := by
  simp [State.admitted, and_assoc]

theorem State.memReq_admitted {s : State} {p : Nat} {k : Pkt} (obs : List CellObs) (h : s.admitted p k = true) :
    s.memReq p k obs = (s.takeRx p k).admitReq p k obs := by
  obtain ⟨hme, hin, hbad, hpark, hhold⟩ := State.admitted_iff.1 h
  obtain ⟨hb, hr⟩ := State.inService_dev hin
  simp [State.memReq_forMe obs hme, hbad, hb, hr, hpark, hhold]

/-- A granted write marks its page dirty and changes nothing else (R243). -/
theorem State.admitWrite_keep (s : State) (k : Pkt) : (s.admitWrite k).1.keep =
    { s.keep with dirty := if canWrite k = true then radd s.keep.dirty (pageOf k.addr.toNat) else s.keep.dirty } := by
  unfold State.admitWrite
  split <;> rfl

theorem State.admitWrite_only (s : State) (k : Pkt) : s.only (s.admitWrite k).1 [.keep] fun _ => False :=
  ite_has (s.only · _ _) (s.modKeep_only _) (s.only_refl _ _)

theorem State.admitWrite_reads {s : State} {k : Pkt} (h : k.opc = 1) : (s.admitWrite k).1 = s :=
  if_neg (by simp [canWrite, h])

/-- A memory request that is admitted, and whose way is not idle, is issued into mortar (R169). -/
theorem State.admitReq_issued {s : State} {p : Nat} {k : Pkt} (obs : List CellObs) (h : s.clearWay p k = false) :
    s.admitReq p k obs = (s.admitWrite k).1.issue p k (s.admitWrite k).2 := if_neg (by simp [h])

/-- One whose way is idle is performed at once, and answered. -/
theorem State.admitReq_performed {s u : State} {p : Nat} {k : Pkt} {obs : List CellObs} {st : Nat} {data : List Byte}
    (h : s.clearWay p k = true) (hu : (s.admitWrite k).1.doReq p k obs (s.admitWrite k).2 = (u, some (st, data))) :
    s.admitReq p k obs = (u.passes p k).answer p k st 0 data := by
  unfold State.admitReq
  simp only [h, hu, if_true]

/-! ### A request that is performed at once (R83-R87, R243) -/

/-- The state in which an admitted request meets memory. -/
def State.met (s : State) (p : Nat) (k : Pkt) : State := ((s.takeRx p k).admitWrite k).1

theorem State.met_only (s : State) (p : Nat) (k : Pkt) : s.only (s.met p k) [.lnk, .keep] fun _ => False :=
  (State.only_mono (s.takeRx_only p k) (by simp) fun _ h => h).andThen (State.admitWrite_only _ k) (by simp) fun _ h => h

theorem State.met_dram (s : State) (p : Nat) (k : Pkt) : (s.met p k).dram = s.dram := State.only_part (s.met_only p k) .dram

theorem State.met_intg (s : State) (p : Nat) (k : Pkt) : (s.met p k).intg = s.intg := State.only_part (s.met_only p k) .intg

theorem State.met_keep (s : State) (p : Nat) (k : Pkt) : (s.met p k).keep =
    { s.keep with dirty := if canWrite k = true then radd s.keep.dirty (pageOf k.addr.toNat) else s.keep.dirty } := by
  rw [State.met, State.admitWrite_keep]
  simp

theorem State.performs_iff {s : State} {p : Nat} {k : Pkt} :
    s.performs p k = true ↔ s.admitted p k = true ∧ s.clearWay p k = true := by simp [State.performs]

/-- What a performed request leaves, from what performing it gives. -/
theorem exec_performed {c : Fin 4 → Pkt → List CellObs → Instr} (hc : c = .rd ∨ c = .wr ∨ c = .fadd ∨ c = .cas64 ∨ c = .cas128)
    {s u : State} {p : Fin 4} {k : Pkt} {st : Nat} {data : List Byte} (h : s.performs p k = true)
    (hu : (s.met p k).doReq p k [] ((s.takeRx p k).admitWrite k).2 = (u, some (st, data))) :
    exec (c p k []) s = .next ((u.passes p k).answer p k st 0 data) := by
  obtain ⟨hadm, hway⟩ := State.performs_iff.1 h
  rw [exec_memReq hc, State.memReq_admitted [] hadm, State.admitReq_performed ((s.clearWay_takeRx p p k k).trans hway) hu]

/-- A RD or a WR that passes the checks of R83 starts at a granule. -/
theorem aligned_of_reqBad {k : Pkt} (h : reqBad k = false) (hk : k.opc = 1 ∨ k.opc = 2) : k.addr.toNat % 64 = 0 := by
  have hopc : k.opc.toNat = 1 ∨ k.opc.toNat = 2 := hk.imp (fun h => by simp [h]) fun h => by simp [h]
  simp only [reqBad, hopc, if_true, Bool.or_eq_false_iff, bne_eq_false_iff_eq] at h
  exact h.1.1.1.2

/-- An atomic that passes them lies at a multiple of its operand's size. -/
theorem operand_aligned_of_reqBad {k : Pkt} (h : reqBad k = false) (hk : k.opc.toNat = 3 ∨ k.opc.toNat = 4 ∨ k.opc.toNat = 5) :
    k.addr.toNat % atomicSize k.opc.toNat = 0 := by
  unfold reqBad at h
  rcases hk with hk | hk | hk <;> simp_all [atomicSize]

theorem performs_reqBad {s : State} {p : Nat} {k : Pkt} (h : s.performs p k = true) : reqBad k = false :=
  (State.admitted_iff.1 (State.performs_iff.1 h).1).2.2.1

theorem exec_rd_performed {s : State} {p : Fin 4} {k : Pkt} (h : s.performs p k = true) (hk : k.opc = 1)
    (hplain : ∀ i < k.len.toNat + 1, s.plainGran (k.addr.toNat / 64 + i) = true) :
    ∃ u, exec (.rd p k []) s =
        .next ((u.passes p k).answer p k 0 0 (mread s.dram.mem k.addr.toNat (64 * (k.len.toNat + 1)))) ∧
      s.only u [.lnk, .mc] granCounters := by
  have hal := aligned_of_reqBad (performs_reqBad h) (.inl hk)
  have hmet : s.only (s.met p k) [.lnk, .mc] granCounters := by
    rw [State.met, State.admitWrite_reads hk]
    exact State.only_mono (s.takeRx_only p k) (by simp) fun _ h => h.elim
  obtain ⟨u, hu, hframe⟩ := State.doRead_plain (s := s.met p k) p hk hal fun i hi =>
    (State.plainGran_congr (s.met_intg p k) (s.met_dram p k) _).trans (hplain i hi)
  rw [s.met_dram] at hu
  exact ⟨u, exec_performed (.inl rfl) h (by rw [State.doReq, if_pos (by simp [hk]), hu]), hmet.andThen hframe (by simp) fun _ h => h⟩

theorem exec_wr_performed {s : State} {p : Fin 4} {k : Pkt} (h : s.performs p k = true) (hk : k.opc = 2)
    (hw : ∀ i < k.len.toNat + 1, s.writable (k.addr.toNat / 64 + i) (wrMask k i)) :
    ∃ u, exec (.wr p k []) s = .next ((u.passes p k).answer p k 0 0 []) ∧
      (∀ b, mget u.dram.mem b =
        if k.addr.toNat ≤ b ∧ b < k.addr.toNat + 64 * (k.len.toNat + 1) ∧
          (wrMask k ((b - k.addr.toNat) / 64)).testBit ((b - k.addr.toNat) % 64) = true
        then (wrData k ((b - k.addr.toNat) / 64)).getD ((b - k.addr.toNat) % 64) 0 else mget s.dram.mem b) ∧
      (∀ i < k.len.toNat + 1, wrMask k i = fullMask → u.poisoned (k.addr.toNat / 64 + i) = false) ∧
      u.keep = (s.met p k).keep ∧ s.only u [.lnk, .mc, .dram, .keep] granCounters := by
  have hal := aligned_of_reqBad (performs_reqBad h) (.inr hk)
  have hgran : 64 * (k.addr.toNat / 64) = k.addr.toNat := by omega
  obtain ⟨u, hu, hwritten⟩ := State.doWrite_written (s := s.met p k) p ((s.takeRx p k).admitWrite k).2 hk fun i hi =>
    (hw i hi).imp_right fun hx => by
      rwa [State.fencedGran_congr (s.met_intg p k), State.poisoned_congr (s.met_dram p k)]
  refine ⟨u, exec_performed (.inr (.inl rfl)) h ?_, fun b => ?_, fun i hi => hwritten.cured i (List.mem_range.2 hi),
    State.only_part hwritten.frame .keep, ?_⟩
  · rw [State.doReq, if_neg (by simp [hk]), if_pos (by simp [hk]), hu]
  · rw [hwritten.mem, hgran, s.met_dram]
    refine if_congr (and_congr_right fun _ => and_congr_left' (List.mem_range.trans ?_)) rfl rfl
    omega
  · exact (State.only_mono (s.met_only p k) (by simp) fun _ h => h.elim).andThen hwritten.frame (by simp) fun _ h => h

theorem exec_atomic_performed {c : Fin 4 → Pkt → List CellObs → Instr} {s : State} {p : Fin 4} {k : Pkt} {w old : Nat}
    (hc : (c = .fadd ∧ k.opc = 3) ∨ (c = .cas64 ∧ k.opc = 4) ∨ (c = .cas128 ∧ k.opc = 5)) (h : s.performs p k = true)
    (hplain : s.plainGran (k.addr.toNat / 64) = true) (hw : atomicSize k.opc.toNat = w)
    (hold : leNat (mread s.dram.mem k.addr.toNat w) = old) :
    ∃ u, exec (c p k []) s = .next ((u.passes p k).answer p k 0 0 (padB 16 (leBytes w old))) ∧
      (∀ b, mget u.dram.mem b = if k.addr.toNat ≤ b ∧ b < k.addr.toNat + w then
        (leBytes w (atomicNew k.opc.toNat old k.payload)).getD (b - k.addr.toNat) 0 else mget s.dram.mem b) ∧
      u.keep = { s.keep with dirty := radd s.keep.dirty (pageOf k.addr.toNat) } ∧
      s.only u [.lnk, .mc, .dram, .keep] granCounters := by
  have hopc : k.opc.toNat = 3 ∨ k.opc.toNat = 4 ∨ k.opc.toNat = 5 := by
    rcases hc with ⟨-, hk⟩ | ⟨-, hk⟩ | ⟨-, hk⟩ <;> simp [hk]
  have hinstr : c = .rd ∨ c = .wr ∨ c = .fadd ∨ c = .cas64 ∨ c = .cas128 :=
    .inr (.inr (hc.imp And.left (Or.imp And.left And.left)))
  have hcan : canWrite k = true := by
    rcases hopc with hk | hk | hk <;> simp [canWrite, hk]
  have hal := operand_aligned_of_reqBad (performs_reqBad h) hopc
  rw [hw] at hal
  have hsize : w = 8 ∨ w = 16 := by rw [← hw, atomicSize]; split <;> simp
  obtain ⟨u, hu, hframe, hmem⟩ := State.doAtomic_plain (s := s.met p k) p ((s.takeRx p k).admitWrite k).2 hw
    (by rw [s.met_dram, hold]) (by rcases hsize with rfl | rfl <;> omega)
    ((State.plainGran_congr (s.met_intg p k) (s.met_dram p k) _).trans hplain)
  rw [s.met_dram] at hmem
  refine ⟨u, exec_performed hinstr h ?_, hmem, ?_, ?_⟩
  · rw [State.doReq, if_neg (by omega), if_neg (by omega), hu]
  · rw [State.only_part hframe .keep, s.met_keep, if_pos hcan]
  · exact (State.only_mono (s.met_only p k) (by simp) fun _ h => h.elim).andThen hframe (by simp) fun _ h => h

/-- What the way through mortar moves beside the channels' registers is the master's byte counter (R181). -/
theorem State.passes_counters (s : State) (p : Nat) (k : Pkt) (hp : p < 8) :
    s.only (s.passes p k) (.mtr :: .mc :: wires) fun r => rowRegs r ∨ r = MTR_BYTES_LO p ∨ r = MTR_BYTES_LO p + 4 := by
  have units := State.only_foldl (ps := .mtr :: .mc :: wires) (rs := rowRegs)
    (fun s (u : Nat × Nat) => s.unitPasses p (k.opc.toNat != 1) u.1 u.2) (unitsOf (k.addr.toNat / 64) (pktGrans k)) s
    fun s u _ => s.unitPasses_only p _ u.1 u.2 hp
  exact (State.only_mono units (fun _ h => h) fun _ => .inl).andThen (State.moved_only _ _ _) (by simp) fun _ => .inr

/-- Settles O15: a request that comes is decided by its checks and its port's causes, and one that is performed runs on granules
that decode clean, so its reads, its writes and its atomic say what they did to every byte. -/
theorem memoryRequests : Obligations.MemoryRequests := by
  unfold Obligations.MemoryRequests
  refine ⟨fun s p k obs c hc => ?_, fun s p k h => ⟨fun hk hplain => exec_rd_performed h hk hplain, fun hk hw => ?_,
    fun c hc hplain => exec_atomic_performed hc h hplain rfl rfl⟩, fun s p k => ?_⟩
  · simp only [exec_memReq hc]
    refine ⟨fun hp => congrArg _ (State.memReq_unreached obs hp), fun hme => ?_, fun hadm hway => ?_⟩
    · rw [State.memReq_forMe obs hme]
      refine ⟨fun hb => ?_, fun hb hd => ?_, fun hb hd => ?_, fun hin hb hpark => ?_⟩
      · rw [if_pos hb]
      · simp [hb, hd]
      · simp [hb, hd]
      · obtain ⟨hd1, hd2⟩ := State.inService_dev hin
        simp [hb, hd1, hd2, hpark]
    · rw [State.memReq_admitted obs hadm, State.admitReq_issued obs ((s.clearWay_takeRx p p k k).trans hway)]
  · rw [← s.met_keep p k]
    exact exec_wr_performed h hk hw
  · exact State.only_mono (s.passes_counters p k (by omega)) (by simp [wires]) fun r h => by
      simpa [rowRegs, inLtc, or_assoc] using h

end Sys2Proof.Machine

/-! SUPPORT. The work queues' registers: doorbells by whom they come from, and a queue that is enabled or disabled (R110, R111,
R134, R135, R139). -/

namespace Sys2Proof.Machine

/-! ### The registers and the queue that an access meets -/

theorem WQ_CFG_block (q : Fin 64) : WQ_CFG q / 0x100000 ≠ 7 := by simp only [WQ_CFG]; omega

theorem WQ_SQDB_block (q : Fin 64) : WQ_SQDB q / 0x100000 ≠ 7 := by simp only [WQ_SQDB]; omega

theorem WQ_CQDB_block (q : Fin 64) : WQ_CQDB q / 0x100000 ≠ 7 := by simp only [WQ_CQDB]; omega

section
variable (s : State) (a : Access) (o : Nat) (q : Fin 64)

theorem State.arrived_queue (p : Nat) : (s.arrived a o).queue p = s.queue p := by
  have h : (s.arrived a o).wq = s.wq := State.only_part (s.arrived_only a o) .wq
  simp only [State.queue, h]

theorem State.arrived_fld {f : Fld} (h : f.addr / 0x100000 ≠ 7) : (s.arrived a o).fld f = s.fld f :=
  State.fld_congr (s.arrived_reg a o h)

theorem State.arrived_free : (s.arrived a o).free = s.free := by
  have h : (s.arrived a o).fresh = s.fresh := State.only_part (s.arrived_only a o) .fresh
  simp only [State.free, h]

theorem State.arrived_qHost : (s.arrived a o).qHost q = s.qHost q := s.arrived_fld a o (WQ_CFG_block q)

theorem State.arrived_enabled : (s.arrived a o).flag (WQ_CFG_EN q) = s.flag (WQ_CFG_EN q) :=
  State.flag_congr (s.arrived_reg a o (WQ_CFG_block q))

theorem State.arrived_sqLen : (s.arrived a o).sqLen q = s.sqLen q :=
  congrArg ringLen (s.arrived_fld a o (f := WQ_CFG_SQLOG q) (WQ_CFG_block q))

theorem State.arrived_cqLen : (s.arrived a o).cqLen q = s.cqLen q :=
  congrArg ringLen (s.arrived_fld a o (f := WQ_CFG_CQLOG q) (WQ_CFG_block q))

theorem State.arrived_tailOk (v : Nat) : (s.arrived a o).tailOk q v = s.tailOk q v := by
  simp only [State.tailOk, State.arrived_sqLen, State.arrived_queue,
    s.arrived_fld a o (f := WQ_SQDB_TAIL q) (WQ_SQDB_block q)]

theorem State.arrived_headOk (v : Nat) : (s.arrived a o).headOk q v = s.headOk q v := by
  simp only [State.headOk, State.arrived_cqLen, State.arrived_queue,
    s.arrived_fld a o (f := WQ_CQDB_HEAD q) (WQ_CQDB_block q)]

end

/-- A queue that a list of queues holds is the one that its number reads. -/
theorem State.queue_of_getElem? {s : State} {q : Nat} {t : Queue} (h : s.wq.queues[q]? = some t) :
    s.queue q = t ∧ q < s.wq.queues.length :=
  ⟨by simp [State.queue, List.getD_eq_getElem?_getD, h], (List.getElem?_eq_some_iff.1 h).1⟩

theorem ringLen_pos (n : Nat) : 0 < ringLen n := by unfold ringLen; positivity

/-- A ring has at most 2^16 entries (R139): an index within it fits its doorbell's field. -/
theorem ringLen_le (n : Nat) : ringLen n ≤ 2 ^ 16 := Nat.pow_le_pow_right (by decide) (by omega)

/-! ### Doorbells -/

/-- An access is a write of its queue's HOST over a port (R135). -/
def State.fromHost (s : State) (a : Access) (q : Nat) : Prop :=
  ∃ p, a.path = .port p ∧ a.hop = none ∧ a.requester.toNat = s.qHost q

section
variable {s : State} {a : Access} {q : Nat}

theorem State.fromHost_arrived (o : Nat) (q : Fin 64) : (s.arrived a o).fromHost a q ↔ s.fromHost a q := by
  simp only [State.fromHost, State.arrived_qHost]

/-- What a doorbell does, by whom it comes from and whether the queue is enabled. -/
theorem State.doorbell_ignored (h : ¬s.fromHost a q) (f : Fld) (n v : Nat) (ok : Bool) :
    s.doorbell a q f n v ok = s.incFld (WQ_PROG_IGNDB q) 1 := by
  unfold State.doorbell
  cases hp : a.path with
  | port p =>
    refine if_pos (Bool.eq_false_iff.2 fun hb => h ⟨p, hp, ?_⟩)
    simpa using hb
  | sideband => rfl
  | keystone => rfl

theorem State.doorbell_disabled (h : s.fromHost a q) (he : s.flag (WQ_CFG_EN q) = false) (f : Fld) (n v : Nat) (ok : Bool) :
    s.doorbell a q f n v ok = s := by
  obtain ⟨p, hp, hh, hr⟩ := h
  simp [State.doorbell, hp, hh, hr, he]

theorem State.doorbell_taken (h : s.fromHost a q) (he : s.flag (WQ_CFG_EN q) = true) (f : Fld) (n v : Nat) (ok : Bool) :
    s.doorbell a q f n v ok = if ok = true then s.setFld f (v % n) else (s.setFld f (s.free % n)).bump := by
  obtain ⟨p, hp, hh, hr⟩ := h
  simp [State.doorbell, hp, hh, hr, he]

/-- A doorbell that is taken writes its field, with the index or with a free one, and draws at most one free value. -/
theorem State.doorbell_fld (h : s.fromHost a q) (he : s.flag (WQ_CFG_EN q) = true) {f : Fld} (hf : f.hi = 15 ∧ f.lo = 0)
    (log v : Nat) (ok : Bool) :
    (s.doorbell a q f (ringLen log) v ok).fld f = (if ok = true then v else s.free) % ringLen log := by
  have hw : f.inWord = true := by simp [Fld.inWord, hf.1, hf.2]
  have hfit (x : Nat) : x % ringLen log < 2 ^ (f.hi + 1 - f.lo) := by
    rw [hf.1, hf.2]
    exact (Nat.mod_lt _ (ringLen_pos log)).trans_le (ringLen_le log)
  rw [State.doorbell_taken h he]
  cases ok
  · exact State.fld_setFld_lt s (hfit s.free) hw
  · exact State.fld_setFld_lt s (hfit v) hw

theorem State.bump_only (s : State) : s.only s.bump [.fresh] fun _ => False := by
  refine ⟨fun p => ?_, fun _ => .inr rfl⟩
  cases p <;> first | exact .inr rfl | exact .inl (by simp)

theorem State.doorbell_only (h : s.fromHost a q) (he : s.flag (WQ_CFG_EN q) = true) (f : Fld) (n v : Nat) (ok : Bool) :
    s.only (s.doorbell a q f n v ok) [.fresh] fun r => r = f.addr := by
  have hset (x : Nat) : s.only (s.setFld f x) [.fresh] fun r => r = f.addr := State.only_mono (s.setFld_only f x) (by simp) fun _ h => h
  rw [State.doorbell_taken h he]
  cases ok
  · exact (hset _).andThen (State.bump_only _) (fun _ h => h) fun _ h => h.elim
  · exact hset _

end

theorem exec_sqDoorbell {s : State} {a : Access} {q : Fin 64} (h : s.served a (WQ_SQDB q) = true) (v : Word) :
    exec (.sqDoorbell a q v) s = .next (((s.arrived a 9).doorbell a q (WQ_SQDB_TAIL q) (s.sqLen q) (v.toNat % 65536)
      (s.tailOk q (v.toNat % 65536 % s.sqLen q))).respond a 9 0 0) := by
  rw [← s.arrived_tailOk a 9, ← s.arrived_sqLen a 9]
  exact congrArg Host.Outcome.next (State.cfgWrite_served h _)

theorem exec_cqDoorbell {s : State} {a : Access} {q : Fin 64} (h : s.served a (WQ_CQDB q) = true) (v : Word) :
    exec (.cqDoorbell a q v) s = .next (((s.arrived a 9).doorbell a q (WQ_CQDB_HEAD q) (s.cqLen q) (v.toNat % 65536)
      (s.headOk q (v.toNat % 65536 % s.cqLen q))).respond a 9 0 0) := by
  rw [← s.arrived_headOk a 9, ← s.arrived_cqLen a 9]
  exact congrArg Host.Outcome.next (State.cfgWrite_served h _)

/-- Settles O21: a doorbell that does not come from the queue's HOST over a port goes into the count of those ignored. -/
theorem doorbellsIgnored : Obligations.DoorbellsIgnored := by
  unfold Obligations.DoorbellsIgnored
  intro s a q v h ignored
  have hno : ¬(s.arrived a 9).fromHost a q := fun hh => h ((State.fromHost_arrived 9 q).1 hh)
  refine ⟨fun hs => ?_, fun hs => ?_⟩
  · rw [exec_sqDoorbell hs, State.doorbell_ignored hno]
  · rw [exec_cqDoorbell hs, State.doorbell_ignored hno]

/-! ### A queue that is enabled, and one that is disabled -/

theorem exec_wqEnable {s : State} {a : Access} {q : Fin 64} (h : s.served a (WQ_CFG q) = true) (v : Word) :
    exec (.wqEnable a q v) s = .next (((s.arrived a 9).writeCfg q v.toNat).respond a 9 0 0) :=
  congrArg Host.Outcome.next (State.cfgWrite_served h _)

theorem exec_wqDisable {s : State} {a : Access} {q : Fin 64} (h : s.served a (WQ_CFG q) = true) (v : Word) :
    exec (.wqDisable a q v) s = .next (((s.arrived a 9).writeCfg q v.toNat).respond a 9 0 0) :=
  congrArg Host.Outcome.next (State.cfgWrite_served h _)

/-- A queue whose operations have all ended, as the end of its DRAINING leaves it. -/
def Queue.settled (t : Queue) : Queue :=
  { t with st := .disabled, closing := false, gen := t.gen + 1, fetching := 0, resv := 0 }

/-- A queue that takes no more descriptors. -/
def Queue.draining (t : Queue) : Queue := { t with st := .draining, fetched := [], resv := t.resv - t.fetched.length }

/-- The registers of an ACTIVE queue whose EN is written 0. -/
def State.closed (s : State) (q v : Nat) : State := (s.setFld (WQ_CFG_DEPTH q) (getBits v 30 27)).setFld (WQ_CFG_EN q) 0

section
variable {s : State} {q v : Nat}

theorem State.writeCfg_enables (hd : (s.queue q).st = .disabled) (hv : bitAt v 31 = true) :
    s.writeCfg q v = (s.writeAcc (WQ_CFG q) v).activateQ q := by
  simp only [State.writeCfg, hd, hv, if_true]

theorem State.settle_draining (hd : (s.queue q).st = .draining) :
    s.settle q = if (s.queue q).inflight = 0 then s.modQueue q Queue.settled else s := by
  simp only [State.settle, hd, true_or, true_and]
  rfl

theorem State.writeCfg_disables (ha : (s.queue q).st = .active) (hv : bitAt v 31 = false) :
    s.writeCfg q v = ((s.closed q v).modQueue q Queue.draining).settle q := by
  simp only [State.writeCfg, ha, hv]
  rfl

end

/-! What enabling leaves. -/

section
variable (s : State)

theorem State.activateQ_queue {q : Nat} (hq : q < s.wq.queues.length) (p : Nat) :
    (s.activateQ q).queue p = if p = q then { st := .active, gen := (s.queue p).gen + 1 } else s.queue p :=
  s.queue_modQueue q p _ hq

theorem State.activateQ_reg (q r : Nat) :
    (s.activateQ q).reg r = if r = WQ_CQDB q ∨ r = WQ_SQDB q then 0 else s.reg r := by
  simp only [State.activateQ, State.reg_setReg, Nat.zero_mod, State.modQueue_same]
  by_cases h : r = WQ_CQDB q <;> simp [h]

theorem State.activateQ_only (q : Nat) : s.only (s.activateQ q) [.wq] fun r => r = WQ_SQDB q ∨ r = WQ_CQDB q := by
  unfold State.activateQ
  exact ((State.only_mono (s.modQueue_only q _) (by simp) fun _ h => h.elim).setReg (.inl rfl)).setReg (.inr rfl)

/-! What disabling leaves. -/

theorem State.closed_flds (q v : Nat) :
    (s.closed q v).flag (WQ_CFG_EN q) = false ∧ (s.closed q v).fld (WQ_CFG_DEPTH q) = getBits v 30 27 := by
  refine ⟨State.flag_setFld_b2n _ false, ?_⟩
  rw [State.closed, State.fld_setFld_beside _ _ rfl]
  exact State.fld_setFld_lt s (Nat.mod_lt _ (by decide))

theorem State.closed_only (q v : Nat) : s.only (s.closed q v) [] fun r => r = WQ_CFG q :=
  (s.setFld_only (WQ_CFG_DEPTH q) _).setFld rfl

theorem State.settle_only (q : Nat) : s.only (s.settle q) [.wq] fun _ => False :=
  ite_has (s.only · _ _) (s.modQueue_only q _) (s.only_refl _ _)

theorem State.queue_modQueue_ne {p q : Nat} (h : p ≠ q) (f : Queue → Queue) : (s.modQueue q f).queue p = s.queue p := by
  by_cases hq : q < s.wq.queues.length
  · exact (s.queue_modQueue q p f hq).trans (if_neg h)
  · exact s.queue_modQueue_out q p f (Nat.le_of_not_lt hq)

/-- The end of a queue's DRAINING leaves the other queues alone. -/
theorem State.settle_queue_ne {p q : Nat} (h : p ≠ q) : (s.settle q).queue p = s.queue p :=
  ite_keeps (fun s : State => s.queue p) (s.queue_modQueue_ne h _) rfl

/-- A queue whose EN falls takes no more descriptors, and is DISABLED at once where nothing is in flight. -/
theorem State.drained_queue {q : Nat} (hq : q < s.wq.queues.length) :
    ((s.modQueue q Queue.draining).settle q).queue q =
      if (s.queue q).inflight = 0 then (s.queue q).draining.settled else (s.queue q).draining := by
  have hd : (s.modQueue q Queue.draining).queue q = (s.queue q).draining := (s.queue_modQueue q q _ hq).trans (if_pos rfl)
  rw [State.settle_draining (by rw [hd]; rfl), hd]
  refine (apply_ite (fun s : State => s.queue q) _ _ _).trans ?_
  rw [State.queue_modQueue _ _ _ _ ((length_modAt _ _ _).symm ▸ hq), if_pos rfl, hd]
  rfl

end

section
variable {s : State} {a : Access} {q : Fin 64} {v : Word} {t : Queue}

/-- A DISABLED queue that is enabled. -/
theorem exec_wqEnable_disabled (hs : s.served a (WQ_CFG q) = true) (ht : s.wq.queues[q.val]? = some t) (hd : t.st = .disabled)
    (hv : v.getLsbD 31 = true) :
    ∃ u, exec (.wqEnable a q v) s = .next (u.respond a 9 0 0) ∧
      u.queue q = { st := .active, gen := t.gen + 1 } ∧ u.reg (WQ_CFG q) = s.taken (WQ_CFG q) v.toNat ∧
      u.reg (WQ_SQDB q) = 0 ∧ u.reg (WQ_CQDB q) = 0 ∧ (∀ p, p ≠ q.val → u.queue p = s.queue p) ∧
      (s.arrived a 9).only u [.wq] fun r => r = WQ_CFG q ∨ r = WQ_SQDB q ∨ r = WQ_CQDB q := by
  obtain ⟨htq, hlen⟩ := State.queue_of_getElem? ht
  have hwq : ((s.arrived a 9).writeAcc (WQ_CFG q) v.toNat).wq = s.wq :=
    (State.only_part (State.writeAcc_only _ _ _) .wq).trans (State.only_part (s.arrived_only a 9) .wq)
  have hq (p : Nat) : ((s.arrived a 9).writeAcc (WQ_CFG q) v.toNat).queue p = s.queue p := by rw [State.queue, hwq]; rfl
  have hdis : ((s.arrived a 9).queue q).st = .disabled := by rw [s.arrived_queue, htq, hd]
  have hne : ¬(WQ_CFG q = WQ_CQDB q ∨ WQ_CFG q = WQ_SQDB q) := by simp only [WQ_CFG, WQ_CQDB, WQ_SQDB]; omega
  refine ⟨_, exec_wqEnable hs v, ?_⟩
  rw [State.writeCfg_enables hdis ((bitAt_toNat v 31).trans hv)]
  refine ⟨?_, ?_, ?_, ?_, fun p hp => ?_, ?_⟩
  · rw [State.activateQ_queue _ (hwq ▸ hlen), if_pos rfl, hq, htq]
  · rw [State.activateQ_reg, if_neg hne, State.writeAcc_reg_self]
    exact State.taken_congr (s.arrived_reg a 9 (WQ_CFG_block q)) _
  · rw [State.activateQ_reg, if_pos (.inr rfl)]
  · rw [State.activateQ_reg, if_pos (.inl rfl)]
  · rw [State.activateQ_queue _ (hwq ▸ hlen), if_neg hp, hq]
  · exact (State.only_mono (State.writeAcc_only _ _ _) (by simp) fun _ h => .inl h).andThen (State.activateQ_only _ q)
      (fun _ h => h) fun _ h => .inr h

/-- An ACTIVE queue that is disabled. -/
theorem exec_wqDisable_active (hs : s.served a (WQ_CFG q) = true) (ht : s.wq.queues[q.val]? = some t) (ha : t.st = .active)
    (hv : v.getLsbD 31 = false) :
    ∃ u, exec (.wqDisable a q v) s = .next (u.respond a 9 0 0) ∧
      (u.queue q).st = (if t.inflight = 0 then .disabled else .draining) ∧ (u.queue q).fetched = [] ∧
      u.flag (WQ_CFG_EN q) = false ∧ u.fld (WQ_CFG_DEPTH q) = getBits v.toNat 30 27 ∧
      (∀ p, p ≠ q.val → u.queue p = s.queue p) ∧ (s.arrived a 9).only u [.wq] fun r => r = WQ_CFG q := by
  obtain ⟨htq, hlen⟩ := State.queue_of_getElem? ht
  have hwq : (s.arrived a 9).wq = s.wq := State.only_part (s.arrived_only a 9) .wq
  have hact : ((s.arrived a 9).queue q).st = .active := by rw [s.arrived_queue, htq, ha]
  refine ⟨_, exec_wqDisable hs v, ?_⟩
  rw [State.writeCfg_disables hact ((bitAt_toNat v 31).trans hv)]
  have hq (p : Nat) : ((s.arrived a 9).closed q v.toNat).queue p = s.queue p := s.arrived_queue a 9 p
  have hdr := State.drained_queue ((s.arrived a 9).closed q v.toNat) (q := q) (hwq.symm ▸ hlen)
  rw [hq, htq] at hdr
  have honly := (State.modQueue_only ((s.arrived a 9).closed q v.toNat) q Queue.draining).andThen (State.settle_only _ q)
    (fun _ h => h) fun _ h => h
  have hreg := State.only_reg_eq honly (r := WQ_CFG q) id
  obtain ⟨hen, hdepth⟩ := (s.arrived a 9).closed_flds q v.toNat
  refine ⟨?_, ?_, (State.flag_congr hreg).trans hen, (State.fld_congr hreg).trans hdepth, fun p hp => ?_, ?_⟩
  · rw [hdr]; split <;> rfl
  · rw [hdr]; split <;> rfl
  · rw [State.settle_queue_ne _ hp, State.queue_modQueue_ne _ hp, hq]
  · exact (State.only_mono (State.closed_only _ q _) (by simp) fun _ h => h).andThen honly (fun _ h => h) fun _ h => h.elim

end

/-- Settles O20: WQ_CFG by the state of its queue and EN, and the doorbells by EN. -/
theorem queueControl : Obligations.QueueControl := by
  unfold Obligations.QueueControl
  intro s a q v t ht
  refine ⟨fun hs hd hv => exec_wqEnable_disabled hs ht hd hv, fun hs ha hv => exec_wqDisable_active hs ht ha hv,
    fun p hp hh hr => ?_⟩
  have hhost : (s.arrived a 9).fromHost a q := (State.fromHost_arrived 9 q).2 ⟨p, hp, hh, hr⟩
  have hen := s.arrived_enabled a 9 q
  have hfree := s.arrived_free a 9
  refine ⟨fun hs he => ⟨_, exec_sqDoorbell hs v, ?_, ?_⟩, fun hs he => ⟨_, exec_cqDoorbell hs v, ?_, ?_⟩, fun hs he => ?_,
    fun hs he => ?_⟩
  · exact hfree ▸ State.doorbell_fld hhost (hen.trans he) ⟨rfl, rfl⟩ _ _ _
  · exact State.doorbell_only hhost (hen.trans he) _ _ _ _
  · exact hfree ▸ State.doorbell_fld hhost (hen.trans he) ⟨rfl, rfl⟩ _ _ _
  · exact State.doorbell_only hhost (hen.trans he) _ _ _ _
  · rw [exec_sqDoorbell hs, State.doorbell_disabled hhost (hen.trans he)]
  · rw [exec_cqDoorbell hs, State.doorbell_disabled hhost (hen.trans he)]

end Sys2Proof.Machine

/-! SUPPORT. Completion entries and completion messages (R130, R133, R134). -/

namespace Sys2Proof.Machine

/-! ### The fields of an entry -/

/-- The field that a number laid first in a string is. -/
theorem fieldB_leBytes (n v : Nat) (b : List Byte) : fieldB (leBytes n v ++ b) 0 n = v % 256 ^ n :=
  (fieldB_head (length_leBytes n v) b).trans (leNat_leBytes n v)

section
variable (result head cid status opc : Nat) (phase : Bool)

/-- An entry as its fields laid end to end, status and opcode as numbers of one byte. -/
theorem entryOf_eq : entryOf result head cid status opc phase =
    leBytes 8 result ++ (leBytes 2 head ++ (leBytes 2 cid ++ (leBytes 1 status ++ (leBytes 1 opc ++
      [0, if phase = true then 0x80 else 0])))) := by
  simp [entryOf, leBytes]

theorem length_entryOf : (entryOf result head cid status opc phase).length = 16 := by
  simp [entryOf_eq]

theorem entryOf_result : fieldB (entryOf result head cid status opc phase) 0 8 = result % 2 ^ 64 := by
  rw [entryOf_eq, fieldB_leBytes]
  rfl

theorem entryOf_head : fieldB (entryOf result head cid status opc phase) 8 2 = head % 65536 := by
  rw [entryOf_eq, fieldB_skip (length_leBytes 8 _) _ 0, fieldB_leBytes]
  rfl

theorem entryOf_cid : fieldB (entryOf result head cid status opc phase) 10 2 = cid % 65536 := by
  rw [entryOf_eq, fieldB_skip (length_leBytes 8 _) _ 2, fieldB_skip (length_leBytes 2 _) _ 0, fieldB_leBytes]
  rfl

theorem entryOf_status : fieldB (entryOf result head cid status opc phase) 12 1 = status % 256 := by
  rw [entryOf_eq, fieldB_skip (length_leBytes 8 _) _ 4, fieldB_skip (length_leBytes 2 _) _ 2,
    fieldB_skip (length_leBytes 2 _) _ 0, fieldB_leBytes]
  rfl

theorem entryOf_opc : fieldB (entryOf result head cid status opc phase) 13 1 = opc % 256 := by
  rw [entryOf_eq, fieldB_skip (length_leBytes 8 _) _ 5, fieldB_skip (length_leBytes 2 _) _ 3,
    fieldB_skip (length_leBytes 2 _) _ 1, fieldB_skip (length_leBytes 1 _) _ 0, fieldB_leBytes]
  rfl

theorem entryOf_phase : fieldB (entryOf result head cid status opc phase) 14 2 = 0x8000 * b2n phase := by
  rw [entryOf_eq, fieldB_skip (length_leBytes 8 _) _ 6, fieldB_skip (length_leBytes 2 _) _ 4,
    fieldB_skip (length_leBytes 2 _) _ 2, fieldB_skip (length_leBytes 1 _) _ 1, fieldB_skip (length_leBytes 1 _) _ 0]
  cases phase <;> rfl

end

/-! ### Where an entry goes -/

/-- An entry of a queue without messages is one masked WR to the queue's HOST, and nothing else. -/
theorem State.writeEntry_silent {s : State} {q : Nat} (h : s.flag (WQ_COAL_MSGEN q) = false) (cid status opc result : Nat)
    (now : Bool) :
    let t := s.queue q
    let addr := s.fld (WQ_CQBASE_ADDR q) * 4096 + 16 * t.cqTail
    let tail := (t.cqTail + 1) % s.cqLen q
    s.writeEntry q cid status opc result now =
      (s.modQueue q fun t => { t with cqTail := tail, phase := if tail = 0 then !t.phase else t.phase }).sendReq 7 2 (s.qHost q)
        (addr - addr % 64) 0 true true (leBytes 8 (0xFFFF * 2 ^ (addr % 64)) ++ leBytes 8 0 ++
          putB (List.replicate 64 0) (addr % 64) (entryOf result t.head cid status opc t.phase)) 0 (.cqWrite q t.gen) := by
  simp only [State.writeEntry, h]
  rfl

theorem State.complete_earlier {s : State} {o : Op} (h : (s.queue o.q).gen ≠ o.gen) (status result : Nat) :
    s.complete o status result = s := if_pos h

theorem exec_completionMsgTimer_due {s : State} {q : Fin 64} (hn : 0 < (s.queue q).msgN) (ha : (s.queue q).st = .active)
    (hm : s.flag (WQ_COAL_MSGEN q) = true) (ht : 0 < s.fld (WQ_COAL_TIME_US q)) :
    exec (.completionMsgTimer q) s = .next (s.sendCplMsg q) :=
  congrArg Host.Outcome.next (if_pos ⟨hn, by rw [ha]; decide, hm, ht⟩)

theorem exec_completionMsgTimer_none {s : State} {q : Fin 64} (hn : (s.queue q).msgN = 0) :
    exec (.completionMsgTimer q) s = .next s :=
  congrArg Host.Outcome.next (if_neg fun h => absurd h.1 (by omega))

/-- Settles O23: an entry field by field, its place in the ring, and the timer of the messages. -/
theorem completionEntries : Obligations.CompletionEntries := by
  unfold Obligations.CompletionEntries
  refine ⟨fun result head cid status opc phase hs ho => ⟨length_entryOf .., entryOf_result .., entryOf_head .., entryOf_cid ..,
      (entryOf_status ..).trans (Nat.mod_eq_of_lt hs), (entryOf_opc ..).trans (Nat.mod_eq_of_lt ho), entryOf_phase ..⟩,
    fun s q cid status opc result now h => State.writeEntry_silent h cid status opc result now,
    fun s o status result h => State.complete_earlier h status result,
    fun s q hn ha hm ht => exec_completionMsgTimer_due hn ha hm ht,
    fun s q hn => exec_completionMsgTimer_none hn⟩

end Sys2Proof.Machine

/-! SUPPORT. An operation that the Keystone begins: whether it waited or its queue dispatches it, it acts on the state in hand and
on the operation itself (R127). That operation's opcode is its own field: a waiting one need not have its descriptor's. -/

namespace Sys2Proof.Machine

/-! ### Dispatch to the Keystone -/

section
variable {s : State} {q : Nat} {d : List Byte}

theorem State.dispatches_iff : s.dispatches q d = true ↔ d.length = 64 ∧ (s.queue q).fetched.head? = some d ∧
    s.nextQueue = some q ∧ s.executes (s.opOf q d) = true ∧ (s.opOf q d).bad = false := by
  simp only [State.dispatches, Bool.and_eq_true, beq_iff_eq, Bool.not_eq_true', and_assoc]

/-- Two updates that do the same to a queue as it stands are one. -/
theorem State.modQueue_congr {f g : Queue → Queue} (h : f (s.queue q) = g (s.queue q)) : s.modQueue q f = s.modQueue q g := by
  have hl : modAt s.wq.queues q f = modAt s.wq.queues q g := by
    refine List.ext_getElem? fun i => ?_
    simp only [modAt, List.getElem?_modify]
    by_cases hi : q = i
    · subst hi
      cases hq : s.wq.queues[q]? with
      | none => rfl
      | some t =>
        rw [(State.queue_of_getElem? hq).1] at h
        simp [h]
    · simp [hi]
  simp only [State.modQueue, hl]

/-- What an update does not change in a queue reads as before in every queue. -/
theorem State.queue_modQueue_keeps {α : Type} (part : Queue → α) {f : Queue → Queue} (h : ∀ t, part (f t) = part t) (p : Nat) :
    part ((s.modQueue q f).queue p) = part (s.queue p) := by
  by_cases hq : q < s.wq.queues.length
  · rw [s.queue_modQueue q p f hq]
    exact ite_keeps part (h _) rfl
  · rw [s.queue_modQueue_out q p f (Nat.le_of_not_lt hq)]

/-- A queue whose next descriptor has been dispatched. -/
def Queue.dispatched (t : Queue) : Queue := { t with fetched := t.fetched.tail, inflight := t.inflight + 1 }

/-- The dispatch of a descriptor hands its operation over in the state that the descriptor has left. -/
theorem State.dispatch_given (h : s.dispatches q d = true) : s.dispatch q = (s.given q).handOver (s.opOf q d) := by
  obtain ⟨-, hhead, -⟩ := State.dispatches_iff.1 h
  obtain ⟨ds, hds⟩ := List.head?_eq_some_iff.1 hhead
  have hmod : (s.modQueue q fun t => { t with fetched := ds, inflight := t.inflight + 1 }) = s.modQueue q Queue.dispatched :=
    State.modQueue_congr (by simp only [Queue.dispatched, hds, List.tail_cons])
  have hop : (s.modQueue q Queue.dispatched).opOf q d = s.opOf q d := by
    have hgen := s.queue_modQueue_keeps (f := Queue.dispatched) (q := q) Queue.gen (fun _ => rfl) q
    simp only [State.opOf, hgen]
  unfold State.dispatch
  simp only [hds, hmod, hop]
  rfl

/-- A descriptor of the Keystone's that is dispatched joins the operations that wait for it. -/
theorem State.dispatch_keystone (h : s.dispatches q d = true) (hk : 0x20 ≤ fieldB d 0 1) :
    s.dispatch q = { s.given q with wq := { (s.given q).wq with ksq := s.wq.ksq ++ [s.opOf q d] } } := by
  obtain ⟨-, -, -, hex, hbad⟩ := State.dispatches_iff.1 h
  have hexg : (s.given q).executes (s.opOf q d) = true := hex
  have hrun : (s.opOf q d).opc ≠ 0x10 := fun h => by simp only [State.opOf] at h; omega
  have hch : chiselOp (s.opOf q d).opc = false := by simp [chiselOp, State.opOf]; omega
  have hks : keystoneOp (s.opOf q d).opc = true := decide_eq_true hk
  rw [State.dispatch_given h, State.handOver, hexg, hbad, if_neg (by simp), if_neg (by simp), if_neg hrun, hch,
    if_neg (by simp), hks, if_pos rfl]
  rfl

/-- An operation that begins is performed, in the Keystone's hands, on the state that its queue or those that wait have left. -/
theorem State.perform_begins (h : s.begins q d = true) (hk : 0x20 ≤ fieldB d 0 1) (go : State → Op → State) :
    s.perform q d (fieldB d 0 1) go = go (s.inHand q d) (s.opAt q d) := by
  simp only [State.begins, Bool.and_eq_true] at h
  obtain ⟨hfree, hnext⟩ := h
  unfold State.perform
  cases hq : s.wq.ksq with
  | nil =>
    simp only [hq] at hnext
    obtain ⟨hlen, hhead, hrot, -⟩ := State.dispatches_iff.1 hnext
    have hat : s.opAt q d = s.opOf q d := by rw [State.opAt, hq]; rfl
    have hdesc : s.dispatchDesc q d (fieldB d 0 1) =
        { s.given q with wq := { (s.given q).wq with ksq := [s.opOf q d] } } := by
      rw [State.dispatchDesc, if_neg (by simp [hlen]), if_pos ⟨hhead, hrot⟩, State.dispatch_keystone hnext hk, hq]
      rfl
    rw [if_neg (by simp [hlen]), if_neg (by simp), hdesc, State.inHand, hat, State.handed, hq, if_pos (by rfl)]
    rw [hat] at hfree
    have hg : (s.given q).wq.ksq = [] := hq
    refine (if_pos ⟨rfl, rfl, hfree⟩).trans ?_
    simp only [hg]
  | cons o os =>
    simp only [hq, Bool.and_eq_true, beq_iff_eq] at hnext
    obtain ⟨⟨hlen, hoq⟩, hod⟩ := hnext
    have hat : s.opAt q d = o := by rw [State.opAt, hq]; rfl
    rw [hat] at hfree
    rw [if_neg (by simp [hlen]), if_pos (by simp [hoq, hod]), State.ksGo, hq, State.inHand, hat, State.handed, hq,
      if_neg (by simp)]
    exact if_pos ⟨hoq, hod, hfree⟩

end

section
variable {s : State} {q : Fin 64} {d : List Byte}

/-- KEEP_STATUS writes its record to the buffer of the operation (R272). -/
theorem exec_keepStatus (h : s.begins q d = true) (hd : fieldB d 0 1 = 0x23) : exec (.keepStatus q d) s =
    .next ((s.inHand q d).ksWrite (s.opAt q d) (s.opAt q d).buf (s.inHand q d).statusRecord 0 0 0 0) := by
  have hp := State.perform_begins h (by omega) fun s o => s.ksWrite o o.buf s.statusRecord 0 0 0 0
  rw [hd] at hp
  exact congrArg Host.Outcome.next hp

/-- FW_STAGE reads its image from the buffer of the operation (R125). -/
theorem exec_fwStage (h : s.begins q d = true) (hd : fieldB d 0 1 = 0x40) (hl : s.fus.life ≠ 4) (obs : List CellObs) :
    exec (.fwStage q d obs) s =
      .next ((s.inHand q d).ksRead obs (s.opAt q d) (s.opAt q d).buf (s.opAt q d).blen) := by
  have hp := State.perform_begins h (by omega) (State.fwStage obs)
  have hi : (s.inHand q d).fus.life ≠ 4 := by
    unfold State.inHand State.handed
    split <;> exact hl
  rw [hd, State.fwStage, if_neg hi] at hp
  exact congrArg Host.Outcome.next hp

end

/-! ### Operations that wait under another opcode than their descriptor's -/

/-- A KEEP_STATUS whose DST, at byte 8, is remote, and whose bytes from 16 on are 0. -/
def remoteStatus : List Byte := 0x23 :: (List.replicate 14 0 ++ (0x80 :: List.replicate 48 0))

/-- An FW_STAGE of 64 B whose SRC, at byte 8, is local; its bytes from 16 on, read as an address, are remote. -/
def localStage : List Byte := 0x40 :: (List.replicate 15 0 ++ (0x40 :: (List.replicate 6 0 ++ (0x80 :: List.replicate 40 0))))

/-- A device as reset leaves it, where a descriptor waits for the Keystone as an operation of opcode 0x30, whose buffer stands at
byte 16 (R123). -/
def waitingAsBist (d : List Byte) : State :=
  { State.reset with wq := { ksq := [{ q := 0, cid := 0, opc := 0x30, desc := d, gen := 1 }] } }

/-- Refutes O24: the clause of KEEP_STATUS takes DST from byte 8 of the descriptor, and the model takes it by the opcode of the
operation. A dispatch makes the two agree (`State.opOf`), but no premise says so of an operation that waits. Here the model ends a
write to local memory that is not in service, and the statement has a remote one under way. -/
theorem not_keepOperations : ¬ Obligations.KeepOperations := by
  unfold Obligations.KeepOperations
  intro h
  have hb : (waitingAsBist remoteStatus).begins (0 : Fin 64) remoteStatus = true := by decide +kernel
  have hd : fieldB remoteStatus 0 1 = 0x23 := by decide
  obtain ⟨-, -, -, hstatus, -⟩ := h (waitingAsBist remoteStatus) 0 remoteStatus hb
  have heq := Host.Outcome.next.inj ((exec_keepStatus hb hd).symm.trans (hstatus hd).1)
  exact absurd (congrArg (fun t : State => t.wq.waits.length) heq) (by decide +kernel)

/-- Refutes O26: the clause of FW_STAGE takes SRC from byte 8 of the descriptor, and the model takes it by the opcode of the
operation, as in `not_keepOperations`. Here the model has a remote read under way, and the statement ends one of local memory that
is not in service. -/
theorem not_maintenanceOperations : ¬ Obligations.MaintenanceOperations := by
  unfold Obligations.MaintenanceOperations
  rintro ⟨h, -⟩
  have hb : (waitingAsBist localStage).begins (0 : Fin 64) localStage = true := by decide +kernel
  have hd : fieldB localStage 0 1 = 0x40 := by decide
  have hl : (waitingAsBist localStage).fus.life ≠ 4 := by decide +kernel
  obtain ⟨-, -, -, hstage, -⟩ := h (waitingAsBist localStage) 0 localStage hb
  obtain ⟨hread, -⟩ := hstage hd
  have heq := Host.Outcome.next.inj ((exec_fwStage hb hd hl []).symm.trans ((hread []).2 hl))
  exact absurd (congrArg (fun t : State => t.wq.waits.length) heq) (by decide +kernel)

/-! ### A local program of a CHISEL_RUN -/

/-- A CHISEL_RUN of the program at local address 0. -/
def localRun : List Byte := 0x10 :: List.replicate 63 0

/-- A device in READY, as reset leaves it, that has this run next in queue 0. -/
def localRunNext : State :=
  { State.reset with dev := .ready, wq := { queues := { st := .active, fetched := [localRun] } :: List.replicate 63 {} } }

/-- The job that takes slot 0 holds what its program block reads as the chisel begins to read it (R214). -/
theorem localRunNext_snap {t : State} (h : exec (.chiselRun 0 localRun) localRunNext = .next t) : (t.job 0).snap = some [] := by
  obtain rfl := Host.Outcome.next.inj (h : Host.Outcome.next _ = .next t)
  decide +kernel

/-- Refutes O22: the clause of CHISEL_RUN gives a job of a local program nothing but its start, and the model also takes the
program block's contents (`State.progSnap`) and asks for its first granule (R214, R215). -/
theorem not_fetchAndDispatch : ¬ Obligations.FetchAndDispatch := by
  unfold Obligations.FetchAndDispatch
  rintro ⟨-, hchisel⟩
  obtain ⟨hrun, -⟩ := hchisel localRunNext 0 localRun 0 (by decide +kernel) (by decide +kernel)
  exact absurd (localRunNext_snap (hrun (by decide))) (by decide +kernel)

end Sys2Proof.Machine

/-! SUPPORT. The address map (R140): the fold that enters the channel number, what each field of an address is made of, and
O57. -/

namespace Sys2Proof.Machine

/-! ### Two fields folded into each other -/

/-- The fold of the bits above the channel field, by the number that these bits spell. -/
def upperFold (w : Nat) : Nat :=
  getBits w 4 0 ^^^ getBits w 9 5 ^^^ getBits w 14 10 ^^^ getBits w 19 15 ^^^ getBits w 23 20

/-- The address bits [36:13] that a location stands for. -/
def Loc.upper (l : Loc) : Nat :=
  l.row * 128 + (getBits l.bank 1 0 ^^^ getBits l.row 3 2) * 32 +
    (getBits l.bank 3 2 ^^^ getBits l.row 1 0) * 8 + getBits l.gran 3 2 * 2 + l.pc

theorem getBits_lt (x hi lo : Nat) : getBits x hi lo < 2 ^ (hi + 1 - lo) := Nat.mod_lt _ (by positivity)

/-- The fields of an address above the channel field are fields of the number that its bits [36:13] spell. -/
theorem getBits_div_8192 (a hi lo : Nat) : getBits a (hi + 13) (lo + 13) = getBits (a / 8192) hi lo := by
  unfold getBits
  rw [Nat.div_div_eq_div_mul, show (8192 : Nat) = 2 ^ 13 from rfl, ← Nat.pow_add, Nat.add_comm 13 lo,
    show hi + 13 + 1 - (lo + 13) = hi + 1 - lo by omega]

theorem addrFold_eq (a : Nat) : addrFold a = upperFold (a / 8192) := by
  simp only [addrFold, upperFold, ← getBits_div_8192]

theorem encodeAddr_eq (l : Loc) :
    encodeAddr l = l.upper * 8192 + (l.ch ^^^ upperFold l.upper) * 256 + getBits l.gran 1 0 * 64 + l.byte := rfl

theorem upperFold_lt (w : Nat) : upperFold w < 32 := by
  have h (hi lo : Nat) (he : hi + 1 - lo ≤ 5) : getBits w hi lo < 2 ^ 5 :=
    (getBits_lt _ _ _).trans_le (Nat.pow_le_pow_right (by omega) he)
  exact Nat.xor_lt_two_pow (Nat.xor_lt_two_pow (Nat.xor_lt_two_pow (Nat.xor_lt_two_pow
    (h _ _ (by omega)) (h _ _ (by omega))) (h _ _ (by omega))) (h _ _ (by omega))) (h _ _ (by omega))

/-- The bank of an address is two pairs of folded bits. -/
theorem decodeAddr_bank_fields (a : Nat) :
    getBits (decodeAddr a).bank 3 2 = getBits a 17 16 ^^^ getBits a 21 20 ∧
    getBits (decodeAddr a).bank 1 0 = getBits a 19 18 ^^^ getBits a 23 22 ∧ (decodeAddr a).bank < 16 := by
  have hx : getBits a 17 16 ^^^ getBits a 21 20 < 2 ^ 2 := Nat.xor_lt_two_pow (getBits_lt _ _ _) (getBits_lt _ _ _)
  have hy : getBits a 19 18 ^^^ getBits a 23 22 < 2 ^ 2 := Nat.xor_lt_two_pow (getBits_lt _ _ _) (getBits_lt _ _ _)
  have hb : (decodeAddr a).bank = 4 * (getBits a 17 16 ^^^ getBits a 21 20) + (getBits a 19 18 ^^^ getBits a 23 22) := rfl
  rw [hb]
  generalize getBits a 17 16 ^^^ getBits a 21 20 = x at *
  generalize getBits a 19 18 ^^^ getBits a 23 22 = y at *
  simp only [getBits]
  omega

/-- The row of an address holds the bits that its bank is folded with. -/
theorem decodeAddr_row_fields (a : Nat) :
    getBits (decodeAddr a).row 1 0 = getBits a 21 20 ∧ getBits (decodeAddr a).row 3 2 = getBits a 23 22 := by
  simp only [decodeAddr, getBits]
  omega

/-- An address within the DRAM is spelled by its location above the channel field. -/
theorem upper_decodeAddr {a : Nat} (h : a < dramEnd) : (decodeAddr a).upper = a / 8192 := by
  obtain ⟨hhi, hlo, -⟩ := decodeAddr_bank_fields a
  obtain ⟨hr0, hr1⟩ := decodeAddr_row_fields a
  unfold Loc.upper
  rw [hhi, hlo, hr0, hr1, Nat.xor_xor_cancel_right, Nat.xor_xor_cancel_right]
  simp only [decodeAddr, getBits, dramEnd] at *
  omega

theorem encodeAddr_decodeAddr {a : Nat} (h : a < dramEnd) : encodeAddr (decodeAddr a) = a := by
  have hch : (decodeAddr a).ch = getBits a 12 8 ^^^ upperFold (a / 8192) := by rw [← addrFold_eq]; rfl
  rw [encodeAddr_eq, upper_decodeAddr h, hch, Nat.xor_xor_cancel_right]
  simp only [decodeAddr, getBits]
  omega

/-- The fields of a location, read back from the bits that it spells. -/
theorem Loc.upper_fields {l : Loc} (hp : l.pc < 2) (hr : l.row < 98304) :
    l.upper < 98304 * 128 ∧ l.upper / 128 = l.row ∧
    getBits l.upper 0 0 = l.pc ∧ getBits l.upper 2 1 = getBits l.gran 3 2 ∧
    getBits l.upper 4 3 = getBits l.bank 3 2 ^^^ getBits l.row 1 0 ∧
    getBits l.upper 6 5 = getBits l.bank 1 0 ^^^ getBits l.row 3 2 := by
  have hx : getBits l.bank 1 0 ^^^ getBits l.row 3 2 < 2 ^ 2 := Nat.xor_lt_two_pow (getBits_lt _ _ _) (getBits_lt _ _ _)
  have hy : getBits l.bank 3 2 ^^^ getBits l.row 1 0 < 2 ^ 2 := Nat.xor_lt_two_pow (getBits_lt _ _ _) (getBits_lt _ _ _)
  have hg : getBits l.gran 3 2 < 2 ^ 2 := getBits_lt _ _ _
  unfold Loc.upper
  generalize getBits l.bank 1 0 ^^^ getBits l.row 3 2 = x at *
  generalize getBits l.bank 3 2 ^^^ getBits l.row 1 0 = y at *
  generalize getBits l.gran 3 2 = g at *
  simp only [getBits]
  omega

/-- What the address of a location holds, from the bits of its location down to its byte. -/
theorem encodeAddr_fields {l : Loc} (hc : l.ch < 32) (hy : l.byte < 64) :
    encodeAddr l / 8192 = l.upper ∧ getBits (encodeAddr l) 12 8 = l.ch ^^^ upperFold l.upper ∧
    getBits (encodeAddr l) 7 6 = getBits l.gran 1 0 ∧ getBits (encodeAddr l) 5 0 = l.byte := by
  have hf : l.ch ^^^ upperFold l.upper < 2 ^ 5 := Nat.xor_lt_two_pow hc (upperFold_lt _)
  have hg : getBits l.gran 1 0 < 2 ^ 2 := getBits_lt _ _ _
  rw [encodeAddr_eq]
  generalize l.ch ^^^ upperFold l.upper = f at *
  generalize getBits l.gran 1 0 = g at *
  simp only [getBits]
  omega

theorem encodeAddr_lt {l : Loc} (hc : l.ch < 32) (hp : l.pc < 2) (hr : l.row < 98304) (hy : l.byte < 64) :
    encodeAddr l < dramEnd := by
  obtain ⟨hu, -⟩ := encodeAddr_fields hc hy
  obtain ⟨hlt, -⟩ := Loc.upper_fields hp hr
  rw [← hu] at hlt
  unfold dramEnd
  omega

theorem decodeAddr_encodeAddr {l : Loc} (hc : l.ch < 32) (hp : l.pc < 2) (hb : l.bank < 16) (hr : l.row < 98304)
    (hg : l.gran < 16) (hy : l.byte < 64) : decodeAddr (encodeAddr l) = l := by
  obtain ⟨hu, hch, hg0, hbyte⟩ := encodeAddr_fields hc hy
  obtain ⟨hlt, hrow, hpc, hg1, hb1, hb0⟩ := Loc.upper_fields hp hr
  have up (hi lo : Nat) : getBits (encodeAddr l) (hi + 13) (lo + 13) = getBits l.upper hi lo := by rw [getBits_div_8192, hu]
  have hr0 : getBits l.upper 8 7 = getBits l.row 1 0 := by rw [← hrow]; simp only [getBits]; omega
  have hr1 : getBits l.upper 10 9 = getBits l.row 3 2 := by rw [← hrow]; simp only [getBits]; omega
  have hrow' : getBits l.upper 23 7 = l.row := by rw [← hrow]; simp only [getBits]; omega
  have hbank : 4 * getBits l.bank 3 2 + getBits l.bank 1 0 = l.bank := by simp only [getBits]; omega
  have hgran : 4 * getBits l.gran 3 2 + getBits l.gran 1 0 = l.gran := by simp only [getBits]; omega
  unfold decodeAddr
  rw [addrFold_eq, hu, hch, hg0, hbyte, up 0 0, up 4 3, up 8 7, up 6 5, up 10 9, up 23 7, up 2 1, hpc, hg1, hb1, hb0, hr0, hr1,
    hrow']
  simp only [Nat.xor_xor_cancel_right, hbank, hgran]

theorem decodeAddr_bounds {a : Nat} (h : a < dramEnd) : (decodeAddr a).pc < 2 ∧ (decodeAddr a).row < 98304 ∧
    (decodeAddr a).gran < 16 ∧ (decodeAddr a).byte < 64 := by
  simp only [decodeAddr, getBits, dramEnd] at *
  omega

/-- Two addresses of one 256 B unit agree in every field above its offset. -/
theorem getBits_of_unit {a b : Nat} (h : a / 256 = b / 256) (hi lo : Nat) (hl : 8 ≤ lo) :
    getBits a hi lo = getBits b hi lo := by
  obtain ⟨k, rfl⟩ := Nat.exists_eq_add_of_le hl
  unfold getBits
  rw [Nat.pow_add, ← Nat.div_div_eq_div_mul, ← Nat.div_div_eq_div_mul, show (2 : Nat) ^ 8 = 256 from rfl, h]

/-- Settles O57: both round trips field by field, and the granules of a unit by the bits that they share. -/
theorem addressMap : Obligations.AddressMap := by
  unfold Obligations.AddressMap
  refine ⟨fun a ha => ?_, fun l hc hp hb hr hg hy => ⟨encodeAddr_lt hc hp hr hy, decodeAddr_encodeAddr hc hp hb hr hg hy⟩,
    fun a b h => ?_⟩
  · obtain ⟨hp, hr, hg, hy⟩ := decodeAddr_bounds ha
    obtain ⟨-, -, hb⟩ := decodeAddr_bank_fields a
    exact ⟨encodeAddr_decodeAddr ha, decodeAddr_ch_lt a, hp, hb, hr, hg, hy⟩
  · simp [decodeAddr, addrFold, getBits_of_unit h]

end Sys2Proof.Machine

/-! SUPPORT. Banks of a channel: what a command leaves in the bank that it goes to, what enters a channel from its door, what a
slot comes to (R142, R147, R149, R153, R154, R159, R161, R170), and O29 and O27. -/

namespace Sys2Proof.Machine

/-! ### One bank -/

/-- The state has this bank of this pseudo-channel of this channel. -/
def State.hasBank (s : State) (c pc i : Nat) : Prop :=
  c < s.mc.chans.length ∧ pc < (s.chan c).pcs.length ∧ i < ((s.chan c).pc pc).banks.length

theorem State.bank_of_chans {s t : State} (h : t.mc.chans = s.mc.chans) (c pc i : Nat) : t.bank c pc i = s.bank c pc i := by
  simp only [State.bank, State.chan, h]

theorem State.hasBank_of_chans {s t : State} (h : t.mc.chans = s.mc.chans) (c pc i : Nat) :
    t.hasBank c pc i ↔ s.hasBank c pc i := by
  simp only [State.hasBank, State.chan, h]

/-- A bank that can be found is there, and reads as it is found. -/
theorem State.hasBank_of_getElem? {s : State} {c pc i : Nat} {h : Chan} {p : Pc} {b : Bank} (hc : s.mc.chans[c]? = some h)
    (hp : h.pcs[pc]? = some p) (hb : p.banks[i]? = some b) :
    s.hasBank c pc i ∧ (s.chan c).pc pc = p ∧ s.bank c pc i = b := by
  have e1 : s.chan c = h := by simp [State.chan, List.getD_eq_getElem?_getD, hc]
  have e2 : h.pc pc = p := by simp [Chan.pc, List.getD_eq_getElem?_getD, hp]
  have e3 : p.bank i = b := by simp [Pc.bank, List.getD_eq_getElem?_getD, hb]
  refine ⟨⟨(List.getElem?_eq_some_iff.1 hc).1, ?_, ?_⟩, by rw [e1, e2], by rw [State.bank, e1, e2, e3]⟩
  · rw [e1]; exact (List.getElem?_eq_some_iff.1 hp).1
  · rw [e1, e2]; exact (List.getElem?_eq_some_iff.1 hb).1

/-- Every bank of a pseudo-channel that has all its default banks is a default bank. -/
theorem Pc.bank_default (i : Nat) : ({} : Pc).bank i = {} := by
  simp only [Pc.bank, List.getD_eq_getElem?_getD, List.getElem?_replicate]
  split <;> rfl

theorem Chan.pc_default (pc : Nat) : ({} : Chan).pc pc = {} := by
  match pc with
  | 0 | 1 | _ + 2 => rfl

/-- A bank that is not as reset leaves it is one that the state has. -/
theorem State.hasBank_of_ne {s : State} {c pc i : Nat} (h : s.bank c pc i ≠ {}) : s.hasBank c pc i := by
  by_cases hc : c < s.mc.chans.length
  swap
  · have e : s.chan c = {} := by simp [State.chan, List.getD_eq_getElem?_getD, List.getElem?_eq_none (Nat.le_of_not_lt hc)]
    exact absurd (by rw [State.bank, e, Chan.pc_default, Pc.bank_default]) h
  by_cases hp : pc < (s.chan c).pcs.length
  swap
  · have e : (s.chan c).pc pc = {} := by
      simp [Chan.pc, List.getD_eq_getElem?_getD, List.getElem?_eq_none (Nat.le_of_not_lt hp)]
    exact absurd (by rw [State.bank, e, Pc.bank_default]) h
  by_cases hi : i < ((s.chan c).pc pc).banks.length
  swap
  · exact absurd (by simp [State.bank, Pc.bank, List.getD_eq_getElem?_getD, List.getElem?_eq_none (Nat.le_of_not_lt hi)]) h
  exact ⟨hc, hp, hi⟩

theorem State.pc_modPc {s : State} {c pc i : Nat} (h : s.hasBank c pc i) (f : Pc → Pc) :
    ((s.modPc c pc f).chan c).pc pc = f ((s.chan c).pc pc) := by
  obtain ⟨hc, hp, -⟩ := h
  rw [State.modPc, State.chan_modChan _ _ _ _ hc, if_pos rfl]
  exact (getD_modAt _ _ _ _ _ hp).trans (if_pos rfl)

theorem State.modPc_pcs_length (s : State) (c pc : Nat) (f : Pc → Pc) (h : c < s.mc.chans.length) :
    ((s.modPc c pc f).chan c).pcs.length = (s.chan c).pcs.length := by
  rw [State.modPc, State.chan_modChan _ _ _ _ h, if_pos rfl, length_modAt]

/-- An update of a pseudo-channel that leaves its banks leaves this bank. -/
theorem State.hasBank_modPc {s : State} {c pc i : Nat} (h : s.hasBank c pc i) {f : Pc → Pc}
    (hf : (f ((s.chan c).pc pc)).banks.length = ((s.chan c).pc pc).banks.length) : (s.modPc c pc f).hasBank c pc i := by
  obtain ⟨hc, hp, hi⟩ := id h
  refine ⟨(length_modAt _ _ _).trans_gt hc, ?_, ?_⟩
  · rwa [State.modPc_pcs_length _ _ _ _ hc]
  · rwa [State.pc_modPc h, hf]

theorem State.bank_modPc {s : State} {c pc i : Nat} (h : s.hasBank c pc i) (f : Pc → Pc) :
    (s.modPc c pc f).bank c pc i = (f ((s.chan c).pc pc)).bank i := by rw [State.bank, State.pc_modPc h]

theorem State.hasBank_modBank {s : State} {c pc i : Nat} (h : s.hasBank c pc i) (f : Bank → Bank) :
    (s.modBank c pc i f).hasBank c pc i := State.hasBank_modPc h (length_modAt _ _ _)

theorem State.bank_modBank {s : State} {c pc i : Nat} (h : s.hasBank c pc i) (f : Bank → Bank) :
    (s.modBank c pc i f).bank c pc i = f (s.bank c pc i) :=
  (State.bank_modPc h _).trans ((getD_modAt _ _ _ _ _ h.2.2).trans (if_pos rfl))

/-- A bank updated, and its pseudo-channel beside its banks. -/
theorem State.bank_modBank_modPc {s : State} {c pc i : Nat} (h : s.hasBank c pc i) (g : Bank → Bank) {f : Pc → Pc}
    (hf : ∀ p, (f p).banks = p.banks) : ((s.modBank c pc i g).modPc c pc f).bank c pc i = g (s.bank c pc i) := by
  rw [State.bank_modPc (State.hasBank_modBank h g), Pc.bank, hf]
  exact State.bank_modBank h g

/-! ### Rows that close and open, and refreshes (R149, R153, R159) -/

theorem State.add64_mc (s : State) (a d : Nat) : (s.add64 a d).mc = s.mc := State.only_part (s.add64_only a d) .mc

theorem State.busyBg_chans (s : State) (c g n : Nat) : (s.busyBg c g n).mc.chans = s.mc.chans := rfl

theorem State.ite_incFld_mc (s : State) (b : Prop) [Decidable b] (f : Fld) (d : Nat) :
    (if b then s.incFld f d else s).mc = s.mc := by
  split
  · exact State.only_part (s.incFld_only f d) .mc
  · rfl

/-- The activation counters replaced. -/
def State.setActs (s : State) (a : Tab Nat) : State := { s with mc := { s.mc with acts := a } }

/-- The count that a closing row's group comes to (R159). -/
def State.actsNext (s : State) (c pc i row : Nat) : Nat := min 65535 (tgetD s.mc.acts (actKey c pc i row) 0 + 1)

/-- A bank whose open row closes at a time, its group having come to a count (R159). -/
def State.bankClosed (s : State) (c pc i row at_ : Nat) (b : Bank) : Bank :=
  { b with
    row := none, kept := false, hits := 0, lastPre := at_
    trr := if max 256 (s.fld (MC_TRRCTL_THRESH c)) ≤ s.actsNext c pc i row then some (row / 4 * 4) else b.trr }

/-- A bank whose row opens in the slot that its pseudo-channel has come to (R150). -/
def State.bankOpened (s : State) (c pc row : Nat) (b : Bank) : Bank :=
  { b with row := some row, lastAct := ((s.chan c).pc pc).now, kept := false, apRow := none }

/-- A bank whose refresh begins in the slot that its pseudo-channel has come to (R153). -/
def State.bankRefreshed (s : State) (c pc : Nat) (forced : Bool) (b : Bank) : Bank :=
  let now := ((s.chan c).pc pc).now
  { b with
    refUntil := now + 160, burst := b.burst - b2n forced
    restUntil := if forced ∧ b.burst = 1 ∧ (s.refCap c : Int) < b.debt then now + 160 + 200 else b.restUntil }

theorem State.closeRow_open {s : State} {c pc i row : Nat} (h : (s.bank c pc i).row = some row) (at_ : Nat) :
    s.closeRow c pc i at_ = (s.setActs (tset s.mc.acts (actKey c pc i row) (s.actsNext c pc i row))).modBank c pc i
      (s.bankClosed c pc i row at_) := by
  unfold State.closeRow
  rw [h]
  simp only [decide_eq_true_eq]
  rfl

section
variable {s : State} {c pc i row : Nat} (hb : s.hasBank c pc i)
include hb

theorem State.hasBank_setActs (a : Tab Nat) : (s.setActs a).hasBank c pc i := (State.hasBank_of_chans rfl _ _ _).2 hb

theorem State.closeRow_bank (h : (s.bank c pc i).row = some row) (at_ : Nat) : (s.closeRow c pc i at_).hasBank c pc i ∧
    (s.closeRow c pc i at_).bank c pc i = s.bankClosed c pc i row at_ (s.bank c pc i) := by
  rw [State.closeRow_open h]
  exact ⟨State.hasBank_modBank (State.hasBank_setActs hb _) _, State.bank_modBank (State.hasBank_setActs hb _) _⟩

theorem State.issueAct_bank (row : Nat) :
    (s.issueAct c pc i row).bank c pc i = s.bankOpened c pc row (s.bank c pc i) := by
  have hchans : (s.issueAct c pc i row).mc.chans = ((s.modBank c pc i (s.bankOpened c pc row)).modPc c pc fun p =>
      { p with ptr := (i + 1) % 16, acts := (((s.chan c).pc pc).now :: p.acts).take 4 }).mc.chans := rfl
  rw [State.bank_of_chans hchans]
  exact State.bank_modBank_modPc hb _ fun _ => rfl

/-- A refresh of a bank covers its next rows and lowers its debt by 1 (R153). -/
theorem State.coverRows_bank : (s.coverRows c pc i).hasBank c pc i ∧ (s.coverRows c pc i).bank c pc i =
    { s.bank c pc i with refRow := ((s.bank c pc i).refRow + 1) % 8192, debt := (s.bank c pc i).debt - 1 } := by
  have h : ∃ a, s.coverRows c pc i = (s.setActs a).modBank c pc i fun b =>
    { b with refRow := ((s.bank c pc i).refRow + 1) % 8192, debt := b.debt - 1 } := ⟨_, rfl⟩
  obtain ⟨a, h⟩ := h
  rw [h]
  exact ⟨State.hasBank_modBank (State.hasBank_setActs hb a) _, State.bank_modBank (State.hasBank_setActs hb a) _⟩

theorem State.issueRef_bank (forced pulled : Bool) : (s.issueRef c pc i forced pulled).bank c pc i =
    s.bankRefreshed c pc forced ((s.coverRows c pc i).bank c pc i) := by
  obtain ⟨hcov, -⟩ := State.coverRows_bank hb
  have hchans : (s.issueRef c pc i forced pulled).mc.chans =
      (((s.coverRows c pc i).modBank c pc i (s.bankRefreshed c pc forced)).modPc c pc fun p =>
        { p with lastRef := ((s.chan c).pc pc).now }).mc.chans := by
    unfold State.issueRef
    dsimp only
    rw [State.ite_incFld_mc, State.ite_incFld_mc, State.add64_mc, State.busyBg_chans]
    rfl
  rw [State.bank_of_chans hchans]
  exact State.bank_modBank_modPc hcov _ fun _ => rfl

end

theorem State.closeRow_acts {s : State} {c pc i row : Nat} (h : (s.bank c pc i).row = some row) (at_ : Nat) :
    tgetD (s.closeRow c pc i at_).mc.acts (actKey c pc i row) 0 = s.actsNext c pc i row := by
  rw [State.closeRow_open h]
  exact tgetD_tset_self _ _ _ _

/-! ### A refresh that falls due, and an open row that stays idle (R149, R153, R154) -/

theorem exec_refreshDue_idle {s : State} {c : Fin 32} (h : (s.chan c).st ≠ .active) (h' : (s.chan c).st ≠ .draining)
    (pc : Fin 2) (bank : Fin 16) : exec (.refreshDue c pc bank) s = .next s :=
  congrArg Host.Outcome.next (if_pos ⟨h, h'⟩)

theorem exec_refreshDue {s : State} {c : Fin 32} (h : (s.chan c).st = .active ∨ (s.chan c).st = .draining)
    (pc : Fin 2) (bank : Fin 16) :
    let b := s.bank c pc bank
    let up := s.modBank c pc bank fun b => { b with debt := b.debt + 1 }
    exec (.refreshDue c pc bank) s =
      .next (if b.q = [] ∨ b.debt + 1 ≤ 0 ∨ (s.refCap c : Int) < b.debt + 1 then up
        else up.incFld (MC_POSTPONE_COUNT c) 1) := by
  have hst : ¬((s.chan c).st ≠ .active ∧ (s.chan c).st ≠ .draining) := by
    rintro ⟨ha, hd⟩
    exact h.elim ha hd
  have hcap (f : Bank → Bank) : (s.modBank c pc bank f).refCap c = s.refCap c := rfl
  refine congrArg Host.Outcome.next ((if_neg hst).trans ?_)
  simp only [hcap, List.isEmpty_iff]

/-- The slot in which an idle row's precharge counts (R149, R151). -/
def State.idleCloseAt (s : State) (c pc i : Nat) : Nat :=
  let b := s.bank c pc i
  max ((s.chan c).pc pc).now (max (b.lastAct + 28) (max (b.lastRd + 4) (b.wrEnd + 16)))

theorem exec_openRowIdleTimeout_none {s : State} {c : Fin 32} {pc : Fin 2} {bank : Fin 16}
    (h : (s.bank c pc bank).kept = false ∨ (s.bank c pc bank).q ≠ [] ∨ s.adaptive c = false) :
    exec (.openRowIdleTimeout c pc bank) s = .next s := by
  refine congrArg Host.Outcome.next (if_neg ?_)
  rintro ⟨(hk : (s.bank c pc bank).kept = true), -, (hq : (s.bank c pc bank).q.isEmpty = true), ha⟩
  rcases h with h | h | h
  · simp [h] at hk
  · exact h (List.isEmpty_iff.1 hq)
  · simp [h] at ha

theorem exec_openRowIdleTimeout_closes {s : State} {c : Fin 32} {pc : Fin 2} {bank : Fin 16} {row : Nat}
    (hk : (s.bank c pc bank).kept = true) (hr : (s.bank c pc bank).row = some row) (hq : (s.bank c pc bank).q = [])
    (ha : s.adaptive c = true) : exec (.openRowIdleTimeout c pc bank) s =
      .next ((s.closeRow c pc bank (s.idleCloseAt c pc bank)).modBank c pc bank fun b => { b with pred := b.pred - 1 }) :=
  congrArg Host.Outcome.next (if_pos ⟨hk, Option.isSome_iff_exists.2 ⟨row, hr⟩, List.isEmpty_iff.2 hq, ha⟩)

/-- Settles O29: a refresh that falls due by the channel's state, an idle row by what closing it leaves in its bank, and each
command by what it leaves in the bank it goes to. -/
theorem rowsAndRefresh : Obligations.RowsAndRefresh := by
  unfold Obligations.RowsAndRefresh
  refine ⟨fun s c pc bank => ⟨fun h h' => exec_refreshDue_idle h h' pc bank, fun h => exec_refreshDue h pc bank, ?_,
    exec_openRowIdleTimeout_none⟩, ?_⟩
  · intro row hk hr hq ha
    have hb : s.hasBank c pc bank := State.hasBank_of_ne fun h => by simp [h] at hk
    obtain ⟨hb', hclosed⟩ := State.closeRow_bank hb hr (s.idleCloseAt c pc bank)
    have hacts := State.closeRow_acts hr (s.idleCloseAt c pc bank)
    refine ⟨_, exec_openRowIdleTimeout_closes hk hr hq ha, ?_, ?_, hacts,
      State.only_trans (s.closeRow_only _ _ _ _) (State.modBank_only _ _ _ _ _)⟩ <;>
    · rw [State.bank_modBank hb', hclosed]
      rfl
  · intro s c pc i row at_ h p b hc hp hi
    obtain ⟨hb, rfl, rfl⟩ := State.hasBank_of_getElem? hc hp hi
    refine ⟨fun hr => ?_, ?_, ?_, fun forced pulled => ?_⟩
    · obtain ⟨-, hclosed⟩ := State.closeRow_bank hb hr at_
      simp only [hclosed]
      exact ⟨rfl, rfl, State.closeRow_acts hr at_, rfl⟩
    · rw [State.issueAct_bank hb]
      rfl
    · rw [State.issueAct_bank hb]
      rfl
    · obtain ⟨-, hcov⟩ := State.coverRows_bank hb
      rw [State.issueRef_bank hb, hcov]
      exact ⟨rfl, rfl⟩

/-! ### The door of a channel (R142, R170, R264) -/

/-- A touch fetch that starts joins those under way and is counted (R264). -/
theorem State.touchStart_only (s : State) (page : Nat) : s.only (s.touchStart page) [.keep] fun r => r = KEEP_TOUCH := by
  unfold State.touchStart
  dsimp only
  split
  · exact s.only_refl _ _
  · exact State.only_trans (State.only_mono (s.modKeep_only _) (by simp) fun _ h => h.elim)
      (State.only_mono (State.incFld_only _ _ _) (by simp) fun _ h => h)

/-- A header as it enters the ingress buffer of its channel (R142, R143). -/
def State.unitIn (s : State) (c : Nat) (u : MUnit) : MUnit :=
  { u with ord := (s.chan c).ord, acc := ((s.chan c).pc (decodeAddr u.addr).pc).now }

/-- The header at a channel's door has entered its ingress buffer (R142, R170). -/
def State.headerIn (s : State) (c : Nat) (u : MUnit) : State :=
  let v := s.unitIn c u
  ((s.modTgt c fun t => { t with
      door := none
      xfers := if u.op = 0 then t.xfers else t.xfers ++ [{ unit := v, beats := u.gran, out := false }] }).modChan c fun h =>
    { h with ingress := h.ingress ++ [v], ord := h.ord + 1 }).maxFld (MC_INGRESS_PEAK c) ((s.chan c).ingress.length + 1)

/-- What a header that has entered brings about: a touch fetch where its page is not restored (R264). -/
def State.headerTouches (s : State) (u : MUnit) : State :=
  if s.unrestored (pageOf u.addr) then s.touchStart (pageOf u.addr) else s

theorem State.headerTouches_only (s : State) (u : MUnit) : s.only (s.headerTouches u) [.keep] fun r => r = KEEP_TOUCH := by
  unfold State.headerTouches
  split
  · exact s.touchStart_only _
  · exact s.only_refl _ _

theorem State.headerIn_only (s : State) (c : Nat) (u : MUnit) :
    s.only (s.headerIn c u) [.mc, .mtr] fun r => r = MC_INGRESS c :=
  State.only_trans (State.only_trans (State.only_mono (s.modTgt_only _ _) (by simp) fun _ h => h.elim)
    (State.only_mono (State.modChan_only _ _ _) (by simp) fun _ h => h.elim))
    (State.only_mono (State.maxFld_only _ _ _) (by simp) fun _ h => h)

theorem State.headerIn_chan {s : State} {c : Nat} (h : c < s.mc.chans.length) (u : MUnit) : (s.headerIn c u).chan c =
    { s.chan c with ingress := (s.chan c).ingress ++ [s.unitIn c u], ord := (s.chan c).ord + 1 } :=
  (State.chan_modChan _ _ _ _ h).trans (if_pos rfl)

theorem State.headerIn_door {s : State} {c : Nat} (h : c < s.mtr.targets.length) (u : MUnit) :
    ((s.headerIn c u).tgt c).door = none :=
  congrArg Tgt.door ((State.tgt_modTgt s c c _ h).trans (if_pos rfl))

/-- A channel that is not down is one that the state has. -/
theorem State.chan_exists {s : State} {c : Nat} (h : (s.chan c).st ≠ .down) : c < s.mc.chans.length := by
  by_contra hc
  exact h (by simp [State.chan, List.getD_eq_getElem?_getD, List.getElem?_eq_none (Nat.le_of_not_lt hc)])

/-- A target with a header at its door is one that the state has. -/
theorem State.tgt_exists {s : State} {t : Nat} {u : MUnit} (h : (s.tgt t).door = some u) : t < s.mtr.targets.length := by
  by_contra ht
  simp [State.tgt, List.getD_eq_getElem?_getD, List.getElem?_eq_none (Nat.le_of_not_lt ht)] at h

/-- The room of an ingress buffer on its own (R142, R170). -/
theorem Chan.room_iff (h : Chan) (m : Nat) : h.room [] m = true ↔
    h.ingress.length < 64 ∧ (privileged m = true ∨ (h.ingress.filter fun v => !privileged v.master).length < 56) := by
  simp [Chan.room]

theorem exec_channelRequestAccept (s : State) (c : Fin 32) :
    exec (.channelRequestAccept c) s = execChannelRequestAccept c s := rfl

theorem exec_channelRequestAccept_empty {s : State} {c : Fin 32} (h : (s.tgt c).door = none) :
    exec (.channelRequestAccept c) s = .next s := by
  rw [exec_channelRequestAccept]
  simp only [execChannelRequestAccept, h]

theorem exec_channelRequestAccept_stays {s : State} {c : Fin 32} {u : MUnit} (h : (s.tgt c).door = some u)
    (hr : (s.chan c).st ≠ .active ∨ (s.chan c).room [] u.master = false) : exec (.channelRequestAccept c) s = .next s := by
  rw [exec_channelRequestAccept]
  simp only [execChannelRequestAccept, h, if_pos hr]

theorem exec_channelRequestAccept_enters {s : State} {c : Fin 32} {u : MUnit} (h : (s.tgt c).door = some u)
    (ha : (s.chan c).st = .active) (hr : (s.chan c).room [] u.master = true) :
    exec (.channelRequestAccept c) s = .next (((s.headerIn c u).headerTouches u).fillBanks c) := by
  have hn : ¬((s.chan c).st ≠ .active ∨ (s.chan c).room [] u.master = false) := by simp [ha, hr]
  rw [exec_channelRequestAccept]
  simp only [execChannelRequestAccept, h, if_neg hn]
  rfl

/-- A header enters: its channel's buffer has it, the door is free, and the frame of what moved. -/
theorem State.headerEnters {s : State} {c : Nat} {u : MUnit} (h : (s.tgt c).door = some u) (ha : (s.chan c).st = .active) :
    let v := (s.headerIn c u).headerTouches u
    (v.chan c).ingress = (s.chan c).ingress ++ [s.unitIn c u] ∧ (v.tgt c).door = none ∧
    s.only v [.mc, .mtr, .keep] fun r => r = MC_INGRESS c ∨ r = KEEP_TOUCH := by
  have htouch := (s.headerIn c u).headerTouches_only u
  have hmc : ((s.headerIn c u).headerTouches u).mc = (s.headerIn c u).mc := State.only_part htouch .mc
  have hmtr : ((s.headerIn c u).headerTouches u).mtr = (s.headerIn c u).mtr := State.only_part htouch .mtr
  refine ⟨?_, ?_, State.only_trans (State.only_mono (s.headerIn_only c u) (by simp) fun _ h => .inl h)
    (State.only_mono htouch (by simp) fun _ h => .inr h)⟩
  · rw [State.chan, hmc]
    exact congrArg Chan.ingress (State.headerIn_chan (State.chan_exists (by simp [ha])) u)
  · rw [State.tgt, hmtr]
    exact State.headerIn_door (State.tgt_exists h) u

/-! ### What a slot comes to (R147, R154, R161) -/

section
variable {s : State} {c pc : Nat} (obs : List CellObs)

theorem State.slotIssues_refresh {x : Nat × Cmd × Bool} (h : s.pickRefresh c pc = some x) :
    s.slotIssues c pc obs = s.issueCmd c pc obs x.2.2 false x.1 x.2.1 := by
  simp only [State.slotIssues, h]

theorem State.slotIssues_request {x : Nat × Cmd} (h : s.pickRefresh c pc = none) (h' : s.pickRequest c pc = some x) :
    s.slotIssues c pc obs = s.issueCmd c pc obs false false x.1 x.2 := by
  simp only [State.slotIssues, h, h']

theorem State.slotIssues_pullIn {x : Nat × Cmd × Bool} (h : s.pickRefresh c pc = none) (h' : s.pickRequest c pc = none)
    (h'' : s.pickPullIn c pc = some x) : s.slotIssues c pc obs = s.issueCmd c pc obs false true x.1 x.2.1 := by
  simp only [State.slotIssues, h, h', h'']

theorem State.slotIssues_none (h : s.pickRefresh c pc = none) (h' : s.pickRequest c pc = none)
    (h'' : s.pickPullIn c pc = none) : s.slotIssues c pc obs = s := by
  simp only [State.slotIssues, h, h', h'']

theorem State.slot_idle (h : (s.chan c).st ≠ .active) (h' : (s.chan c).st ≠ .draining) : s.slot c pc obs = s :=
  if_pos ⟨h, h'⟩

theorem State.slot_open (h : (s.chan c).st = .active ∨ (s.chan c).st = .draining) :
    s.slot c pc obs = (((s.slotOpens c pc).slotIssues c pc obs).slotEnds c pc).drained c :=
  if_neg fun hn => h.elim hn.1 hn.2

end

/-- Settles O27: a header by what stands at the door and the room inside, a slot by the channel's state and what it picks. -/
theorem channelsAcceptAndSlot : Obligations.ChannelsAcceptAndSlot := by
  unfold Obligations.ChannelsAcceptAndSlot
  intro s c
  refine ⟨exec_channelRequestAccept_empty, fun u hu => ⟨fun h => ?_, fun ha hlen hcls => ?_⟩,
    fun pc obs => ⟨fun h h' => ?_, fun h => ?_⟩⟩
  · refine exec_channelRequestAccept_stays hu (h.imp_right fun h => ?_)
    rw [← Bool.not_eq_true, Chan.room_iff]
    rintro ⟨hlen, hcls⟩
    rcases h with h | ⟨hp, h⟩
    · omega
    · rcases hcls with hcls | hcls
      · simp [hp] at hcls
      · omega
  · exact ⟨_, exec_channelRequestAccept_enters hu ha ((Chan.room_iff _ _).2 ⟨hlen, hcls⟩), State.headerEnters hu ha⟩
  · exact congrArg (fun t : State => Host.Outcome.next t.waitCheck) (State.slot_idle obs h h')
  · refine congrArg (fun t : State => Host.Outcome.next t.waitCheck) ((State.slot_open obs h).trans ?_)
    refine congrArg (fun t : State => (t.slotEnds c pc).drained c) ?_
    split
    next i cmd forced hr => exact State.slotIssues_refresh obs hr
    next i cmd hr hq => exact State.slotIssues_request obs hr hq
    next i cmd _ hr hq hp => exact State.slotIssues_pullIn obs hr hq hp
    next hr hq hp => exact State.slotIssues_none obs hr hq hp

end Sys2Proof.Machine

/-! SUPPORT. An update of the temperatures: what it does to the lid, the sensors, the estimates, a course's refresh band and its
throttle step (R157, R328, R331, R333-R336), and O50. -/

namespace Sys2Proof.Machine

theorem State.post_thm (s : State) (c v u d : Nat) : (s.post c v u d).thm = s.thm :=
  State.only_part (s.post_only c v u d) .thm (by simp [wires])

theorem State.post_mc (s : State) (c v u d : Nat) : (s.post c v u d).mc = s.mc :=
  State.only_part (s.post_only c v u d) .mc (by simp [wires])

theorem State.ite_post_thm (s : State) (b : Prop) [Decidable b] (c v u d : Nat) :
    (if b then s.post c v u d else s).thm = s.thm := by
  split
  · exact s.post_thm _ _ _ _
  · rfl

/-! ### The lid and the sensors at an update (R328, R331) -/

/-- An update of the lid leaves the rest of the thermal part. -/
theorem State.lidUpdate_thm (s : State) (aim : Int) :
    ∃ l d h, (s.lidUpdate aim).thm = { s.thm with lid := l, lidDef := d, lidHot := h } := by
  unfold State.lidUpdate
  extract_lets
  split
  · exact ⟨_, _, _, rfl⟩
  · exact ⟨_, _, _, State.ite_post_thm _ _ _ _ _ _⟩

/-- With a trusted sensor on the uppermost courses the lid moves toward its aim by at most 0.05 °C (R328). -/
theorem State.lidUpdate_lid {s : State} {l : Int} (hl : s.thm.lid = some l)
    (ht : ∃ n < 88, 15 ≤ sensorPos n ∧ s.trusted n = true) (aim : Int) :
    (s.lidUpdate aim).thm.lid = some (max (l - 5) (min (l + 5) aim)) := by
  have hany : ((List.range 88).any fun n => 15 ≤ sensorPos n && s.trusted n) = true := by
    obtain ⟨n, hn, hpos, htr⟩ := ht
    exact List.any_eq_true.2 ⟨n, List.mem_range.2 hn, by simp [hpos, htr]⟩
  unfold State.lidUpdate
  rw [if_neg (by simp [hany])]
  simp only [State.ite_post_thm, hl]

/-- Holding the sensors against their nodes leaves the rest of the thermal part. -/
theorem State.checkSensors_thm (s : State) : ∃ ss, s.checkSensors.thm = { s.thm with sensors := ss } := by
  unfold State.checkSensors
  refine List.foldlRecOn (motive := fun t : State => ∃ ss, t.thm = { s.thm with sensors := ss }) _ _ ⟨_, rfl⟩ ?_
  rintro t ⟨ss, ht⟩ n -
  have hmod (f : Sensor → Sensor) : ∃ ss, (t.modSensor n f).thm = { s.thm with sensors := ss } :=
    ⟨modAt ss n f, by simp only [State.modSensor, ht]⟩
  dsimp only
  split
  · exact hmod _
  · rw [State.ite_post_thm]
    exact hmod _

/-! ### The estimates (R333, R334) -/

/-- The estimate that the quadrants of a course give it: the highest, and none where one has none. -/
def courseEst (q : List (Option Int × Bool)) : Option Int :=
  if q.any (fun x => x.1.isNone) = true then none else (q.map (·.1)).foldl optMax none

/-- The courses with their estimates formed anew. -/
def State.coursesNext (s : State) : List Crs :=
  (s.thm.crs.zipIdx).map fun c =>
    let q := ((List.range 20).map s.quadEsts).getD c.2 []
    { c.1 with est := courseEst q, src := (q.zipIdx.map fun x => if x.1.2 then 2 ^ x.2 else 0).sum }

/-- The highest estimates seen, as the registers hold them (R342). -/
def State.crsMax (s : State) (n : Nat) : State :=
  match (s.thm.crs.getD n {}).est with
  | none => s
  | some e =>
    let t := tempReg (some e)
    let m := s.fld (THM_CRSMAX_MAX n)
    if m = 0x8000 ∨ (m + 32768) % 65536 < (t + 32768) % 65536 then s.setFld (THM_CRSMAX_MAX n) t else s

theorem State.estimate_eq (s : State) :
    s.estimate = (List.range 20).foldl State.crsMax { s with thm := { s.thm with crs := s.coursesNext } } := by
  simp only [State.estimate, State.coursesNext, courseEst, List.foldl_map]
  rfl

theorem State.crsMax_only (s : State) (n : Nat) : s.only (s.crsMax n) [] fun r => r = THM_CRSMAX n := by
  unfold State.crsMax
  split
  · exact s.only_refl _ _
  · dsimp only
    split
    · exact s.setFld_only _ _
    · exact s.only_refl _ _

theorem State.setThm_only (s : State) (t : Thm) : s.only { s with thm := t } [.thm] fun _ => False := by
  refine ⟨fun p => ?_, fun _ => Or.inr rfl⟩
  cases p <;> first | exact Or.inr rfl | exact Or.inl (by simp)

theorem State.crsMaxes_only (s : State) :
    s.only ((List.range 20).foldl State.crsMax s) [] fun r => ∃ n < 20, r = THM_CRSMAX n :=
  State.only_foldl _ _ _ fun s n hn =>
    State.only_mono (s.crsMax_only n) (by simp) fun _ h => ⟨n, List.mem_range.1 hn, h⟩

theorem State.estimate_only (s : State) : s.only s.estimate [.thm] fun r => ∃ n < 20, r = THM_CRSMAX n := by
  rw [State.estimate_eq]
  exact State.only_trans (State.only_mono (s.setThm_only _) (by simp) fun _ h => h.elim)
    (State.only_mono (State.crsMaxes_only _) (by simp) fun _ h => h)

theorem State.estimate_thm (s : State) : s.estimate.thm = { s.thm with crs := s.coursesNext } := by
  rw [State.estimate_eq]
  exact State.only_part (State.crsMaxes_only _) .thm

theorem State.estimate_est {s : State} (hlen : s.thm.crs.length = 20) {p : Nat} (hp : p < 20) :
    (s.estimate.thm.crs.getD p {}).est = courseEst (s.quadEsts p) := by
  rw [State.estimate_thm]
  simp [State.coursesNext, List.getD_eq_getElem?_getD, hlen, hp]

/-- A quadrant's sensors are among the 88 of the stack. -/
theorem quadSensors_lt {pos q n : Nat} (hq : q < 4) (h : n ∈ quadSensors pos q) : n < 88 := by
  unfold quadSensors at h
  split at h
  · obtain ⟨i, hi, rfl⟩ := List.mem_map.1 h
    have := List.mem_range.1 hi
    omega
  · split at h
    · have := List.mem_singleton.1 h
      omega
    · cases h

section
variable {s t : State} (hs : t.thm.sensors = s.thm.sensors) (hm : ∀ n < 88, t.masked n = s.masked n)
include hs hm

theorem State.quadSensor_congr (pos : Nat) {q : Nat} (hq : q < 4) : t.quadSensor pos q = s.quadSensor pos q := by
  unfold State.quadSensor
  refine List.foldl_ext _ _ _ fun b n hn => ?_
  have hx : t.sensor n = s.sensor n := by simp only [State.sensor, hs]
  rw [hx, hm n (quadSensors_lt hq hn)]

theorem State.quadSilent_congr (pos : Nat) {q : Nat} (hq : q < 4) : t.quadSilent pos q = s.quadSilent pos q := by
  have h : ((quadSensors pos q).filter fun n => !t.masked n) = (quadSensors pos q).filter fun n => !s.masked n :=
    List.filter_congr fun n hn => by rw [hm n (quadSensors_lt hq hn)]
  simp only [State.quadSilent, h, State.sensor, hs]

/-- A quadrant's estimate while the model runs rests on its nodes, its sensors and their masks (R333). -/
theorem State.quadModel_congr (hn : t.thm.nodes = s.thm.nodes) (pos : Nat) {q : Nat} (hq : q < 4) :
    t.quadModel pos q = s.quadModel pos q := by
  simp only [State.quadModel, hn, State.quadSensor_congr hs hm pos hq, State.quadSilent_congr hs hm pos hq]

/-- The quadrants' estimates rest on the nodes, the sensors, their masks and whether the model runs. -/
theorem State.quadEsts_congr (hn : t.thm.nodes = s.thm.nodes) (hmodel : t.thm.model = s.thm.model) (pos : Nat) :
    t.quadEsts pos = s.quadEsts pos := by
  have hmod : (List.range 4).map (t.quadModel pos) = (List.range 4).map (s.quadModel pos) :=
    List.map_congr_left fun q hq => State.quadModel_congr hs hm hn pos (List.mem_range.1 hq)
  have hown : ((List.range 4).map fun q => (t.quadSensor pos q).map (· + 200)) =
      (List.range 4).map fun q => (s.quadSensor pos q).map (· + 200) :=
    List.map_congr_left fun q hq => by rw [State.quadSensor_congr hs hm pos (List.mem_range.1 hq)]
  unfold State.quadEsts
  rw [hmodel, hmod, hown]
  dsimp only
  refine if_congr Iff.rfl rfl (List.map_congr_left fun e he => ?_)
  have hlt : e.2 < 4 := by
    have := List.snd_lt_of_mem_zipIdx he
    simpa using this
  rw [State.quadSilent_congr hs hm pos hlt]

end

theorem State.quadEsts_estimate (s : State) (pos : Nat) : s.estimate.quadEsts pos = s.quadEsts pos := by
  have hm (n : Nat) (hn : n < 88) : s.estimate.masked n = s.masked n := by
    unfold State.masked
    rw [State.only_reg_eq s.estimate_only]
    rintro ⟨m, hm, h⟩
    simp only [THM_SENSMASK, THM_CRSMAX] at h
    omega
  exact State.quadEsts_congr (by rw [State.estimate_thm]) hm (by rw [State.estimate_thm]) (by rw [State.estimate_thm]) pos

/-! ### The two updates (R328, R333, R334) -/

theorem exec_thermalModelUpdate_none {s : State} (h : s.thm.model = false ∨ s.dev = .off ∨ s.dev = .aux) (nodes : List Int)
    (lid : Int) : exec (.thermalModelUpdate nodes lid) s = .next s := congrArg Host.Outcome.next (if_pos h)

theorem exec_hwEstimateUpdate_none {s : State} (h : s.thm.model = true ∨ s.dev = .off ∨ s.dev = .aux) :
    exec .hwEstimateUpdate s = .next s := congrArg Host.Outcome.next (if_pos h)

theorem exec_hwEstimateUpdate {s : State} (hm : s.thm.model = false) (ho : s.dev ≠ .off) (ha : s.dev ≠ .aux) :
    exec .hwEstimateUpdate s = .next s.estimate.thermalActs :=
  congrArg Host.Outcome.next (if_neg (by simp [hm, ho, ha]))

/-- The nodes as the firmware has computed them. -/
def State.nodesSet (s : State) (nodes : List Int) : State :=
  { s with thm := { s.thm with nodes := (List.range 80).map fun n => nodes.getD n (s.thm.nodes.getD n 0) } }

theorem exec_thermalModelUpdate {s : State} (hm : s.thm.model = true) (ho : s.dev ≠ .off) (ha : s.dev ≠ .aux)
    (nodes : List Int) (lid : Int) : exec (.thermalModelUpdate nodes lid) s =
      .next (((s.nodesSet nodes).lidUpdate lid).checkSensors.estimate.thermalActs) :=
  congrArg Host.Outcome.next (if_neg (by simp [hm, ho, ha]))

theorem State.nodesSet_nodes (s : State) {nodes : List Int} {n : Nat} {x : Int} (hn : n < 80) (hx : nodes[n]? = some x) :
    (s.nodesSet nodes).thm.nodes.getD n 0 = x := by
  simp [State.nodesSet, List.getD_eq_getElem?_getD, hn, hx]

/-! ### The refresh band (R157) -/

/-- The debts of a channel's banks after a change of band (R157). -/
def State.debtsShifted (old new : Nat) (s : State) (c : Nat) : State := s.modChan c fun h => { h with
  pcs := h.pcs.map fun p => { p with banks := p.banks.map fun b => { b with debt := debtShift old new b.debt } } }

/-- The event of a channel whose refreshes are forced by a change of band (R157). -/
def State.noteForced (s : State) (c : Nat) : State :=
  let due := ((s.chan c).pcs.map fun p => p.banks.map fun (b : Bank) => (b.debt - (s.refCap c : Int)).toNat).flatten.filter
    (0 < ·)
  if due.isEmpty then s else s.post 0x0481 1 c (min 65535 due.sum + 65536 * due.length)

theorem State.noteForced_mc (s : State) (c : Nat) : (s.noteForced c).mc = s.mc := by
  unfold State.noteForced
  dsimp only
  split
  · rfl
  · exact s.post_mc _ _ _ _

theorem State.setBand_ne {s : State} {d new : Nat} (h : new ≠ s.mc.band.getD d 1) (est : Int) :
    s.setBand d new est = [2 * d, 2 * d + 1].foldl State.noteForced
      (([2 * d, 2 * d + 1].foldl (State.debtsShifted (s.mc.band.getD d 1) new)
        { s with mc := { s.mc with band := setAt s.mc.band d new } }).post 0x0480 0 (d + 3)
          (new + 4 * s.mc.band.getD d 1 + 256 * twos 8 (est / 100))) :=
  if_neg h

/-- A course's band reads as it is set. -/
theorem State.setBand_band {s : State} {d : Nat} (h : d < s.mc.band.length) (new : Nat) (est : Int) :
    (s.setBand d new est).mc.band.getD d 1 = new := by
  by_cases hn : new = s.mc.band.getD d 1
  · rw [State.setBand, if_pos hn, hn]
  · rw [State.setBand_ne hn, List.foldl_cons, List.foldl_cons, List.foldl_nil, State.noteForced_mc, State.noteForced_mc,
      State.post_mc]
    exact (getD_setAt _ _ _ _ _ h).trans (if_pos rfl)

/-- The updates in a row below 93.0 °C and below 83.0 °C (R157). -/
def lowRuns (e : Int) (l : Nat × Nat) : Nat × Nat :=
  (if e < 9300 then min 10 (l.1 + 1) else 0, if e < 8300 then min 10 (l.2 + 1) else 0)

/-- The band that an estimate asks for, from the band in force and the runs below the limits (R157). -/
def bandAsked (e : Int) (old : Nat) (l : Nat × Nat) : Nat :=
  if 9500 ≤ e then 3
  else if 8500 ≤ e ∧ old < 2 then 2
  else if old = 3 ∧ l.1 = 10 then (if l.2 = 10 then 1 else 2)
  else if old = 2 ∧ l.2 = 10 then 1
  else old

/-- The band of a course after an update (R157, R334). -/
def State.bandNext (s : State) (d : Nat) (e : Int) : Nat :=
  let old := s.mc.band.getD d 1
  let new := max (bandAsked e old (lowRuns e (s.mc.bandLow.getD d (0, 0)))) (s.bandMin d)
  if s.thm.model then new else max new old

theorem State.bandUpdate_band {s : State} {d : Nat} {e : Int} (hd : d < s.mc.band.length)
    (he : (s.thm.crs.getD (d + 3) {}).est = some e) : (s.bandUpdate d).mc.band.getD d 1 = s.bandNext d e := by
  have hmin (m : Mc) : ({ s with mc := m } : State).bandMin d = s.bandMin d := rfl
  unfold State.bandUpdate
  simp only [he, hmin]
  rw [State.setBand_band]
  · rfl
  · exact hd

/-- From 95 °C up an estimate asks for band 3, from 85 °C up for 2 at least, and from 93 °C up it does not end band 3
(R157). -/
theorem bandAsked_bounds (e : Int) (old : Nat) (l : Nat × Nat) : let new := bandAsked e old (lowRuns e l)
    (9500 ≤ e → 3 ≤ new) ∧ (8500 ≤ e → 2 ≤ new) ∧ (9300 ≤ e → old = 3 → 3 ≤ new) := by
  have h93 (h : 9300 ≤ e) : (lowRuns e l).1 = 0 := if_neg (by omega)
  have h83 (h : 8300 ≤ e) : (lowRuns e l).2 = 0 := if_neg (by omega)
  unfold bandAsked
  refine ⟨fun h => ?_, fun h => ?_, fun h ho => ?_⟩
  · simp [h]
  · have h2 := h83 (by omega)
    split_ifs <;> omega
  · have h1 := h93 h
    have h2 := h83 (by omega)
    split_ifs <;> omega

theorem State.bandNext_bounds (s : State) (d : Nat) (e : Int) : let b := s.mc.band.getD d 1
    (9500 ≤ e → 3 ≤ s.bandNext d e) ∧ (8500 ≤ e → 2 ≤ s.bandNext d e) ∧ (s.thm.model = false → b ≤ s.bandNext d e) ∧
    s.bandMin d ≤ s.bandNext d e ∧ (9300 ≤ e → b = 3 → 3 ≤ s.bandNext d e) := by
  intro b
  obtain ⟨h95, h85, h93⟩ := bandAsked_bounds e b (s.mc.bandLow.getD d (0, 0))
  have hle : max (bandAsked e b (lowRuns e (s.mc.bandLow.getD d (0, 0)))) (s.bandMin d) ≤ s.bandNext d e := by
    unfold State.bandNext
    dsimp only
    split
    · exact le_rfl
    · exact le_max_left _ _
  have hasked := (le_max_left _ _).trans hle
  refine ⟨fun h => (h95 h).trans hasked, fun h => (h85 h).trans hasked, fun hm => ?_, (le_max_right _ _).trans hle,
    fun h hb => (h93 h hb).trans hasked⟩
  simp only [State.bandNext, hm]
  exact le_max_right _ _

/-! ### WARN and the throttle step (R335, R336) -/

/-- The thresholds in force for a course (R335). -/
def State.thresholdsNow (s : State) (pos : Nat) : List Int :=
  (thresholds pos).map (· - if pos = 1 ∨ pos = 2 then 0 else 100 * (s.fld THM_CTL_LOWER : Int))

/-- WARN of a course whose dwells have been counted (R335). -/
def Crs.warnNext (c : Crs) : Bool := if c.reached 0 then true else if c.released 0 then false else c.warn

/-- The step of a course whose dwells have been counted (R335, R336). -/
def Crs.stepNext (c : Crs) (model : Bool) : Nat :=
  if c.step < c.top then c.top else if 0 < c.step && c.released c.step && model then c.step - 1 else c.step

/-- A course after an update (R335, R336). -/
def State.crsNext (s : State) (pos : Nat) : Crs :=
  let c := (s.thm.crs.getD pos {}).dwell (s.thresholdsNow pos)
  { c with warn := c.warnNext, step := c.stepNext s.thm.model }

theorem State.stepUpdate_crs (s : State) (pos : Nat) : (s.stepUpdate pos).thm.crs = setAt s.thm.crs pos (s.crsNext pos) := by
  unfold State.stepUpdate
  extract_lets low c est warn step thm s1 s2
  have h1 : s1.thm.crs = setAt s.thm.crs pos (s.crsNext pos) := rfl
  have h2 : s2.thm = s1.thm := by
    unfold s2
    split
    · exact State.post_thm _ _ _ _ _
    · exact State.ite_post_thm _ _ _ _ _ _
  split
  · rw [h2, h1]
  · rw [State.post_thm, h2, h1]

/-- Counting the dwells leaves WARN and the step. -/
theorem Crs.dwell_step (c : Crs) (ths : List Int) : (c.dwell ths).step = c.step := by
  unfold Crs.dwell
  split <;> rfl

/-- A threshold that counts toward being reached lies at or below the estimate; one that counts toward being released lies more
than 3.0 °C above it (R335, R336). -/
theorem Crs.dwell_counts (c : Crs) (ths : List Int) (i : Nat) :
    ((c.dwell ths).hi.getD i 0 ≠ 0 → ∃ e t, c.est = some e ∧ ths[i]? = some t ∧ t ≤ e) ∧
    ((c.dwell ths).lo.getD i 0 ≠ 0 → ∃ e t, c.est = some e ∧ ths[i]? = some t ∧ e < t - 300) := by
  have hmap (f : Nat → Nat) (h : ((List.range 4).map f).getD i 0 ≠ 0) : f i ≠ 0 := by
    by_cases hi : i < 4
    · simpa [List.getD_eq_getElem?_getD, hi] using h
    · simp [List.getD_eq_getElem?_getD, hi] at h
  have hzero : ([0, 0, 0, 0] : List Nat).getD i 0 = 0 := by
    match i with
    | 0 | 1 | 2 | 3 | _ + 4 => rfl
  unfold Crs.dwell
  cases he : c.est with
  | none => exact ⟨fun h => absurd hzero h, fun h => absurd hzero h⟩
  | some e =>
    dsimp only
    refine ⟨fun h => ?_, fun h => ?_⟩
    · replace h := hmap _ h
      split at h
      next t ht => exact ⟨e, t, rfl, ht, by by_contra hn; simp [hn] at h⟩
      next => simp at h
    · replace h := hmap _ h
      split at h
      next t ht => exact ⟨e, t, rfl, ht, by by_contra hn; simp [hn] at h⟩
      next => simp at h

/-- A threshold that is reached is not released: the one asks the estimate to be at or above it, the other below it. -/
theorem Crs.released_of_reached {c : Crs} {ths : List Int} {i : Nat} (h : (c.dwell ths).reached i = true) :
    (c.dwell ths).released i = false := by
  obtain ⟨hhi, hlo⟩ := c.dwell_counts ths i
  obtain ⟨e, t, he, ht, hle⟩ := hhi (by rw [eq_of_beq h]; decide)
  refine Bool.eq_false_iff.2 fun hr => ?_
  obtain ⟨e', t', he', ht', hlt⟩ := hlo (by rw [eq_of_beq hr]; decide)
  cases he.symm.trans he'
  cases ht.symm.trans ht'
  omega

/-- The highest step whose threshold is reached is one whose threshold is reached. -/
theorem Crs.reached_top {c : Crs} (h : 0 < c.top) : c.reached c.top = true := by
  unfold Crs.top at h ⊢
  split_ifs at h ⊢ <;> first | assumption | omega

theorem Crs.stepNext_bounds {c : Crs} (h : c.reached c.top = true → c.released c.top = false) (model : Bool) :
    c.stepNext model ≤ max c.step c.top ∧ c.step ≤ c.stepNext model + 1 ∧ c.top ≤ c.stepNext model ∧
    (model = false → c.step ≤ c.stepNext model) := by
  unfold Crs.stepNext
  split
  · omega
  next hge =>
    split
    next hfall =>
      simp only [Bool.and_eq_true, decide_eq_true_eq] at hfall
      obtain ⟨⟨hpos, hrel⟩, hm⟩ := hfall
      have hne : c.top ≠ c.step := fun he => by
        have := h (Crs.reached_top (by omega))
        simp [he, hrel] at this
      have hlt : c.top ≤ c.step - 1 := by omega
      exact ⟨by omega, by omega, hlt, by simp [hm]⟩
    · omega

theorem State.crsNext_bounds (s : State) (pos : Nat) : let c := s.thm.crs.getD pos {}; let c' := s.crsNext pos
    c'.step ≤ max c.step c'.top ∧ c.step ≤ c'.step + 1 ∧ c'.top ≤ c'.step ∧ (s.thm.model = false → c.step ≤ c'.step) ∧
    (c'.reached 0 = true → c'.warn = true) := by
  intro c c'
  have h := Crs.stepNext_bounds (c := c.dwell (s.thresholdsNow pos)) Crs.released_of_reached s.thm.model
  rw [Crs.dwell_step] at h
  obtain ⟨hle, hfall, htop, hm⟩ := h
  exact ⟨hle, hfall, htop, hm, fun hr => if_pos hr⟩

/-- Settles O50: the estimates from their quadrants, a course's band by what its estimate asks for, its step by the dwells. -/
theorem estimatesAct : Obligations.EstimatesAct := by
  unfold Obligations.EstimatesAct
  refine ⟨fun s nodes lid => ⟨fun h => exec_thermalModelUpdate_none h _ _, exec_hwEstimateUpdate_none, ?_, ?_⟩, ?_, ?_⟩
  · intro hm ho ha hlen
    obtain ⟨l, d, h, hlid⟩ := (s.nodesSet nodes).lidUpdate_thm lid
    obtain ⟨ss, hss⟩ := ((s.nodesSet nodes).lidUpdate lid).checkSensors_thm
    refine ⟨_, exec_thermalModelUpdate hm ho ha nodes lid, fun n hn x hx => ?_, fun l hl ht => ?_, fun p hp => ?_⟩
    · rw [State.estimate_thm, hss, hlid]
      exact s.nodesSet_nodes hn hx
    · refine ⟨max (l - 5) (min (l + 5) lid), ?_, by omega, by omega⟩
      rw [State.estimate_thm, hss]
      exact State.lidUpdate_lid (s := s.nodesSet nodes) hl ht lid
    · rw [State.estimate_est (by rw [hss, hlid]; exact hlen) hp, State.quadEsts_estimate]
      rfl
  · intro hm ho ha hlen
    exact ⟨_, exec_hwEstimateUpdate hm ho ha, fun p hp => State.estimate_est hlen hp, s.estimate_only⟩
  · intro s d e hd hlen he
    simp only [State.bandUpdate_band (hlen.symm ▸ hd) he]
    exact s.bandNext_bounds d e
  · intro s p hp
    simp only [State.stepUpdate_crs]
    rw [getD_setAt _ _ _ _ _ hp, if_pos rfl]
    obtain ⟨hle, hfall, htop, hmodel, hwarn⟩ := s.crsNext_bounds p
    exact ⟨hle, hfall, htop, hmodel, hwarn, fun m hm => by rw [getD_setAt _ _ _ _ _ hp, if_neg hm]⟩

end Sys2Proof.Machine

/-! SUPPORT. Mortar's loops and parts: what a loop over the masters or the targets leaves in each of them, and what each update of
one leaves of the others. -/

namespace Sys2Proof.Machine

/-! ### Loops over the masters and the targets -/

/-- A loop whose round `n` takes entry `n` to what `v n` makes of it, and leaves the other entries, takes each entry there once;
each round may count on what every round keeps. -/
theorem foldl_range_once {σ α : Type} {get : σ → Nat → α} {f : σ → Nat → σ} {v : Nat → α → α} {I : σ → Prop} {k : Nat}
    (hI : ∀ n < k, ∀ t, I t → I (f t n)) (hset : ∀ n < k, ∀ t, I t → get (f t n) n = v n (get t n))
    (hkeep : ∀ n < k, ∀ t, I t → ∀ j, j ≠ n → get (f t n) j = get t j) {s : σ} (hs : I s) :
    I ((List.range k).foldl f s) ∧ ∀ j, get ((List.range k).foldl f s) j = if j < k then v j (get s j) else get s j := by
  induction k with
  | zero => exact ⟨hs, fun _ => rfl⟩
  | succ k ih =>
    obtain ⟨hk, hget⟩ := ih (fun n hn => hI n (by omega)) (fun n hn => hset n (by omega)) fun n hn => hkeep n (by omega)
    rw [List.range_succ, List.foldl_append, List.foldl_cons, List.foldl_nil]
    refine ⟨hI k (by omega) _ hk, fun j => ?_⟩
    by_cases hj : j = k
    · subst hj
      rw [hset j (by omega) _ hk, hget, if_neg (by omega), if_pos (by omega)]
    · rw [hkeep k (by omega) _ hk j hj, hget]
      exact if_congr (by omega) rfl rfl

/-! ### One master, one target -/

theorem State.modMaster_length (s : State) (m : Nat) (f : Master → Master) :
    (s.modMaster m f).mtr.masters.length = s.mtr.masters.length := length_modAt _ _ _

theorem State.modTgt_length (s : State) (t : Nat) (f : Tgt → Tgt) :
    (s.modTgt t f).mtr.targets.length = s.mtr.targets.length := length_modAt _ _ _

/-- A master that can be found is there, and reads as it is found. -/
theorem State.master_of_getElem? {s : State} {m : Nat} {x : Master} (h : s.mtr.masters[m]? = some x) :
    m < s.mtr.masters.length ∧ s.master m = x :=
  ⟨(List.getElem?_eq_some_iff.1 h).1, by simp [State.master, List.getD_eq_getElem?_getD, h]⟩

theorem State.tgt_of_getElem? {s : State} {t : Nat} {g : Tgt} (h : s.mtr.targets[t]? = some g) :
    t < s.mtr.targets.length ∧ s.tgt t = g :=
  ⟨(List.getElem?_eq_some_iff.1 h).1, by simp [State.tgt, List.getD_eq_getElem?_getD, h]⟩

/-- A master that is not as an absent one reads is one that the state has. -/
theorem State.master_exists {s : State} {m : Nat} (h : s.master m ≠ {}) : m < s.mtr.masters.length := by
  by_contra hm
  exact h (by simp [State.master, List.getD_eq_getElem?_getD, List.getElem?_eq_none (Nat.le_of_not_lt hm)])

theorem State.tgt_present {s : State} {t : Nat} (h : s.tgt t ≠ {}) : t < s.mtr.targets.length := by
  by_contra ht
  exact h (by simp [State.tgt, List.getD_eq_getElem?_getD, List.getElem?_eq_none (Nat.le_of_not_lt ht)])

theorem State.tgt_modTgt_self {s : State} {t : Nat} (h : t < s.mtr.targets.length) (f : Tgt → Tgt) :
    (s.modTgt t f).tgt t = f (s.tgt t) := (s.tgt_modTgt t t f h).trans (if_pos rfl)

theorem State.tgt_modTgt_ne (s : State) {t j : Nat} (f : Tgt → Tgt) (h : j ≠ t) : (s.modTgt t f).tgt j = s.tgt j := by
  by_cases ht : t < s.mtr.targets.length
  · rw [s.tgt_modTgt t j f ht, if_neg h]
  · exact s.tgt_modTgt_out t j f (Nat.le_of_not_lt ht)

theorem State.master_modMaster_ne (s : State) {m j : Nat} (f : Master → Master) (h : j ≠ m) :
    (s.modMaster m f).master j = s.master j := by
  by_cases hm : m < s.mtr.masters.length
  · rw [s.master_modMaster m j f hm, if_neg h]
  · exact s.master_modMaster_out m j f (Nat.le_of_not_lt hm)

theorem State.master_modMaster_self {s : State} {m : Nat} (h : m < s.mtr.masters.length) (f : Master → Master) :
    (s.modMaster m f).master m =
      { f (s.master m) with waited := (f (s.master m)).waited && s.masterBusy m (f (s.master m)) } :=
  (s.master_modMaster m m f h).trans (if_pos rfl)

/-- An update of a target that changes nothing of it changes nothing. -/
theorem State.modTgt_id {s : State} {t : Nat} {f : Tgt → Tgt} (h : f (s.tgt t) = s.tgt t) : s.modTgt t f = s := by
  have hl : modAt s.mtr.targets t f = s.mtr.targets := by
    by_cases ht : t < s.mtr.targets.length
    · have hg : s.mtr.targets[t]? = some (s.tgt t) := by simp [State.tgt, List.getD_eq_getElem?_getD, ht]
      obtain ⟨hlt, hx⟩ := List.getElem?_eq_some_iff.1 hg
      rw [modAt_eq_set hg, h, ← hx, List.set_getElem_self hlt]
    · exact List.modify_eq_self (Nat.le_of_not_lt ht)
  rw [State.modTgt, hl]

end Sys2Proof.Machine

/-! SUPPORT. Mortar's handshakes and beats (R167, R175-R178, R181, R183): the arbiter's winner, the header that enters a target, the
beat of a transfer that goes on, and O32. -/

namespace Sys2Proof.Machine

/-! ### The arbiter (R175, R176) -/

/-- Key, rank and turn of a master as one number: the order in which the arbiter compares. -/
def State.arbScore (s : State) (rank : List Nat) (last m : Nat) : Nat :=
  (s.arbKey m * 8 + rank.getD m 0) * 8 + (7 - cycDist last m)

theorem State.arbWin_cons (s : State) (rank : List Nat) (last m : Nat) (ms : List Nat) :
    s.arbWin rank last (m :: ms) = match s.arbWin rank last ms with
      | none => some m
      | some w => if s.arbScore rank last w < s.arbScore rank last m then some m else some w := rfl

/-- Somebody wins where somebody asks. -/
theorem State.arbWin_eq_none {s : State} {rank : List Nat} {last : Nat} {ms : List Nat} (h : s.arbWin rank last ms = none) :
    ms = [] := by
  cases ms with
  | nil => rfl
  | cons m ms =>
    rw [State.arbWin_cons] at h
    split at h
    · cases h
    · split at h <;> cases h

/-- The winner asks, and nobody who asks has a higher score. -/
theorem State.arbWin_max {s : State} {rank : List Nat} {last w : Nat} {ms : List Nat} (h : s.arbWin rank last ms = some w) :
    w ∈ ms ∧ ∀ m ∈ ms, s.arbScore rank last m ≤ s.arbScore rank last w := by
  induction ms generalizing w with
  | nil => cases h
  | cons m ms ih =>
    rw [State.arbWin_cons] at h
    cases hw : s.arbWin rank last ms with
    | none =>
      simp only [hw, Option.some.injEq] at h
      simp [State.arbWin_eq_none hw, h]
    | some a =>
      obtain ⟨ha, hmax⟩ := ih hw
      simp only [hw] at h
      split at h <;> obtain rfl := Option.some.inj h
      next hlt =>
        refine ⟨List.mem_cons_self, List.forall_mem_cons.2 ⟨le_rfl, fun j hj => (hmax j hj).trans hlt.le⟩⟩
      next hle =>
        exact ⟨List.mem_cons_of_mem _ ha, List.forall_mem_cons.2 ⟨Nat.le_of_not_lt hle, hmax⟩⟩

theorem cycDist_lt (last m : Nat) : cycDist last m < 8 := Nat.mod_lt _ (by omega)

/-- Ranks of at most 7 compare by key first, then by rank, then by turn. -/
theorem State.arbScore_le {s : State} {rank : List Nat} {last m w : Nat} (hrank : ∀ r ∈ rank, r < 8)
    (h : s.arbScore rank last m ≤ s.arbScore rank last w) :
    s.arbKey m < s.arbKey w ∨ (s.arbKey m = s.arbKey w ∧ (rank.getD m 0 < rank.getD w 0 ∨
      (rank.getD m 0 = rank.getD w 0 ∧ cycDist last w ≤ cycDist last m))) := by
  have hr (j : Nat) : rank.getD j 0 < 8 := by
    rw [List.getD_eq_getElem?_getD]
    cases hj : rank[j]? with
    | none => simp
    | some r => exact hrank r (List.mem_of_getElem? hj)
  have hrm := hr m
  have hrw := hr w
  have hcm := cycDist_lt last m
  have hcw := cycDist_lt last w
  unfold State.arbScore at h
  omega

/-! ### The header that enters a target (R142, R167, R177) -/

/-- What stands at a target beside its arbiters is the same. -/
def Tgt.Stays (g g' : Tgt) : Prop := g'.hdrs = g.hdrs ∧ g'.door = g.door ∧ g'.xfers = g.xfers

theorem Tgt.Stays.refl (g : Tgt) : g.Stays g := ⟨rfl, rfl, rfl⟩

/-- An update that leaves what stands at a target, at whichever target it is made. -/
theorem State.modTgt_stays (s : State) (t : Nat) {f : Tgt → Tgt} (h : ∀ g : Tgt, g.Stays (f g)) :
    (s.tgt t).Stays ((s.modTgt t f).tgt t) := by
  by_cases ht : t < s.mtr.targets.length
  · rw [State.tgt_modTgt_self ht]
    exact h _
  · rw [s.tgt_modTgt_out t t f (Nat.le_of_not_lt ht)]
    exact Tgt.Stays.refl _

/-- The masters that ask at a target rest on what stands at it and on its channel. -/
theorem State.askers_congr {s u : State} {t : Nat} (h : (s.tgt t).Stays (u.tgt t)) (hmc : u.mc = s.mc) :
    u.askers t = s.askers t := by
  obtain ⟨hhdrs, hdoor, -⟩ := h
  simp only [State.askers, State.chan, hhdrs, hdoor, hmc]

/-- The ranks of the request arbiter as a header enters whose master was not picked before (R176). -/
def State.ranked (s : State) (t m : Nat) : State :=
  if (s.tgt t).pick.isSome then s
  else s.modTgt t fun g => { g with rank := rerank g.rank (s.askers t) m, last := m }

theorem State.ranked_only (s : State) (t m : Nat) : s.only (s.ranked t m) [.mtr] fun _ => False :=
  ite_has (s.only · _ _) (s.only_refl _ _) (s.modTgt_only _ _)

theorem State.ranked_stays (s : State) (t m : Nat) : (s.tgt t).Stays ((s.ranked t m).tgt t) :=
  ite_has (fun u : State => (s.tgt t).Stays (u.tgt t)) (Tgt.Stays.refl _) (s.modTgt_stays t fun _ => ⟨rfl, rfl, rfl⟩)

theorem State.ranked_length (s : State) (t m : Nat) : (s.ranked t m).mtr.targets.length = s.mtr.targets.length :=
  ite_has (fun u : State => u.mtr.targets.length = s.mtr.targets.length) rfl (s.modTgt_length _ _)

/-- Whom an update leaves picked at a target is whom it picks there: a target that does not exist has nobody picked. -/
theorem State.modTgt_pick {s : State} {t w : Nat} {f : Tgt → Tgt} (h : ((s.modTgt t f).tgt t).pick = some w) :
    (f (s.tgt t)).pick = some w := by
  have ht := State.tgt_present (s := s.modTgt t f) (t := t) fun h' => by simp [h'] at h
  rw [s.modTgt_length] at ht
  rwa [State.tgt_modTgt_self ht] at h

/-- The pick of the next header moves the arbiter alone, and whom it picks asks (R176, R177). -/
theorem State.pickNext_spec (s : State) (t : Nat) :
    (s.tgt t).Stays ((s.pickNext t).tgt t) ∧ s.only (s.pickNext t) [.mtr] (fun _ => False) ∧
    ∀ w, ((s.pickNext t).tgt t).pick = some w → w ∈ s.askers t := by
  unfold State.pickNext
  dsimp only
  split
  next =>
    exact ⟨s.modTgt_stays t fun _ => ⟨rfl, rfl, rfl⟩, s.modTgt_only _ _,
      fun w h => nomatch (State.modTgt_pick h : none = some w)⟩
  next m hm =>
    refine ⟨s.modTgt_stays t fun _ => ⟨rfl, rfl, rfl⟩, s.modTgt_only _ _, fun w h => ?_⟩
    obtain rfl : m = w := Option.some.inj (State.modTgt_pick h)
    exact (State.arbWin_max hm).1

theorem Tgt.enter_hdrs (g : Tgt) (t : Nat) (u : MUnit) : (g.enter t (some u)).hdrs = g.hdrs.erase u := by
  unfold Tgt.enter
  dsimp only
  split <;> rfl

theorem Tgt.enter_channel (g : Tgt) {t : Nat} (h : t < 32) (u : MUnit) :
    (g.enter t (some u)).door = some u ∧ (g.enter t (some u)).xfers = g.xfers := by
  simp [Tgt.enter, h]

theorem Tgt.enter_direct (g : Tgt) {t : Nat} (h : 32 ≤ t) (u : MUnit) : (g.enter t (some u)).door = g.door ∧
    (g.enter t (some u)).xfers = g.xfers ++ [{ unit := u, beats := beatsAt t u, out := false }] := by
  simp [Tgt.enter, Nat.not_lt.2 h]

/-- The state once the header of a master has entered a target and the next is picked. -/
def State.entered (s : State) (t m : Nat) (u : MUnit) : State :=
  ((s.ranked t m).modTgt t fun g => g.enter t (some u)).pickNext t

theorem State.entered_only (s : State) (t m : Nat) (u : MUnit) : s.only (s.entered t m u) [.mtr] fun _ => False :=
  State.only_trans (State.only_trans (s.ranked_only t m) (State.modTgt_only _ _ _)) (State.pickNext_spec _ t).2.1

section
variable {s : State} {t : Nat} {u : MUnit} (hu : u ∈ (s.tgt t).hdrs) (m : Nat)
include hu

/-- What stands at a target once a header has entered it is what entering makes of what stood there. -/
theorem State.entered_tgt : ∃ g, (s.tgt t).Stays g ∧ (g.enter t (some u)).Stays ((s.entered t m u).tgt t) := by
  have ht : t < (s.ranked t m).mtr.targets.length := by
    rw [s.ranked_length]
    exact State.tgt_present fun h => by simp [h] at hu
  refine ⟨_, s.ranked_stays t m, ?_⟩
  rw [← State.tgt_modTgt_self ht fun g => g.enter t (some u)]
  exact (State.pickNext_spec _ t).1

theorem State.entered_hdrs : ((s.entered t m u).tgt t).hdrs = (s.tgt t).hdrs.erase u := by
  obtain ⟨g, ⟨hhdrs, -⟩, he, -⟩ := State.entered_tgt hu m
  rw [he, g.enter_hdrs, hhdrs]

theorem State.entered_channel (h : t < 32) :
    ((s.entered t m u).tgt t).door = some u ∧ ((s.entered t m u).tgt t).xfers = (s.tgt t).xfers := by
  obtain ⟨g, ⟨-, -, hx⟩, -, hdoor, hxfers⟩ := State.entered_tgt hu m
  obtain ⟨hd', hx'⟩ := g.enter_channel h u
  exact ⟨hdoor.trans hd', hxfers.trans (hx'.trans hx)⟩

theorem State.entered_direct (h : 32 ≤ t) : ((s.entered t m u).tgt t).door = (s.tgt t).door ∧
    ((s.entered t m u).tgt t).xfers = (s.tgt t).xfers ++ [{ unit := u, beats := beatsAt t u, out := false }] := by
  obtain ⟨g, ⟨-, hd, hx⟩, -, hdoor, hxfers⟩ := State.entered_tgt hu m
  obtain ⟨hd', hx'⟩ := g.enter_direct h u
  exact ⟨hdoor.trans (hd'.trans hd), hxfers.trans (hx'.trans (by rw [hx]))⟩

end

/-- Who is picked for the next header asks in the state that the handshake leaves. -/
theorem State.entered_pick (s : State) (t m : Nat) (u : MUnit) {w : Nat} (h : ((s.entered t m u).tgt t).pick = some w) :
    w ∈ (s.entered t m u).askers t := by
  obtain ⟨hstays, honly, hpick⟩ := State.pickNext_spec ((s.ranked t m).modTgt t fun g => g.enter t (some u)) t
  exact (State.askers_congr hstays (State.only_part honly .mc)) ▸ hpick w h

theorem exec_mortarHeaderHandshake (s : State) (t : Fin 34) :
    exec (.mortarHeaderHandshake t) s = execMortarHeaderHandshake t s := rfl

theorem exec_mortarHeaderHandshake_door {s : State} {t : Fin 34} (h : (s.tgt t).door.isSome = true) :
    exec (.mortarHeaderHandshake t) s = .next s := congrArg Host.Outcome.next (if_pos h)

theorem exec_mortarHeaderHandshake_nobody {s : State} {t : Fin 34} (h : (s.tgt t).pick = none) (ha : s.askers t = []) :
    exec (.mortarHeaderHandshake t) s = .next s := by
  rw [exec_mortarHeaderHandshake]
  unfold execMortarHeaderHandshake
  simp only [h, ha, State.arbWin, ite_self]

/-- The header of the master picked before, or of the winner where none is, enters a target whose door is free. -/
theorem exec_mortarHeaderHandshake_enters {s : State} {t : Fin 34} {m : Nat} {u : MUnit} (hdoor : (s.tgt t).door = none)
    (hm : (s.tgt t).pick = some m ∨ ((s.tgt t).pick = none ∧ s.arbWin (s.tgt t).rank (s.tgt t).last (s.askers t) = some m))
    (hu : (s.tgt t).hdrs.find? (fun u => u.master == m) = some u) :
    exec (.mortarHeaderHandshake t) s = .next (s.entered t m u) := by
  rw [exec_mortarHeaderHandshake]
  unfold execMortarHeaderHandshake
  rcases hm with hp | ⟨hp, hw⟩
  · simp [hdoor, hp, hu, State.entered, State.ranked]
  · simp [hdoor, hp, hw, hu, State.entered, State.ranked]

/-! ### The beat of a transfer that goes on (R167, R178, R181, R183) -/

/-- The first transfer of a master, passed through a function that keeps its unit, is again the master's first. -/
theorem find?_modFirst {f : Xfer → Xfer} (hf : ∀ x, (f x).unit = x.unit) {m : Nat} {xs : List Xfer} {x : Xfer}
    (h : xs.find? (fun x => x.unit.master == m) = some x) :
    (modFirst f m xs).find? (fun x => x.unit.master == m) = some (f x) := by
  induction xs with
  | nil => cases h
  | cons y ys ih =>
    by_cases hy : y.unit.master = m
    · rw [List.find?_cons_of_pos (by simpa using hy)] at h
      obtain rfl := Option.some.inj h
      rw [modFirst, if_pos hy, List.find?_cons_of_pos (by simpa [hf] using hy)]
    · rw [List.find?_cons_of_neg (by simpa using hy)] at h
      rw [modFirst, if_neg hy, List.find?_cons_of_neg (by simpa using hy)]
      exact ih h

/-- What the transfers of the other masters wait while a master's moves (R180). -/
def othersWait (o n : Nat) (y : Xfer) : Xfer := if y.unit.master = o then y else { y with waited := y.waited + n }

theorem othersWait_unit (o n : Nat) (y : Xfer) : (othersWait o n y).unit = y.unit := by
  unfold othersWait
  split <;> rfl

/-- The first transfer of a master is not touched by what the others wait. -/
theorem find?_othersWait {o n : Nat} {xs : List Xfer} {x : Xfer} (h : xs.find? (fun x => x.unit.master == o) = some x) :
    (xs.map (othersWait o n)).find? (fun x => x.unit.master == o) = some x := by
  have hx : x.unit.master = o := by simpa using List.find?_some h
  have hp : ((fun x : Xfer => x.unit.master == o) ∘ othersWait o n) = fun x => x.unit.master == o := by
    funext y
    simp only [Function.comp_apply, othersWait_unit]
  rw [List.find?_map, hp, h, Option.map_some, othersWait, if_pos hx]

/-- A target whose owner's transfer has moved a beat of `n` bytes. -/
def Tgt.beat (g : Tgt) (o n : Nat) : Tgt :=
  { g with
    burst := g.burst + max 1 (n / 64), since256 := g.since256 + n
    xfers := (modFirst (fun x => { x with moved := x.moved + 1 }) o g.xfers).map (othersWait o n) }

theorem Tgt.beat_xferOf {g : Tgt} {o : Nat} {x : Xfer} (h : g.xferOf o = some x) (n : Nat) :
    (g.beat o n).xferOf o = some { x with moved := x.moved + 1 } :=
  find?_othersWait (find?_modFirst (f := fun x => { x with moved := x.moved + 1 }) (fun _ => rfl) h)

/-- The state once a beat has crossed a data path: its target, and a channel's cap (R183). -/
def State.beatCrossed (s : State) (t o : Nat) : State :=
  let u := s.modTgt t fun g => g.beat o (beatBytes t)
  if t < 32 then u.spend o t (beatBytes t) else u

/-- The bytes of a beat lower the meter of its master and are counted; those of a register access are counted alone (R181). -/
def State.pays (s : State) (t o n : Nat) : State := if t = 33 then s.add64 (MTR_BYTES_LO o) n else s.moved o n

/-- The stretch of 256 B that the grant has moved ends (R180). -/
def State.edgePassed (s : State) (t : Nat) : State :=
  if 256 ≤ (s.tgt t).since256 then s.modTgt t fun g => { g with since256 := 0 } else s

/-- An owner that nobody leads keeps the data path (R178, R179). -/
theorem State.beatOwner_keeps {s : State} {t o : Nat} {x : Xfer} (ho : (s.tgt t).owner = some o)
    (hlead : ∀ m ∈ (s.tgt t).movers t, s.arbKey m ≤ s.arbKey o) (hx : (s.tgt t).xferOf o = some x) : s.beatOwner t = s := by
  have hnone : ((s.tgt t).movers t).filter
      (fun m => decide (s.arbKey o < s.arbKey m) && !((s.tgt t).shield && privileged m)) = [] :=
    List.filter_eq_nil_iff.2 fun m hm => by simp [Nat.not_lt.2 (hlead m hm)]
  unfold State.beatOwner
  simp only [ho, hnone, hx, Option.isSome_some, List.isEmpty_nil, Bool.true_eq_false, and_false, false_and, if_false, if_true]

/-- A transfer with beats left crosses and pays. -/
theorem State.beatMoves_goesOn (s : State) (t o : Nat) {x : Xfer} (h : x.moved + 1 < x.beats) :
    s.beatMoves t o x = (s.beatCrossed t o).pays t o (beatBytes t) := by
  unfold State.beatMoves State.pays State.beatCrossed
  dsimp only
  rw [if_pos h]
  by_cases ht : t = 33
  · subst ht
    rfl
  · rw [if_neg ht, if_neg ht]
    rfl

/-- A grant goes on while its owner, of no class that a boundary cuts, has data to move and burst left (R178, R180). -/
theorem State.beatEnds_goesOn {s : State} {t o : Nat} (hp : privileged o = false) {y : Xfer} (hx : (s.tgt t).xferOf o = some y)
    (hb : (s.tgt t).burst < max 1 (min 64 (s.actFld (MTR_BURST_GRAN o)))) : s.beatEnds t o = s.edgePassed t := by
  unfold State.beatEnds State.edgePassed
  have hact : (s.modTgt t fun g => { g with since256 := 0 }).actFld (MTR_BURST_GRAN o) = s.actFld (MTR_BURST_GRAN o) := rfl
  by_cases he : 256 ≤ (s.tgt t).since256 <;> simp [hp, hx, he, hact, Nat.not_le.2 hb]

/-- What a beat pays does not touch the targets. -/
theorem State.pays_tgt (s : State) (t o n j : Nat) : (s.pays t o n).tgt j = s.tgt j := by
  unfold State.pays
  split <;> rfl

theorem State.pays_act (s : State) (t o n : Nat) : (s.pays t o n).act = s.act := by
  unfold State.pays
  split <;> rfl

/-- What a beat pays and the end of a stretch meet in either order. -/
theorem State.edgePassed_pays (s : State) (t o n : Nat) : (s.pays t o n).edgePassed t = (s.edgePassed t).pays t o n := by
  unfold State.edgePassed
  rw [State.pays_tgt]
  split
  · unfold State.pays
    split <;> rfl
  · rfl

theorem State.edgePassed_only (s : State) (t : Nat) : s.only (s.edgePassed t) [.mtr] fun _ => False :=
  ite_has (s.only · _ _) (s.modTgt_only _ _) (s.only_refl _ _)

theorem State.beatCrossed_only (s : State) (t o : Nat) : s.only (s.beatCrossed t o) [.mtr] fun _ => False :=
  ite_has (s.only · _ _) (State.only_trans (s.modTgt_only _ _) (State.spend_only _ _ _ _)) (s.modTgt_only _ _)

/-- The target of a beat whose master is not of class P: the beat, and the cap that a channel's target has left. -/
theorem State.beatCrossed_tgt {s : State} {t o : Nat} (ht : t < s.mtr.targets.length) (hp : privileged o = false) :
    (s.beatCrossed t o).tgt t = { (s.tgt t).beat o (beatBytes t) with
      capLeft := if t < 32 then (s.tgt t).capLeft - beatBytes t else (s.tgt t).capLeft } := by
  unfold State.beatCrossed State.spend
  by_cases h : t < 32
  · simp only [hp, h, if_true, Bool.false_eq_true, if_false]
    rw [State.tgt_modTgt_self (by rwa [s.modTgt_length]), State.tgt_modTgt_self ht]
    rfl
  · simp only [h, if_false]
    rw [State.tgt_modTgt_self ht]
    rfl

/-- The end of a stretch leaves the owner, the transfers, the burst and the cap. -/
theorem State.edgePassed_tgt (s : State) (t : Nat) : ∃ k, (s.edgePassed t).tgt t = { s.tgt t with since256 := k } := by
  unfold State.edgePassed
  split
  next h =>
    have ht : t < s.mtr.targets.length := State.tgt_present fun h' => by simp [h'] at h
    exact ⟨0, State.tgt_modTgt_self ht _⟩
  next => exact ⟨_, rfl⟩

theorem exec_mortarDataBeat (s : State) (t : Fin 34) : exec (.mortarDataBeat t) s = execMortarDataBeat t s := rfl

/-- A data path that nobody owns and nobody has data for stays as it is. -/
theorem exec_mortarDataBeat_idle {s : State} {t : Fin 34} (ho : (s.tgt t).owner = none) (hm : (s.tgt t).movers t = []) :
    exec (.mortarDataBeat t) s = .next s := by
  have hs : s.beatOwner t = s := by
    unfold State.beatOwner State.grantTo
    simp only [ho, hm, State.arbWin]
    exact State.modTgt_id (by rw [← ho])
  rw [exec_mortarDataBeat]
  unfold execMortarDataBeat
  simp only [hs, ho]

/-- The owner of a data path that nobody leads, within its burst and with beats left, moves one. -/
theorem exec_mortarDataBeat_moves {s : State} {t : Fin 34} {o : Nat} {x : Xfer} (ho : (s.tgt t).owner = some o)
    (hm : o ∈ (s.tgt t).movers t) (hlead : ∀ m ∈ (s.tgt t).movers t, s.arbKey m ≤ s.arbKey o)
    (hx : (s.tgt t).xferOf o = some x) (hbeats : x.moved + 1 < x.beats) (hp : privileged o = false)
    (hburst : (s.tgt t).burst + max 1 (beatBytes t / 64) < max 1 (min 64 (s.actFld (MTR_BURST_GRAN o)))) :
    exec (.mortarDataBeat t) s = .next (((s.beatCrossed t o).edgePassed t).pays t o (beatBytes t)) := by
  have ht := State.tgt_present (s := s) (t := t) fun h => by simp [h] at ho
  have hcross := State.beatCrossed_tgt ht hp
  have hin : ((s.tgt t).movers t).contains o = true := by simpa using hm
  have hact : (s.beatCrossed t o).act = s.act := State.only_part (s.beatCrossed_only t o) .act
  rw [exec_mortarDataBeat, ← State.edgePassed_pays]
  unfold execMortarDataBeat
  simp only [State.beatOwner_keeps ho hlead hx, ho, hx, hin, Bool.true_eq_false, if_false, s.beatMoves_goesOn _ _ hbeats]
  refine congrArg Host.Outcome.next (State.beatEnds_goesOn hp (y := { x with moved := x.moved + 1 }) ?_ ?_)
  · rw [State.pays_tgt, hcross]
    exact Tgt.beat_xferOf hx _
  · rw [State.pays_tgt, hcross, State.actFld, State.actReg, State.pays_act, hact]
    exact hburst

/-- Settles O32: the winner by the arbiter's score, a header by whose it is and where it goes, a beat by what crosses and what it
pays. -/
theorem mortarHandshakes : Obligations.MortarHandshakes := by
  unfold Obligations.MortarHandshakes
  refine ⟨fun s rank last ms w _ hrank _ h => ?_, fun s t => exec_mortarHeaderHandshake_door,
    fun s t => exec_mortarHeaderHandshake_nobody, fun s t m u hdoor hm hu => ?_, fun s t => exec_mortarDataBeat_idle,
    fun s t o x ho hm hlead hx hbeats hp => ?_⟩
  · obtain ⟨hw, hmax⟩ := State.arbWin_max h
    exact ⟨hw, fun m hm => State.arbScore_le hrank (hmax m hm)⟩
  · have hmem := List.mem_of_find?_eq_some hu
    exact ⟨_, exec_mortarHeaderHandshake_enters hdoor hm hu, State.entered_hdrs hmem m, State.entered_channel hmem m,
      fun ht => by simpa only [hdoor] using State.entered_direct hmem m ht, fun w => s.entered_pick t m u,
      s.entered_only t m u⟩
  · intro n hburst
    have ht := State.tgt_present (s := s) (t := t) fun h => by simp [h] at ho
    obtain ⟨k, htgt⟩ := (s.beatCrossed t o).edgePassed_tgt t
    rw [State.beatCrossed_tgt ht hp] at htgt
    refine ⟨(s.beatCrossed t o).edgePassed t, ?_, ?_, ?_, ?_, ?_,
      State.only_trans (s.beatCrossed_only t o) (State.edgePassed_only _ _)⟩
    · rw [exec_mortarDataBeat_moves ho hm hlead hx hbeats hp hburst, State.pays]
      simp only [Fin.ext_iff]
      rfl
    all_goals rw [htgt]
    · exact ho
    · exact Tgt.beat_xferOf hx _
    · rfl

end Sys2Proof.Machine

/-! SUPPORT. Requests that issue (R169, R172, R173): the units that a request is cut into, the accesses of the device's own masters
that follow, what leaves a master port, and O31. -/

namespace Sys2Proof.Machine

/-! ### Units (R169) -/

/-- The units of the granules from index `i` on cover them once, in order, and each stays within 256 B. -/
theorem cutUnits_spec {fuel g0 i n : Nat} (h : n ≤ i + fuel) :
    ((cutUnits fuel g0 i n).flatMap fun u => (List.range u.2).map fun j => g0 + u.1 + j) =
      (List.range' i (n - i)).map (g0 + ·) ∧
    ∀ u ∈ cutUnits fuel g0 i n, 1 ≤ u.2 ∧ u.2 ≤ 4 ∧ (g0 + u.1) / 4 = (g0 + u.1 + u.2 - 1) / 4 := by
  induction fuel generalizing i with
  | zero =>
    have hn : n - i = 0 := by omega
    simp [cutUnits, hn]
  | succ fuel ih =>
    by_cases hi : i < n
    swap
    · have hn : n - i = 0 := by omega
      simp [cutUnits, hi, hn]
    rw [cutUnits, if_pos hi]
    generalize hm : min (n - i) (4 - (g0 + i) % 4) = m
    obtain ⟨hcover, hbound⟩ := ih (i := i + m) (by omega)
    refine ⟨?_, List.forall_mem_cons.2 ⟨⟨by omega, by omega, by omega⟩, hbound⟩⟩
    have hunit : ((List.range m).map fun j => g0 + i + j) = (List.range' i m).map (g0 + ·) := by
      rw [List.range'_eq_map_range, List.map_map]
      exact List.map_congr_left fun j _ => Nat.add_assoc g0 i j
    have hsplit : List.range' i (n - i) = List.range' i m ++ List.range' (i + m) (n - (i + m)) := by
      rw [List.range'_append_1]
      congr 1
      omega
    rw [List.flatMap_cons, hcover, hsplit, List.map_append, ← hunit]

/-! ### The accesses of the device's own masters (R169, R172) -/

/-- What a round of a loop brings about, and the other rounds keep, holds after the loop. -/
theorem foldl_reaches {σ β : Type} {f : σ → β → σ} {I P : σ → Prop} {l : List β} {b : β} (hb : b ∈ l)
    (hI : ∀ t c, I t → I (f t c)) (hset : ∀ t, I t → P (f t b)) (hkeep : ∀ t c, I t → P t → P (f t c)) {s : σ} (hs : I s) :
    P (l.foldl f s) := by
  have keeps (l : List β) (s : σ) (hs : I s) (hP : P s) : P (l.foldl f s) := by
    induction l generalizing s with
    | nil => exact hP
    | cons c l ih => exact ih _ (hI _ _ hs) (hkeep _ _ hs hP)
  induction l generalizing s with
  | nil => cases hb
  | cons c l ih =>
    rcases List.mem_cons.1 hb with rfl | hb
    · exact keeps l _ (hI _ _ hs) (hset _ hs)
    · exact ih hb (hI _ _ hs)

/-- The header of a unit of an access of one of the device's own masters (R167, R169). -/
def State.ownHeader (s : State) (m : Nat) (a : Ask) (u : Nat × Nat) : MUnit :=
  { xact := 0, master := m, addr := 64 * u.1, gran := u.2, op := a.op, masks := List.replicate u.2 fullMask
    issued := s.clock, own := some a.own }

/-- A unit's header joins those that wait for its target. -/
def State.headerWaits (m : Nat) (a : Ask) (s : State) (u : Nat × Nat) : State :=
  s.modTgt (a.own.target u.1) fun t => { t with hdrs := t.hdrs ++ [s.ownHeader m a u] }

/-- The transfers under way of the device's own masters replaced. -/
def State.setWorks (s : State) (ws : List Work) : State := { s with mtr := { s.mtr with works := ws } }

/-- An access that follows: its granules outstanding at its port, and its headers on their way. -/
theorem State.follow_eq (s : State) (m : Nat) (a : Ask) : ∃ ws,
    s.follow m a = a.units.foldl (State.headerWaits m a)
      ((s.setWorks ws).modMaster m fun x => { x with ost := x.ost + a.grans }) :=
  ⟨_, rfl⟩

/-- A header that waits for a target goes on waiting while others join. -/
theorem State.headerWaits_keeps {s : State} {j : Nat} {h : MUnit} (hh : h ∈ (s.tgt j).hdrs) (m : Nat) (a : Ask) (u : Nat × Nat) :
    h ∈ ((s.headerWaits m a u).tgt j).hdrs := by
  unfold State.headerWaits
  by_cases hj : j = a.own.target u.1
  · subst hj
    rw [State.tgt_modTgt_self (State.tgt_present fun h' => by simp [h'] at hh)]
    exact List.mem_append_left _ hh
  · rwa [s.tgt_modTgt_ne _ hj]

/-- An access that follows adds its granules to those outstanding and leaves what waits at its port. -/
theorem State.follow_master {s : State} {m : Nat} {x : Master} (hx : s.mtr.masters[m]? = some x) (a : Ask) :
    ((s.follow m a).master m).ost = x.ost + a.grans ∧ ((s.follow m a).master m).asks = x.asks := by
  obtain ⟨hm, hxm⟩ := State.master_of_getElem? hx
  obtain ⟨ws, h⟩ := s.follow_eq m a
  rw [h, foldl_keeps (fun t : State => t.master m) (State.headerWaits m a) fun _ _ => rfl,
    State.master_modMaster_self (s := s.setWorks ws) hm]
  subst hxm
  exact ⟨rfl, rfl⟩

/-- Each unit of an access that follows has its header at its target. -/
theorem State.follow_headers {s : State} {a : Ask} {u : Nat × Nat} (hu : u ∈ a.units) (m : Nat)
    (ht : a.own.target u.1 < s.mtr.targets.length) :
    ∃ h ∈ ((s.follow m a).tgt (a.own.target u.1)).hdrs,
      h.master = m ∧ h.addr = 64 * u.1 ∧ h.gran = u.2 ∧ h.op = a.op ∧ h.own = some a.own := by
  obtain ⟨ws, h⟩ := s.follow_eq m a
  rw [h]
  refine foldl_reaches (I := fun t : State => a.own.target u.1 < t.mtr.targets.length)
    (P := fun t : State => ∃ h ∈ (t.tgt (a.own.target u.1)).hdrs,
      h.master = m ∧ h.addr = 64 * u.1 ∧ h.gran = u.2 ∧ h.op = a.op ∧ h.own = some a.own)
    hu (fun t c hI => (t.modTgt_length _ _).symm ▸ hI) (fun t hI => ⟨t.ownHeader m a u, ?_, rfl, rfl, rfl, rfl, rfl⟩)
    (fun t c _ => ?_) ht
  · rw [State.headerWaits, State.tgt_modTgt_self hI]
    exact List.mem_append_right _ List.mem_cons_self
  · rintro ⟨h, hh, hfields⟩
    exact ⟨h, State.headerWaits_keeps hh m a c, hfields⟩

/-! ### What leaves a master port (R172, R173) -/

/-- One of the two queues of a master port. -/
def Master.line (x : Master) (mgt : Bool) : List Parked := if mgt = true then x.mgt else x.req

/-- The head of one of the two queues has left it. -/
def Master.dropLine (x : Master) (mgt : Bool) : Master :=
  if mgt = true then { x with mgt := x.mgt.drop 1 } else { x with req := x.req.drop 1 }

/-- The state in which the request at the head of a queue is issued: it has left the queue and its receive buffer, and a write has
marked its page (R173, R243). -/
def State.released (s : State) (m : Nat) (mgt : Bool) (h : Parked) : State :=
  (((s.modMaster m fun x => x.dropLine mgt).takeRx h.port h.pkt).admitWrite h.pkt).1

theorem State.takeRx_lnk_modMaster (s : State) (m : Nat) (f : Master → Master) (p : Nat) (k : Pkt) :
    ((s.modMaster m f).takeRx p k).lnk = (s.takeRx p k).lnk := by
  have hport : (s.modMaster m f).port p = s.port p := rfl
  unfold State.takeRx
  rw [hport]
  split <;> rfl

section
variable {s : State} {m : Nat} {mgt : Bool} {h : Parked} {rest : List Parked}

theorem State.released_only : s.only (s.released m mgt h) [.mtr, .lnk, .keep] fun _ => False :=
  State.only_trans (State.only_trans (State.only_mono (s.modMaster_only _ _) (by simp) fun _ h => h)
    (State.only_mono (State.takeRx_only _ _ _) (by simp) fun _ h => h))
    (State.only_mono (State.admitWrite_only _ _) (by simp) fun _ h => h)

theorem State.released_lnk : (s.released m mgt h).lnk = (s.takeRx h.port h.pkt).lnk :=
  (State.only_part (State.admitWrite_only _ _) .lnk).trans (s.takeRx_lnk_modMaster _ _ _ _)

theorem State.released_keep : (s.released m mgt h).keep =
    if canWrite h.pkt = true then { s.keep with dirty := radd s.keep.dirty (pageOf h.pkt.addr.toNat) } else s.keep := by
  rw [State.released, State.admitWrite_keep]
  split <;> simp

theorem State.released_mtr : (s.released m mgt h).mtr = (s.modMaster m fun x => x.dropLine mgt).mtr := by
  refine (State.only_part (State.admitWrite_only _ _) .mtr).trans ?_
  simp

theorem State.released_line (hl : (s.master m).line mgt = h :: rest) : ((s.released m mgt h).master m).line mgt = rest := by
  have hm : m < s.mtr.masters.length := State.master_exists fun h' => by cases mgt <;> simp [h', Master.line] at hl
  rw [State.master, State.released_mtr]
  refine (congrArg (Master.line · mgt) (State.master_modMaster_self hm _)).trans ?_
  cases mgt <;> simp_all [Master.line, Master.dropLine]

end

theorem exec_masterPortAdmit (s : State) (m : Fin 8) (mgt : Bool) :
    exec (.masterPortAdmit m mgt) s = execMasterPortAdmit m mgt s := rfl

section
variable {s : State} {m : Fin 8} {mgt : Bool}

/-- With nothing parked, the accesses at the port go as far as they may. -/
theorem exec_masterPortAdmit_own (hl : (s.master m).line mgt = []) : exec (.masterPortAdmit m mgt) s = .next (s.serveAll m) := by
  unfold Master.line at hl
  rw [exec_masterPortAdmit]
  unfold execMasterPortAdmit
  simp only [hl]

section
variable {h : Parked} {rest : List Parked} (hl : (s.master m).line mgt = h :: rest)
include hl

/-- A request that a cause of R173, the device's state or a PORT reset holds stays where it is. -/
theorem exec_masterPortAdmit_held
    (hh : s.inService = false ∨ s.holdCause m h.pkt ≠ 0 ∨ (m.val < 4 ∧ (s.port m).rstHold = true)) :
    exec (.masterPortAdmit m mgt) s = .next s := by
  unfold Master.line at hl
  rw [exec_masterPortAdmit]
  unfold execMasterPortAdmit
  simp only [hl, if_pos hh]

/-- One that nothing holds is issued in the state that its release leaves. -/
theorem exec_masterPortAdmit_issues
    (hh : ¬(s.inService = false ∨ s.holdCause m h.pkt ≠ 0 ∨ (m.val < 4 ∧ (s.port m).rstHold = true))) :
    exec (.masterPortAdmit m mgt) s =
      .next ((s.released m mgt h).issue h.port h.pkt (s.keep.isDirty (pageOf h.pkt.addr.toNat))) := by
  unfold Master.line at hl
  rw [exec_masterPortAdmit]
  unfold execMasterPortAdmit
  simp only [hl, if_neg hh, State.released, Master.dropLine, State.admitWrite, State.takeRx_same, State.modMaster_same]

end

end

section
variable {s : State} {m : Nat} {a : Ask} {rest : List Ask}

theorem State.serveAll_none (h : (s.master m).asks = []) : s.serveAll m = s := by
  simp only [State.serveAll, h, List.length_nil, State.serve]

theorem State.serveAll_held (h : (s.master m).asks = a :: rest) (hc : s.ownCause m a.grans ≠ 0) : s.serveAll m = s := by
  simp only [State.serveAll, h, List.length_cons, State.serve, if_pos hc]

theorem State.serveAll_goes (h : (s.master m).asks = a :: rest) (hc : s.ownCause m a.grans = 0) :
    s.serveAll m = ((s.modMaster m fun x => { x with asks := rest }).follow m a).serve m rest.length := by
  simp only [State.serveAll, h, List.length_cons, State.serve, hc, ne_eq, not_true_eq_false, if_false]

end

/-- Settles O31: a port by what stands at its head, an access by what its headers and its granules leave, the units by the
recursion that cuts them. -/
theorem requestsIssued : Obligations.RequestsIssued := by
  unfold Obligations.RequestsIssued
  refine ⟨fun s m mgt => ⟨fun hl ha => ?_, fun hl a rest ha => ⟨fun hc => ?_, fun hc => ?_⟩, fun h rest hl => ⟨fun hh => ?_,
    fun hs hc hr => ?_⟩⟩, fun s m a x hx ht => ?_, fun g0 n => ?_⟩
  · rw [exec_masterPortAdmit_own hl, State.serveAll_none ha]
  · rw [exec_masterPortAdmit_own hl, State.serveAll_held ha hc]
  · rw [exec_masterPortAdmit_own hl, State.serveAll_goes ha hc]
  · exact exec_masterPortAdmit_held hl hh
  · have hn : ¬(s.inService = false ∨ s.holdCause m h.pkt ≠ 0 ∨ (m.val < 4 ∧ (s.port m).rstHold = true)) := by
      rintro (h' | h' | ⟨hm, h'⟩)
      · simp [hs] at h'
      · exact h' hc
      · exact hr.elim (by omega) (by simp [h'])
    exact ⟨s.released m mgt h, exec_masterPortAdmit_issues hl hn, State.released_line hl, State.released_lnk,
      State.released_keep, State.released_only⟩
  · obtain ⟨host, hasks⟩ := State.follow_master hx a
    exact ⟨host, hasks, fun u hu hlt => State.follow_headers hu m (ht.symm ▸ hlt), s.follow_only m a⟩
  · obtain ⟨hcover, hbound⟩ := cutUnits_spec (fuel := n + 1) (g0 := g0) (i := 0) (n := n) (by omega)
    exact ⟨by rw [hcover, List.range_eq_range', Nat.sub_zero], hbound⟩

end Sys2Proof.Machine

/-! SUPPORT. Mortar's meters, windows and committed guarantees (R181-R187, R190), and O33. -/

namespace Sys2Proof.Machine

/-! ### What the guarantees and the caps rest on (R182-R185, R188) -/

section
variable {s t : State}

theorem State.theta4_congr (h : t.thm = s.thm) (c : Nat) : t.theta4 c = s.theta4 c := by
  simp only [State.theta4, State.thrStep, h]

theorem State.fBand_congr (h : t.mc = s.mc) : t.fBand = s.fBand := by
  simp only [State.fBand, State.stackBand, h]

theorem State.chanHalves_congr (h : t.intg = s.intg) (c : Nat) : t.chanHalves c = s.chanHalves c := by
  have hw : t.words 2 = s.words 2 := by simp only [State.words, h]
  have hp (pc : Nat) : t.pcFenced c pc = s.pcFenced c pc := by
    unfold State.pcFenced State.chanFenced State.erasures State.erasedPins
    rw [hw]
  simp only [State.chanHalves, hp]

/-- The effective guarantees rest on the active copies, the throttle steps, the bands and the repairs in force. -/
theorem State.gEff_congr (hact : t.act = s.act) (hthm : t.thm = s.thm) (hmc : t.mc = s.mc) (hintg : t.intg = s.intg)
    (m : Nat) : t.gEff m = s.gEff m := by
  have hg (j : Nat) : t.gAct j = s.gAct j := by simp only [State.gAct, State.actFld, State.actReg, hact]
  have hsum : t.gSum = s.gSum := by simp only [State.gSum, List.map_congr_left fun j _ => hg j]
  have hnow : t.fNow = s.fNow := by
    simp only [State.fNow, State.fBand_congr hmc, State.theta4_congr hthm, State.chanHalves_congr hintg]
  simp only [State.gEff, hsum, hnow, hg]

theorem State.masterBusy_congr (h : t.chs = s.chs) (m : Nat) (x : Master) : t.masterBusy m x = s.masterBusy m x := by
  simp only [State.masterBusy, State.m4Waits, h]

theorem State.meterHolds_congr (h : t.dev = s.dev) (m : Nat) : t.meterHolds m = s.meterHolds m := by
  simp only [State.meterHolds, h]

end

/-- The registers that the end of a window may move: those that its event moves, and the counts of short windows. -/
def windowRegs (r : Nat) : Prop := inLtc r ∨ ∃ m < 8, r = MTR_GSHORT m

/-- A state of a loop over the masters that began in `s`: mortar has its masters, and nothing has moved but mortar, what an event
moves and the counts of short windows. -/
structure State.Metering (s t : State) : Prop where
  masters : t.mtr.masters.length = s.mtr.masters.length
  only : s.only t (.mtr :: wires) windowRegs

section
variable {s t : State} (h : s.Metering t)
include h

theorem State.Metering.gEff (m : Nat) : t.gEff m = s.gEff m := by
  refine State.gEff_congr ?_ ?_ ?_ ?_ m
  · exact State.only_part h.only .act (by decide)
  · exact State.only_part h.only .thm (by decide)
  · exact State.only_part h.only .mc (by decide)
  · exact State.only_part h.only .intg (by decide)

theorem State.Metering.masterBusy (m : Nat) (x : Master) : t.masterBusy m x = s.masterBusy m x :=
  State.masterBusy_congr (State.only_part h.only .chs (by decide)) m x

theorem State.Metering.meterHolds (m : Nat) : t.meterHolds m = s.meterHolds m :=
  State.meterHolds_congr (State.only_part h.only .dev (by decide)) m

theorem State.Metering.modMaster (m : Nat) (f : Master → Master) : s.Metering (t.modMaster m f) :=
  ⟨(t.modMaster_length m f).trans h.masters,
    h.only.andThen (t.modMaster_only m f) (by simp) fun _ h => h.elim⟩

theorem State.Metering.gshort {m : Nat} (hm : m < 8) : s.Metering (t.incFld (MTR_GSHORT_COUNT m) 1) :=
  ⟨h.masters, h.only.andThen (t.incFld_only _ _) (by simp) fun _ hr => .inr ⟨m, hm, hr⟩⟩

theorem State.Metering.post (c v u d : Nat) : s.Metering (t.post c v u d) :=
  ⟨by simp [h.masters], h.only.andThen (t.post_only c v u d) (by simp_all) fun _ hr => .inl hr⟩

end

theorem State.Metering.refl (s : State) : s.Metering s := ⟨rfl, s.only_refl _ _⟩

/-! ### The tenth of a microsecond (R181) -/

/-- A master whose meter has risen by its guarantee, up to its bound. -/
def State.metered (s : State) (m : Nat) (x : Master) : Master :=
  { x with
    meter := if s.gEff m = 0 ∨ s.meterHolds m = true then 0 else min (1000 * s.gEff m) (x.meter + (100 * s.gEff m : Nat)) }

/-- One master's part of a tick. -/
def State.meterOne (s : State) (m : Nat) : State := s.modMaster m (s.metered m)

theorem exec_guaranteeMeterTick (s : State) :
    exec .guaranteeMeterTick s = .next ((List.range 8).foldl State.meterOne s) := rfl

theorem State.Metering.metered {s t : State} (h : s.Metering t) (m : Nat) : t.metered m = s.metered m := by
  funext x
  simp only [State.metered, h.gEff, h.meterHolds]

/-- Each master of mortar is metered once in a tick, and one without anything to move has not waited (R181, R182). -/
theorem State.meterTick_master (s : State) {m : Nat} {x : Master} (hm : m < 8) (hx : s.mtr.masters[m]? = some x) :
    ((List.range 8).foldl State.meterOne s).master m = { x with
      meter := if s.gEff m = 0 ∨ s.meterHolds m = true then 0 else min (1000 * s.gEff m) (x.meter + (100 * s.gEff m : Nat))
      waited := x.waited && s.masterBusy m x } := by
  change _ = { s.metered m x with waited := x.waited && s.masterBusy m x }
  obtain ⟨hlt, rfl⟩ := State.master_of_getElem? hx
  have := (foldl_range_once (get := State.master) (f := State.meterOne) (k := 8)
    (I := fun t => s.Metering t)
    (v := fun m x => if m < s.mtr.masters.length then { s.metered m x with waited := x.waited && s.masterBusy m x } else x)
    (fun n _ t ht => ht.modMaster n _) (fun n _ t ht => ?_) (fun n _ t _ j hj => t.master_modMaster_ne _ hj)
    (State.Metering.refl s)).2 m
  · simpa only [hm, hlt, if_true] using this
  · dsimp only
    split
    next hn =>
      rw [State.meterOne, State.master_modMaster_self (ht.masters.symm ▸ hn), ht.metered, ht.masterBusy]
      rfl
    next hn => exact t.master_modMaster_out n n _ (ht.masters.trans_le (Nat.le_of_not_lt hn))

theorem State.meterTick_only (s : State) : s.only ((List.range 8).foldl State.meterOne s) [.mtr] fun _ => False :=
  State.only_foldl _ _ _ fun t m _ => t.modMaster_only m _

/-! ### The window of 10 µs (R182) -/

/-- A master had something to move throughout the window and fell more than 16 KiB short of its guarantee. -/
def State.fellShort (s : State) (m : Nat) (x : Master) : Bool :=
  x.waited && s.masterBusy m x && decide (x.winBytes + 16384 < s.gEff m * 10000)

/-- 0x0804 may say so: it has not in the second that ends with this window. -/
def State.shortDue (s : State) (x : Master) : Bool :=
  match x.shortAt with | none => true | some t => t + 10 ^ 9 ≤ s.clock

/-- The short windows of the second that ends with this one. -/
def State.shortTimes (s : State) (m : Nat) (x : Master) : List Nat :=
  (x.short.filter fun t => s.clock < t + 10 ^ 9) ++ (if s.fellShort m x then [s.clock] else [])

/-- A master whose window begins anew. -/
def State.windowed (s : State) (m : Nat) (x y : Master) : Master :=
  { y with
    winBytes := 0, waited := s.masterBusy m y, short := s.shortTimes m x
    shortAt := if s.fellShort m x && s.shortDue x then some s.clock else y.shortAt }

/-- One master's part of the end of a window. -/
def State.windowOne (s : State) (m : Nat) : State :=
  let x := s.master m
  let t := s.modMaster m (s.windowed m x)
  if s.fellShort m x then
    if s.shortDue x then (t.incFld (MTR_GSHORT_COUNT m) 1).post 0x0804 1 m (s.shortTimes m x).length
    else t.incFld (MTR_GSHORT_COUNT m) 1
  else t

theorem exec_guaranteeWindowEnd (s : State) :
    exec .guaranteeWindowEnd s = .next ((List.range 8).foldl State.windowOne s) := rfl

theorem State.Metering.fellShort {s t : State} (h : s.Metering t) (m : Nat) (x : Master) : t.fellShort m x = s.fellShort m x := by
  simp only [State.fellShort, h.masterBusy, h.gEff]

theorem State.Metering.windowOne {s t : State} (h : s.Metering t) {m : Nat} (hm : m < 8) : s.Metering (t.windowOne m) := by
  unfold State.windowOne
  dsimp only
  split
  · split
    · exact ((h.modMaster m _).gshort hm).post _ _ _ _
    · exact (h.modMaster m _).gshort hm
  · exact h.modMaster m _

/-- The masters that the end of one master's window leaves are those that its update leaves. -/
theorem State.windowOne_master (s : State) (m j : Nat) :
    (s.windowOne m).master j = (s.modMaster m (s.windowed m (s.master m))).master j := by
  have hinc (t : State) : (t.incFld (MTR_GSHORT_COUNT m) 1).master j = t.master j := rfl
  have hpost (t : State) (c v u d : Nat) : (t.post c v u d).master j = t.master j := by simp [State.master]
  unfold State.windowOne
  dsimp only
  split
  · split
    · rw [hpost, hinc]
    · rw [hinc]
  · rfl

theorem MTR_GSHORT_block (j : Nat) : MTR_GSHORT j / 0x100000 ≠ 4 := by
  simp only [MTR_GSHORT]; omega

/-- A short window counts for its master, and for no other. -/
theorem State.windowOne_count (s : State) (m j : Nat) :
    (s.windowOne m).fld (MTR_GSHORT_COUNT j) =
      if j = m ∧ s.fellShort m (s.master m) = true then satAdd 32 (s.fld (MTR_GSHORT_COUNT j)) 1
      else s.fld (MTR_GSHORT_COUNT j) := by
  have hinc (t : State) : (t.incFld (MTR_GSHORT_COUNT m) 1).fld (MTR_GSHORT_COUNT j) =
      if j = m then satAdd 32 (t.fld (MTR_GSHORT_COUNT j)) 1 else t.fld (MTR_GSHORT_COUNT j) := by
    split
    next h =>
      subst h
      exact t.fld_incFld_self 1 rfl
    next h => exact t.fld_incFld_ne _ _ _ fun he => by simp only [MTR_GSHORT_COUNT, MTR_GSHORT] at he; omega
  have hpost (t : State) (c v u d : Nat) : (t.post c v u d).fld (MTR_GSHORT_COUNT j) = t.fld (MTR_GSHORT_COUNT j) :=
    t.fld_post c v u d (MTR_GSHORT_block j)
  have hmod (f : Master → Master) : (s.modMaster m f).fld (MTR_GSHORT_COUNT j) = s.fld (MTR_GSHORT_COUNT j) := rfl
  unfold State.windowOne
  dsimp only
  split
  next h => split <;> simp only [hpost, hinc, hmod, h, and_true]
  next h => exact (hmod _).trans (if_neg fun h' => h h'.2).symm

theorem State.Metering.windowed {s t : State} (h : s.Metering t) (m : Nat) (x : Master) : t.windowed m x = s.windowed m x := by
  have hclock : t.clock = s.clock := State.only_part h.only .clock (by decide)
  have htimes : t.shortTimes m x = s.shortTimes m x := by
    unfold State.shortTimes
    rw [hclock, h.fellShort]
  have hdue : t.shortDue x = s.shortDue x := by
    unfold State.shortDue
    rw [hclock]
  funext y
  unfold State.windowed
  rw [htimes, hdue, h.fellShort, h.masterBusy, hclock]

/-- A master and its count of short windows, as the end of a window leaves them. -/
def State.windowLeaves (s : State) (m : Nat) (x : Master × Nat) : Master × Nat :=
  (if m < s.mtr.masters.length then
      { s.windowed m x.1 x.1 with waited := s.masterBusy m x.1 && s.masterBusy m (s.windowed m x.1 x.1) }
    else x.1,
    if s.fellShort m x.1 = true then satAdd 32 x.2 1 else x.2)

/-- The end of a window takes each master, and its count, to what its window leaves of it. -/
theorem State.windowEnd_spec (s : State) : s.Metering ((List.range 8).foldl State.windowOne s) ∧ ∀ m < 8,
    (((List.range 8).foldl State.windowOne s).master m, ((List.range 8).foldl State.windowOne s).fld (MTR_GSHORT_COUNT m)) =
      s.windowLeaves m (s.master m, s.fld (MTR_GSHORT_COUNT m)) := by
  have h := foldl_range_once (get := fun t m => (State.master t m, State.fld t (MTR_GSHORT_COUNT m))) (f := State.windowOne)
    (k := 8) (I := s.Metering) (v := s.windowLeaves) (fun n hn t ht => ht.windowOne hn) (fun n _ t ht => ?_)
    (fun n _ t _ j hj => ?_) (State.Metering.refl s)
  · exact ⟨h.1, fun m hm => (h.2 m).trans (if_pos hm)⟩
  · refine Prod.ext ?_ ((t.windowOne_count n n).trans ?_)
    · rw [State.windowOne_master, ht.windowed]
      unfold State.windowLeaves
      split
      next hn => rw [State.master_modMaster_self (ht.masters.symm ▸ hn), ht.masterBusy]; rfl
      next hn => exact t.master_modMaster_out n n _ (ht.masters.trans_le (Nat.le_of_not_lt hn))
    · simp only [State.windowLeaves, ht.fellShort, true_and]
  · refine Prod.ext ?_ ((t.windowOne_count n j).trans (if_neg fun h => hj h.1))
    rw [State.windowOne_master]
    exact t.master_modMaster_ne _ hj

/-! ### The microsecond of a channel's cap (R183) -/

/-- One channel's part of the renewal of the caps. -/
def State.capOne (s : State) (c : Nat) : State :=
  s.modTgt c fun t => { t with capLeft := s.theta4 c * s.fBand * 1000 / 128 }

theorem exec_throttleCapWindow (s : State) :
    exec .throttleCapWindow s = .next ((List.range 32).foldl State.capOne s) := rfl

theorem State.caps_only (s : State) : s.only ((List.range 32).foldl State.capOne s) [.mtr] fun _ => False :=
  State.only_foldl _ _ _ fun t c _ => t.modTgt_only c _

/-- Every channel's target has its cap anew. -/
theorem State.caps_tgt (s : State) {c : Nat} {g : Tgt} (hc : c < 32) (hg : s.mtr.targets[c]? = some g) :
    ((List.range 32).foldl State.capOne s).tgt c = { g with capLeft := s.theta4 c * s.fBand * 1000 / 128 } := by
  obtain ⟨hlt, rfl⟩ := State.tgt_of_getElem? hg
  have h := (foldl_range_once (get := State.tgt) (f := State.capOne) (k := 32)
    (I := fun t => t.mtr.targets.length = s.mtr.targets.length ∧ s.only t [.mtr] fun _ => False)
    (v := fun c g => if c < s.mtr.targets.length then { g with capLeft := s.theta4 c * s.fBand * 1000 / 128 } else g)
    (fun n _ t ht => ⟨(t.modTgt_length _ _).trans ht.1, State.only_trans ht.2 (t.modTgt_only _ _)⟩)
    (fun n _ t ht => ?_) (fun n _ t _ j hj => t.tgt_modTgt_ne _ hj) ⟨rfl, s.only_refl _ _⟩).2 c
  · simpa only [hc, hlt, if_true] using h
  · obtain ⟨hlen, honly⟩ := ht
    have hcap : t.theta4 n * t.fBand * 1000 / 128 = s.theta4 n * s.fBand * 1000 / 128 := by
      rw [State.theta4_congr (State.only_part honly .thm), State.fBand_congr (State.only_part honly .mc)]
    split
    next hn =>
      rw [State.capOne, hcap]
      exact State.tgt_modTgt_self (hlen.symm ▸ hn) _
    next hn => exact t.tgt_modTgt_out n n _ (hlen.trans_le (Nat.le_of_not_lt hn))

/-! ### The microsecond of a pace meter (R187) -/

/-- A pace meter has its rate, and its smallest so far. -/
def State.paceNoted (s : State) (n c : Nat) : State := (s.setFld (MTR_PACE_RATE n) c).minFld (MTR_PACE_MIN n) c

theorem State.fld_setMtr (s : State) (mtr : Mtr) (f : Fld) : ({ s with mtr := mtr } : State).fld f = s.fld f := rfl

theorem exec_paceMeterWindow (s : State) (n : Fin 16) (count : Nat) : ∃ mtr,
    let c := min count 4095
    let u := { s.paceNoted n c with mtr := mtr }
    exec (.paceMeterWindow n count) s =
      .next (if c < 1111 ∧ 1 ≤ s.mtr.low.getD n 0 ∧ s.mtr.lowPosted.getD n false = false then
        u.post 0x0805 2 0xFF (n + 65536 * c) else u) := by
  refine ⟨_, congrArg Host.Outcome.next (if_congr ?_ rfl rfl)⟩
  simp only [State.minFld_same, State.setFld_same, Bool.and_eq_true, beq_iff_eq, Bool.not_eq_true', decide_eq_true_eq,
    ← and_assoc]
  refine and_congr_left' ?_
  split <;> omega

theorem State.paceNoted_fld (s : State) (n : Nat) {c : Nat} (hc : c < 4096) :
    (s.paceNoted n c).fld (MTR_PACE_RATE n) = c ∧
    (s.paceNoted n c).fld (MTR_PACE_MIN n) = min (s.fld (MTR_PACE_MIN n)) c := by
  constructor
  · rw [State.paceNoted, State.fld_minFld_beside _ _ rfl, State.fld_setFld_lt s hc]
  · rw [State.paceNoted, State.fld_minFld _ _ rfl, State.fld_setFld_beside _ _ rfl]

theorem State.paceNoted_only (s : State) (n c : Nat) : s.only (s.paceNoted n c) [] fun r => r = MTR_PACE n :=
  State.only_trans (s.setFld_only (MTR_PACE_RATE n) _) (State.minFld_only _ (MTR_PACE_MIN n) _)

/-! ### A commit of the guarantees (R184, R185, R190) -/

theorem State.commitReg_only (s : State) (a : Nat) : s.only (s.commitReg a) [.act] fun _ => False := by
  refine ⟨fun p => ?_, fun _ => Or.inr rfl⟩
  cases p <;> first | exact Or.inr rfl | exact Or.inl (by simp)

/-- A register that is committed has its value in force; the others have what they had (R39). -/
theorem State.actReg_commitReg (s : State) (a b : Nat) : (s.commitReg a).actReg b = if b = a then s.reg a else s.actReg b := by
  by_cases h : b = a
  · subst h; simp [State.actReg, State.commitReg]
  · simp [State.actReg, State.commitReg, tgetD_tset_ne _ _ _ h, h]

/-- The registers of the shadow group of a master. -/
def shadowRegs (m r : Nat) : Prop := r = MTR_OSTD m ∨ r = MTR_MINBW m ∨ r = MTR_BURST m

/-- The shadows of a master limited to their ranges. -/
def State.limitMaster (s : State) (m : Nat) : State :=
  ((s.limitShadow (MTR_OSTD_GRAN m) 1 4096).limitShadow (MTR_MINBW_GBPS m) 0 2048).limitShadow (MTR_BURST_GRAN m) 1 64

/-- The shadows of a master become active. -/
def State.commitMaster (s : State) (m : Nat) : State :=
  ((s.commitReg (MTR_OSTD m)).commitReg (MTR_MINBW m)).commitReg (MTR_BURST m)

/-- One master's part of an accepted commit. -/
def State.applyMaster (s : State) (m : Nat) : State := (s.limitMaster m).commitMaster m

theorem State.mtrApply_eq (s : State) : s.mtrApply = (List.range 8).foldl State.applyMaster (s.commitReg MTR_CTL) := rfl

theorem State.commitMaster_only (s : State) (m : Nat) : s.only (s.commitMaster m) [.act] fun _ => False :=
  State.only_trans (State.only_trans (s.commitReg_only _) (State.commitReg_only _ _)) (State.commitReg_only _ _)

theorem State.limitMaster_only (s : State) (m : Nat) : s.only (s.limitMaster m) [] (shadowRegs m) :=
  (((s.only_refl _ _).setFld (.inl rfl)).setFld (.inr (.inl rfl))).setFld (.inr (.inr rfl))

theorem State.applyMaster_only (s : State) (m : Nat) : s.only (s.applyMaster m) [.act] (shadowRegs m) :=
  State.only_trans (State.only_mono (s.limitMaster_only m) (by simp) fun _ h => h)
    (State.only_mono (State.commitMaster_only _ m) (by simp) fun _ h => h.elim)

theorem State.mtrApply_only (s : State) :
    s.only s.mtrApply [.act] fun r => ∃ m < 8, shadowRegs m r := by
  rw [State.mtrApply_eq]
  exact State.only_trans (State.only_mono (s.commitReg_only _) (by simp) fun _ h => h.elim)
    (State.only_foldl _ _ _ fun t m hm =>
      State.only_mono (t.applyMaster_only m) (by simp) fun _ h => ⟨m, List.mem_range.1 hm, h⟩)

/-- The three shadows of a master: the outstanding limit, the guarantee, the burst. -/
def State.shadows (s : State) (m : Nat) : Nat × Nat × Nat :=
  (s.fld (MTR_OSTD_GRAN m), s.fld (MTR_MINBW_GBPS m), s.fld (MTR_BURST_GRAN m))

/-- The shadows within their fields' ranges (R184, R190). -/
def limitShadows (x : Nat × Nat × Nat) : Nat × Nat × Nat := (max 1 (min 4096 x.1), min 2048 x.2.1, max 1 (min 64 x.2.2))

/-- The shadow registers of two masters are different registers. -/
theorem shadowRegs_disjoint {m j r : Nat} (h : shadowRegs m r) (h' : shadowRegs j r) : m = j := by
  simp only [shadowRegs, MTR_OSTD, MTR_MINBW, MTR_BURST] at h h'
  omega

theorem State.shadows_congr {s t : State} {m : Nat} (h : ∀ r, shadowRegs m r → t.reg r = s.reg r) :
    t.shadows m = s.shadows m := by
  have h1 : t.fld (MTR_OSTD_GRAN m) = s.fld (MTR_OSTD_GRAN m) := State.fld_congr (h _ (.inl rfl))
  have h2 : t.fld (MTR_MINBW_GBPS m) = s.fld (MTR_MINBW_GBPS m) := State.fld_congr (h _ (.inr (.inl rfl)))
  have h3 : t.fld (MTR_BURST_GRAN m) = s.fld (MTR_BURST_GRAN m) := State.fld_congr (h _ (.inr (.inr rfl)))
  simp only [State.shadows, h1, h2, h3]

/-- A shadow that is limited reads as limited; the other registers stay. -/
theorem State.fld_limitShadow (s : State) {f : Fld} {lo hi : Nat} (hr : lo ≤ hi ∧ hi < 2 ^ (f.hi + 1 - f.lo))
    (h : f.inWord = true := by rfl) : (s.limitShadow f lo hi).fld f = max lo (min hi (s.fld f)) :=
  s.fld_setFld_lt (by unfold State.limited; omega) h

theorem State.limitMaster_shadows (s : State) (m : Nat) : (s.limitMaster m).shadows m = limitShadows (s.shadows m) := by
  have hom : (MTR_OSTD_GRAN m).addr ≠ (MTR_MINBW_GBPS m).addr := by
    simp only [MTR_OSTD_GRAN, MTR_MINBW_GBPS, MTR_OSTD, MTR_MINBW]; omega
  have hob : (MTR_OSTD_GRAN m).addr ≠ (MTR_BURST_GRAN m).addr := by
    simp only [MTR_OSTD_GRAN, MTR_BURST_GRAN, MTR_OSTD, MTR_BURST]; omega
  have hmb : (MTR_MINBW_GBPS m).addr ≠ (MTR_BURST_GRAN m).addr := by
    simp only [MTR_MINBW_GBPS, MTR_BURST_GRAN, MTR_MINBW, MTR_BURST]; omega
  have other {f g : Fld} (h : f.addr ≠ g.addr) (t : State) (lo hi : Nat) : (t.limitShadow g lo hi).fld f = t.fld f :=
    t.fld_setFld_ne f g _ h
  refine Prod.ext ?_ (Prod.ext ?_ ?_)
  · exact (other hob _ _ _).trans ((other hom _ _ _).trans (State.fld_limitShadow s (by simp [MTR_OSTD_GRAN])))
  · refine (other hmb _ _ _).trans ((State.fld_limitShadow _ (by simp [MTR_MINBW_GBPS])).trans ?_)
    rw [other hom.symm, Nat.zero_max]
    rfl
  · refine (State.fld_limitShadow _ (by simp [MTR_BURST_GRAN])).trans ?_
    rw [other hmb.symm, other hob.symm]
    rfl

theorem State.applyMaster_shadows (s : State) (m : Nat) : (s.applyMaster m).shadows m = limitShadows (s.shadows m) := by
  rw [← State.limitMaster_shadows]
  exact State.shadows_congr fun r _ => State.only_reg_eq (State.commitMaster_only _ m) fun h => h

/-- An accepted commit limits each shadow once. -/
theorem State.mtrApply_shadows (s : State) {m : Nat} (hm : m < 8) : s.mtrApply.shadows m = limitShadows (s.shadows m) := by
  have h := (foldl_range_once (get := State.shadows) (f := State.applyMaster) (k := 8) (I := fun _ => True)
    (v := fun _ => limitShadows) (fun _ _ _ _ => trivial) (fun n _ t _ => t.applyMaster_shadows n)
    (fun n _ t _ j hj => State.shadows_congr fun r hr =>
      State.only_reg_eq (t.applyMaster_only n) fun h => hj (shadowRegs_disjoint hr h)) (s := s.commitReg MTR_CTL) trivial).2 m
  rw [State.mtrApply_eq, h, if_pos hm]
  rfl

/-- The shadows of a master are in force. -/
def State.InForce (s : State) (m : Nat) : Prop := ∀ r, shadowRegs m r → s.actReg r = s.reg r

theorem State.commitMaster_inForce (s : State) (m : Nat) : (s.commitMaster m).InForce m := by
  intro r h
  simp only [State.commitMaster, State.actReg_commitReg, State.commitReg_same]
  split_ifs with hb hg ho
  · rw [hb]
  · rw [hg]
  · rw [ho]
  · exact absurd h (by simp [shadowRegs, hb, hg, ho])

/-- A commit of one master's shadows leaves what is in force of the others. -/
theorem State.commitMaster_actReg_ne (s : State) {m r : Nat} (h : ¬shadowRegs m r) :
    (s.commitMaster m).actReg r = s.actReg r := by
  simp only [shadowRegs, not_or] at h
  obtain ⟨ho, hg, hb⟩ := h
  simp only [State.commitMaster, State.actReg_commitReg, if_neg ho, if_neg hg, if_neg hb]

theorem State.mtrApply_inForce (s : State) {m : Nat} (hm : m < 8) : s.mtrApply.InForce m := by
  rw [State.mtrApply_eq]
  refine foldl_range_each (P := fun m t => State.InForce t m) (f := State.applyMaster)
    (fun n _ t => State.commitMaster_inForce _ n) (fun n j t h hP r hr => ?_) _ hm
  have hj : ¬shadowRegs j r := fun h' => h (shadowRegs_disjoint h' hr)
  have hact : (t.limitMaster j).actReg r = t.actReg r := by
    rw [State.actReg, State.only_part (t.limitMaster_only j) .act, State.actReg]
  calc (t.applyMaster j).actReg r = (t.limitMaster j).actReg r := State.commitMaster_actReg_ne _ hj
    _ = t.reg r := hact.trans (hP r hr)
    _ = (t.applyMaster j).reg r := (State.only_reg_eq (t.applyMaster_only j) hj).symm

/-- The sum of the guarantees asked for, within their range (R184). -/
def State.askedSum (s : State) : Nat := ((List.range 8).map fun m => min 2048 (s.fld (MTR_MINBW_GBPS m))).sum

/-- The floor that admission uses (R184). -/
def State.admitFloor (s : State) : Nat := if s.flag MTR_CTL_ADMIT_STRICT = true then 1480 else s.fBand

/-- MTR_COMMIT_STAT has the sum, the floor and the result of a commit. -/
def State.statNoted (s : State) (sum floor result : Nat) : State :=
  ((s.setFld MTR_COMMIT_STAT_SUM sum).setFld MTR_COMMIT_STAT_FLOOR floor).setFld MTR_COMMIT_STAT_RESULT result

theorem State.statNoted_only (s : State) (sum floor result : Nat) :
    s.only (s.statNoted sum floor result) [] fun r => r = MTR_COMMIT_STAT := by
  unfold State.statNoted
  exact State.only_trans (State.only_trans (s.setFld_only _ _) (State.setFld_only _ _ _)) (State.setFld_only _ _ _)

theorem State.statNoted_fld (s : State) (sum : Nat) {floor result : Nat} (hf : floor < 4096) (hr : result < 4) :
    (s.statNoted sum floor result).fld MTR_COMMIT_STAT_RESULT = result ∧
    (s.statNoted sum floor result).fld MTR_COMMIT_STAT_FLOOR = floor := by
  unfold State.statNoted
  constructor
  · exact State.fld_setFld_lt _ hr
  · rw [State.fld_setFld_beside _ _ (by rfl)]
    exact State.fld_setFld_lt _ hf

/-- What a commit notes before it is applied or rejected. -/
def State.commitNoted (s : State) (result : Nat) : State := s.statNoted s.askedSum s.admitFloor result

/-- A commit is rejected above the floor and applied otherwise (R184). -/
theorem State.mtrCommit_eq (s : State) : s.mtrCommit =
    if s.admitFloor < s.askedSum then (s.commitNoted 2).post 0x0801 1 0xFF (s.askedSum + 65536 * s.admitFloor)
    else (s.commitNoted 1).mtrApply.updateScale := by
  have hsum : ((List.range 8).map fun m => s.limited (MTR_MINBW_GBPS m) 0 2048).sum = s.askedSum := by
    simp only [State.limited, State.askedSum, Nat.zero_max]
  simp only [State.mtrCommit, hsum]
  rfl

theorem State.commitNoted_only (s : State) (result : Nat) :
    s.only (s.commitNoted result) [] fun r => r = MTR_COMMIT_STAT := s.statNoted_only _ _ _

theorem floorOf_le (band : Nat) : floorOf band ≤ 1720 := by
  unfold floorOf
  split_ifs <;> omega

theorem State.admitFloor_lt (s : State) : s.admitFloor < 4096 := by
  have h : s.fBand ≤ 1720 := floorOf_le _
  unfold State.admitFloor
  split <;> omega

theorem State.commitNoted_fld (s : State) {result : Nat} (h : result < 4) :
    (s.commitNoted result).fld MTR_COMMIT_STAT_RESULT = result ∧
    (s.commitNoted result).fld MTR_COMMIT_STAT_FLOOR = s.admitFloor :=
  s.statNoted_fld _ s.admitFloor_lt h

/-- MTR_COMMIT_STAT is no shadow. -/
theorem not_shadowRegs_stat (m : Nat) : ¬shadowRegs m MTR_COMMIT_STAT := by
  simp only [shadowRegs, MTR_COMMIT_STAT, MTR_OSTD, MTR_MINBW, MTR_BURST]
  omega

/-- What an accepted commit leaves in the shadows of a master: they are limited to their ranges, and in force. -/
theorem State.commitApplied (s : State) {m : Nat} (hm : m < 8) : let u := (s.commitNoted 1).mtrApply
    u.gAct m = min 2048 (s.fld (MTR_MINBW_GBPS m)) ∧ u.actReg (MTR_OSTD m) = u.reg (MTR_OSTD m) ∧
    u.fld (MTR_OSTD_GRAN m) = max 1 (min 4096 (s.fld (MTR_OSTD_GRAN m))) ∧
    u.actReg (MTR_BURST m) = u.reg (MTR_BURST m) ∧ u.fld (MTR_BURST_GRAN m) = max 1 (min 64 (s.fld (MTR_BURST_GRAN m))) := by
  intro u
  have hnoted : (s.commitNoted 1).shadows m = s.shadows m :=
    State.shadows_congr fun r hr => State.only_reg_eq (s.commitNoted_only 1) fun h => not_shadowRegs_stat m (h ▸ hr)
  have hshadows : u.shadows m = limitShadows (s.shadows m) :=
    ((s.commitNoted 1).mtrApply_shadows hm).trans (congrArg limitShadows hnoted)
  simp only [State.shadows, limitShadows, Prod.mk.injEq] at hshadows
  obtain ⟨hostd, hminbw, hburst⟩ := hshadows
  have hforce : u.InForce m := State.mtrApply_inForce _ hm
  refine ⟨?_, hforce _ (.inl rfl), hostd, hforce _ (.inr (.inr rfl)), hburst⟩
  rw [← hminbw, State.gAct, State.actFld, hforce (MTR_MINBW_GBPS m).addr (.inr (.inl rfl))]
  rfl

section
variable (s : State) (a : Access) (o : Nat)

/-- An access that arrives moves no shadow and no control register of mortar. -/
theorem State.arrived_shadows (m : Nat) : (s.arrived a o).shadows m = s.shadows m := by
  refine State.shadows_congr fun r hr => State.only_reg_eq (s.arrived_only a o) ?_
  rintro ⟨j, hj, h⟩
  simp only [shadowRegs, MTR_OSTD, MTR_MINBW, MTR_BURST, MTR_BYTES_LO] at hr h
  omega

theorem State.arrived_askedSum : (s.arrived a o).askedSum = s.askedSum := by
  have h (m : Nat) : (s.arrived a o).fld (MTR_MINBW_GBPS m) = s.fld (MTR_MINBW_GBPS m) :=
    congrArg (fun x => x.2.1) (s.arrived_shadows a o m)
  simp only [State.askedSum, h]

theorem State.arrived_admitFloor : (s.arrived a o).admitFloor = s.admitFloor := by
  have hctl : (s.arrived a o).flag MTR_CTL_ADMIT_STRICT = s.flag MTR_CTL_ADMIT_STRICT :=
    State.flag_congr (s.arrived_reg_single a o (r := MTR_CTL) (by decide) (by decide))
  simp only [State.admitFloor, hctl, State.fBand_congr (State.only_part (s.arrived_only a o) .mc)]

end

theorem exec_mtrCommit {s : State} {a : Access} (h : s.served a MTR_COMMIT = true) (v : Word) : exec (.mtrCommit a v) s =
    .next ((if v.getLsbD 0 = true then (s.arrived a 9).mtrCommit else s.arrived a 9).respond a 9 0 0) := by
  rw [← bitAt_toNat]
  exact congrArg Host.Outcome.next (State.cfgWrite_served h _)

section
variable {s : State} {a : Access} {v : Word} (hs : s.served a MTR_COMMIT = true) (hv : v.getLsbD 0 = true)
include hs hv

/-- Above the floor a commit is rejected: every active copy and every shadow stays (R184). -/
theorem exec_mtrCommit_rejected (h : s.admitFloor < s.askedSum) : ∃ u, exec (.mtrCommit a v) s =
      .next ((u.post 0x0801 1 0xFF (s.askedSum + 65536 * s.admitFloor)).respond a 9 0 0) ∧
    u.fld MTR_COMMIT_STAT_RESULT = 2 ∧ u.fld MTR_COMMIT_STAT_FLOOR = s.admitFloor ∧
    (s.arrived a 9).only u [] fun r => r = MTR_COMMIT_STAT := by
  have h' : (s.arrived a 9).admitFloor < (s.arrived a 9).askedSum := by
    rwa [State.arrived_admitFloor, State.arrived_askedSum]
  obtain ⟨hresult, hfloor⟩ := (s.arrived a 9).commitNoted_fld (result := 2) (by omega)
  refine ⟨(s.arrived a 9).commitNoted 2, ?_, hresult, hfloor.trans (s.arrived_admitFloor a 9), State.commitNoted_only _ _⟩
  rw [exec_mtrCommit hs, if_pos hv, State.mtrCommit_eq, if_pos h', State.arrived_admitFloor, State.arrived_askedSum]

/-- Within the floor it is accepted: the shadows are limited to their ranges and become active (R184, R190). -/
theorem exec_mtrCommit_accepted (h : s.askedSum ≤ s.admitFloor) : ∃ u,
    exec (.mtrCommit a v) s = .next (u.updateScale.respond a 9 0 0) ∧ u.fld MTR_COMMIT_STAT_RESULT = 1 ∧
    (∀ m < 8, u.gAct m = min 2048 (s.fld (MTR_MINBW_GBPS m)) ∧ u.actReg (MTR_OSTD m) = u.reg (MTR_OSTD m) ∧
      u.fld (MTR_OSTD_GRAN m) = max 1 (min 4096 (s.fld (MTR_OSTD_GRAN m))) ∧
      u.actReg (MTR_BURST m) = u.reg (MTR_BURST m) ∧ u.fld (MTR_BURST_GRAN m) = max 1 (min 64 (s.fld (MTR_BURST_GRAN m)))) ∧
    (s.arrived a 9).only u [.act] fun r => r = MTR_COMMIT_STAT ∨ ∃ m < 8, shadowRegs m r := by
  have h' : ¬(s.arrived a 9).admitFloor < (s.arrived a 9).askedSum := by
    rw [State.arrived_admitFloor, State.arrived_askedSum]
    exact Nat.not_lt.2 h
  have happly := ((s.arrived a 9).commitNoted 1).mtrApply_only
  refine ⟨((s.arrived a 9).commitNoted 1).mtrApply, ?_, ?_, fun m hm => ?_,
    State.only_trans (State.only_mono (State.commitNoted_only _ 1) (by simp) fun _ h => .inl h)
      (State.only_mono happly (fun _ h => h) fun _ h => .inr h)⟩
  · rw [exec_mtrCommit hs, if_pos hv, State.mtrCommit_eq, if_neg h']
  · rw [State.fld_congr (State.only_reg_eq happly fun ⟨m, _, h⟩ => not_shadowRegs_stat m h)]
    exact ((s.arrived a 9).commitNoted_fld (by omega)).1
  · have hshadows := s.arrived_shadows a 9 m
    simp only [State.shadows, Prod.mk.injEq] at hshadows
    obtain ⟨hostd, hminbw, hburst⟩ := hshadows
    rw [← hostd, ← hminbw, ← hburst]
    exact (s.arrived a 9).commitApplied hm

end

/-- The effective guarantee: the active one, scaled down where all together exceed the present floor (R185). -/
theorem State.gEff_cases (s : State) (m : Nat) : (s.gSum ≤ s.fNow → s.gEff m = s.gAct m) ∧
    (s.fNow < s.gSum → s.gEff m = s.gAct m * s.fNow / s.gSum) ∧ s.gEff m ≤ s.gAct m := by
  unfold State.gEff
  refine ⟨fun h => if_pos h, fun h => if_neg (Nat.not_le.2 h), ?_⟩
  split
  next => exact le_rfl
  next h =>
    have h := Nat.not_le.1 h
    exact Nat.div_le_of_le_mul (by rw [Nat.mul_comm s.gSum]; exact Nat.mul_le_mul_left _ h.le)

/-- Settles O33: a tick, a window and the caps by what each round of their loops leaves, a pace window by its two fields, a commit
by its sum and its floor. -/
theorem mortarMeters : Obligations.MortarMeters := by
  unfold Obligations.MortarMeters
  refine ⟨fun s => ⟨?_, ?_, ?_, fun n count => ?_⟩, fun s a v hs => ⟨fun hv => ?_, exec_mtrCommit_rejected hs,
    exec_mtrCommit_accepted hs⟩, fun s m => s.gEff_cases m⟩
  · exact ⟨_, exec_guaranteeMeterTick s, fun m x hm hx => s.meterTick_master hm hx, s.meterTick_only⟩
  · intro short
    obtain ⟨hmetering, hleaves⟩ := s.windowEnd_spec
    refine ⟨_, exec_guaranteeWindowEnd s, fun m x hm hx => ?_, fun m hm => ?_, hmetering.only⟩
    · obtain ⟨hlt, rfl⟩ := State.master_of_getElem? hx
      have h := congrArg Prod.fst (hleaves m hm)
      simp only [State.windowLeaves, hlt, if_true] at h
      rw [h]
      exact ⟨rfl, Bool.and_self _⟩
    · have h := congrArg Prod.snd (hleaves m hm)
      have hshort : s.fellShort m (s.master m) = true ↔ short m := by
        simp only [State.fellShort, Bool.and_eq_true, decide_eq_true_eq, and_assoc, short]
      simp only [State.windowLeaves, hshort] at h
      exact ⟨fun hm => h.trans (if_pos hm), fun hm => h.trans (if_neg hm)⟩
  · exact ⟨_, exec_throttleCapWindow s, fun c g hc hg => s.caps_tgt hc hg, s.caps_only⟩
  · obtain ⟨mtr, h⟩ := exec_paceMeterWindow s n count
    obtain ⟨hrate, hmin⟩ := s.paceNoted_fld n (c := min count 4095) (by omega)
    exact ⟨_, h, (State.fld_setMtr _ _ _).trans hrate, (State.fld_setMtr _ _ _).trans hmin,
      State.only_trans (State.only_mono (s.paceNoted_only n _) (by simp) fun _ h => h)
        (State.only_mono (State.setMtr_only _ mtr) (by simp) fun _ h => h.elim)⟩
  · rw [exec_mtrCommit hs, hv, if_neg Bool.false_ne_true]

end Sys2Proof.Machine

/-! SUPPORT. The chisel's job slots, a local program block as M4 reads it, and the place of a job in line (R193, R215, R216). -/

namespace Sys2Proof.Machine

/-! ### Job slots -/

/-- A job that is not free stands in a slot. -/
theorem State.job_lt {s : State} {n : Nat} (h : (s.job n).st ≠ .free) : n < s.chs.jobs.length := by
  by_contra hn
  exact h (congrArg Job.st (List.getD_eq_default _ _ (Nat.le_of_not_lt hn)))

theorem State.job_modJob_self {s : State} {n : Nat} (h : n < s.chs.jobs.length) (f : Job → Job) :
    (s.modJob n f).job n = f (s.job n) := (s.job_modJob n n f h).trans (if_pos rfl)

theorem State.setChs_only (s : State) (c : Chs) : s.only { s with chs := c } [.chs] fun _ => False := by
  refine ⟨fun p => ?_, fun _ => Or.inr rfl⟩
  cases p <;> first | exact Or.inr rfl | exact Or.inl (by simp)

/-! ### Granules that M4 reads (R232, R235) -/

/-- A plain granule whose read meets no error is read as it is, and nothing else happens. -/
theorem State.readGran_clean {s : State} {obs : List CellObs} {g : Nat} (h : s.plainGran g = true)
    (hobs : readsClean obs g = true) (m : Nat) (scrub clean : Bool) :
    s.readGran obs g m scrub clean = (s, .data (s.granData g)) := by
  obtain ⟨hfence, hpoison⟩ := State.plainGran_iff.1 h
  simp only [readsClean, Bool.and_eq_true, List.isEmpty_iff, Bool.not_eq_true'] at hobs
  obtain ⟨hsyms, haddr⟩ := hobs
  unfold State.readGran
  simp only [hfence, hpoison, hsyms, haddr, State.decodeSyms_nil, Bool.false_eq_true, false_and, if_false]

theorem State.readable_iff {s : State} {g : Nat} :
    s.readable g = true ↔ s.plainGran g = true ∧ s.unrestored (g / 64) = false ∧ s.unitHeld g = false := by
  simp [State.readable, and_assoc]

/-- A range of granules that are there, readable and read clean is read whole, and nothing else happens. -/
theorem State.readRange_readable {s : State} {obs : List CellObs} {n g : Nat} (hend : g + n ≤ dramEnd / 64)
    (h : ∀ i < n, s.readable (g + i) = true ∧ readsClean obs (g + i) = true) :
    s.readRange obs n g = (s, mread s.dram.mem (64 * g) (64 * n), .done) := by
  induction n generalizing g with
  | zero => rfl
  | succ n ih =>
    obtain ⟨hread, hclean⟩ := h 0 n.succ_pos
    obtain ⟨hplain, hrestored, hfree⟩ := State.readable_iff.1 hread
    have hrest := ih (g := g + 1) (by omega) fun i hi => by
      have hi := h (i + 1) (by omega)
      rwa [Nat.add_comm i 1, ← Nat.add_assoc] at hi
    have hthere : ¬dramEnd / 64 ≤ g := by omega
    have hbytes : s.granData g ++ mread s.dram.mem (64 * (g + 1)) (64 * n) = mread s.dram.mem (64 * g) (64 * (n + 1)) := by
      rw [Nat.mul_succ 64 n, Nat.add_comm (64 * n) 64, mread_append, State.granData, Nat.mul_succ 64 g]
    rw [Nat.add_zero] at hplain hrestored hfree hclean
    unfold State.readRange
    simp only [hthere, hrestored, hfree, State.readGran_clean hplain hclean, hrest, if_false, Bool.false_eq_true, ← hbytes]

/-! ### A program block is read (R193, R215) -/

section
variable {s : State} {n : Nat}

/-- The granule of memory at which the program block of a job begins. -/
def Job.progGran (j : Job) : Nat := baAddr j.op.prog / 64

/-- The granules that a job reads next of a program block of which it holds `h`: the header, then the rest (R193). -/
def Job.progWant (j : Job) (h : Nat) : Nat := (if h = 0 then 1 else pGrans j.prog) - h

/-- A job that holds `h` granules of its program block and reads all that it asked for goes on to what is left, or is done. -/
theorem State.programRead_done {obs : List CellObs} {h : Nat} {bs : List Byte} (hlen : (s.job n).prog.length = 64 * h)
    (hread : s.readRange obs ((s.job n).progWant h) ((s.job n).progGran + h) = (s, bs, .done)) :
    let got := (s.job n).prog ++ bs
    s.programRead n obs = if got.length < 64 * pGrans got then
        (s.modJob n fun j => { j with prog := got }).ask 4 0 (.prog n)
          (unitsOf ((s.job n).progGran + got.length / 64) (pGrans got - got.length / 64))
      else s.programLoaded n (got.take (64 * pGrans got)) := by
  have hhave : (s.job n).prog.length / 64 = h := by omega
  simp only [Job.progWant, Job.progGran] at hread
  simp only [State.programRead, hhave, hread, Job.progGran]

/-- The header says how many granules the block has, whatever follows it. -/
theorem pGrans_append {g : List Byte} (h : 36 ≤ g.length) (bs : List Byte) : pGrans (g ++ bs) = pGrans g := by
  simp only [pGrans, pLen, fieldB_left (show 32 + 4 ≤ g.length from h)]

/-- The header read, a block of one granule is done; of a longer one the rest is asked for. -/
theorem State.programRead_header {obs : List CellObs} (hprog : (s.job n).prog = []) (hthere : (s.job n).progGran < dramEnd / 64)
    (hread : s.readable (s.job n).progGran = true) (hclean : readsClean obs (s.job n).progGran = true) :
    let header := s.granData (s.job n).progGran
    s.programRead n obs = if pGrans header ≤ 1 then s.programLoaded n (header.take (64 * pGrans header))
      else (s.modJob n fun j => { j with prog := header }).ask 4 0 (.prog n)
        (unitsOf ((s.job n).progGran + 1) (pGrans header - 1)) := by
  intro header
  have hrange : s.readRange obs ((s.job n).progWant 0) ((s.job n).progGran + 0) = (s, header, .done) :=
    State.readRange_readable (n := 1) hthere fun i hi => by
      obtain rfl : i = 0 := by omega
      exact ⟨hread, hclean⟩
  have hlen : header.length = 64 := length_mread _ _ _
  have hstep := State.programRead_done (by rw [hprog]; rfl) hrange
  simp only [hprog, List.nil_append, hlen, Nat.div_self (show 0 < 64 by decide)] at hstep
  rw [hstep, ← ite_not (p := pGrans header ≤ 1)]
  exact if_congr (by omega) rfl rfl

/-- The rest read, the block is done. -/
theorem State.programRead_rest {obs : List CellObs} {h : Nat} (hlen : (s.job n).prog.length = 64 * h) (hpos : 1 ≤ h)
    (hle : h ≤ pGrans (s.job n).prog) (hthere : (s.job n).progGran + pGrans (s.job n).prog ≤ dramEnd / 64)
    (hread : ∀ i, h ≤ i → i < pGrans (s.job n).prog →
      s.readable ((s.job n).progGran + i) = true ∧ readsClean obs ((s.job n).progGran + i) = true) :
    s.programRead n obs = s.programLoaded n ((s.job n).prog ++
      mread s.dram.mem (64 * ((s.job n).progGran + h)) (64 * (pGrans (s.job n).prog - h))) := by
  have hwant : (s.job n).progWant h = pGrans (s.job n).prog - h := by rw [Job.progWant, if_neg (by omega)]
  have hrange := State.readRange_readable (s := s) (obs := obs) (n := (s.job n).progWant h) (g := (s.job n).progGran + h)
    (by omega) fun i hi => by
      rw [Nat.add_assoc]
      exact hread (h + i) (by omega) (by omega)
  have hgrans := pGrans_append (g := (s.job n).prog) (by omega)
    (mread s.dram.mem (64 * ((s.job n).progGran + h)) (64 * (pGrans (s.job n).prog - h)))
  have hall : ((s.job n).prog ++ mread s.dram.mem (64 * ((s.job n).progGran + h))
      (64 * (pGrans (s.job n).prog - h))).length = 64 * pGrans (s.job n).prog := by
    rw [List.length_append, hlen, length_mread]; omega
  have hstep := State.programRead_done hlen hrange
  simp only [hwant, hgrans, hall] at hstep
  rw [hstep, if_neg (Nat.lt_irrefl _), List.take_of_length_le (by omega)]

theorem exec_programReadDone_local {n : Fin 16} (hst : (s.job n).st = .loading) (hlocal : baRemote (s.job n).op.prog = false)
    (remote : List Byte) (obs : List CellObs) : exec (.programReadDone n remote true obs) s =
      .next (if s.onWay (.prog n) = true then s else s.programRead n obs) := by
  refine congrArg Host.Outcome.next ((if_neg (not_not.2 hst)).trans ((if_neg (by simp)).trans ?_))
  exact if_neg (by simp [hlocal])

theorem exec_programReadDone_remote {n : Fin 16} {remote : List Byte} (hst : (s.job n).st = .loading)
    (hremote : baRemote (s.job n).op.prog = true) (hlen : 64 * pGrans remote ≤ remote.length) (obs : List CellObs) :
    exec (.programReadDone n remote true obs) s = .next (s.programLoaded n (remote.take (64 * pGrans remote))) := by
  refine congrArg Host.Outcome.next ((if_neg (not_not.2 hst)).trans ((if_neg (by simp)).trans ?_))
  exact (if_pos hremote).trans (if_neg (Nat.not_lt.2 hlen))

end

/-! ### A job takes its place in line (R215) -/

/-- A job whose program block is read, at its place in line. -/
def Job.inLine (j : Job) (g : List Byte) (ord : Nat) : Job := { j with
  st := .waiting, prog := g, snap := none, need := pNeed g, ord := ord, total := pRows g
  groups := if oKind g = 3 ∧ oKeyed g = false then [{ key := (0, 0), count := 0, aggs := List.replicate (oNAgg g) none }] else [] }

/-- The state in which the job in slot `n` has taken the next place. -/
def State.joinsLine (s : State) (n : Nat) (g : List Byte) : State :=
  State.modJob { s with chs := { s.chs with ord := s.chs.ord + 1 } } n fun j => j.inLine g s.chs.ord

theorem State.joinsLine_job {s : State} {n : Nat} (h : n < s.chs.jobs.length) (g : List Byte) :
    (s.joinsLine n g).job n = (s.job n).inLine g s.chs.ord := State.job_modJob_self (s := { s with chs := _ }) h _

theorem State.joinsLine_only (s : State) (n : Nat) (g : List Byte) : s.only (s.joinsLine n g) [.chs] fun _ => False :=
  State.only_trans (s.setChs_only _) (State.modJob_only _ _ _)

theorem State.programLoaded_waits {s : State} {n : Nat} {g : List Byte} (hbad : progBad g = false)
    (hchanged : s.progChanged n g = false) (hclash : s.outClash n g = false) : s.programLoaded n g = s.joinsLine n g := by
  unfold State.programLoaded
  simp only [hbad, hchanged, hclash, Bool.or_false, Bool.false_eq_true, if_false]
  rfl

/-! ### The first in line (R215, R216) -/

/-- The jobs that wait for their job-state SRAM. -/
def State.waitingJobs (s : State) : List Nat := (List.range 16).filter fun n => (s.job n).st == .waiting

/-- The first of them to have entered WAITING. -/
def State.firstWaiting (s : State) : Option Nat :=
  s.waitingJobs.find? fun n => s.waitingJobs.all fun m => (s.job n).ord ≤ (s.job m).ord

/-- The job in slot `n` starts (R216). -/
def State.jobStarted (s : State) (n : Nat) : State :=
  let t := s.modJob n fun j => { j with st := .running }
  t.maxFld CHS_SRAM_PEAK t.sramUsed

theorem State.mem_waitingJobs {s : State} {n : Nat} : n ∈ s.waitingJobs ↔ n < 16 ∧ (s.job n).st = .waiting := by
  simp [State.waitingJobs]

/-- The one entry of a list that passes a test is what the search for it finds. -/
theorem find?_unique {α : Type} {l : List α} {p : α → Bool} {x : α} (hx : x ∈ l) (hp : p x = true)
    (h : ∀ y ∈ l, p y = true → y = x) : l.find? p = some x := by
  cases hf : l.find? p with
  | none => exact absurd hp (List.find?_eq_none.1 hf x hx)
  | some y => rw [h y (List.mem_of_find?_eq_some hf) (List.find?_some hf)]

theorem State.firstWaiting_none {s : State} (h : ∀ n < 16, (s.job n).st ≠ .waiting) : s.firstWaiting = none := by
  refine List.find?_eq_none.2 fun n hn => ?_
  obtain ⟨hlt, hst⟩ := State.mem_waitingJobs.1 hn
  exact absurd hst (h n hlt)

theorem State.firstWaiting_eq {s : State} {n : Nat} (hn : n < 16) (hst : (s.job n).st = .waiting)
    (hfirst : ∀ m < 16, m ≠ n → (s.job m).st = .waiting → (s.job n).ord < (s.job m).ord) : s.firstWaiting = some n := by
  have hmem := State.mem_waitingJobs.2 ⟨hn, hst⟩
  refine find?_unique hmem (List.all_eq_true.2 fun m hm => decide_eq_true ?_) fun m hm hall => ?_
  · obtain ⟨hlt, hw⟩ := State.mem_waitingJobs.1 hm
    by_cases h : m = n
    · rw [h]
    · exact (hfirst m hlt h hw).le
  · obtain ⟨hlt, hw⟩ := State.mem_waitingJobs.1 hm
    have hle := of_decide_eq_true (List.all_eq_true.1 hall n hmem)
    by_contra h
    exact absurd (hfirst m hlt h hw) (Nat.not_lt.2 hle)

theorem exec_jobAdmit_nobody {s : State} (h : s.firstWaiting = none) : exec .jobAdmit s = .next s := by
  unfold State.firstWaiting State.waitingJobs at h
  change execJobAdmit s = _
  simp only [execJobAdmit, h]

theorem exec_jobAdmit_first {s : State} {n : Nat} (h : s.firstWaiting = some n) : exec .jobAdmit s = .next (
    if 12288 < s.sramUsed + (s.job n).need then s
    else if oKind (s.job n).prog = 3 ∧ (s.job n).op.outLen < aggRoom (s.job n).prog then
      ((s.jobStarted n).modJob n fun j => { j with stop := some j.start }).finishRun n
    else s.jobStarted n) := by
  unfold State.firstWaiting State.waitingJobs at h
  change execJobAdmit s = _
  simp only [execJobAdmit, h]
  rfl

theorem State.jobStarted_job {s : State} {n : Nat} (h : n < s.chs.jobs.length) :
    (s.jobStarted n).job n = { s.job n with st := .running } := State.job_modJob_self h _

theorem State.jobStarted_only (s : State) (n : Nat) : s.only (s.jobStarted n) [.chs] fun r => r = CHS_SRAM :=
  State.only_trans (State.only_mono (s.modJob_only n _) (fun _ h => h) fun _ h => h.elim)
    (State.only_mono (State.maxFld_only _ CHS_SRAM_PEAK _) (by simp) fun _ h => h)

/-- Settles O34: a program block by the granules that are read of it, its place in line by what its reading leaves, the first
in line by the order of entry. -/
theorem jobsLoadAndStart : Obligations.JobsLoadAndStart := by
  unfold Obligations.JobsLoadAndStart
  refine ⟨fun s n remote ok obs => ⟨fun h => congrArg Host.Outcome.next (if_pos h), fun h => ?_, fun hst hremote hlen =>
    exec_programReadDone_remote hst hremote hlen obs, fun hst hlocal => ?_⟩, fun s n g hbad hchanged hclash hst => ?_, fun s =>
    ⟨fun h => exec_jobAdmit_nobody (State.firstWaiting_none h), fun n hn hst hfirst => ?_⟩⟩
  · exact congrArg Host.Outcome.next ((if_neg (not_not.2 h)).trans (if_pos rfl))
  · have hexec := exec_programReadDone_local hst hlocal remote obs
    refine ⟨fun hway => hexec.trans (by rw [if_pos hway]), fun hway hprog hthere hread hclean => hexec.trans ?_,
      fun h hway hlen hpos hle hthere hread => hexec.trans ?_⟩
    · rw [hway, if_neg Bool.false_ne_true]
      exact congrArg _ (State.programRead_header hprog hthere hread hclean)
    · rw [hway, if_neg Bool.false_ne_true]
      exact congrArg _ (State.programRead_rest hlen hpos hle hthere hread)
  · have hlt := State.job_lt (s := s) (n := n) (by rw [hst]; decide)
    dsimp only
    rw [State.programLoaded_waits hbad hchanged hclash, State.joinsLine_job hlt]
    exact ⟨rfl, rfl, rfl, rfl, rfl, rfl, s.joinsLine_only n g⟩
  · have hlt := State.job_lt (s := s) (n := n) (by rw [hst]; decide)
    have hexec := exec_jobAdmit_first (State.firstWaiting_eq hn hst hfirst)
    refine ⟨fun hfull => hexec.trans (by rw [if_pos hfull]), fun hfits hroom => ?_⟩
    rw [if_neg (Nat.not_lt.2 hfits), if_neg hroom] at hexec
    exact ⟨_, hexec, State.jobStarted_job hlt, s.jobStarted_only n⟩

end Sys2Proof.Machine

/-! SUPPORT. The rows of a chisel cycle: what the evaluation of one row leaves, and what a cycle counts (R208, R220, R223-R225, R232). -/

namespace Sys2Proof.Machine

/-! ### One row (R208, R224, R225, R232) -/

/-- A job that has scanned its next row. -/
def Job.passed (j : Job) : Job := { j with scanned := j.scanned + 1, next := j.next + 1 }

/-- A job that has scanned its next row and found it poisoned. -/
def Job.metPoison (j : Job) : Job :=
  { j.passed with poison := j.poison + 1, first := some (min j.next (j.first.getD j.next)) }

/-- A row that is not selected leaves its bit in a bitmap, and nothing in another output (R208). -/
def Job.unmarked (j : Job) (i : Nat) : Job := if oKind j.prog = 0 then j.bit i false else j

theorem Job.unmarked_eq (j : Job) (i : Nat) :
    ∃ out, j.unmarked i = { j with out := out } ∧ (oKind j.prog ≠ 0 → out = j.out) := by
  unfold Job.unmarked
  split
  next h => exact ⟨_, rfl, fun hne => absurd h hne⟩
  next => exact ⟨_, rfl, fun _ => rfl⟩

theorem Job.not_full {j : Job} (hroom : oKind j.prog = 0 → j.next < j.start + 512 * (j.op.outLen / 64)) :
    ¬(oKind j.prog = 0 ∧ j.start + 512 * (j.op.outLen / 64) ≤ j.next) := fun h => Nat.not_lt.2 h.2 (hroom h.1)

section
variable {j : Job} (hfits : rowFits j.prog j.next = true) (hroom : oKind j.prog = 0 → j.next < j.start + 512 * (j.op.outLen / 64))
include hfits hroom

/-- A row that lies in the stack and has room in a bitmap waits while a granule of it is not staged. -/
theorem Job.evalRow_awaits (h : ∃ x ∈ rowGrans j.prog j.next, tget j.have_ x = none) : j.evalRow = none := by
  unfold Job.evalRow
  dsimp only
  rw [if_neg (by simp [hfits]), if_neg (Job.not_full hroom), if_pos (by simpa using h)]

/-- Staged, it is not selected where one of its granules is poisoned. -/
theorem Job.evalRow_poisoned (hstaged : ∀ x ∈ rowGrans j.prog j.next, tget j.have_ x ≠ none)
    (h : ∃ x ∈ rowGrans j.prog j.next, tget j.have_ x = some none) : j.evalRow = some (j.metPoison.unmarked j.next) := by
  unfold Job.evalRow
  dsimp only
  rw [if_neg (by simp [hfits]), if_neg (Job.not_full hroom), if_neg (by simpa using hstaged), if_pos (by simpa using h)]
  rfl

/-- Otherwise the program's predicate on the bytes that are staged decides. -/
theorem Job.evalRow_clean (h : ∀ x ∈ rowGrans j.prog j.next, ∃ bs, tget j.have_ x = some (some bs)) {sel : Bool}
    (hsel : selected j.prog j.mem j.next = sel) : j.evalRow = some (
      if oKind j.prog = 0 then { j.passed.bit j.next sel with sel := j.sel + b2n sel }
      else if sel = false then j.passed
      else if oKind j.prog = 1 then j.append j.next (rowId j.prog (if oId64 j.prog then 8 else 4) j.next)
      else if oKind j.prog = 2 then j.append j.next (compactRec j.prog j.mem j.next)
      else j.groupRow j.next) := by
  have hstaged : ∀ x ∈ rowGrans j.prog j.next, tget j.have_ x ≠ none := fun x hx => by
    obtain ⟨bs, hbs⟩ := h x hx
    simp [hbs]
  have hclean : ∀ x ∈ rowGrans j.prog j.next, tget j.have_ x ≠ some none := fun x hx => by
    obtain ⟨bs, hbs⟩ := h x hx
    simp [hbs]
  unfold Job.evalRow
  dsimp only
  rw [if_neg (by simp [hfits]), if_neg (Job.not_full hroom), if_neg (by simpa using hstaged), if_neg (by simpa using hclean), hsel]
  simp only [apply_ite some]
  rfl

theorem Job.evalRow_unselected (h : ∀ x ∈ rowGrans j.prog j.next, ∃ bs, tget j.have_ x = some (some bs))
    (hsel : selected j.prog j.mem j.next = false) : j.evalRow = some (j.passed.unmarked j.next) :=
  (Job.evalRow_clean hfits hroom h hsel).trans (congrArg some (if_congr Iff.rfl rfl (if_pos rfl)))

/-- A selected row of a ROWID stream joins it, or stops the job where OUT has no room for it (R225). -/
theorem Job.evalRow_rowid (h : ∀ x ∈ rowGrans j.prog j.next, ∃ bs, tget j.have_ x = some (some bs))
    (hsel : selected j.prog j.mem j.next = true) (hkind : oKind j.prog = 1) :
    j.evalRow = some (j.append j.next (rowId j.prog (if oId64 j.prog then 8 else 4) j.next)) := by
  rw [Job.evalRow_clean hfits hroom h hsel, if_neg (by omega), if_neg (by simp), if_pos hkind]

end

/-! ### A cycle (R220) -/

section
variable {s : State} {n : Fin 16}

/-- The state that has counted the rows which the job in slot `n` has scanned to become `j`. -/
def State.rowsCounted (s : State) (n : Nat) (j : Job) : State :=
  ((s.modJob n fun _ => j).add64 CHS_ROWS_LO (j.scanned - (s.job n).scanned)).incFld CHS_PROWS_COUNT (j.poison - (s.job n).poison)

theorem State.rowsCounted_job {n : Nat} (h : n < s.chs.jobs.length) (j : Job) : (s.rowsCounted n j).job n = j :=
  State.job_modJob_self h _

theorem State.rowsCounted_rows (s : State) (n : Nat) (j : Job) :
    (s.rowsCounted n j).reg64 CHS_ROWS_LO = (s.reg64 CHS_ROWS_LO + (j.scanned - (s.job n).scanned)) % 2 ^ 64 := by
  have hbeside (t : State) (d : Nat) : (t.incFld CHS_PROWS_COUNT d).reg64 CHS_ROWS_LO = t.reg64 CHS_ROWS_LO := by
    rw [State.reg64, t.reg_incFld_ne _ _ (by decide), t.reg_incFld_ne _ _ (by decide), State.reg64]
  rw [State.rowsCounted, hbeside, State.reg64_add64]
  rfl

theorem State.rowsCounted_only (s : State) (n : Nat) (j : Job) : s.only (s.rowsCounted n j) [.chs] fun r =>
    r = CHS_ROWS_LO ∨ r = CHS_ROWS_LO + 4 ∨ r = CHS_PROWS :=
  (((s.only_refl _ _).andThen (s.modJob_only n _) (by simp) fun _ h => h.elim).andThen (State.add64_only _ CHS_ROWS_LO _) (by simp)
    fun _ h => h.imp_right .inl).andThen (State.incFld_only _ CHS_PROWS_COUNT _) (by simp) fun _ h => .inr (.inr h)

theorem exec_chiselCycle_idle (h : (s.job n).st ≠ .running ∨ (s.job n).kind ≠ 0) : exec (.chiselCycle n) s = .next s :=
  congrArg Host.Outcome.next (if_pos h)

theorem exec_chiselCycle_rows (hst : (s.job n).st = .running) (hkind : (s.job n).kind = 0) :
    let t := (s.rowsCounted n ((s.job n).evalRows 1024 ((s.job n).eaten + 16))).flushJob n
    exec (.chiselCycle n) s = .next (if (t.job n).scanOver = true ∨ (t.job n).fail.isSome = true then t.scanEnd n else t) :=
  congrArg Host.Outcome.next (if_neg fun h => h.elim (absurd hst) (absurd hkind))

end

section
variable {j : Job} (fuel n : Nat)

theorem Job.evalRows_over (h : j.scanOver = true) : j.evalRows (fuel + 1) n = j := by
  simp only [Job.evalRows, h, if_true]

theorem Job.evalRows_awaits (h : j.scanOver = false) (hrow : j.evalRow = none) :
    j.evalRows (fuel + 1) n = { j with eaten := 0 } := by
  simp only [Job.evalRows, h, hrow, Bool.false_eq_true, if_false]

theorem Job.evalRows_row {j' : Job} (h : j.scanOver = false) (hrow : j.evalRow = some j') :
    j.evalRows (fuel + 1) n = if n < rowCost j.prog j.start j.next then { j with eaten := n }
      else { j' with eaten := 0 }.evalRows fuel (n - rowCost j.prog j.start j.next) := by
  simp only [Job.evalRows, h, hrow, Bool.false_eq_true, if_false]

end

/-- Settles O36: a cycle by what it counts, its rows one after the other, one row by what is staged of it. -/
theorem rowsEvaluated : Obligations.RowsEvaluated := by
  unfold Obligations.RowsEvaluated
  refine ⟨fun s n h => exec_chiselCycle_idle h, fun s n hst hkind => ?_, fun j fuel n => ⟨Job.evalRows_over fuel n, fun h =>
    ⟨Job.evalRows_awaits fuel n h, fun j' hrow => Job.evalRows_row fuel n h hrow⟩⟩, fun j hfits hroom =>
    ⟨Job.evalRow_awaits hfits hroom, fun hstaged hpoison => ?_, fun hstaged hsel => ?_, Job.evalRow_rowid hfits hroom⟩⟩
  · have hlt := State.job_lt (s := s) (n := n) (by rw [hst]; decide)
    exact ⟨_, State.rowsCounted_job hlt _, s.rowsCounted_rows n _, s.rowsCounted_only n _, exec_chiselCycle_rows hst hkind⟩
  · obtain ⟨out, hrow, hout⟩ := j.metPoison.unmarked_eq j.next
    exact ⟨_, Job.evalRow_poisoned hfits hroom hstaged hpoison, by rw [hrow]; exact ⟨rfl, rfl, rfl, rfl, rfl, hout⟩⟩
  · obtain ⟨out, hrow, hout⟩ := j.passed.unmarked_eq j.next
    exact ⟨_, Job.evalRow_unselected hfits hroom hstaged hsel, by rw [hrow]; exact ⟨rfl, rfl, rfl, rfl, hout⟩⟩

end Sys2Proof.Machine

/-! SUPPORT. What a request of this stack's own leaves alone: the chisel's job slots (R93, R169, R173). -/

namespace Sys2Proof.Machine

/-! ### A granule that no command observes (R303, R317) -/

@[simp] theorem State.chs_postRecovered (s : State) (g : Nat) : (s.postRecovered g).chs = s.chs := by
  unfold State.postRecovered
  extract_lets ch w w' _ noted
  exact ite_keeps State.chs (by simp only [State.post_same, noted]) rfl

/-- A read that meets no error counts and notes what a fenced unit makes of it, and nothing of a plain granule. -/
@[simp] theorem State.chs_readGran (s : State) (g m : Nat) (scrub clean : Bool) :
    (s.readGran [] g m scrub clean).1.chs = s.chs := by
  have hobs : obsOf [] g = { granule := g, syms := [], addrErr := false, repeatOk := true } := rfl
  unfold State.readGran
  simp only [hobs, State.decodeSyms_nil, Bool.false_eq_true, false_and, if_false]
  split
  · cases s.readFenced g <;> simp [State.noteUe]
  · rfl

/-! ### A request that is performed (R83-R87) -/

@[simp] theorem State.chs_countGran (s : State) (w : Bool) (g : Nat) : (s.countGran w g).chs = s.chs :=
  State.only_part (s.countGran_counters w g) .chs

theorem State.chs_readGrans (s : State) (m : Nat) (gs : List Nat) : (s.readGrans m [] gs).1.chs = s.chs := by
  induction gs generalizing s with
  | nil => rfl
  | cons g gs ih =>
    unfold State.readGrans
    dsimp only
    split <;> simp [ih]

theorem State.chs_writeGran (s : State) (m : Nat) (d : Bool) (g mask : Nat) (bs : List Byte) :
    (s.writeGran m [] d g mask bs).1.chs = s.chs := by
  unfold State.writeGran
  dsimp only
  split
  · rfl
  · split
    · rfl
    · split
      · simp
      · split <;> simp

theorem State.chs_writeGrans (s : State) (m : Nat) (k : Pkt) (d : Bool) (gs : List (Nat × Nat)) :
    (s.writeGrans m k [] d gs).1.chs = s.chs := by
  induction gs generalizing s with
  | nil => rfl
  | cons g gs ih => exact (ih _).trans (s.chs_writeGran _ _ _ _ _)

theorem State.chs_doAtomic (s : State) (m : Nat) (k : Pkt) (d : Bool) : (s.doAtomic m k [] d).1.chs = s.chs := by
  unfold State.doAtomic
  dsimp only
  split
  · simp
  · simp
  · split
    · simp
    · split <;> simp

theorem State.chs_doReq (s : State) (m : Nat) (k : Pkt) (d : Bool) : (s.doReq m k [] d).1.chs = s.chs := by
  have hite {p : Prop} [Decidable p] {x y : State × Done} (hx : x.1.chs = s.chs) (hy : y.1.chs = s.chs) :
      (if p then x else y).1.chs = s.chs := ite_keeps (fun x : State × Done => x.1.chs) hx hy
  have hread : (s.doRead m k []).1.chs = s.chs :=
    hite (s.chs_readGrans m _) (hite (s.chs_readGrans m _) (s.chs_readGrans m _))
  have hwrite : (s.doWrite m k [] d).1.chs = s.chs := hite (s.chs_writeGrans m k d _) (s.chs_writeGrans m k d _)
  exact hite hread (hite hwrite (s.chs_doAtomic m k d))

/-! ### A request to this stack, and one that leaves (R93, R101, R169, R173) -/

theorem State.chs_issue (s : State) (p : Nat) (k : Pkt) (d : Bool) : (s.issue p k d).chs = s.chs :=
  (foldl_keeps State.chs _ (fun _ _ => by simp) _ _).trans (by simp)

theorem State.chs_admitReq (s : State) (p : Nat) (k : Pkt) (hp : p < 8) : (s.admitReq p k []).chs = s.chs := by
  have hadmit : (s.admitWrite k).1.chs = s.chs := State.only_part (s.admitWrite_only k) .chs
  have hdone := ((s.admitWrite k).1.chs_doReq p k (s.admitWrite k).2).trans hadmit
  unfold State.admitReq
  dsimp only
  split
  · split
    · exact (State.chs_issue _ _ _ _).trans hdone
    · have hpass := State.only_part (State.passes_only ((s.admitWrite k).1.doReq p k [] (s.admitWrite k).2).1 p k hp) .chs
        (by simp [wires])
      simpa using hpass.trans hdone
  · exact (State.chs_issue _ _ _ _).trans hadmit

theorem State.chs_selfReq (s : State) (m : Nat) (k : Pkt) (hm : m < 8) : (s.selfReq m k).chs = s.chs := by
  have hanswer (st : Nat) : (s.answer m k st 0 []).chs = s.chs := by simp
  have hpark : (s.park m k).chs = s.chs := State.only_part (s.modMaster_only m _) .chs
  exact ite_keeps _ (hanswer 3) <| ite_keeps _ (hanswer 4) <| ite_keeps _ (hanswer 5) <| ite_keeps _ (hanswer 4) <|
    ite_keeps _ hpark (s.chs_admitReq m k hm)

theorem State.chs_sendReq (s : State) {m : Nat} (hm : m < 8) (opc dest addr len : Nat) (mgt masked : Bool) (payload : List Byte)
    (off : Nat) (o : Origin) : (s.sendReq m opc dest addr len mgt masked payload off o).chs = s.chs := by
  have hinject (t : State) (k : Pkt) : (t.injectReq m k).chs = t.chs := by
    unfold State.injectReq
    split
    · split
      · exact t.chs_selfReq m k hm
      · simp
      · simp
    · rfl
  exact hinject _ _

end Sys2Proof.Machine

/-! SUPPORT. What a job has staged leaves: its slot keeps its state; and the end of a job, its summary, and the pace meter (R210, R215,
R219, R220, R226, R229-R231). -/

namespace Sys2Proof.Machine

/-! ### What a job has staged leaves (R121, R219, R222) -/

theorem State.job_congr {s t : State} (h : t.chs = s.chs) (n : Nat) : t.job n = s.job n := by simp only [State.job, h]

/-- What an update does not change in a job reads as before in every job. -/
theorem State.job_modJob_keeps {α : Type} (part : Job → α) (s : State) {n : Nat} {f : Job → Job} (h : ∀ j, part (f j) = part j)
    (m : Nat) : part ((s.modJob n f).job m) = part (s.job m) := by
  by_cases hn : n < s.chs.jobs.length
  · rw [s.job_modJob n m f hn]
    exact ite_keeps part (h _) rfl
  · rw [s.job_modJob_out n m f (Nat.le_of_not_lt hn)]

theorem State.chs_m4Write (s : State) (n g : Nat) (bs : Option (List Byte)) : (s.m4Write n g bs).1.chs = s.chs := by
  have hovertake (t : State) (bs : List Byte) : (t.overtake g fullMask bs).chs = t.chs :=
    State.only_part (t.modBank_only _ _ _ _) .chs
  have hask (t : State) : (t.ask 4 1 (.out n) [(g, 1)]).chs = t.chs := State.only_part (t.ask_only _ _ _ _) .chs
  unfold State.m4Write
  split
  · rfl
  · dsimp only
    split
    · simp
    · split <;> simp [hask, hovertake]

theorem State.m4Hold_st (s : State) (n g m : Nat) : ((s.m4Hold n g).job m).st = (s.job m).st := by
  refine (State.job_modJob_keeps Job.st _ ?_ m).trans (congrArg Job.st (State.job_congr ?_ m))
  · exact fun _ => rfl
  · exact ite_keeps State.chs (State.only_part (s.touchStart_only _) .chs) rfl

theorem State.jobFail_st (s : State) (n gran : Nat) (spill : Bool) (m : Nat) :
    ((s.jobFail n gran spill).job m).st = (s.job m).st := by
  refine State.job_modJob_keeps Job.st s ?_ m
  exact fun _ => rfl

theorem State.flushTo_st (s : State) (n b : Nat) (spill : Bool) (fuel at_ : Nat) (bs : List Byte) (m : Nat) :
    ((s.flushTo n b spill fuel at_ bs).1.job m).st = (s.job m).st := by
  induction fuel generalizing s at_ bs with
  | zero => rfl
  | succ fuel ih =>
    unfold State.flushTo
    split
    · rfl
    · split
      · exact (ih _ _ _).trans (congrArg Job.st (State.job_congr (by simp [State.chs_sendReq]) m))
      · dsimp only
        split
        · have hwrite := congrArg Job.st (State.job_congr (s.chs_m4Write n ((baAddr b + at_) / 64) (some (bs.take 64))) m)
          exact (ih _ _ _).trans
            (ite_keeps (fun t : State => (t.job m).st) hwrite ((State.jobFail_st _ _ _ _ _).trans hwrite))
        · exact s.m4Hold_st _ _ _

/-- A job with no write held back. -/
def Job.unheld (j : Job) : Job := { j with held := none }

/-- A job whose OUT stream stands at an offset, with what is left of it before the bytes that later rows may change. -/
def Job.outLeft (x : Nat × List Byte) (j : Job) : Job := { j with outAt := x.1, out := x.2 ++ j.out.drop j.settled }

/-- A job whose SPILL stream stands at an offset, with what is left of it. -/
def Job.spillLeft (x : Nat × List Byte) (j : Job) : Job := { j with spAt := x.1, sp := x.2 }

/-- The OUT stream of the job in slot `n` leaves as far as it may. -/
def State.flushOut (s : State) (n : Nat) : State :=
  let j := s.job n
  let r := (s.modJob n Job.unheld).flushTo n j.op.outB false (j.out.length / 64 + 1) j.outAt (j.out.take j.settled)
  r.1.modJob n (Job.outLeft r.2)

theorem State.flushJob_writes {s : State} {n : Nat} (hkind : (s.job n).kind = 0) (hfail : (s.job n).fail = none) :
    let j := s.job n
    let r := (s.flushOut n).flushTo n j.op.spill true (j.sp.length / 64 + 1) j.spAt j.sp
    s.flushJob n = r.1.modJob n (Job.spillLeft r.2) := if_neg (by simp [hkind, hfail])

theorem State.flushJob_still {s : State} {n : Nat} (h : (s.job n).kind ≠ 0 ∨ (s.job n).fail.isSome = true) :
    s.flushJob n = s := if_pos h

theorem State.flushOut_st (s : State) (n m : Nat) : ((s.flushOut n).job m).st = (s.job m).st :=
  (State.job_modJob_keeps Job.st (f := Job.outLeft _) _ (fun _ => rfl) m).trans ((State.flushTo_st _ _ _ _ _ _ _ m).trans
    (State.job_modJob_keeps Job.st (f := Job.unheld) s (fun _ => rfl) m))

theorem State.flushJob_st (s : State) (n m : Nat) : ((s.flushJob n).job m).st = (s.job m).st := by
  by_cases h : (s.job n).kind ≠ 0 ∨ (s.job n).fail.isSome = true
  · rw [State.flushJob_still h]
  · obtain ⟨hkind, hfail⟩ := not_or.1 h
    rw [State.flushJob_writes (not_not.1 hkind) (by simpa using hfail),
      State.job_modJob_keeps Job.st (f := Job.spillLeft _) _ (fun _ => rfl), State.flushTo_st, State.flushOut_st]

/-- A job with nothing staged gives up the write that it held back, and nothing else. -/
theorem State.flushJob_empty {s : State} {n : Nat} (hkind : (s.job n).kind = 0) (hfail : (s.job n).fail = none)
    (hout : (s.job n).out = []) (hsp : (s.job n).sp = []) (hn : n < s.chs.jobs.length) :
    (s.flushJob n).job n = (s.job n).unheld ∧ s.only (s.flushJob n) [.chs] fun _ => False := by
  have hshort (t : State) (b : Nat) (spill : Bool) (fuel at_ : Nat) :
      t.flushTo n b spill (fuel + 1) at_ [] = (t, at_, []) := if_pos (by decide)
  have hlen (t : State) {f : Job → Job} : (t.modJob n f).chs.jobs.length = t.chs.jobs.length := length_modAt _ _ _
  have hstep := State.flushJob_writes hkind hfail
  simp only [State.flushOut, hout, hsp, List.take_nil, hshort] at hstep
  rw [hstep]
  refine ⟨?_, State.only_trans (State.only_trans (s.modJob_only _ _) (State.modJob_only _ _ _)) (State.modJob_only _ _ _)⟩
  rw [State.job_modJob_self (by rw [hlen, hlen]; exact hn), State.job_modJob_self (by rw [hlen]; exact hn),
    State.job_modJob_self hn]
  simp only [Job.spillLeft, Job.outLeft, Job.unheld, hout, hsp, List.drop_nil, List.append_nil]

/-! ### The writes of a job are answered (R215, R226, R227) -/

/-- What a job that writes has staged leaves. -/
def State.flushed (s : State) (n : Nat) : State :=
  if (s.job n).st = .emitting ∨ (s.job n).st = .running then s.flushJob n else s

/-- An EMITTING job with nothing left to write, and no write unanswered, completes. -/
def State.writesAnswered (s : State) (n : Nat) : State :=
  let j := s.job n
  let ready := j.kind != 0 || j.fail.isSome || (j.out.isEmpty && j.sp.isEmpty && (oKind j.prog != 3 || j.sorted))
  if j.st ≠ .emitting ∨ ready = false ∨ s.jobWaits n = true ∨ s.onWay (.out n) = true then s
  else if j.kind = 0 then s.finishRun n
  else s.finishCopy n

theorem State.flushed_st (s : State) (n m : Nat) : ((s.flushed n).job m).st = (s.job m).st :=
  ite_keeps (fun t : State => (t.job m).st) (s.flushJob_st n m) rfl

section
variable {s : State} {n : Fin 16}

theorem exec_outputWritesAnswered {ok : Bool} (h : ok = true ∨ ((s.flushed n).job n).st ≠ .emitting) (gran : Nat) (spill : Bool) :
    exec (.outputWritesAnswered n ok gran spill) s = .next ((s.flushed n).writesAnswered n) := by
  change Host.Outcome.next (State.writesAnswered (if ok = true ∨ ((s.flushed n).job n).st ≠ .emitting then s.flushed n
    else (s.flushed n).jobFail n gran spill) n) = _
  rw [if_pos h]

theorem exec_outputWritesAnswered_running (h : (s.job n).st ≠ .emitting) (ok : Bool) (gran : Nat) (spill : Bool) :
    exec (.outputWritesAnswered n ok gran spill) s = .next (if (s.job n).st = .running then s.flushJob n else s) := by
  have hst : ((s.flushed n).job n).st ≠ .emitting := by rwa [State.flushed_st]
  rw [exec_outputWritesAnswered (.inr hst), State.writesAnswered, if_pos (.inl hst), State.flushed]
  exact congrArg _ (if_congr (or_iff_right h) rfl rfl)

theorem exec_outputWritesAnswered_run (hst : (s.job n).st = .emitting) (hkind : (s.job n).kind = 0) (hfail : (s.job n).fail = none)
    (hout : (s.job n).out = []) (hsp : (s.job n).sp = []) (hsorted : oKind (s.job n).prog ≠ 3 ∨ (s.job n).sorted = true)
    (hwaits : s.jobWaits n = false) (hway : s.onWay (.out n) = false) (gran : Nat) (spill : Bool) :
    exec (.outputWritesAnswered n true gran spill) s = .next ((s.flushJob n).finishRun n) := by
  obtain ⟨hjob, honly⟩ := State.flushJob_empty hkind hfail hout hsp (State.job_lt (by rw [hst]; decide))
  have hflush : s.flushed n = s.flushJob n := if_pos (.inl hst)
  have hlnk : (s.flushJob n).lnk = s.lnk := State.only_part honly .lnk
  have hmtr : (s.flushJob n).mtr = s.mtr := State.only_part honly .mtr
  have hwaits' : (s.flushJob n).jobWaits n = false := by simpa only [State.jobWaits, hlnk] using hwaits
  have hway' : (s.flushJob n).onWay (.out n) = false := by simpa only [State.onWay, hmtr] using hway
  rw [exec_outputWritesAnswered (.inl rfl), hflush]
  refine congrArg Host.Outcome.next ((if_neg ?_).trans (if_pos (by rw [hjob]; exact hkind)))
  simpa [hjob, Job.unheld, hst, hkind, hfail, hout, hsp, hwaits', hway', imp_iff_not_or] using hsorted

theorem exec_outputWritesAnswered_copy (hst : (s.job n).st = .emitting) (hkind : (s.job n).kind ≠ 0) (gran : Nat) (spill : Bool) :
    exec (.outputWritesAnswered n true gran spill) s =
      .next (if s.jobWaits n = true ∨ s.onWay (.out n) = true then s else s.finishCopy n) := by
  have hflush : s.flushed n = s := (if_pos (.inl hst)).trans (State.flushJob_still (.inl hkind))
  rw [exec_outputWritesAnswered (.inl rfl), hflush, State.writesAnswered, if_neg hkind]
  exact congrArg _ (if_congr (by simp [hst, hkind]) rfl rfl)

theorem exec_groupSortDone_still (h : (s.job n).st ≠ .emitting ∨ (s.job n).sorted = true) : exec (.groupSortDone n) s = .next s := by
  refine congrArg Host.Outcome.next (if_neg ?_)
  rintro ⟨hst, -, -, hsorted⟩
  exact h.elim (absurd hst) (by simp [hsorted])

end

/-! ### A summary (R231) -/

/-- A summary of a CHISEL_RUN, as its fields laid end to end. -/
theorem summaryOf_run {j : Job} (h : j.kind = 0) : ∃ rest, rest.length = 24 ∧ summaryOf j =
    leBytes 8 j.sel ++ (leBytes 8 j.scanned ++ (leBytes 8 j.residual ++ (leBytes 8 j.spillRows ++ (leBytes 8 j.poison ++ rest)))) := by
  refine ⟨leBytes 8 (j.first.getD (2 ^ 64 - 1)) ++ leBytes 8 j.doneAt ++
    [BitVec.ofNat 8 j.op.q, BitVec.ofNat 8 j.status, BitVec.ofNat 8 j.op.opc, BitVec.ofNat 8 j.cause] ++
    leBytes 2 j.op.cid ++ [0, 0], by simp, ?_⟩
  simp [summaryOf, h, List.append_assoc]

/-- The pace meter has its rate, and its smallest so far (R220). -/
def State.chiselPaceNoted (s : State) (c : Nat) : State := (s.setFld CHS_PACE_RATE c).minFld CHS_PACE_MIN c

theorem State.fld_setChs (s : State) (c : Chs) (f : Fld) : ({ s with chs := c } : State).fld f = s.fld f := rfl

theorem exec_chiselPaceWindow (s : State) (count : Nat) : ∃ chs,
    let c := min count 4095
    let u := { s.chiselPaceNoted c with chs := chs }
    exec (.chiselPaceWindow count) s =
      .next (if c < 1075 ∧ 1 ≤ s.chs.low ∧ s.chs.lowPosted = false then u.post 0x0806 2 0xFF c else u) := by
  refine ⟨_, congrArg Host.Outcome.next (if_congr ?_ rfl rfl)⟩
  simp only [State.minFld_same, State.setFld_same, Bool.and_eq_true, beq_iff_eq, Bool.not_eq_true', decide_eq_true_eq,
    ← and_assoc]
  refine and_congr_left' ?_
  split <;> omega

theorem State.chiselPaceNoted_fld (s : State) {c : Nat} (hc : c < 4096) :
    (s.chiselPaceNoted c).fld CHS_PACE_RATE = c ∧ (s.chiselPaceNoted c).fld CHS_PACE_MIN = min (s.fld CHS_PACE_MIN) c := by
  constructor
  · rw [State.chiselPaceNoted, State.fld_minFld_beside _ _ rfl, State.fld_setFld_lt s hc]
  · rw [State.chiselPaceNoted, State.fld_minFld _ _ rfl, State.fld_setFld_beside _ _ rfl]

theorem State.chiselPaceNoted_only (s : State) (c : Nat) : s.only (s.chiselPaceNoted c) [] fun r => r = CHS_PACE :=
  State.only_trans (s.setFld_only CHS_PACE_RATE _) (State.minFld_only _ CHS_PACE_MIN _)

/-- Settles O37: the answer to a job's writes by its state and by what it has left to write, a summary field by field, a pace
window by its two fields. -/
theorem jobsComplete : Obligations.JobsComplete := by
  unfold Obligations.JobsComplete
  refine ⟨fun s n => ⟨fun hst hkind hagg hsorted => ?_, exec_groupSortDone_still, fun hst hkind hfail hout hsp hsorted hwaits
    hway => ?_, fun hst hkind hwaits hway gran spill => ?_, fun hst hkind hwaits gran spill => ?_,
    fun hst ok gran spill => exec_outputWritesAnswered_running hst ok gran spill, fun hst => ?_,
    fun hst => congrArg Host.Outcome.next (if_pos hst)⟩, fun j hkind => ?_, fun s count => ?_⟩
  · exact congrArg Host.Outcome.next (if_pos ⟨hst, hkind, hagg, hsorted⟩)
  · obtain ⟨hjob, honly⟩ := State.flushJob_empty hkind hfail hout hsp (State.job_lt (by rw [hst]; decide))
    exact ⟨_, honly, hjob, exec_outputWritesAnswered_run hst hkind hfail hout hsp hsorted hwaits hway⟩
  · rw [exec_outputWritesAnswered_copy hst (by omega), if_neg (by simp [hwaits, hway])]
  · rw [exec_outputWritesAnswered_copy hst hkind, if_pos hwaits]
  · exact congrArg Host.Outcome.next (if_neg (not_not.2 hst))
  · obtain ⟨rest, hlen, heq⟩ := summaryOf_run hkind
    have h8 (v : Nat) := length_leBytes 8 v
    dsimp only
    rw [heq]
    refine ⟨by simp [hlen], fieldB_leBytes 8 _ _, ?_, ?_⟩
    · rw [fieldB_skip (h8 _) _ 0, fieldB_leBytes]
      rfl
    · rw [fieldB_skip (h8 _) _ 24, fieldB_skip (h8 _) _ 16, fieldB_skip (h8 _) _ 8, fieldB_skip (h8 _) _ 0, fieldB_leBytes]
      rfl
  · obtain ⟨chs, h⟩ := exec_chiselPaceWindow s count
    obtain ⟨hrate, hmin⟩ := s.chiselPaceNoted_fld (c := min count 4095) (by omega)
    exact ⟨_, h, (State.fld_setChs _ _ _).trans hrate, (State.fld_setChs _ _ _).trans hmin,
      ((State.only_mono (s.chiselPaceNoted_only _) (by simp) fun _ h => h).andThen (State.setChs_only _ chs) (by simp)
        fun _ h => h.elim)⟩

end Sys2Proof.Machine

/-! SUPPORT. Slices of the chisel (R217-R219, R232-R235): the channel and the job next in turn, what a slice takes, what each of its
granules becomes as it arrives, and O35. -/

namespace Sys2Proof.Machine

/-! ### The channel next in turn (R218) -/

/-- What a channel does to the best channel below it: with work on it, it takes its place where it has the higher credit. -/
def betterChan (w : List Nat) (credit : List Int) (best : Option Nat) (c : Nat) : Option Nat :=
  if w.getD c 0 = 0 then best
  else match best with
    | none => some c
    | some b => if credit.getD b 0 < credit.getD c 0 then some c else best

/-- The best of the channels below `n`: it has work, and each of them with work has a lower credit, or the same and a number no
lower. -/
structure BestBelow (w : List Nat) (credit : List Int) (n : Nat) (best : Option Nat) : Prop where
  works : ∀ c ∈ best, c < n ∧ 0 < w.getD c 0
  beats : ∀ k < n, 0 < w.getD k 0 → ∃ c ∈ best,
    credit.getD k 0 ≤ credit.getD c 0 ∧ (credit.getD k 0 = credit.getD c 0 → c ≤ k)

section
variable {w : List Nat} {credit : List Int}

theorem BestBelow.step {n : Nat} {best : Option Nat} (h : BestBelow w credit n best) :
    BestBelow w credit (n + 1) (betterChan w credit best n) := by
  have hkeep (c : Nat) (hc : c ∈ best) : c < n + 1 ∧ 0 < w.getD c 0 := (h.works c hc).imp_left fun hlt => by omega
  unfold betterChan
  by_cases hw : w.getD n 0 = 0
  · rw [if_pos hw]
    refine ⟨hkeep, fun k hk hpos => h.beats k ?_ hpos⟩
    have : k ≠ n := by rintro rfl; omega
    omega
  rw [if_neg hw]
  have hnew : ∀ c ∈ some n, c < n + 1 ∧ 0 < w.getD c 0 := fun c hc => by
    obtain rfl := Option.mem_some.1 hc
    exact ⟨n.lt_succ_self, Nat.pos_of_ne_zero hw⟩
  cases best with
  | none =>
    refine ⟨hnew, fun k hk hpos => ⟨n, rfl, ?_⟩⟩
    obtain rfl | hlt := Nat.eq_or_lt_of_le (Nat.le_of_lt_succ hk)
    · exact ⟨le_refl _, fun _ => le_refl _⟩
    · obtain ⟨c, hc, -⟩ := h.beats k hlt hpos
      cases hc
  | some b =>
    dsimp only
    split
    next hlt =>
      refine ⟨hnew, fun k hk hpos => ⟨n, rfl, ?_⟩⟩
      obtain rfl | hkn := Nat.eq_or_lt_of_le (Nat.le_of_lt_succ hk)
      · exact ⟨le_refl _, fun _ => le_refl _⟩
      · obtain ⟨c, hc, hle, -⟩ := h.beats k hkn hpos
        obtain rfl := Option.mem_some.1 hc
        exact ⟨by omega, fun _ => by omega⟩
    next hge =>
      refine ⟨hkeep, fun k hk hpos => ?_⟩
      obtain rfl | hkn := Nat.eq_or_lt_of_le (Nat.le_of_lt_succ hk)
      · exact ⟨b, rfl, by omega, fun _ => (h.works b rfl).1.le⟩
      · exact h.beats k hkn hpos

theorem bestChan_best (w : List Nat) (credit : List Int) : BestBelow w credit 32 (bestChan w credit) := by
  have h (n : Nat) : BestBelow w credit n ((List.range n).foldl (betterChan w credit) none) := by
    induction n with
    | zero => exact ⟨fun _ h => (nomatch h), fun _ h => absurd h (Nat.not_lt_zero _)⟩
    | succ n ih =>
      rw [List.range_succ, List.foldl_append]
      exact ih.step
  exact h 32

/-- The channel picked has the highest credit of those with work, and of those the lowest number. -/
theorem bestChan_some {c : Nat} (h : bestChan w credit = some c) : c < 32 ∧ 0 < w.getD c 0 ∧
    ∀ k < 32, 0 < w.getD k 0 → credit.getD k 0 ≤ credit.getD c 0 ∧ (credit.getD k 0 = credit.getD c 0 → c ≤ k) := by
  have hbest := bestChan_best w credit
  rw [h] at hbest
  obtain ⟨hlt, hpos⟩ := hbest.works c rfl
  refine ⟨hlt, hpos, fun k hk hw => ?_⟩
  obtain ⟨b, hb, hbeats⟩ := hbest.beats k hk hw
  obtain rfl := Option.mem_some.1 hb
  exact hbeats

theorem bestChan_none (h : ∀ c < 32, w.getD c 0 = 0) : bestChan w credit = none := by
  cases hc : bestChan w credit with
  | none => rfl
  | some c =>
    obtain ⟨hlt, hpos, -⟩ := bestChan_some hc
    exact absurd (h c hlt) hpos.ne'

end

/-! ### A slice is issued (R217, R218) -/

/-- The work of each channel. -/
def State.sliceWork (s : State) : List Nat := (List.range 32).map s.chW

/-- The credit of each channel once its work is added; a channel without work has none. -/
def State.sliceCredit (s : State) : List Int := (List.range 32).map fun c =>
  if s.sliceWork.getD c 0 = 0 then (0 : Int) else s.chs.credit.getD c 0 + s.sliceWork.getD c 0

/-- The job whose turn it is on a channel. -/
def State.sliceJob (s : State) (c : Nat) : Option Nat :=
  findFrom 16 (s.chs.last.getD c 15 + 1) fun n => !((s.job n).unreadOn c).isEmpty

/-- A job that has asked for granules of a channel. -/
def Job.sliced (j : Job) (c : Nat) (xs : List Nat) : Job :=
  { j with asked := xs.foldl radd j.asked, flight := j.flight ++ [(c, xs)] }

/-- The state in which channel `c` has paid for a slice of the job in slot `n`. -/
def State.slicePaid (s : State) (c n : Nat) : State := { s with chs := { s.chs with
  credit := setAt s.sliceCredit c (s.sliceCredit.getD c 0 - s.sliceWork.sum), last := setAt s.chs.last c n } }

section
variable {s : State} {c n : Nat}

theorem State.nextSlice_none (h : bestChan s.sliceWork s.sliceCredit = none) : s.nextSlice = s := by
  unfold State.sliceCredit State.sliceWork at h
  simp only [State.nextSlice, h]

theorem State.nextSlice_some (h : bestChan s.sliceWork s.sliceCredit = some c) (hn : s.sliceJob c = some n) :
    let xs := ((s.job n).unreadOn c).take 64
    s.nextSlice = (((s.slicePaid c n).modJob n fun j => j.sliced c xs).sliceGoes n (c, xs)).incFld (CHS_CHW_SLICES c) 1 := by
  unfold State.sliceCredit State.sliceWork at h
  unfold State.sliceJob at hn
  simp only [State.nextSlice, h, hn]
  rfl

/-- Without work no slice is issued. -/
theorem State.nextSlice_idle (h : ∀ c < 32, s.chW c = 0) : s.nextSlice = s :=
  State.nextSlice_none (bestChan_none fun c hc => by simpa [State.sliceWork, hc] using h c hc)

theorem State.sliceGoes_only (s : State) (n : Nat) (f : Nat × List Nat) : s.only (s.sliceGoes n f) [.mtr] fun _ => False := by
  unfold State.sliceGoes
  dsimp only
  split
  · exact s.only_refl _ _
  · split
    · exact s.only_refl _ _
    · exact s.ask_only _ _ _ _

theorem State.chs_sliceGoes (s : State) (n : Nat) (f : Nat × List Nat) : (s.sliceGoes n f).chs = s.chs :=
  State.only_part (s.sliceGoes_only n f) .chs

theorem rmem_foldl_radd (xs : List Nat) (r : Rng) (k : Nat) : rmem (xs.foldl radd r) k = true ↔ k ∈ xs ∨ rmem r k = true := by
  induction xs generalizing r with
  | nil => simp
  | cons x xs ih => rw [List.foldl_cons, ih, rmem_radd, List.mem_cons, ← or_assoc, or_comm (a := k ∈ xs)]

/-- A slice leaves in the chisel the payment of its channel and what its job has asked for. -/
theorem State.nextSlice_chs (h : bestChan s.sliceWork s.sliceCredit = some c) (hn : s.sliceJob c = some n) :
    s.nextSlice.chs = ((s.slicePaid c n).modJob n fun j => j.sliced c (((s.job n).unreadOn c).take 64)).chs := by
  rw [State.nextSlice_some h hn]
  simp only [State.incFld_same, State.chs_sliceGoes]

theorem State.nextSlice_job (h : bestChan s.sliceWork s.sliceCredit = some c) (hn : s.sliceJob c = some n)
    (hlt : n < s.chs.jobs.length) : s.nextSlice.job n = (s.job n).sliced c (((s.job n).unreadOn c).take 64) :=
  (State.job_congr (State.nextSlice_chs h hn) n).trans (State.job_modJob_self (s := s.slicePaid c n) hlt _)

theorem State.nextSlice_only (h : bestChan s.sliceWork s.sliceCredit = some c) (hn : s.sliceJob c = some n) :
    s.only s.nextSlice [.chs, .mtr] fun r => r = CHS_CHW c := by
  rw [State.nextSlice_some h hn]
  have hpaid : s.only ((s.slicePaid c n).modJob n fun j => j.sliced c (((s.job n).unreadOn c).take 64)) [.chs] fun _ => False :=
    State.only_trans (s.setChs_only _) (State.modJob_only _ _ _)
  exact ((State.only_mono hpaid (by simp) fun _ h => h.elim).andThen (State.sliceGoes_only _ _ _) (by simp)
    fun _ h => h.elim).andThen (State.incFld_only _ (CHS_CHW_SLICES c) _) (by simp) fun _ h => h

/-- A slice is in flight, its granules count as asked, its channel has paid, and the job is the one last served there. -/
theorem State.nextSlice_turn (h : bestChan s.sliceWork s.sliceCredit = some c) (hn : s.sliceJob c = some n)
    (hlt : n < s.chs.jobs.length) : let xs := ((s.job n).unreadOn c).take 64
    (s.nextSlice.job n).flight = (s.job n).flight ++ [(c, xs)] ∧ (∀ x ∈ xs, rmem (s.nextSlice.job n).asked x = true) ∧
    s.nextSlice.chs.credit = setAt s.sliceCredit c (s.sliceCredit.getD c 0 - s.sliceWork.sum) ∧
    s.nextSlice.chs.last = setAt s.chs.last c n ∧ s.only s.nextSlice [.chs, .mtr] fun r => r = CHS_CHW c := by
  intro xs
  rw [State.nextSlice_job h hn hlt]
  exact ⟨rfl, fun x hx => (rmem_foldl_radd _ _ _).2 (.inl hx), congrArg Chs.credit (State.nextSlice_chs h hn),
    congrArg Chs.last (State.nextSlice_chs h hn), State.nextSlice_only h hn⟩

/-- A job that does not copy from elsewhere reads nothing from elsewhere. -/
theorem State.remoteReads_local (h : (s.job n).kind = 1 → baRemote (s.job n).op.src = false) : s.remoteReads n = s := by
  unfold State.remoteReads
  dsimp only
  rw [if_neg]
  rintro ⟨-, hkind, hremote, -⟩
  exact Bool.false_ne_true ((h hkind).symm.trans hremote)

theorem exec_sliceIssue_held (h : s.flag CHS_CTL_PAUSE = true ∨ s.inService = false) : exec .sliceIssue s = .next s :=
  congrArg Host.Outcome.next (if_pos h)

theorem exec_sliceIssue (hpause : s.flag CHS_CTL_PAUSE = false) (hserv : s.inService = true) : exec .sliceIssue s =
    .next ((List.range 16).foldl (fun s n => s.remoteReads n) (if s.m4Free = true then s.nextSlice else s)) :=
  congrArg Host.Outcome.next (if_neg (by simp [hpause, hserv]))

/-- With nothing to copy from elsewhere, a slice is all that is issued. -/
theorem exec_sliceIssue_slice (h : bestChan s.sliceWork s.sliceCredit = some c) (hn : s.sliceJob c = some n)
    (hpause : s.flag CHS_CTL_PAUSE = false) (hserv : s.inService = true) (hfree : s.m4Free = true)
    (hlocal : ∀ m < 16, (s.job m).kind = 1 → baRemote (s.job m).op.src = false) : exec .sliceIssue s = .next s.nextSlice := by
  have hkeeps {α : Type} (part : Job → α) (hpart : ∀ j xs, part (Job.sliced j c xs) = part j) (m : Nat) :
      part (s.nextSlice.job m) = part (s.job m) :=
    (congrArg part (State.job_congr (State.nextSlice_chs h hn) m)).trans
      (State.job_modJob_keeps part (s.slicePaid c n) (fun j => hpart j _) m)
  rw [exec_sliceIssue hpause hserv, if_pos hfree]
  refine congrArg Host.Outcome.next (List.foldlRecOn (motive := (· = s.nextSlice)) _ _ rfl fun t ht m hm => ?_)
  subst ht
  refine State.remoteReads_local ?_
  rw [hkeeps Job.kind (fun _ _ => rfl), hkeeps Job.op (fun _ _ => rfl)]
  exact hlocal m (List.mem_range.1 hm)

end

/-! ### A granule is read into staging (R219, R232) -/

/-- The registers that count what slices read. -/
def sliceCounters (r : Nat) : Prop := r = CHS_RDBYTES_LO ∨ r = CHS_RDBYTES_LO + 4

/-- A job that holds the bytes of a granule in staging. -/
def Job.staged (j : Job) (x : Nat) (bs : List Byte) : Job := { j with have_ := tset j.have_ x (some bs) }

/-- The state in which granule `g` has been read into staging as granule `x` of the job in slot `n`. -/
def State.granStaged (s : State) (n x g : Nat) : State :=
  (s.add64 CHS_RDBYTES_LO 64).modJob n fun j => j.staged x (s.granData g)

section
variable {s : State} {n x g : Nat} {obs : List CellObs}

theorem State.sliceRead_readable (hread : s.readable g = true) (hclean : readsClean obs g = true) :
    s.sliceRead n x g obs = (s.granStaged n x g, true) := by
  obtain ⟨hplain, hrestored, hfree⟩ := State.readable_iff.1 hread
  unfold State.sliceRead
  simp only [hrestored, hfree, State.readGran_clean hplain hclean, Bool.false_eq_true, if_false]
  rfl

theorem State.granStaged_only (s : State) (n x g : Nat) : s.only (s.granStaged n x g) [.chs] sliceCounters :=
  (State.only_mono (s.add64_only CHS_RDBYTES_LO 64) (by simp) fun _ h => h).andThen (State.modJob_only _ _ _) (by simp)
    fun _ h => h.elim

theorem State.granStaged_job (h : n < s.chs.jobs.length) : (s.granStaged n x g).job n = (s.job n).staged x (s.granData g) :=
  State.job_modJob_self (s := s.add64 CHS_RDBYTES_LO 64) h _

/-- What a job gives of its state beside its writes that wait, M4's port does not see. -/
theorem State.m4Waits_modJob {f : Job → Job} (hf : ∀ j, (f j).held = j.held) (s : State) (n : Nat) :
    (s.modJob n f).m4Waits = s.m4Waits := by
  have h (l : List Job) (i : Nat) : (l.modify i f).filterMap Job.held = l.filterMap Job.held := by
    induction l generalizing i with
    | nil => cases i <;> rfl
    | cons j l ih => cases i <;> simp [List.filterMap_cons, hf, ih]
  exact h _ _

/-- Where a write of M4 may go does not rest on the chisel, but for its writes that wait (R173). -/
theorem State.m4May_congr {s t : State} {rs : Nat → Prop} (h : s.only t [.chs] rs) (hwaits : t.m4Waits = s.m4Waits) (g : Nat) :
    t.m4May g = s.m4May g := by
  have hdev : t.dev = s.dev := State.only_part h .dev
  have hact : t.act = s.act := State.only_part h .act
  have hmtr : t.mtr = s.mtr := State.only_part h .mtr
  have hkeep : t.keep = s.keep := State.only_part h .keep
  have hpwr : t.pwr = s.pwr := State.only_part h .pwr
  have hintg : t.intg = s.intg := State.only_part h .intg
  have hadmits (p : Nat) : t.admits p = s.admits p := by simp only [State.admits, State.blocked, hkeep, hpwr]
  have hostd (m : Nat) : t.ostd m = s.ostd m := by simp only [State.ostd, State.actFld, State.actReg, hact]
  have hcause (g : Nat) : t.m4Cause g = s.m4Cause g := by
    unfold State.m4Cause State.master
    rw [hadmits, hostd, hdev, hmtr]
  simp only [State.m4May, State.inService, State.m4Free, State.m4Stuck, State.master, State.unrestored, State.unitHeld, hcause,
    hwaits, hdev, hmtr, hkeep, hintg]

theorem State.granStaged_m4May (s : State) (n x g d : Nat) : (s.granStaged n x g).m4May d = s.m4May d :=
  State.m4May_congr (s.granStaged_only n x g)
    ((State.m4Waits_modJob (f := fun j => j.staged x (s.granData g)) (fun _ => rfl) _ n).trans rfl) d

end

/-! ### A granule is written to its destination (R87, R121, R227) -/

/-- The granule of memory that granule `x` of a local COPY or FILL goes to. -/
def Job.destGran (j : Job) (x : Nat) : Nat := baAddr j.op.dst / 64 + x

/-- A job that has handled a granule. -/
def Job.handled (j : Job) (x : Nat) : Job := { j with done := radd j.done x, fencedDst := j.fencedDst || !true }

/-- The state in which M4 has written granule `g` for the job in slot `n`. -/
def State.m4Wrote (s : State) (n g : Nat) (bs : List Byte) : State :=
  ((((s.markDirty (g / 64)).overtake g fullMask bs).ask 4 1 (.out n) [(g, 1)]).add64 CHS_WRBYTES_LO 64).putGran g bs

/-- What a granule of a COPY or FILL leaves once it has gone to granule `d`: its bytes there and nowhere else, a dirty page, and a
granule handled. -/
structure State.GranLands (s t : State) (n x d : Nat) (bs : List Byte) : Prop where
  data : t.granData d = bs
  sound : t.poisoned d = false
  others : ∀ y ≠ d, t.granData y = s.granData y ∧ t.poisoned y = s.poisoned y
  dirty : rmem t.keep.dirty (d / 64) = true
  handled : rmem (t.job n).done x = true

section
variable {s : State} {n x g : Nat} {obs : List CellObs}

/-- A granule written whole reads as it was written, every other as before. -/
theorem State.granData_putGran (s : State) (g y : Nat) (bs : List Byte) :
    (s.putGran g bs).granData y = if y = g then sliceB bs 0 64 else s.granData y := by
  have hlen := length_sliceB bs 0 64
  have hget (i : Nat) : mget (s.putGran g bs).dram.mem (64 * y + i) =
      if 64 * g ≤ 64 * y + i ∧ 64 * y + i < 64 * g + 64 then (sliceB bs 0 64).getD (64 * y + i - 64 * g) 0
      else mget s.dram.mem (64 * y + i) := by rw [State.putGran, mget_mput, hlen]
  simp only [State.granData, mread, hget]
  split
  next h =>
    subst h
    refine List.ext_getElem (by simp) fun i hi hi' => ?_
    have hlt : i < 64 := by simpa using hi
    simp [hlt, List.getD_eq_getElem?_getD]
  next h =>
    refine List.map_congr_left fun i hi => if_neg ?_
    have := List.mem_range.1 hi
    omega

theorem State.poisoned_putGran (s : State) (g y : Nat) (bs : List Byte) :
    (s.putGran g bs).poisoned y = (s.poisoned y && !(y == g)) := contains_sdel _ _ _

/-- A granule that is there and not fenced is written (R121, R235). -/
theorem State.m4Write_there (hthere : g < dramEnd / 64) (hfence : s.fencedGran g = false) (n : Nat) (bs : List Byte) :
    s.m4Write n g (some bs) = (s.m4Wrote n g bs, true) := by
  have hfence' : (s.markDirty (g / 64)).fencedGran g = false := (State.fencedGran_congr rfl g).trans hfence
  unfold State.m4Write
  simp only [Nat.not_le.2 hthere, hfence', if_false, Bool.false_eq_true]
  rfl

theorem State.m4Wrote_parts (s : State) (n g : Nat) (bs : List Byte) : ∃ t : State, s.m4Wrote n g bs = t.putGran g bs ∧
    t.dram = s.dram ∧ t.chs = s.chs ∧ t.keep.dirty = radd s.keep.dirty (g / 64) := by
  have hframe : (s.markDirty (g / 64)).only
      ((((s.markDirty (g / 64)).overtake g fullMask bs).ask 4 1 (.out n) [(g, 1)]).add64 CHS_WRBYTES_LO 64) [.mc, .mtr]
      fun r => r = CHS_WRBYTES_LO ∨ r = CHS_WRBYTES_LO + 4 :=
    ((State.only_mono (State.modBank_only _ _ _ _ _) (by simp) fun _ h => h.elim).andThen (State.ask_only _ _ _ _ _) (by simp)
      fun _ h => h.elim).andThen (State.add64_only _ _ _) (by simp) fun _ h => h
  exact ⟨_, rfl, State.only_part hframe .dram, State.only_part hframe .chs, congrArg Keep.dirty (State.only_part hframe .keep)⟩

/-- A granule of a COPY or FILL that may go to memory lands there. -/
theorem State.copyGran_lands (hlocal : baRemote (s.job n).op.dst = false) (hthere : (s.job n).destGran x < dramEnd / 64)
    (hfence : s.fencedGran ((s.job n).destGran x) = false) (hn : n < s.chs.jobs.length) (bs : List Byte) :
    s.GranLands (s.copyGran n x (some bs)) n x ((s.job n).destGran x) (sliceB bs 0 64) := by
  obtain ⟨t, hwrote, hdram, hchs, hdirty⟩ := s.m4Wrote_parts n ((s.job n).destGran x) bs
  have hcopy : s.copyGran n x (some bs) = (t.putGran ((s.job n).destGran x) bs).modJob n fun j => j.handled x := by
    have hwrite := State.m4Write_there hthere hfence n bs
    rw [hwrote, Job.destGran] at hwrite
    unfold State.copyGran
    simp only [hlocal, hwrite, Bool.false_eq_true, if_false]
    rfl
  have hdata (y : Nat) := t.granData_putGran ((s.job n).destGran x) y bs
  have hpoison (y : Nat) := t.poisoned_putGran ((s.job n).destGran x) y bs
  rw [hcopy]
  refine ⟨(hdata _).trans (if_pos rfl), (hpoison _).trans (by simp), fun y hy => ⟨?_, ?_⟩, ?_, ?_⟩
  · exact (hdata y).trans ((if_neg hy).trans (State.granData_congr hdram y))
  · exact (hpoison y).trans (by simp [hy, State.poisoned_congr hdram])
  · exact (congrArg (rmem · _) hdirty).trans ((rmem_radd _ _ _).2 (.inl rfl))
  · rw [State.job_modJob_self (s := t.putGran _ bs) (hn.trans_eq (congrArg (·.jobs.length) hchs.symm))]
    exact (rmem_radd _ _ _).2 (.inl rfl)

/-! ### An entry of a slice arrives (R219, R227, R232, R235) -/

/-- An entry of a CHISEL_RUN is read into staging. -/
theorem State.sliceGran_run (hkind : (s.job n).kind = 0) (hserv : s.inService = true) (hread : s.readable x = true)
    (hclean : readsClean obs x = true) : s.sliceGran n x obs = (s.granStaged n x x, true) := by
  unfold State.sliceGran
  simp [hkind, hserv, State.sliceRead_readable hread hclean]

/-- An entry of a COPY or FILL that has stopped is dropped. -/
theorem State.sliceGran_dropped (hkind : (s.job n).kind ≠ 0) (hfail : (s.job n).fail.isSome = true) :
    s.sliceGran n x obs = (s, true) := if_pos ⟨hkind, hfail⟩

/-- An entry of a FILL becomes its pattern. -/
theorem State.sliceGran_fill (hkind : (s.job n).kind = 2) (hfail : (s.job n).fail = none) (hserv : s.inService = true)
    (hmay : s.m4May ((s.job n).destGran x) = true) :
    s.sliceGran n x obs = (s.copyGran n x (some (s.job n).op.pattern), true) := by
  unfold Job.destGran at hmay
  unfold State.sliceGran
  simp [hkind, hfail, hserv, hmay]

/-- The state in which an entry of a COPY has been read into staging and has left it. -/
def State.granTaken (s : State) (n x : Nat) : State :=
  (s.granStaged n x ((s.job n).localGran x)).modJob n fun j => { j with have_ := tdel j.have_ x }

/-- A readable entry of a COPY goes on as memory holds it. -/
theorem State.sliceGran_copy (hkind : (s.job n).kind = 1) (hfail : (s.job n).fail = none) (hserv : s.inService = true)
    (hmay : s.m4May ((s.job n).destGran x) = true) (hwants : tget (s.job n).have_ x = none)
    (hread : s.readable ((s.job n).localGran x) = true) (hclean : readsClean obs ((s.job n).localGran x) = true)
    (hn : n < s.chs.jobs.length) : s.sliceGran n x obs =
      ((s.granTaken n x).copyGran n x (some (s.granData ((s.job n).localGran x))), true) := by
  have hstaged : tget ((s.granStaged n x ((s.job n).localGran x)).job n).have_ x =
      some (some (s.granData ((s.job n).localGran x))) := by
    rw [State.granStaged_job hn]
    exact tget_tset_self _ _ _
  have hmay' := (s.granStaged_m4May n x ((s.job n).localGran x) _).trans hmay
  unfold Job.destGran at hmay'
  unfold State.sliceGran
  simp [hkind, hfail, hserv, hwants, State.sliceRead_readable hread hclean, hmay', hstaged, State.granTaken]

theorem State.granTaken_only (s : State) (n x : Nat) : s.only (s.granTaken n x) [.chs] sliceCounters :=
  (s.granStaged_only _ _ _).andThen (State.modJob_only _ _ _) (by simp) fun _ h => h.elim

theorem State.granTaken_op (s : State) (n x : Nat) : ((s.granTaken n x).job n).op = (s.job n).op :=
  (State.job_modJob_keeps Job.op (f := fun j => { j with have_ := tdel j.have_ x }) _ (fun _ => rfl) n).trans
    (State.job_modJob_keeps Job.op (f := fun j => j.staged x _) (s.add64 CHS_RDBYTES_LO 64) (fun _ => rfl) n)

theorem State.granTaken_length (s : State) (n x : Nat) : (s.granTaken n x).chs.jobs.length = s.chs.jobs.length :=
  (length_modAt _ _ _).trans (length_modAt _ _ _)

/-- Where M4 may write, an entry of a FILL lands as its pattern. -/
theorem State.sliceGran_fill_lands (hkind : (s.job n).kind = 2) (hfail : (s.job n).fail = none) (hserv : s.inService = true)
    (hmay : s.m4May ((s.job n).destGran x) = true) (hlocal : baRemote (s.job n).op.dst = false)
    (hthere : (s.job n).destGran x < dramEnd / 64) (hfence : s.fencedGran ((s.job n).destGran x) = false)
    (hn : n < s.chs.jobs.length) : (s.sliceGran n x obs).2 = true ∧
      s.GranLands (s.sliceGran n x obs).1 n x ((s.job n).destGran x) (sliceB (s.job n).op.pattern 0 64) := by
  rw [State.sliceGran_fill hkind hfail hserv hmay]
  exact ⟨rfl, State.copyGran_lands hlocal hthere hfence hn _⟩

/-- And a readable entry of a local COPY as memory holds it. -/
theorem State.sliceGran_copy_lands (hkind : (s.job n).kind = 1) (hfail : (s.job n).fail = none) (hserv : s.inService = true)
    (hmay : s.m4May ((s.job n).destGran x) = true) (hlocal : baRemote (s.job n).op.dst = false)
    (hthere : (s.job n).destGran x < dramEnd / 64) (hfence : s.fencedGran ((s.job n).destGran x) = false)
    (hn : n < s.chs.jobs.length) (hwants : tget (s.job n).have_ x = none)
    (hread : s.readable ((s.job n).localGran x) = true) (hclean : readsClean obs ((s.job n).localGran x) = true) :
    (s.sliceGran n x obs).2 = true ∧
      s.GranLands (s.sliceGran n x obs).1 n x ((s.job n).destGran x) (s.granData ((s.job n).localGran x)) := by
  have hframe := s.granTaken_only n x
  have hdram : (s.granTaken n x).dram = s.dram := State.only_part hframe .dram
  have hdest : ((s.granTaken n x).job n).destGran x = (s.job n).destGran x := by simp only [Job.destGran, s.granTaken_op n x]
  have hlands := State.copyGran_lands (s := s.granTaken n x) (n := n) (x := x) (by rw [s.granTaken_op]; exact hlocal)
    (hdest.symm ▸ hthere) (by rw [hdest, State.fencedGran_congr (State.only_part hframe .intg)]; exact hfence)
    ((s.granTaken_length n x).symm ▸ hn) (s.granData ((s.job n).localGran x))
  rw [hdest, sliceB_self (b := s.granData _) (length_mread _ _ _)] at hlands
  rw [State.sliceGran_copy hkind hfail hserv hmay hwants hread hclean hn]
  exact ⟨rfl, hlands.data, hlands.sound, fun y hy => (hlands.others y hy).imp (·.trans (State.granData_congr hdram y))
    (·.trans (State.poisoned_congr hdram y)), hlands.dirty, hlands.handled⟩

end

/-! ### A slice arrives (R219, R232, R234) -/

/-- An entry of a slice of the job in slot `n` has arrived. -/
def State.granGoes (n : Nat) (obs : List CellObs) (s : State) (x : Nat) : State := (s.sliceGran n x obs).1

/-- The same, beside the entries that wait. -/
def granArrives (n : Nat) (obs : List CellObs) (r : State × List Nat) (x : Nat) : State × List Nat :=
  (State.granGoes n obs r.1 x, if (r.1.sliceGran n x obs).2 then r.2 else r.2 ++ [x])

/-- A job with no write held back on channel `c`. -/
def Job.unheldOn (j : Job) (c : Nat) : Job := { j with held := j.held.filter fun g => (decodeAddr (64 * g)).ch != c }

/-- A job with slice `f` no longer in flight. -/
def Job.sliceDone (j : Job) (f : Nat × List Nat) : Job := { j with flight := j.flight.erase f }

/-- The state in which the job in slot `n` holds no write back on channel `c`. -/
def State.unheldOn (s : State) (n c : Nat) : State := s.modJob n fun j => j.unheldOn c

/-- The state in which slice `f` of the job in slot `n` is no longer in flight. -/
def State.sliceDone (s : State) (n : Nat) (f : Nat × List Nat) : State := s.modJob n fun j => j.sliceDone f

/-- Where every entry is done none waits. -/
theorem foldl_granArrives {n : Nat} {obs : List CellObs} {xs : List Nat} {u : State}
    (h : ∀ k x, xs[k]? = some x → (((xs.take k).foldl (State.granGoes n obs) u).sliceGran n x obs).2 = true) (ys : List Nat) :
    xs.foldl (granArrives n obs) (u, ys) = (xs.foldl (State.granGoes n obs) u, ys) := by
  induction xs generalizing u with
  | nil => rfl
  | cons x xs ih =>
    have hfirst : granArrives n obs (u, ys) x = (State.granGoes n obs u x, ys) := congrArg _ (if_pos (h 0 x rfl))
    rw [List.foldl_cons, hfirst]
    exact ih fun k y hy => h (k + 1) y hy

section
variable {s : State} {n : Fin 16} {c : Fin 32} {f : Nat × List Nat} {obs : List CellObs}

theorem exec_sliceDataArrive_none (h : ∀ f ∈ (s.job n).flight, f.1 ≠ c.val) : exec (.sliceDataArrive n c obs) s = .next s := by
  have hnone : (s.job n).flight.find? (fun f => f.1 == c.val) = none := List.find?_eq_none.2 fun f hf => by simpa using h f hf
  change execSliceDataArrive n c obs s = _
  simp only [execSliceDataArrive, hnone]

variable (hfind : (s.job n).flight.find? (fun f => f.1 == c.val) = some f)
include hfind

theorem exec_sliceDataArrive_onWay (hway : s.onWay (sliceOwn n f) = true) : exec (.sliceDataArrive n c obs) s = .next s := by
  change execSliceDataArrive n c obs s = _
  simp only [execSliceDataArrive, hfind, hway, if_true]

/-- A slice of which nothing waits is gone once its entries have arrived, one after the other. -/
theorem exec_sliceDataArrive_all (hway : s.onWay (sliceOwn n f) = false)
    (h : ∀ k x, f.2[k]? = some x →
      (((f.2.take k).foldl (State.granGoes n obs) (s.unheldOn n c)).sliceGran n x obs).2 = true) :
    exec (.sliceDataArrive n c obs) s = .next (((f.2.foldl (State.granGoes n obs) (s.unheldOn n c)).sliceDone n f).copyEnd n) := by
  have hexec : exec (.sliceDataArrive n c obs) s = .next (
      let r := f.2.foldl (granArrives n obs) (s.unheldOn n c, [])
      let s := r.1.modJob n fun j => { j with flight := j.flight.erase f ++ (if r.2.isEmpty then [] else [(f.1, r.2)]) }
      (if r.2.isEmpty then s else s.sliceGoes n (f.1, r.2)).copyEnd n) := by
    change execSliceDataArrive n c obs s = _
    simp only [execSliceDataArrive, hfind, hway, Bool.false_eq_true, if_false]
    rfl
  rw [hexec, foldl_granArrives h]
  simp only [List.isEmpty_nil, if_true, List.append_nil]
  rfl

end

/-- A job that has a slice in flight stands in a slot. -/
theorem State.job_lt_of_flight {s : State} {n : Nat} {f : Nat × List Nat} (h : f ∈ (s.job n).flight) : n < s.chs.jobs.length := by
  by_contra hn
  rw [show s.job n = {} from List.getD_eq_default _ _ (Nat.le_of_not_lt hn)] at h
  exact absurd h List.not_mem_nil

theorem State.unheldOn_job {s : State} {n : Nat} (h : n < s.chs.jobs.length) (c : Nat) :
    (s.unheldOn n c).job n = (s.job n).unheldOn c := State.job_modJob_self h _

theorem State.sliceDone_job {s : State} {n : Nat} (h : n < s.chs.jobs.length) (f : Nat × List Nat) :
    (s.sliceDone n f).job n = (s.job n).sliceDone f := State.job_modJob_self h _

theorem State.unheldOn_length (s : State) (n c : Nat) : (s.unheldOn n c).chs.jobs.length = s.chs.jobs.length := length_modAt _ _ _

/-- A CHISEL_RUN does not end with its slices. -/
theorem State.copyEnd_run {s : State} {n : Nat} (h : (s.job n).kind = 0) : s.copyEnd n = s := if_neg fun hc => hc.1 h

/-! ### Granules of a CHISEL_RUN are read into staging, one after the other (R219, R232) -/

theorem State.readable_congr {s t : State} {rs : Nat → Prop} (h : s.only t [.chs] rs) (g : Nat) : t.readable g = s.readable g := by
  have hdev : t.dev = s.dev := State.only_part h .dev
  have hkeep : t.keep = s.keep := State.only_part h .keep
  have hintg : t.intg = s.intg := State.only_part h .intg
  simp only [State.readable, State.unrestored, State.unitHeld, State.plainGran_congr hintg (State.only_part h .dram), hdev, hkeep,
    hintg]

theorem State.inService_congr {s t : State} (h : t.dev = s.dev) : t.inService = s.inService := by simp only [State.inService, h]

/-- What reading some granules into the staging of the job in slot `n` leaves: the bytes that memory holds, and each read counted. -/
structure State.Staged (s t : State) (n : Nat) (xs : List Nat) : Prop where
  frame : s.only t [.chs] sliceCounters
  slots : t.chs.jobs.length = s.chs.jobs.length
  job : ∃ table, t.job n = { s.job n with have_ := table } ∧
    ∀ x, tget table x = if x ∈ xs then some (some (s.granData x)) else tget (s.job n).have_ x
  bytes : t.reg64 CHS_RDBYTES_LO = (s.reg64 CHS_RDBYTES_LO + 64 * xs.length) % 2 ^ 64

theorem State.granStaged_staged {s : State} {n : Nat} (h : n < s.chs.jobs.length) (x : Nat) :
    s.Staged (s.granStaged n x x) n [x] where
  frame := s.granStaged_only n x x
  slots := length_modAt _ _ _
  job := ⟨_, State.granStaged_job h, fun y => by simp only [tget_tset, List.mem_singleton]; split <;> simp [*]⟩
  bytes := s.reg64_add64 CHS_RDBYTES_LO 64

theorem State.Staged.append {s t u : State} {n : Nat} {xs ys : List Nat} (h : s.Staged t n xs) (h' : t.Staged u n ys) :
    s.Staged u n (xs ++ ys) where
  frame := State.only_trans h.frame h'.frame
  slots := h'.slots.trans h.slots
  job := by
    obtain ⟨table, hjob, hget⟩ := h.job
    obtain ⟨table', hjob', hget'⟩ := h'.job
    refine ⟨table', by rw [hjob', hjob], fun x => ?_⟩
    rw [hget', hjob, hget, State.granData_congr (State.only_part h.frame .dram)]
    by_cases hx : x ∈ xs <;> by_cases hy : x ∈ ys <;> simp [hx, hy]
  bytes := by
    rw [h'.bytes, h.bytes, List.length_append]
    omega

section
variable {s : State} {n : Nat} {obs : List CellObs} {xs : List Nat}

theorem State.Staged.kind {t : State} (h : s.Staged t n xs) : (t.job n).kind = (s.job n).kind := by
  obtain ⟨_, hjob, -⟩ := h.job
  rw [hjob]

/-- Readable entries of a CHISEL_RUN are staged as they arrive. -/
theorem State.granGoes_staged (hn : n < s.chs.jobs.length) (hkind : (s.job n).kind = 0) (hserv : s.inService = true)
    (hword : s.reg64 CHS_RDBYTES_LO < 2 ^ 64) (h : ∀ x ∈ xs, s.readable x = true ∧ readsClean obs x = true) :
    s.Staged (xs.foldl (State.granGoes n obs) s) n xs := by
  induction xs using List.reverseRecOn with
  | nil => exact ⟨s.only_refl _ _, rfl, ⟨_, rfl, fun x => (if_neg List.not_mem_nil).symm⟩, (Nat.mod_eq_of_lt hword).symm⟩
  | append_singleton xs x ih =>
    have hrest := ih fun y hy => h y (List.mem_append_left _ hy)
    obtain ⟨hread, hclean⟩ := h x (by simp)
    have hserv' := (State.inService_congr (State.only_part hrest.frame .dev)).trans hserv
    have hgran := State.sliceGran_run (hrest.kind.trans hkind) hserv' ((State.readable_congr hrest.frame x).trans hread) hclean
    rw [List.foldl_append, List.foldl_cons, List.foldl_nil, State.granGoes, hgran]
    exact hrest.append (State.granStaged_staged (hrest.slots.symm ▸ hn) x)

end

section
variable {s : State} {n : Fin 16} {c : Fin 32} {f : Nat × List Nat} {obs : List CellObs}
  (hfind : (s.job n).flight.find? (fun f => f.1 == c.val) = some f) (hway : s.onWay (sliceOwn n f) = false)
include hfind hway

/-! ### A slice of a CHISEL_RUN arrives, and one of a COPY or FILL that has stopped (R219, R227, R232) -/

/-- Every granule of a slice of a CHISEL_RUN is staged with the bytes that memory holds, where the counter of the bytes read holds a
value of its 64 bits: an entry that arrives counts modulo 2^64, and a slice without entries leaves the counter as it is. -/
theorem exec_sliceDataArrive_run (hkind : (s.job n).kind = 0) (hserv : s.inService = true)
    (hword : s.reg64 CHS_RDBYTES_LO < 2 ^ 64) (h : ∀ x ∈ f.2, s.readable x = true ∧ readsClean obs x = true) :
    ∃ t, exec (.sliceDataArrive n c obs) s = .next t ∧ (t.job n).flight = (s.job n).flight.erase f ∧
      (∀ x ∈ f.2, tget (t.job n).have_ x = some (some (s.granData x))) ∧
      (∀ x, x ∉ f.2 → tget (t.job n).have_ x = tget (s.job n).have_ x) ∧
      t.reg64 CHS_RDBYTES_LO = (s.reg64 CHS_RDBYTES_LO + 64 * f.2.length) % 2 ^ 64 ∧
      s.only t [.chs] fun r => r = CHS_RDBYTES_LO ∨ r = CHS_RDBYTES_LO + 4 := by
  have hlt := State.job_lt_of_flight (List.mem_of_find?_eq_some hfind)
  have hjob := State.unheldOn_job hlt c
  have hbase : s.only (s.unheldOn n c) [.chs] sliceCounters := State.only_mono (s.modJob_only _ _) (by simp) fun _ h => h.elim
  have hstaged (xs : List Nat) (hxs : xs ⊆ f.2) := State.granGoes_staged (s := s.unheldOn n c) (n := n) (obs := obs) (xs := xs)
    ((s.unheldOn_length n c).symm ▸ hlt) (by rw [hjob]; exact hkind) hserv hword
    fun x hx => by rw [State.readable_congr hbase]; exact h x (hxs hx)
  have hall (k x : Nat) (hx : f.2[k]? = some x) :
      (((f.2.take k).foldl (State.granGoes n obs) (s.unheldOn n c)).sliceGran n x obs).2 = true := by
    have hk := hstaged (f.2.take k) (List.take_subset _ _)
    obtain ⟨hread, hclean⟩ := h x (List.mem_of_getElem? hx)
    rw [State.sliceGran_run (hk.kind.trans (by rw [hjob]; exact hkind))
      ((State.inService_congr (State.only_part hk.frame .dev)).trans hserv)
      ((State.readable_congr (State.only_trans hbase hk.frame) x).trans hread) hclean]
  obtain ⟨hframe, hslots, ⟨table, htable, hget⟩, hbytes⟩ := hstaged f.2 (List.Subset.refl _)
  have hdone := State.sliceDone_job (s := f.2.foldl (State.granGoes n obs) (s.unheldOn n c)) (n := n)
    (by rw [hslots, State.unheldOn_length]; exact hlt) f
  rw [htable, hjob] at hdone
  rw [hjob] at hget
  refine ⟨_, (exec_sliceDataArrive_all hfind hway hall).trans (congrArg _ (State.copyEnd_run ?_)), ?_, fun x hx => ?_,
    fun x hx => ?_, hbytes, (State.only_trans hbase hframe).andThen (State.modJob_only _ _ _) (by simp) fun _ h => h.elim⟩
  all_goals rw [hdone]
  · exact hkind
  · rfl
  · exact (hget x).trans (if_pos hx)
  · exact (hget x).trans (if_neg hx)

/-- What arrives for a COPY or FILL that has stopped is dropped. -/
theorem exec_sliceDataArrive_dropped (hkind : (s.job n).kind ≠ 0) (hfail : (s.job n).fail.isSome = true) :
    ∃ u, exec (.sliceDataArrive n c obs) s = .next (u.copyEnd n) ∧ (u.job n).flight = (s.job n).flight.erase f ∧
      s.only u [.chs] fun _ => False := by
  have hlt := State.job_lt_of_flight (List.mem_of_find?_eq_some hfind)
  have hjob := State.unheldOn_job hlt c
  have hgran (x : Nat) : (s.unheldOn n c).sliceGran n x obs = (s.unheldOn n c, true) :=
    State.sliceGran_dropped (by rw [hjob]; exact hkind) (by rw [hjob]; exact hfail)
  have hgoes (xs : List Nat) : xs.foldl (State.granGoes n obs) (s.unheldOn n c) = s.unheldOn n c :=
    List.foldl_fixed' (fun x => congrArg Prod.fst (hgran x)) xs
  have hexec := exec_sliceDataArrive_all hfind hway fun k x _ => by rw [hgoes, hgran]
  rw [hgoes] at hexec
  refine ⟨_, hexec, ?_, State.only_trans (s.modJob_only _ _) (State.modJob_only _ _ _)⟩
  rw [State.sliceDone_job ((s.unheldOn_length n c).symm ▸ hlt), hjob]
  rfl

end

/-! ### A slice without entries, and a counter beyond its 64 bits -/

/-- A device in READY, as reset leaves it, whose job in slot 0 has a slice without a granule in flight on channel 0, and whose
CHS_RDBYTES_LO holds a value that no write of a register leaves there. -/
def emptySlice : State := { State.reset with
  dev := .ready, regs := [(CHS_RDBYTES_LO, 2 ^ 64)], chs := { jobs := [{ flight := [(0, [])] }] } }

/-- The slice leaves the counter as it is. -/
theorem emptySlice_bytes {t : State} (h : exec (.sliceDataArrive 0 0 []) emptySlice = .next t) : t.reg64 CHS_RDBYTES_LO = 2 ^ 64 := by
  obtain rfl := Host.Outcome.next.inj (h : Host.Outcome.next _ = .next t)
  decide +kernel

/-- Refutes O35: the clause of a slice of a CHISEL_RUN has CHS_RDBYTES as a sum modulo 2^64 even where the slice has no entry, and
then the model leaves the counter as it is, a value of more than 64 bits too. No premise rules out such a slice or such a value. For a
counter that holds a value of its 64 bits the clause holds, as `exec_sliceDataArrive_run` says, and the other clauses hold as they
stand: the issue of slices by `exec_sliceIssue`, `bestChan_some`, `State.nextSlice_turn`, `exec_sliceIssue_slice` and
`State.nextSlice_idle`, what a granule becomes by `State.sliceGran_fill_lands` and `State.sliceGran_copy_lands`, and a slice's arrival
by `exec_sliceDataArrive_all` and `exec_sliceDataArrive_dropped`. -/
theorem not_slicesFeedJobs : ¬ Obligations.SlicesFeedJobs := by
  unfold Obligations.SlicesFeedJobs
  rintro ⟨-, -, -, -, -, harrive⟩
  obtain ⟨-, hslice⟩ := harrive emptySlice 0 0 []
  obtain ⟨-, hrun, -⟩ := hslice (0, []) (by decide)
  obtain ⟨t, hexec, -, -, -, hbytes, -⟩ := hrun (by decide) (by decide) (by decide) fun x hx => absurd hx List.not_mem_nil
  rw [emptySlice_bytes hexec] at hbytes
  revert hbytes
  decide +kernel

end Sys2Proof.Machine

/-! SUPPORT. Key shares (R268) and the end of a characterisation (R252). -/

namespace Sys2Proof.Machine

/-! ### Shares that are offered and cleared (R268) -/

section
variable {s : State} {q : Fin 64} {d : List Byte}

/-- An operation that the Keystone takes in hand leaves the fuses, the keep, the device state and the registers as they were. -/
theorem State.inHand_same (s : State) (q : Nat) (d : List Byte) : (s.inHand q d).fus = s.fus ∧ (s.inHand q d).keep = s.keep ∧
    (s.inHand q d).dev = s.dev ∧ (s.inHand q d).reg = s.reg := by
  unfold State.inHand State.handed
  split <;> exact ⟨rfl, rfl, rfl, rfl⟩

theorem State.inHand_keyPolicy (s : State) (q : Nat) (d : List Byte) : (s.inHand q d).keyPolicy = s.keyPolicy := by
  obtain ⟨hfus, -, -, hreg⟩ := s.inHand_same q d
  simp only [State.keyPolicy, State.fld, hfus, hreg]

/-- KEY_SHARE with ACTION 0 offers its share. -/
theorem exec_keyShareSupply (h : s.begins q d = true) (hd : fieldB d 0 1 = 0x24) (ha : (s.opAt q d).action = 0) :
    exec (.keyShareSupply q d) s = .next ((s.inHand q d).shareOffer (s.opAt q d)) := by
  have hp := State.perform_begins h (by omega) fun s o =>
    if o.action = 0 then s.shareOffer o else { s with wq := { s.wq with ksq := o :: s.wq.ksq, ksCur := none } }
  rw [hd] at hp
  exact congrArg Host.Outcome.next (hp.trans (if_pos ha))

/-- KEY_SHARE with ACTION 1 clears the shares. -/
theorem exec_keyShareClear (h : s.begins q d = true) (hd : fieldB d 0 1 = 0x24) (ha : (s.opAt q d).action = 1) :
    exec (.keyShareClear q d) s = .next ((s.inHand q d).shareClear (s.opAt q d)) := by
  have hp := State.perform_begins h (by omega) fun s o =>
    if o.action = 1 then s.shareClear o else { s with wq := { s.wq with ksq := o :: s.wq.ksq, ksCur := none } }
  rw [hd] at hp
  exact congrArg Host.Outcome.next (hp.trans (if_pos ha))

end

section
variable {s : State} {o : Op}

theorem State.shareOffer_retired (h : s.fus.life = 4) : s.shareOffer o = s.ksEnds o 8 0 := if_pos h

/-- A share that fits an epoch in use is held for it, and a restore that waits for it goes on. -/
theorem State.shareOffer_fits {e : Epoch} (hl : s.fus.life ≠ 4) (h : s.keep.shareMatch o.share = some e) :
    s.shareOffer o = ((s.modKeep fun k => { k with shares := tset k.shares e.num o.share }).sharesCome).ksEnds o 0 0 := by
  simp only [State.shareOffer, if_neg hl, h]

/-- A share that is already held or pending changes nothing. -/
theorem State.shareOffer_known (hl : s.fus.life ≠ 4) (hm : s.keep.shareMatch o.share = none)
    (h : s.keep.pendShare = some o.share ∨ ∃ x ∈ s.keep.shares, x.2 = o.share) : s.shareOffer o = s.ksEnds o 0 0 := by
  have hknown : (s.keep.shares.any fun x => x.2 == o.share) = true ∨ s.keep.pendShare = some o.share := by
    simpa [List.any_eq_true, or_comm] using h
  simp only [State.shareOffer, if_neg hl, hm, if_pos hknown]

/-- A share that is new waits for the next epoch, or is refused and counted. -/
theorem State.shareOffer_new (hl : s.fus.life ≠ 4) (hm : s.keep.shareMatch o.share = none)
    (hp : s.keep.pendShare ≠ some o.share) (hs : ∀ x ∈ s.keep.shares, x.2 ≠ o.share) :
    s.shareOffer o = if s.keep.arm = .disarmed ∧ s.keyPolicy = 1 then
        (s.modKeep fun k => { k with pendShare := some o.share }).ksEnds o 0 0
      else ((s.incFld KEEP_KEYSTAT_BADSHARE 1).post 0x050B 2 0xFF 0).ksEnds o 6 0 := by
  have hnew : ¬((s.keep.shares.any fun x => x.2 == o.share) = true ∨ s.keep.pendShare = some o.share) := by
    rintro (h | h)
    · obtain ⟨x, hx, he⟩ := List.any_eq_true.1 h
      exact hs x hx (eq_of_beq he)
    · exact hp h
  simp only [State.shareOffer, if_neg hl, hm, if_neg hnew]

end

/-! ### The end of a characterisation (R252) -/

/-- The measured capacitance as it is noted. -/
def State.cmeasNoted (s : State) (cm : Nat) : State := (s.setFld KEEP_HOLDCHK_UF cm).setFld KEEP_HOLDCHK_VALID (b2n (cm != 0))

theorem State.cmeasNoted_uf (s : State) {cm : Nat} (h : cm < 2 ^ 31) : (s.cmeasNoted cm).fld KEEP_HOLDCHK_UF = cm := by
  rw [State.cmeasNoted, State.fld_setFld_beside _ _ (by rfl), State.fld_setFld_lt _ h]

theorem State.cmeasNoted_valid (s : State) (cm : Nat) : (s.cmeasNoted cm).flag KEEP_HOLDCHK_VALID = (cm != 0) :=
  State.flag_setFld_b2n _ _

theorem State.cmeasNoted_only (s : State) (cm : Nat) : s.only (s.cmeasNoted cm) [] fun r => r = KEEP_HOLDCHK :=
  State.only_trans (s.setFld_only KEEP_HOLDCHK_UF cm) (State.setFld_only _ KEEP_HOLDCHK_VALID _)

/-- What the energy between two voltages, over the difference of their squares, gives in µF. -/
def State.cmeas (s : State) (c : Charac) (v2 : Nat) : Nat :=
  min (2 ^ 31 - 1) (2 * (s.thm.pj - c.pj1) * 10 ^ 9 / (s.eta * (c.uv1 * c.uv1 - v2 * v2)))

/-- A characterisation whose voltage fell by 2 % or more ends with the capacitance that it measured. -/
theorem State.characDone_measures {s : State} {c : Charac} {v2 : Nat} (hc : s.keep.charac = some c)
    (hv : 100 * v2 ≤ 98 * c.uv1) (h0 : 0 < c.uv1) :
    s.characDone v2 =
      (let t := (s.cmeasNoted (s.cmeas c v2)).post 0x050C 0 0xFF (s.cmeas c v2 / 1000)
       let t := if 10 * s.cmeas c v2 < 9 * t.reg KEEP_HOLDCAP then t.post 0x050D 2 0xFF 0 else t
       t.energy.characEnds 0 (s.cmeas c v2 % 2 ^ 32 + 2 ^ 32 * twos 32 t.energy.keep.eavail)) := by
  have hlt : v2 * v2 < c.uv1 * c.uv1 := Nat.mul_self_lt_mul_self (by omega)
  have hfell : ¬(98 * c.uv1 < 100 * v2 ∨ c.uv1 * c.uv1 - v2 * v2 = 0) := by omega
  unfold State.characDone
  rw [hc]
  exact if_neg hfell

/-- Settles O25: a share is met by the case it falls into, and a characterisation notes what its two voltages give. -/
theorem keysAndCharacterization : Obligations.KeysAndCharacterization := by
  unfold Obligations.KeysAndCharacterization
  refine ⟨fun s q d hb hd => ?_, fun s uv2 => ?_⟩
  · obtain ⟨hfus, hkeep, hdev, -⟩ := s.inHand_same q d
    have hpol := s.inHand_keyPolicy q d
    rw [← hfus, ← hkeep, ← hdev, ← hpol]
    refine ⟨fun ha => ?_, fun ha => ?_⟩
    · rw [exec_keyShareSupply hb hd ha]
      refine ⟨fun hl => by rw [State.shareOffer_retired hl], fun hl hm hp hs => ?_, fun hl hm h => ?_, fun e hl hm => ?_⟩
      · rw [State.shareOffer_new hl hm hp hs]
        exact ⟨fun h1 h2 => by rw [if_pos ⟨h1, h2⟩], fun h => by rw [if_neg h]⟩
      · rw [State.shareOffer_known hl hm h]
      · rw [State.shareOffer_fits hl hm]
    · rw [exec_keyShareClear hb hd ha]
      unfold State.shareClear
      refine ⟨fun hl => by rw [if_pos hl], fun hl h1 h2 => by rw [if_neg hl, if_pos ⟨h1, h2⟩], fun hl h => ?_⟩
      rw [if_neg hl, if_neg (by rintro ⟨h1, h2⟩; exact h.elim (· h1) h2)]
  · have hexec : exec (.characterizeEnd uv2) s = .next (s.characDone (8 * uv2)) := rfl
    rw [hexec]
    refine ⟨fun hc => by simp only [State.characDone, hc], fun c hc => ⟨fun hv => ?_, fun hv h0 => ?_⟩⟩
    · simp only [State.characDone, hc, if_pos (Or.inl hv : _ ∨ c.uv1 * c.uv1 - 8 * uv2 * (8 * uv2) = 0)]
    · refine ⟨_, congrArg Host.Outcome.next (State.characDone_measures hc hv h0), ?_, State.cmeasNoted_valid _ _,
        State.cmeasNoted_only _ _⟩
      exact State.cmeasNoted_uf _ (by unfold State.cmeas; omega)

end Sys2Proof.Machine

/-! SUPPORT. The keep's shared operations: slots and spares (R270), the pages of maps and journals that are programmed (R270), and seals
as they start (R246, R247): what each leaves in the keep, and its frame. -/

namespace Sys2Proof.Machine

/-! ### Courses -/

theorem State.modKeep_self (s : State) (f : Keep → Keep) (h : f s.keep = s.keep) : s.modKeep f = s := by
  simp only [State.modKeep, h]

/-- An update of the courses leaves one that is there as it makes it. -/
theorem State.course_modCourse_self {s : State} {i : Nat} {c : Course} (h : s.keep.courses[i]? = some c) (f : Course → Course) :
    (s.modCourse i f).keep.course i = f c := by
  simp [State.modCourse, Keep.course, modAt, List.getD_eq_getElem?_getD, h]

/-- A course that is there reads as it stands. -/
theorem Keep.course_of_getElem? {k : Keep} {i : Nat} {c : Course} (h : k.courses[i]? = some c) : k.course i = c := by
  rw [Keep.course, List.getD_eq_getElem?_getD, h]; rfl

/-- An update of every course that leaves an absent one as it reads is read at each course. -/
theorem Keep.course_map {k k' : Keep} {f : Course → Course} (h : k'.courses = k.courses.map f) (hf : f {} = {}) (i : Nat) :
    k'.course i = f (k.course i) := by
  simp only [Keep.course, h, List.getD_eq_getElem?_getD, List.getElem?_map]
  cases k.courses[i]? with
  | none => exact hf.symm
  | some c => rfl

/-! ### Slots and spares (R270) -/

/-- A course in which a spare has replaced a page. -/
def Course.spareTaken (c : Course) : Course := { c with spares := c.spares - 1, nretired := c.nretired + 1 }

/-- A course in which a slot has been retired. -/
def Course.slotRetired (slot : Nat) (c : Course) : Course :=
  { c with retired := sins c.retired slot, counts := tset c.counts slot 0 }.spareTaken

theorem mem_sins (l : List Nat) (k j : Nat) : j ∈ sins l k ↔ j = k ∨ j ∈ l := by
  induction l with
  | nil => simp [sins]
  | cons a t ih =>
    unfold sins
    split
    · simp
    · split
      · rename_i h; subst h; simp
      · simp only [List.mem_cons, ih]; tauto

theorem mem_foldl_sins (xs l : List Nat) (j : Nat) : j ∈ xs.foldl sins l ↔ j ∈ xs ∨ j ∈ l := by
  induction xs generalizing l with
  | nil => simp
  | cons x xs ih => rw [List.foldl_cons, ih, mem_sins, List.mem_cons]; tauto

theorem State.takeSpare_keep (s : State) (k data : Nat) :
    (s.takeSpare k data).keep = (s.modCourse k Course.spareTaken).keep := by
  unfold State.takeSpare
  dsimp only
  split <;> simp only [State.post_same] <;> rfl

theorem State.takeSpare_only (s : State) (k data : Nat) : s.only (s.takeSpare k data) (.keep :: wires) inLtc := by
  have hpost {u : State} (c v w x : Nat) : u.only (u.post c v w x) (.keep :: wires) inLtc :=
    State.only_mono (u.post_only c v w x) (by simp_all) fun _ h => h
  have htaken := State.only_trans (State.only_mono (s.modCourse_only k Course.spareTaken) (by simp) fun _ h => h.elim)
    (hpost 0x050F 1 k data)
  unfold State.takeSpare
  exact ite_has (s.only · _ _) (State.only_trans htaken (hpost _ _ _ _)) htaken

theorem State.retireSlot_keep (s : State) (k slot : Nat) :
    (s.retireSlot k slot).keep = (s.modCourse k (Course.slotRetired slot)).keep := by
  rw [State.retireSlot, State.takeSpare_keep]
  simp only [State.modCourse, modAt, List.modify_modify_eq]
  rfl

theorem State.retireSlot_only (s : State) (k slot : Nat) : s.only (s.retireSlot k slot) (.keep :: wires) inLtc :=
  State.only_trans (State.only_mono (s.modCourse_only k _) (by simp) fun _ h => h.elim) (State.takeSpare_only _ _ _)

/-! ### Pages of maps and journals that are programmed (R270) -/

/-- A map copy whose pages are not worn out is programmed once more, and no page of it is replaced. -/
theorem State.mapWritten_fresh {s : State} {k copy : Nat} (h : (s.keep.course k).mapProg.getD copy 0 < 9999998) :
    s.mapWritten k copy = s.modCourse k fun c =>
      { c with mapProg := setAt c.mapProg copy ((s.keep.course k).mapProg.getD copy 0 + 1) } := by
  have hworn : ((s.keep.course k).mapProg.getD copy 0 + 1) % wearLimit ≠ 0 := by unfold wearLimit; omega
  unfold State.mapWritten
  dsimp only
  rw [if_neg hworn]
  rfl

/-- A journal whose ring is not worn out takes a record's pages, and no page of it is replaced. -/
theorem State.ringWritten_fresh {s : State} {k pages : Nat} (h : (s.keep.course k).jprog + pages < 32768 * 9999998) :
    s.ringWritten k pages = s.modCourse k fun c => { c with jprog := (s.keep.course k).jprog + pages } := by
  have hworn : (List.range pages).filter (fun i => (((s.keep.course k).jprog + i) / 32768 + 1) % wearLimit == 0) = [] := by
    refine List.filter_eq_nil_iff.2 fun i hi => ?_
    have hi := List.mem_range.1 hi
    simp only [beq_iff_eq, wearLimit]
    omega
  unfold State.ringWritten
  dsimp only
  rw [hworn]
  rfl

/-! ### Seals as they start (R246, R247) -/

theorem State.recAsked_only (s : State) (k : Nat) (r : SealRec) : s.only (s.recAsked k r) [.mtr] fun _ => False := by
  unfold State.recAsked
  split
  · exact s.only_refl _ _
  · exact State.only_foldl _ _ _ fun s _ _ => s.ask_only _ _ _ _

/-- The record that a seal of a kind writes into a course's journal. -/
def State.sealRec (s : State) (kind label k : Nat) : SealRec :=
  s.makeRec k kind label (if kind = 6 then (s.keep.course k).deltaF else (s.keep.course k).deltas)
    ((s.keep.course (1 - k)).fenced && !(s.keep.course k).fenced)

/-- A course whose entries and slots that wait go with the record under way. -/
def Course.sealsStart (c : Course) : Course := { c with deltaS := c.deltas, deltas := [], pendS := c.pend, pend := [] }

/-- The keep as a seal that starts leaves it. -/
def State.sealsKeep (s : State) (kind label : Nat) (f : SealFor) : Keep :=
  { s.keep with
    courses := s.keep.courses.map Course.sealsStart, seq := s.keep.seq + 1
    sealing := some (s.sealRec kind label 0, s.sealRec kind label 1, f), copiedS := s.keep.copied, copied := [], copiesSince := 0 }

theorem State.sealStart_eq (s : State) (kind label : Nat) (f : SealFor) : s.sealStart kind label f =
    ((s.modKeep fun _ => s.sealsKeep kind label f).recAsked 0 (s.sealRec kind label 0)).recAsked 1 (s.sealRec kind label 1) := rfl

theorem State.sealStart_keep (s : State) (kind label : Nat) (f : SealFor) : (s.sealStart kind label f).keep = s.sealsKeep kind label f := by
  have h := State.only_trans (State.recAsked_only (s.modKeep fun _ => s.sealsKeep kind label f) 0 (s.sealRec kind label 0))
    (State.recAsked_only _ 1 (s.sealRec kind label 1))
  exact (State.only_part h .keep :)

theorem State.sealStart_only (s : State) (kind label : Nat) (f : SealFor) : s.only (s.sealStart kind label f) [.keep, .mtr] fun _ => False :=
  State.only_trans (State.only_trans (State.only_mono (s.modKeep_only _) (by simp) fun _ h => h)
    (State.only_mono (State.recAsked_only _ 0 _) (by simp) fun _ h => h)) (State.only_mono (State.recAsked_only _ 1 _) (by simp) fun _ h => h)

/-- Outside RECOVERY a seal that nothing goes before starts at once. -/
theorem State.sealAsk_starts {s : State} {kind : Nat} (hd : s.dev ≠ .recovery) (hs : s.keep.sealing = none)
    (hf : s.keep.folding = some true → kind = 6) (label : Nat) (f : SealFor) : s.sealAsk kind label f = s.sealStart kind label f := by
  have hnow : (s.keep.sealing.isSome || (s.keep.folding == some true && kind != 6)) = false := by
    rw [hs]
    by_cases hk : kind = 6
    · simp [hk]
    · simp [hk, mt hf hk]
  rw [State.sealAsk, if_neg hd, hnow, if_neg (by simp)]

/-- A seal that is asked for changes nothing, waits behind another, or starts. -/
theorem State.sealAsk_cases (s : State) (kind label : Nat) (f : SealFor) : s.sealAsk kind label f = s ∨
    s.sealAsk kind label f = (s.modKeep fun k => { k with sealQ := k.sealQ ++ [(kind, label, f)] }) ∨
    s.sealAsk kind label f = s.sealStart kind label f := by
  unfold State.sealAsk
  split
  · exact .inl rfl
  · split
    · split
      · exact .inl rfl
      · exact .inr (.inl rfl)
    · exact .inr (.inr rfl)

theorem State.sealAsk_only (s : State) (kind label : Nat) (f : SealFor) : s.only (s.sealAsk kind label f) [.keep, .mtr] fun _ => False := by
  rcases s.sealAsk_cases kind label f with h | h | h <;> rw [h]
  · exact s.only_refl _ _
  · exact State.only_mono (s.modKeep_only _) (by simp) fun _ h => h
  · exact s.sealStart_only _ _ _

end Sys2Proof.Machine

/-! SUPPORT. Seals (R246-R248): what a timer starts, what a read-back settles or gives into a new record, and the map that a fold has
written. -/

namespace Sys2Proof.Machine

/-! ### The largest of a list -/

theorem foldl_max_le {l : List Nat} {a b : Nat} (ha : a ≤ b) (h : ∀ x ∈ l, x ≤ b) : l.foldl max a ≤ b := by
  induction l generalizing a with
  | nil => exact ha
  | cons x l ih => exact ih (max_le ha (h x List.mem_cons_self)) fun y hy => h y (List.mem_cons_of_mem _ hy)

/-! ### Two courses in service -/

section
variable {s : State} {c0 c1 : Course}

theorem Keep.course_pair {k : Keep} (h : k.courses = [c0, c1]) : k.course 0 = c0 ∧ k.course 1 = c1 := by
  simp [Keep.course, h]

/-- The state with other courses. -/
def State.setCourses (s : State) (cs : List Course) : State := s.modKeep fun k => { k with courses := cs }

/-- A course into whose ring a record's pages have been programmed. -/
def Course.pagesLogged (r : SealRec) (c : Course) : Course := { c with jprog := c.jprog + recBytes r / 4096 }

/-- A course whose map copy that is not in force has been programmed. -/
def Course.copyProgrammed (c : Course) : Course :=
  { c with mapProg := setAt c.mapProg (1 - c.force) (c.mapProg.getD (1 - c.force) 0 + 1) }

/-- A record is programmed into the journals of two courses in service whose rings are not worn out. -/
theorem State.recsWritten_fresh (hc : s.keep.courses = [c0, c1]) (h0 : c0.fenced = false) (h1 : c1.fenced = false) {r0 r1 : SealRec}
    (hw0 : c0.jprog + recBytes r0 / 4096 < 32768 * 9999998) (hw1 : c1.jprog + recBytes r1 / 4096 < 32768 * 9999998) :
    s.recsWritten r0 r1 = s.setCourses [c0.pagesLogged r0, c1.pagesLogged r1] := by
  obtain ⟨hk0, hk1⟩ := Keep.course_pair hc
  have hring0 := State.ringWritten_fresh (s := s) (k := 0) (hk0.symm ▸ hw0)
  have hmid : (s.ringWritten 0 (recBytes r0 / 4096)).keep.courses = [c0.pagesLogged r0, c1] := by
    rw [hring0, hk0]; simp [State.modCourse, modAt, hc, Course.pagesLogged]
  obtain ⟨-, hm1⟩ := Keep.course_pair hmid
  have hring1 := State.ringWritten_fresh (s := s.ringWritten 0 (recBytes r0 / 4096)) (k := 1) (hm1.symm ▸ hw1)
  simp only [State.recsWritten, List.foldl_cons, List.foldl_nil, hk0, h0, hm1, h1, Bool.false_eq_true, if_false]
  rw [hring1, hm1, hring0, hk0]
  simp [State.modCourse, State.setCourses, State.modKeep, modAt, hc, Course.pagesLogged]

/-- The map copies that are not in force are programmed in two courses in service where they are not worn out. -/
theorem State.mapsWritten_fresh (hc : s.keep.courses = [c0, c1]) (h0 : c0.fenced = false) (h1 : c1.fenced = false)
    (hw0 : c0.mapProg.getD (1 - c0.force) 0 < 9999998) (hw1 : c1.mapProg.getD (1 - c1.force) 0 < 9999998) :
    s.mapsWritten = s.setCourses [c0.copyProgrammed, c1.copyProgrammed] := by
  obtain ⟨hk0, hk1⟩ := Keep.course_pair hc
  have hmap0 := State.mapWritten_fresh (s := s) (k := 0) (copy := 1 - c0.force) (hk0.symm ▸ hw0)
  have hmid : (s.mapWritten 0 (1 - c0.force)).keep.courses = [c0.copyProgrammed, c1] := by
    rw [hmap0, hk0]; simp [State.modCourse, modAt, hc, Course.copyProgrammed]
  obtain ⟨-, hm1⟩ := Keep.course_pair hmid
  have hmap1 := State.mapWritten_fresh (s := s.mapWritten 0 (1 - c0.force)) (k := 1) (copy := 1 - c1.force) (hm1.symm ▸ hw1)
  have hrange : List.range 2 = [0, 1] := rfl
  simp only [State.mapsWritten, hrange, List.foldl_cons, List.foldl_nil, hk0, h0, hm1, h1, Bool.false_eq_true, if_false]
  rw [hmap1, hm1, hmap0, hk0]
  simp [State.modCourse, State.setCourses, State.modKeep, modAt, hc, Course.copyProgrammed]

end

/-! ### What follows a seal, where nothing is left to do -/

theorem State.poisonPages_none {s : State} (h : s.keep.poisonPg = []) : s.poisonPages = s := by
  rw [State.poisonPages, if_pos (Or.inl (by simp [h]))]

/-- No fold begins where no journal holds more than 8 MiB. -/
theorem State.foldCheck_quiet {s : State} (hf : s.keep.folding = none) (h : ∀ c ∈ s.keep.courses, c.jbytes ≤ 8 * 2 ^ 20) :
    s.foldCheck = s := by
  have hmost : ((s.keep.courses.filter fun c => !c.fenced).map (·.jbytes)).foldl max 0 ≤ 8 * 2 ^ 20 := by
    refine foldl_max_le (Nat.zero_le _) fun x hx => ?_
    obtain ⟨c, hc, rfl⟩ := List.mem_map.1 hx
    exact h c (List.mem_of_mem_filter hc)
  unfold State.foldCheck
  dsimp only
  split
  · rfl
  · rw [if_neg (by omega), if_neg (by omega)]

theorem State.sealNext_idle {s : State} (hs : s.keep.sealing = none) (hq : s.keep.sealQ = []) : s.sealNext = s := by
  simp only [State.sealNext, hs, hq, Option.isSome_none, Bool.false_eq_true, if_false, List.filter_nil, ite_self, List.find?_nil,
    List.head?_nil]
  exact s.modKeep_self _ (by rw [← hq])

/-- The mover starts nothing where no save, checkpoint or characterisation is under way. -/
theorem State.moverFill_idle {s : State} (hd : s.dev ≠ .saving) (hk : s.keep.ckpt = none) (hc : s.keep.charac = none) :
    s.moverFill = s := by
  refine List.foldl_fixed' (fun c => ?_) _
  simp only [if_neg hd, hk, hc, ite_self]

/-! ### A record read back (R246) -/

/-- A record is sealed in a course in service. -/
theorem Course.sealed_inService {c : Course} (r : SealRec) {kind : Nat} (hf : c.fenced = false) (hk : kind ≠ 6) :
    c.sealed r kind = { c.logged r with jbytes := c.jbytes + recBytes r, freed := c.freed ++ c.pendS, deltaS := [], pendS := [] } := by
  simp only [Course.sealed, hf, Bool.false_eq_true, if_false, hk]
  rfl

/-- A course that takes back what a record did not seal, and keeps the record where it is in service. -/
def Course.sealBack (q : SealRec) (c : Course) : Course :=
  { (if c.fenced then c else c.logged q) with
    pend := c.pendS ++ c.pend, pendS := [], deltaS := [], deltas := c.deltaS.foldl sins c.deltas }

/-- The state after the two records of a seal have been settled. -/
def State.recsSettled (s : State) (r0 r1 : SealRec) (kind : Nat) : State :=
  ((((s.modCourse 0 fun c => c.sealed r0 kind).modCourse 1 fun c => c.sealed r1 kind).modKeep fun k =>
    { k with sealing := none, copiedS := [] }).setReg64 KEEP_SEALSEQ_LO r0.seq).setReg64 KEEP_SEALTIME_LO r0.time

/-- The state after the two records of a seal have not read back. -/
def State.recsBack (s : State) (q0 q1 : SealRec) : State :=
  ((s.modCourse 0 (Course.sealBack q0)).modCourse 1 (Course.sealBack q1)).modKeep fun k =>
    { k with sealing := none, copied := runion k.copied k.copiedS }

section
variable {s : State} {r0 r1 : SealRec} {f : SealFor}

theorem exec_sealReadbackDone_idle (h : s.keep.sealing = none ∨ s.onWay .record = true) (a b : Bool) :
    exec (.sealReadbackDone a b) s = .next s := by
  show execSealReadbackDone a b s = .next s
  unfold execSealReadbackDone
  cases hs : s.keep.sealing with
  | none => rfl
  | some x => simp only [if_pos (h.resolve_left (by simp [hs]))]

/-- The records of two courses in service read back where both do. -/
theorem exec_sealReadbackDone {c0 c1 : Course} (hs : s.keep.sealing = some (r0, r1, f)) (hw : s.onWay .record = false)
    (hc : s.keep.courses = [c0, c1]) (h0 : c0.fenced = false) (h1 : c1.fenced = false) (a b : Bool) :
    exec (.sealReadbackDone a b) s = .next (if (a && b) = true then
      (let t := ((((s.recsWritten r0 r1).recsSettled { r0 with ok := a } { r1 with ok := b } r0.kind).sealGoesOn r0
        f).poisonPages.foldCheck.sealNext)
      if t.dev = .saving then t.saveGoes else t.moverFill)
      else ((s.recsWritten r0 r1).recsBack { r0 with ok := a } { r1 with ok := b }).sealStart r0.kind r0.label f) := by
  obtain ⟨hk0, hk1⟩ := Keep.course_pair hc
  show execSealReadbackDone a b s = _
  unfold execSealReadbackDone
  simp only [hs, hw, hk0, hk1, h0, h1, Bool.or_false, Bool.false_eq_true, if_false]
  rfl

end

theorem State.reg64_setReg64 (s : State) (lo v : Nat) : (s.setReg64 lo v).reg64 lo = v % 2 ^ 64 := by
  rw [State.reg64, State.setReg64, State.reg_setReg_self, State.reg_setReg_ne _ _ (by omega), State.reg_setReg_self]
  omega

theorem State.reg64_setReg64_ne (s : State) {lo a : Nat} (v : Nat) (h : a ≠ lo ∧ a ≠ lo + 4 ∧ a + 4 ≠ lo) :
    (s.setReg64 lo v).reg64 a = s.reg64 a := by
  obtain ⟨h1, h2, h3⟩ := h
  simp only [State.reg64, s.reg_setReg64_ne v h1 h2, s.reg_setReg64_ne v h3 (show a + 4 ≠ lo + 4 by omega)]

/-- Where the two records of a seal go on to nothing, and nothing else waits, the seal ends with them settled. -/
theorem State.seal_ends {u : State} (r : SealRec) (hs : u.keep.sealing = none) (hq : u.keep.sealQ = []) (hp : u.keep.poisonPg = [])
    (hf : u.keep.folding = none) (hj : ∀ c ∈ u.keep.courses, c.jbytes ≤ 8 * 2 ^ 20) :
    (u.sealGoesOn r .none).poisonPages.foldCheck.sealNext = u := by
  have hgoes : u.sealGoesOn r .none = u := rfl
  rw [hgoes, State.poisonPages_none hp, State.foldCheck_quiet hf hj, State.sealNext_idle hs hq]

/-- The settled records change the keep and the registers that name the seal. -/
theorem State.recsSettled_only (s : State) (r0 r1 : SealRec) (kind : Nat) : s.only (s.recsSettled r0 r1 kind) [.keep] fun r =>
    r = KEEP_SEALSEQ_LO ∨ r = KEEP_SEALSEQ_LO + 4 ∨ r = KEEP_SEALTIME_LO ∨ r = KEEP_SEALTIME_LO + 4 := by
  unfold State.recsSettled
  refine State.only_trans (State.only_trans (State.only_mono (State.only_trans (State.only_trans (s.modCourse_only _ _)
    (State.modCourse_only _ _ _)) (State.modKeep_only _ _)) (by simp) fun _ h => h.elim)
    (State.only_mono (State.setReg64_only _ _ _) (by simp) fun _ h => ?_)) (State.only_mono (State.setReg64_only _ _ _) (by simp) fun _ h => ?_)
  · exact h.elim .inl fun h => .inr (.inl h)
  · exact .inr (.inr h)

theorem State.recsBack_only (s : State) (q0 q1 : SealRec) : s.only (s.recsBack q0 q1) [.keep] fun _ => False :=
  State.only_trans (State.only_trans (s.modCourse_only _ _) (State.modCourse_only _ _ _)) (State.modKeep_only _ _)

/-- The entries that a record did not seal go with the next record of its kind. -/
theorem State.deltaS_sealRec {u : State} {k kind label i : Nat} (hk : kind ≠ 6) (h : i ∈ (u.keep.course k).deltas) :
    ∃ e, (i, e) ∈ (u.sealRec kind label k).deltas := by
  refine ⟨_, List.mem_map.2 ⟨i, ?_, rfl⟩⟩
  rwa [if_neg hk]

/-! ### SEAL_TIMER, SEAL_READBACK_DONE and FOLD_MAP_WRITTEN -/

/-- The timer's record carries what has been copied since the last seal. -/
theorem exec_sealTimer {s : State} (hd : s.inService = true) (hn : 0 < s.keep.copiesSince) (hi : s.pwr.interval = false)
    (hs : s.keep.sealing = none) (hf : s.keep.folding ≠ some true) : exec .sealTimer s = .next (s.sealStart 1 0 .none) := by
  have hdev : s.dev ≠ .recovery := fun h => by simp [State.inService, h] at hd
  exact congrArg Host.Outcome.next ((if_pos ⟨hd, hn, hi⟩).trans (State.sealAsk_starts hdev hs (fun h => absurd h hf) _ _))

theorem exec_sealTimer_idle {s : State} (h : s.inService = false ∨ s.keep.copiesSince = 0 ∨ s.pwr.interval = true) :
    exec .sealTimer s = .next s := by
  refine congrArg Host.Outcome.next (if_neg ?_)
  rintro ⟨h1, h2, h3⟩
  rcases h with h | h | h
  · simp [h] at h1
  · omega
  · simp [h] at h3

/-- A course whose map copy that is not in force holds the map of a fold. -/
def Course.foldCopied (c : Course) : Course := { c with maps := setAt c.maps (1 - c.force) c.foldMap }

/-- The same, with that copy's pages programmed. -/
def Course.foldWritten (c : Course) : Course := c.foldCopied.copyProgrammed

theorem exec_foldMapWritten {s : State} {c0 c1 : Course} (hc : s.keep.courses = [c0, c1]) (h0 : c0.fenced = false)
    (h1 : c1.fenced = false) (hf : s.keep.folding ≠ none) (hi : s.pwr.interval = false) (hd : s.dev ≠ .recovery)
    (hs : s.keep.sealing = none) (hq : ∀ x ∈ s.keep.sealQ, x.2.2 ≠ .fold)
    (hw0 : c0.mapProg.getD (1 - c0.force) 0 < 9999998) (hw1 : c1.mapProg.getD (1 - c1.force) 0 < 9999998) :
    exec .foldMapWritten s =
      .next ((s.setCourses [c0.foldWritten, c1.foldWritten]).sealStart 6 0 .fold) := by
  have hgo : ¬(s.keep.folding.isNone || s.pwr.interval || s.keep.sealQ.any (fun x => x.2.2 == .fold) ||
      s.keep.sealing.any (fun x => x.2.2 == .fold)) = true := by
    simp only [hi, hs, Bool.or_false, Option.any_none, Bool.or_eq_true, Option.isNone_iff_eq_none, hf, false_or, List.any_eq_true,
      beq_iff_eq, not_exists, not_and]
    exact hq
  have hin : (s.modKeep fun k => { k with courses := k.courses.map fun c =>
      if c.fenced then c else { c with maps := setAt c.maps (1 - c.force) c.foldMap } }) =
      s.setCourses [c0.foldCopied, c1.foldCopied] := by
    simp [State.modKeep, State.setCourses, Course.foldCopied, hc, h0, h1]
  have hmaps : (s.setCourses [c0.foldCopied, c1.foldCopied]).mapsWritten = s.setCourses [c0.foldWritten, c1.foldWritten] :=
    State.mapsWritten_fresh rfl h0 h1 hw0 hw1
  have hexec : exec .foldMapWritten s = .next ((s.setCourses [c0.foldWritten, c1.foldWritten]).sealAsk 6 0 .fold) := by
    rw [← hmaps, ← hin]
    exact congrArg Host.Outcome.next (if_neg hgo)
  rw [hexec, State.sealAsk_starts (s := s.setCourses [c0.foldWritten, c1.foldWritten]) hd hs fun _ => rfl]

theorem exec_foldMapWritten_idle {s : State} (h : s.keep.folding = none ∨ s.pwr.interval = true) :
    exec .foldMapWritten s = .next s := by
  refine congrArg Host.Outcome.next (if_pos ?_)
  rcases h with h | h <;> simp [h]

/-- The frame of a seal that starts on other courses. -/
theorem State.setCourses_sealStart_only (s : State) (cs : List Course) (kind label : Nat) (f : SealFor) :
    s.only ((s.setCourses cs).sealStart kind label f) [.keep, .mtr] fun _ => False :=
  State.only_trans (State.only_mono (s.modKeep_only _) (by simp) fun _ h => h) (State.sealStart_only _ _ _ _)

/-- A course in which a record that has read back is settled. -/
def Course.recSettled (r : SealRec) (c : Course) : Course :=
  { c with
    journal := ringJournal (c.journal ++ [{ r with ok := true }]), jbytes := c.jbytes + recBytes r
    jprog := c.jprog + recBytes r / 4096, freed := c.freed ++ c.pendS, deltaS := [], pendS := [] }

/-- The keep once the records of two courses in service are settled. -/
theorem State.recsSettled_keep {s : State} {c0 c1 : Course} (r0 r1 : SealRec) {kind : Nat} (h0 : c0.fenced = false)
    (h1 : c1.fenced = false) (hk : kind ≠ 6) :
    ((s.setCourses [c0.pagesLogged r0, c1.pagesLogged r1]).recsSettled { r0 with ok := true } { r1 with ok := true } kind).keep =
      { s.keep with sealing := none, copiedS := [], courses := [c0.recSettled r0, c1.recSettled r1] } := by
  have hs0 := Course.sealed_inService (c := c0.pagesLogged r0) { r0 with ok := true } h0 hk
  have hs1 := Course.sealed_inService (c := c1.pagesLogged r1) { r1 with ok := true } h1 hk
  simp only [State.recsSettled, State.setReg64_same, State.setCourses, State.modCourse, State.modKeep, modAt, List.modify_zero_cons,
    List.modify_succ_cons, hs0, hs1]
  rfl

section
variable {s : State} {c0 c1 : Course} {r0 r1 : SealRec}

/-- Where the records of two courses in service read back and nothing else waits, the seal ends with them settled. -/
theorem exec_sealReadbackDone_settles (hc : s.keep.courses = [c0, c1]) (h0 : c0.fenced = false) (h1 : c1.fenced = false)
    (hs : s.keep.sealing = some (r0, r1, .none)) (hk : r0.kind ≠ 6) (hw : s.onWay .record = false)
    (hw0 : c0.jprog + recBytes r0 / 4096 < 32768 * 9999998) (hw1 : c1.jprog + recBytes r1 / 4096 < 32768 * 9999998)
    (hf : s.keep.folding = none) (hq : s.keep.sealQ = []) (hp : s.keep.poisonPg = [])
    (hj0 : c0.jbytes + recBytes r0 ≤ 8 * 2 ^ 20) (hj1 : c1.jbytes + recBytes r1 ≤ 8 * 2 ^ 20) :
    ∃ t : State, exec (.sealReadbackDone true true) s = .next (if s.dev = .saving then t.saveGoes else t.moverFill) ∧
      t.keep = { s.keep with sealing := none, copiedS := [], courses := [c0.recSettled r0, c1.recSettled r1] } ∧
      t.reg64 KEEP_SEALSEQ_LO = r0.seq % 2 ^ 64 ∧ t.reg64 KEEP_SEALTIME_LO = r0.time % 2 ^ 64 ∧
      s.only t [.keep] fun r => r = KEEP_SEALSEQ_LO ∨ r = KEEP_SEALSEQ_LO + 4 ∨ r = KEEP_SEALTIME_LO ∨ r = KEEP_SEALTIME_LO + 4 := by
  have hkeep := State.recsSettled_keep (s := s) r0 r1 h0 h1 hk
  have honly := State.recsSettled_only (s.setCourses [c0.pagesLogged r0, c1.pagesLogged r1]) { r0 with ok := true } { r1 with ok := true } r0.kind
  have hexec := exec_sealReadbackDone hs hw hc h0 h1 true true
  rw [Bool.and_self, if_pos rfl, State.recsWritten_fresh hc h0 h1 hw0 hw1] at hexec
  have hend := State.seal_ends (u := (s.setCourses [c0.pagesLogged r0, c1.pagesLogged r1]).recsSettled { r0 with ok := true }
    { r1 with ok := true } r0.kind) r0 (by rw [hkeep]) (by rw [hkeep]; exact hq) (by rw [hkeep]; exact hp) (by rw [hkeep]; exact hf)
    (by rw [hkeep]; simpa [Course.recSettled] using ⟨hj0, hj1⟩)
  rw [hend] at hexec
  refine ⟨_, hexec.trans ?_, hkeep, ?_, ?_, ?_⟩
  · have hdev := (State.only_part honly .dev :)
    dsimp only
    rw [hdev]
    rfl
  · exact (State.reg64_setReg64_ne _ _ (by decide)).trans (State.reg64_setReg64 _ _ _)
  · exact State.reg64_setReg64 _ _ _
  · exact State.only_trans (State.only_mono (s.modKeep_only _) (fun _ h => h) fun _ h => h.elim) honly

/-- Where one of the records of two courses in service does not read back, the next record of that kind carries what they held. -/
theorem exec_sealReadbackDone_fails (hc : s.keep.courses = [c0, c1]) (h0 : c0.fenced = false) (h1 : c1.fenced = false)
    (hs : s.keep.sealing = some (r0, r1, .none)) (hk : r0.kind ≠ 6) (hw : s.onWay .record = false)
    (hw0 : c0.jprog + recBytes r0 / 4096 < 32768 * 9999998) (hw1 : c1.jprog + recBytes r1 / 4096 < 32768 * 9999998)
    {a b : Bool} (hab : (a && b) = false) :
    ∃ t q0 q1, exec (.sealReadbackDone a b) s = .next t ∧
      t.keep.sealing = some (q0, q1, .none) ∧ q0.seq = s.keep.seq + 1 ∧ q0.kind = r0.kind ∧
      (∀ i ∈ c0.deltaS, ∃ e, (i, e) ∈ q0.deltas) ∧ (∀ i ∈ c1.deltaS, ∃ e, (i, e) ∈ q1.deltas) ∧
      s.only t [.keep, .mtr] fun _ => False := by
  have hexec := exec_sealReadbackDone hs hw hc h0 h1 a b
  rw [hab, if_neg (by simp), State.recsWritten_fresh hc h0 h1 hw0 hw1] at hexec
  have hback := (s.setCourses [c0.pagesLogged r0, c1.pagesLogged r1]).recsBack_only { r0 with ok := a } { r1 with ok := b }
  have hd0 : (((s.setCourses [c0.pagesLogged r0, c1.pagesLogged r1]).recsBack { r0 with ok := a } { r1 with ok := b }).keep.course 0).deltas =
      c0.deltaS.foldl sins c0.deltas := rfl
  have hd1 : (((s.setCourses [c0.pagesLogged r0, c1.pagesLogged r1]).recsBack { r0 with ok := a } { r1 with ok := b }).keep.course 1).deltas =
      c1.deltaS.foldl sins c1.deltas := rfl
  have hseq : ((s.setCourses [c0.pagesLogged r0, c1.pagesLogged r1]).recsBack { r0 with ok := a } { r1 with ok := b }).keep.seq = s.keep.seq :=
    rfl
  have hfrom : s.only ((s.setCourses [c0.pagesLogged r0, c1.pagesLogged r1]).recsBack { r0 with ok := a } { r1 with ok := b }) [.keep]
      fun _ => False := State.only_trans (s.modKeep_only _) hback
  generalize (s.setCourses [c0.pagesLogged r0, c1.pagesLogged r1]).recsBack { r0 with ok := a } { r1 with ok := b } = u
    at hexec hd0 hd1 hseq hfrom
  refine ⟨_, u.sealRec r0.kind r0.label 0, u.sealRec r0.kind r0.label 1, hexec, ?_, ?_, rfl, fun i hi => ?_, fun i hi => ?_, ?_⟩
  · rw [u.sealStart_keep]; rfl
  · rw [← hseq]; rfl
  · exact State.deltaS_sealRec hk (hd0 ▸ (mem_foldl_sins _ _ _).2 (.inl hi))
  · exact State.deltaS_sealRec hk (hd1 ▸ (mem_foldl_sins _ _ _).2 (.inl hi))
  · exact State.only_trans (State.only_mono hfrom (by simp) fun _ h => h) (u.sealStart_only _ _ _)

end

/-- Settles O39: a seal starts with what its courses hold, its read-back settles that or gives it into the next record, and a fold's
map is sealed as it is written. -/
theorem sealsCover : Obligations.SealsCover := by
  unfold Obligations.SealsCover
  refine ⟨fun s => ⟨exec_sealTimer_idle, fun c0 c1 hc hd hn hi hs hf => ?_⟩, fun s => ⟨exec_sealReadbackDone_idle, ?_⟩,
    fun s => ⟨exec_foldMapWritten_idle, fun c0 c1 hc h0 h1 hf hi hd hs hq hw0 hw1 => ?_⟩⟩
  · obtain ⟨hk0, hk1⟩ := Keep.course_pair hc
    have hkeep := s.sealStart_keep 1 0 .none
    refine ⟨_, s.sealRec 1 0 0, s.sealRec 1 0 1, exec_sealTimer hd hn hi hs hf, ?_, ?_, rfl, rfl, rfl, rfl, rfl, ?_, ?_, ?_, ?_, ?_, ?_,
      s.sealStart_only _ _ _⟩
    · rw [hkeep]; rfl
    · rw [hkeep]; rfl
    · rw [← hk0]; rfl
    · rw [← hk1]; rfl
    · rw [← hk0, ← hk1]; rfl
    · rw [← hk0, ← hk1]; rfl
    · rw [hkeep, Keep.course_map (k := s.keep) rfl rfl, hk0]; rfl
    · rw [hkeep, Keep.course_map (k := s.keep) rfl rfl, hk1]; rfl
  · intro c0 c1 r0 r1 hc h0 h1 hs hk hw fresh hw0 hw1
    refine ⟨fun hf hq hp hj0 hj1 => ?_, fun a b hab => exec_sealReadbackDone_fails hc h0 h1 hs hk hw hw0 hw1 hab⟩
    obtain ⟨t, hexec, hkeep, hseq, htime, honly⟩ := exec_sealReadbackDone_settles hc h0 h1 hs hk hw hw0 hw1 hf hq hp hj0 hj1
    refine ⟨t, hexec, fun hd hck hch => State.moverFill_idle ?_ ?_ ?_, hkeep, hseq, htime, honly⟩
    · rwa [(State.only_part honly .dev :)]
    · rw [hkeep]; exact hck
    · rw [hkeep]; exact hch
  · have hkeep := (s.setCourses [c0.foldWritten, c1.foldWritten]).sealStart_keep 6 0 .fold
    refine ⟨_, (s.setCourses [c0.foldWritten, c1.foldWritten]).sealRec 6 0 0, (s.setCourses [c0.foldWritten, c1.foldWritten]).sealRec 6 0 1,
      exec_foldMapWritten hc h0 h1 hf hi hd hs hq hw0 hw1, ?_, rfl, rfl, rfl, rfl, ?_, ?_, s.setCourses_sealStart_only _ _ _ _⟩
    · rw [hkeep]; rfl
    · rw [hkeep]; rfl
    · rw [hkeep]; rfl

end Sys2Proof.Machine

/-! SUPPORT. Copies of the keep (R243-R245, R270): the trickle's next page and the version that is read for it, and a program that
completes or fails. -/

namespace Sys2Proof.Machine

/-! ### A page read for a copy (R245) -/

/-- A loop whose rounds all leave where it starts stays there. -/
theorem foldl_stays {α β : Type} {f : α → β → α} {a : α} (l : List β) (h : ∀ b ∈ l, f a b = a) : l.foldl f a = a := by
  induction l with
  | nil => rfl
  | cons b l ih =>
    rw [List.foldl_cons, h b List.mem_cons_self]
    exact ih fun b hb => h b (List.mem_cons_of_mem _ hb)

/-- A plain granule whose read meets no error is what memory holds, and nothing else happens. -/
theorem State.moverGran_clean {s : State} {obs : List CellObs} {g : Nat} (h : s.plainGran g = true)
    (hobs : readsClean obs g = true) : s.moverGran obs g = (s, some none) := by
  obtain ⟨hfence, hpoison⟩ := State.plainGran_iff.1 h
  simp only [readsClean, Bool.and_eq_true, List.isEmpty_iff, Bool.not_eq_true'] at hobs
  obtain ⟨hsyms, haddr⟩ := hobs
  unfold State.moverGran
  simp only [hfence, hpoison, hsyms, haddr, State.decodeSyms_nil, Bool.false_eq_true, false_and, if_false]

/-- A granule is read for a copy as memory holds it: no write waits for it, no repair or poison meets it, and it reads clean. -/
def State.copiesClean (s : State) (obs : List CellObs) (g : Nat) : Prop :=
  s.plainGran g = true ∧ s.queuedData g = none ∧ readsClean obs g = true

/-- A page whose granules are read clean is what memory holds, and nothing else happens. -/
theorem State.readPage_clean {s : State} {obs : List CellObs} {page : Nat} (h : ∀ i < 64, s.copiesClean obs (64 * page + i)) :
    s.readPage page obs = (s, mcut s.dram.mem (4096 * page) 4096, 0) := by
  refine foldl_stays _ fun i hi => ?_
  obtain ⟨hplain, hqueue, hobs⟩ := h i (List.mem_range.1 hi)
  simp only [hqueue, State.moverGran_clean hplain hobs]

/-- The copy of a page that begins with a slot and a key. -/
def State.copyOf (s : State) (page slot : Nat) (key : Nat × Nat) : Copy :=
  { page := page, course := homeOf page, slot := slot, cover := true, ver := {
      index := indexOf page, seq := s.keep.seq, epoch := s.keep.epoch.num, count := (s.keep.course (homeOf page)).count slot + 1, mask := 0
      key := key, data := mcut s.dram.mem (4096 * page) 4096 } }

/-- A copy of a page that is read clean takes a slot, clears the dirty bit, and sends the page to the keep controller. -/
theorem State.copyStart_clean {s : State} {obs : List CellObs} {page slot : Nat} {key : Nat × Nat}
    (hk : s.keep.keyOf s.keep.epoch = some key) (hs : (s.keep.course (homeOf page)).pickSlot = some slot)
    (hw : s.writesOnWay page = false) (h : ∀ i < 64, s.copiesClean obs (64 * page + i)) :
    s.copyStart page obs = ((s.modKeep fun k => { k with
      courses := modAt k.courses (homeOf page) fun c => c.takeSlot slot
      dirty := rdel k.dirty page, copies := k.copies ++ [s.copyOf page slot key] }).ask 5 0 (.copy page) (pageUnits page)) := by
  have hread := State.readPage_clean (s := (s.modCourse (homeOf page) fun c => c.takeSlot slot).modKeep fun k => { k with
    dirty := rdel k.dirty page }) (obs := obs) (page := page) h
  unfold State.copyStart
  simp only [hk, hs, hw, Bool.false_eq_true, if_false, hread]
  rfl

/-! ### The trickle (R244) -/

/-- The state with the trickle's window as given. -/
def State.setWindow (s : State) (start pages : Nat) : State := s.modKeep fun k => { k with winStart := start, winPages := pages }

/-- When the window in which a slot of the trickle falls began, and the pages that it has copied. -/
def State.winFrom (s : State) : Nat := if s.keep.winStart + 1000000 ≤ s.clock then s.clock else s.keep.winStart
def State.winDone (s : State) : Nat := if s.keep.winStart + 1000000 ≤ s.clock then 0 else s.keep.winPages

/-- The trickle's next page. -/
def State.trickleNext (s : State) : Option Nat :=
  (rnextFrom (rcount s.keep.dirty + s.keep.dirty.length + 1) s.keep.dirty s.keep.ptr s.trickleOk).orElse fun _ =>
    rnextFrom (rcount s.keep.dirty + s.keep.dirty.length + 1) s.keep.dirty 0 s.trickleOk

/-- The state as the trickle goes past a page that it copies. -/
def State.trickled (s : State) (start pages page : Nat) : State :=
  (s.setWindow start pages).modKeep fun k => { k with ptr := page + 1, winPages := k.winPages + 1 }

theorem State.setWindow_trickle (s : State) (start pages : Nat) :
    (s.setWindow start pages).trickleRate = s.trickleRate ∧ (s.setWindow start pages).trickleNext = s.trickleNext := ⟨rfl, rfl⟩

theorem exec_trickleCopyStart_idle {s : State} (h : s.inService = false ∨ s.flag KEEP_CTL_PAUSE = true ∨ s.pwr.interval = true)
    (obs : List CellObs) : exec (.trickleCopyStart obs) s = .next s := congrArg Host.Outcome.next (if_pos h)

theorem exec_trickleCopyStart {s : State} (hd : s.inService = true) (hp : s.flag KEEP_CTL_PAUSE = false) (hi : s.pwr.interval = false)
    (obs : List CellObs) : exec (.trickleCopyStart obs) s = .next (
      if s.trickleRate * 100000 < (s.winDone + 1) * 4096 then s.setWindow s.winFrom s.winDone
      else match s.trickleNext with
        | none => s.setWindow s.winFrom s.winDone
        | some p => (s.trickled s.winFrom s.winDone p).copyStart p obs) := by
  have hgo : ¬(s.inService = false ∨ s.flag KEEP_CTL_PAUSE = true ∨ s.pwr.interval = true) := by simp [hd, hp, hi]
  have hwin : (if s.keep.winStart + 1000000 ≤ s.clock then s.modKeep fun k => { k with winStart := s.clock, winPages := 0 } else s) =
      s.setWindow s.winFrom s.winDone := by
    unfold State.winFrom State.winDone
    split
    · rfl
    · exact (s.modKeep_self _ rfl).symm
  obtain ⟨hrate, hnext⟩ := s.setWindow_trickle s.winFrom s.winDone
  refine congrArg Host.Outcome.next ((if_neg hgo).trans ?_)
  dsimp only
  rw [hwin, hrate]
  refine if_congr Iff.rfl rfl ?_
  rw [← hnext]
  rfl

/-- What a copy of the trickle reads and takes it takes from the state in which the trickle goes past. -/
theorem State.trickled_copyStart {s : State} {obs : List CellObs} {page slot : Nat} {key : Nat × Nat}
    (hk : s.keep.keyOf s.keep.epoch = some key) (hs : (s.keep.course (homeOf page)).pickSlot = some slot)
    (hw : s.writesOnWay page = false) (h : ∀ i < 64, s.copiesClean obs (64 * page + i)) (start pages : Nat) :
    (s.trickled start pages page).copyStart page obs = ((s.modKeep fun k => { k with
      ptr := page + 1, winStart := start, winPages := pages + 1, dirty := rdel k.dirty page
      courses := modAt k.courses (homeOf page) fun c => c.takeSlot slot
      copies := k.copies ++ [s.copyOf page slot key] }).ask 5 0 (.copy page) (pageUnits page)) :=
  State.copyStart_clean (s := s.trickled start pages page) hk hs hw h

/-! ### What seals leave of the copies and slots -/

/-- Between two states seals may have been asked for and pages of a save counted: the copies in flight and the slots in use are the
same. -/
structure State.SealsBetween (s t : State) : Prop where
  copies : t.keep.copies = s.keep.copies
  cur : ∀ i, (t.keep.course i).cur = (s.keep.course i).cur
  slots : ∀ i, (t.keep.course i).slots = (s.keep.course i).slots
  retired : ∀ i, (t.keep.course i).retired = (s.keep.course i).retired
  frame : s.only t [.keep, .mtr] fun _ => False

theorem State.SealsBetween.refl (s : State) : s.SealsBetween s := ⟨rfl, fun _ => rfl, fun _ => rfl, fun _ => rfl, s.only_refl _ _⟩

theorem State.SealsBetween.trans {s t u : State} (h : s.SealsBetween t) (h' : t.SealsBetween u) : s.SealsBetween u :=
  ⟨h'.copies.trans h.copies, fun i => (h'.cur i).trans (h.cur i), fun i => (h'.slots i).trans (h.slots i),
    fun i => (h'.retired i).trans (h.retired i), State.only_trans h.frame h'.frame⟩

theorem State.sealAsk_between (s : State) (kind label : Nat) (f : SealFor) : s.SealsBetween (s.sealAsk kind label f) := by
  rcases s.sealAsk_cases kind label f with h | h | h <;> rw [h]
  · exact .refl s
  · exact ⟨rfl, fun _ => rfl, fun _ => rfl, fun _ => rfl, State.only_mono (s.modKeep_only _) (by simp) fun _ h => h⟩
  · have hcourse (i : Nat) : (s.sealStart kind label f).keep.course i = (s.keep.course i).sealsStart := by
      rw [s.sealStart_keep, Keep.course_map (k := s.keep) rfl rfl]
    refine ⟨?_, fun i => ?_, fun i => ?_, fun i => ?_, s.sealStart_only _ _ _⟩
    · rw [s.sealStart_keep]; rfl
    all_goals rw [hcourse]; rfl

theorem State.savePage_between (s : State) : s.SealsBetween s.savePage := by
  have hcount (f : Keep → Keep) (hc : (f s.keep).copies = s.keep.copies) (hk : (f s.keep).courses = s.keep.courses) :
      s.SealsBetween (s.modKeep f) := by
    have hcourse (i : Nat) : (s.modKeep f).keep.course i = s.keep.course i := by
      rw [State.keep_modKeep, Keep.course, hk]; rfl
    exact ⟨hc, fun i => by rw [hcourse], fun i => by rw [hcourse], fun i => by rw [hcourse],
      State.only_mono (s.modKeep_only _) (by simp) fun _ h => h⟩
  unfold State.savePage
  dsimp only
  split
  · refine ite_has (s.SealsBetween ·) (.trans ?_ (State.sealAsk_between _ _ _ _)) ?_ <;> exact hcount _ rfl rfl
  · exact .refl s

theorem State.savePage_idle {s : State} (h : s.dev ≠ .saving) : s.savePage = s := if_neg h

/-! ### A program that completes (R245, R270) -/

/-- A course whose map entry names the slot of a copy. -/
def Course.swapped (old : MapEnt) (x : Copy) (folding : Option Bool) (c : Course) : Course :=
  { c with
    cur := tset c.cur (indexOf x.page) { slot := x.slot, heat := min 3 (old.heat + 1), zero := false, poison := x.ver.mask != 0 }
    slots := tset c.slots x.slot x.ver
    counts := tset c.counts x.slot x.ver.count
    pend := c.pend ++ [old.slot]
    deltas := sins c.deltas (indexOf x.page)
    deltaF := if folding = none then c.deltaF else sins c.deltaF (indexOf x.page) }

/-- The keep as a swap leaves it beside the courses. -/
def Keep.swapped (x : Copy) (old : MapEnt) (oldEpoch : Nat) (k : Keep) : Keep :=
  { k with
    copies := k.copies.erase x
    copied := radd k.copied x.page
    copiesSince := k.copiesSince + 1
    poisonPg := rdel k.poisonPg x.page
    oldLeft := k.oldLeft + b2n (x.ver.epoch != k.epoch.num) - b2n (!old.zero && oldEpoch != k.epoch.num)
    ckpt := k.ckpt.map fun y => (y.1, if x.cover then rdel y.2 x.page else y.2)
    charac := k.charac.map fun y => if k.dirty.isEmpty then { y with ptr := max y.ptr (x.page + 1) } else y }

/-- The map entry of a page. -/
def State.entryOf (s : State) (x : Copy) : MapEnt := mapAt (s.keep.course x.course).cur (indexOf x.page)

/-- The state after a swap, before its slot may be retired. -/
def State.entrySwapped (s : State) (x : Copy) : State :=
  ((s.modCourse x.course (Course.swapped (s.entryOf x) x s.keep.folding)).modKeep (Keep.swapped x (s.entryOf x)
    (((tget (s.keep.course x.course).slots (s.entryOf x).slot).map (·.epoch)).getD s.keep.epoch.num))).add64 KEEP_COPIES_LO 1

theorem State.swapEntry_eq (s : State) (x : Copy) : s.swapEntry x =
    if wearLimit ≤ x.ver.count then (s.entrySwapped x).retireSlot x.course x.slot else s.entrySwapped x := rfl

theorem State.entrySwapped_only (s : State) (x : Copy) :
    s.only (s.entrySwapped x) [.keep] fun r => r = KEEP_COPIES_LO ∨ r = KEEP_COPIES_LO + 4 :=
  State.only_trans (State.only_mono (State.only_trans (s.modCourse_only _ _) (State.modKeep_only _ _)) (fun _ h => h) fun _ h => h.elim)
    (State.only_mono (State.add64_only _ _ _) (by simp) fun _ h => h)

/-- The registers that a program which completes may change. -/
def swapRegs (r : Nat) : Prop := inLtc r ∨ r = KEEP_COPIES_LO ∨ r = KEEP_COPIES_LO + 4

section
variable {s : State} {x : Copy} {c : Course}

theorem State.courses_modCourse_self {i : Nat} (h : s.keep.courses[i]? = some c) (f : Course → Course) :
    (s.modCourse i f).keep.courses[i]? = some (f c) := by simp [State.modCourse, modAt, h]

/-- The course of a swap is there, with the entry swapped and a worn slot retired. -/
theorem State.swapEntry_course (h : s.keep.courses[x.course]? = some c) : (s.swapEntry x).keep.course x.course =
    if wearLimit ≤ x.ver.count then (c.swapped (s.entryOf x) x s.keep.folding).slotRetired x.slot
    else c.swapped (s.entryOf x) x s.keep.folding := by
  have hswap : (s.entrySwapped x).keep.courses[x.course]? = some (c.swapped (s.entryOf x) x s.keep.folding) :=
    State.courses_modCourse_self h _
  rw [State.swapEntry_eq]
  split
  · rw [State.retireSlot_keep, State.course_modCourse_self hswap]
  · exact Keep.course_of_getElem? hswap

theorem State.swapEntry_copies (s : State) (x : Copy) : (s.swapEntry x).keep.copies = s.keep.copies.erase x := by
  rw [State.swapEntry_eq]
  split
  · rw [State.retireSlot_keep]; rfl
  · rfl

theorem State.swapEntry_only (s : State) (x : Copy) : s.only (s.swapEntry x) (.keep :: wires) swapRegs := by
  have hswap : s.only (s.entrySwapped x) (.keep :: wires) swapRegs :=
    State.only_mono (s.entrySwapped_only x) (by simp) fun _ h => .inr h
  rw [State.swapEntry_eq]
  exact ite_has (s.only · _ _)
    (State.only_trans hswap (State.only_mono (State.retireSlot_only _ _ _) (fun _ h => h) fun _ h => .inl h)) hswap

theorem State.reg64_congr {s t : State} {a : Nat} (h : t.reg a = s.reg a) (h' : t.reg (a + 4) = s.reg (a + 4)) : t.reg64 a = s.reg64 a := by
  simp only [State.reg64, h, h']

theorem State.swapEntry_reg64 (s : State) (x : Copy) :
    (s.swapEntry x).reg64 KEEP_COPIES_LO = (s.reg64 KEEP_COPIES_LO + 1) % 2 ^ 64 := by
  have hcount : (s.entrySwapped x).reg64 KEEP_COPIES_LO = (s.reg64 KEEP_COPIES_LO + 1) % 2 ^ 64 := State.reg64_add64 _ _ _
  have hretire := (s.entrySwapped x).retireSlot_only x.course x.slot
  rw [State.swapEntry_eq]
  refine ite_keeps (State.reg64 · KEEP_COPIES_LO) ((State.reg64_congr ?_ ?_).trans hcount) hcount
  · exact State.only_reg_eq hretire (by unfold inLtc; decide)
  · exact State.only_reg_eq hretire (by unfold inLtc; decide)

/-- The state after a program has completed: the entry swapped, a save's pages counted, and a seal asked for where more slots wait than
the pool can spare. -/
def State.copyDone (s : State) (x : Copy) : State :=
  let s := (s.swapEntry x).savePage
  if s.dev ≠ .saving ∧ 786432 < (s.keep.course x.course).pend.length then s.sealAsk 1 0 .none else s

theorem State.copyDone_between (s : State) (x : Copy) : (s.swapEntry x).SealsBetween (s.copyDone x) :=
  ite_has ((s.swapEntry x).SealsBetween ·) (.trans (State.savePage_between _) (State.sealAsk_between _ _ _ _)) (State.savePage_between _)

/-- Outside a save, and while few slots wait, a program that completes asks for no seal. -/
theorem State.copyDone_quiet (h : s.keep.courses[x.course]? = some c) (hd : s.dev ≠ .saving) (hp : c.pend.length < 786432) :
    s.copyDone x = s.swapEntry x := by
  have hdev : (s.swapEntry x).dev = s.dev := State.only_part (s.swapEntry_only x) .dev (by simp [wires])
  have hpend : ((s.swapEntry x).keep.course x.course).pend = c.pend ++ [(s.entryOf x).slot] := by
    rw [State.swapEntry_course h]
    exact ite_keeps Course.pend rfl rfl
  have hfew : ¬((s.swapEntry x).dev ≠ .saving ∧ 786432 < ((s.swapEntry x).keep.course x.course).pend.length) := by
    rw [hpend, List.length_append, List.length_singleton]; omega
  unfold State.copyDone
  rw [State.savePage_idle (hdev ▸ hd)]
  exact if_neg hfew

/-! ### A program that fails (R245, R270) -/

/-- The state after a program has failed, before its page is copied anew. -/
def State.copyFailed (s : State) (x : Copy) : State := ((s.dropCopy x false).retireSlot x.course x.slot).markDirty x.page

theorem State.dropCopy_failed (s : State) (x : Copy) : s.dropCopy x false = (s.modCourse x.course fun c => { c with
    freed := c.freed ++ [x.slot], counts := tset c.counts x.slot x.ver.count }).modKeep fun k => { k with copies := k.copies.erase x } := by
  simp [State.dropCopy]

theorem State.copyFailed_keep (s : State) (x : Copy) : (s.copyFailed x).keep.copies = s.keep.copies.erase x ∧
    rmem (s.copyFailed x).keep.dirty x.page = true := by
  refine ⟨?_, (rmem_radd _ _ _).2 (.inl rfl)⟩
  have hretire : ((s.dropCopy x false).retireSlot x.course x.slot).keep.copies = (s.dropCopy x false).keep.copies := by
    rw [State.retireSlot_keep]; rfl
  rw [s.dropCopy_failed] at hretire
  exact (by rw [State.copyFailed, s.dropCopy_failed]; exact hretire)

theorem State.copyFailed_course (h : s.keep.courses[x.course]? = some c) :
    x.slot ∈ ((s.copyFailed x).keep.course x.course).retired ∧ ((s.copyFailed x).keep.course x.course).spares = c.spares - 1 := by
  have hdrop : (s.dropCopy x false).keep.courses[x.course]? = some { c with
      freed := c.freed ++ [x.slot], counts := tset c.counts x.slot x.ver.count } := by
    rw [s.dropCopy_failed]; exact State.courses_modCourse_self h _
  have hcourse : (s.copyFailed x).keep.course x.course = Course.slotRetired x.slot { c with
      freed := c.freed ++ [x.slot], counts := tset c.counts x.slot x.ver.count } := by
    rw [← State.course_modCourse_self hdrop (Course.slotRetired x.slot), Keep.course, Keep.course, ← State.retireSlot_keep]; rfl
  rw [hcourse]
  exact ⟨(mem_sins _ _ _).2 (.inl rfl), rfl⟩

theorem State.copyFailed_only (s : State) (x : Copy) : s.only (s.copyFailed x) (.keep :: wires) inLtc := by
  have hdrop : s.only (s.dropCopy x false) (.keep :: wires) inLtc := by
    rw [s.dropCopy_failed]
    exact State.only_mono (State.only_trans (s.modCourse_only _ _) (State.modKeep_only _ _)) (by simp) fun _ h => h.elim
  exact State.only_trans (State.only_trans hdrop (State.retireSlot_only _ _ _))
    (State.only_mono (State.modKeep_only _ _) (by simp) fun _ h => h.elim)

end

/-! ### PAGE_PROGRAM_COMPLETE -/

/-- What a program that has ended goes on to. -/
def State.programGoesOn (s : State) : State := (if s.keep.charac.isSome = true then s.moverFill else s).ckptGoes.saveGoes

/-- A page whose program has failed is copied anew where its course takes copies. -/
def State.copiedAnew (s : State) (x : Copy) : State :=
  if s.mayCopy x.course = true ∧ (if s.dev = .saving then (s.keep.course x.course).hold.isSome
    else (s.keep.course x.course).hotPosted) = false then s.copyStart x.page [] else s

section
variable {s : State} {k slot : Nat} {ok : Bool} {x : Copy}

theorem exec_pageProgramComplete_none (h : (s.keep.copies.find? fun x => x.course == k && x.slot == slot) = none) :
    exec (.pageProgramComplete k slot ok) s = .next s := by
  show execPageProgramComplete k slot ok s = .next s
  simp only [execPageProgramComplete, h]

theorem exec_pageProgramComplete_unstarted (h : (s.keep.copies.find? fun x => x.course == k && x.slot == slot) = some x)
    (hu : s.unstarted x = true) : exec (.pageProgramComplete k slot ok) s = .next s := by
  show execPageProgramComplete k slot ok s = .next s
  simp only [execPageProgramComplete, h, hu, if_true]

theorem exec_pageProgramComplete_waiting (h : (s.keep.copies.find? fun x => x.course == k && x.slot == slot) = some x)
    (hu : s.unstarted x = false) (hw : s.pwr.waiting = true) : exec (.pageProgramComplete k slot ok) s =
      .next (if ok = true then s.dropCopy x true else (s.dropCopy x false).retireSlot x.course x.slot).waitCheck := by
  show execPageProgramComplete k slot ok s = _
  simp only [execPageProgramComplete, h, hu, hw, Bool.false_eq_true, if_false, if_true]

theorem exec_pageProgramComplete (h : (s.keep.copies.find? fun x => x.course == k && x.slot == slot) = some x)
    (hu : s.unstarted x = false) (hw : s.pwr.waiting = false) : exec (.pageProgramComplete k slot ok) s =
      .next (if s.keepBusOk k ok = true then s.copyDone x else (s.copyFailed x).copiedAnew x).programGoesOn := by
  have hk : x.course = k := by
    have hx := List.find?_some h
    simp only [Bool.and_eq_true, beq_iff_eq] at hx
    exact hx.1
  subst hk
  show execPageProgramComplete x.course slot ok s = _
  simp only [execPageProgramComplete, h, hu, hw, Bool.false_eq_true, if_false]
  rfl

end

/-- Settles O38: the trickle copies the next page as it is, and a program that ends swaps its entry or gives its page back. -/
theorem copiesSwapEntries : Obligations.CopiesSwapEntries := by
  unfold Obligations.CopiesSwapEntries
  refine ⟨fun s obs h => exec_trickleCopyStart_idle h obs, fun s obs => ?_, fun s k slot ok => ?_⟩
  · intro keep fuel fresh start pages next hd hp hi
    have hstart : start = s.winFrom := if_congr decide_eq_true_iff rfl rfl
    have hpages : pages = s.winDone := if_congr decide_eq_true_iff rfl rfl
    have hnext : next = s.trickleNext := rfl
    clear_value start pages next
    subst hstart hpages hnext
    have hexec := exec_trickleCopyStart hd hp hi obs
    refine ⟨fun h => hexec.trans (congrArg _ ?_), ?_⟩
    · by_cases hrate : s.trickleRate * 100000 < (s.winDone + 1) * 4096
      · exact if_pos hrate
      · rw [if_neg hrate, h.resolve_left (by omega)]; rfl
    · intro p slot key c hrate hn hkey hpick hway hgrans
      rw [if_neg (by omega), hn] at hexec
      exact ⟨_, hexec.trans (congrArg Host.Outcome.next
        (State.trickled_copyStart hkey hpick hway hgrans s.winFrom s.winDone)), rfl⟩
  · intro found
    refine ⟨fun h => exec_pageProgramComplete_none h, fun x c h hc => ?_⟩
    intro goesOn regs
    refine ⟨fun hu => exec_pageProgramComplete_unstarted h hu, fun hu hw => exec_pageProgramComplete_waiting h hu hw,
      fun hu hw hb => ?_, fun hu hw hb => ?_⟩
    · intro old
      have hold : old = s.entryOf x := congrArg (fun c : Course => mapAt c.cur (indexOf x.page)) (Keep.course_of_getElem? hc).symm
      have hexec := exec_pageProgramComplete (ok := ok) h hu hw
      rw [if_pos hb] at hexec
      obtain ⟨hcopies, hcur, hslots, hretired, hframe⟩ := s.copyDone_between x
      have hcourse := State.swapEntry_course hc
      rw [hold]
      refine ⟨_, hexec, hcopies.trans (s.swapEntry_copies x), ?_, ?_, fun hd hp => ?_, fun hn => ?_, fun hn => ?_, ?_, ?_⟩
      · rw [hcur, hcourse]
        exact ite_keeps (fun c : Course => mapAt c.cur (indexOf x.page)) (tgetD_tset_self _ _ _ _) (tgetD_tset_self _ _ _ _)
      · rw [hslots, hcourse]
        exact ite_keeps (fun c : Course => tget c.slots x.slot) (tget_tset_self _ _ _) (tget_tset_self _ _ _)
      · rw [State.copyDone_quiet hc hd hp, hcourse]
        exact ite_keeps Course.pend rfl rfl
      · rw [hretired, hcourse, if_pos hn]
        exact (mem_sins _ _ _).2 (.inl rfl)
      · rw [hretired, hcourse, if_neg (by omega)]; rfl
      · exact (State.reg64_congr (State.only_reg_eq hframe id) (State.only_reg_eq hframe id)).trans (s.swapEntry_reg64 x)
      · exact State.only_trans (State.only_mono (s.swapEntry_only x) (by simp_all) fun _ h => h)
          (State.only_mono hframe (by simp) fun _ h => h.elim)
    · have hexec := exec_pageProgramComplete (ok := ok) h hu hw
      rw [if_neg (by simp [hb])] at hexec
      obtain ⟨hcopies, hdirty⟩ := s.copyFailed_keep x
      obtain ⟨hretired, hspares⟩ := State.copyFailed_course hc
      exact ⟨_, hexec, hcopies, hdirty, hretired, hspares, s.copyFailed_only x⟩

end Sys2Proof.Machine

/-! SUPPORT. Hold-up energy (R250-R255): samples, updates of the budget, and what arming follows from them. -/

namespace Sys2Proof.Machine

/-! ### Samples (R250) -/

/-- The state once a sample has entered the last hundred. -/
def State.sampled (s : State) (uv : Nat) : State := s.modKeep fun k => { k with samples := (uv :: k.samples).take 100, lastUv := uv }

/-- Without a characterisation under way a sample only enters, and arming follows. -/
theorem exec_holdSenseSample {s : State} (hd : s.dev ≠ .off) (hl : 1 ∉ s.pwr.levels) (hc : s.keep.charac = none) (uv : Nat)
    (hkeep : (s.sampled uv).armFollows.keep.charac = s.keep.charac) :
    exec (.holdSenseSample uv) s = .next (s.sampled uv).armFollows := by
  have hgo : ¬(s.dev = .off ∨ s.pwr.levels.contains 1 = true) := by simp [hd, hl]
  refine congrArg Host.Outcome.next ((if_neg hgo).trans ?_)
  dsimp only
  rw [show (s.modKeep fun k => { k with samples := (uv :: k.samples).take 100, lastUv := uv }) = s.sampled uv from rfl, hkeep, hc]

/-- A measurement whose newest sample lies outside 0.4 V to 14 V is not valid. -/
theorem State.sampled_invalid (s : State) {uv : Nat} (h : uv < 50000 ∨ 1750000 < uv) : (s.sampled uv).measValid = false := by
  have hrange : ¬(50000 ≤ uv ∧ uv ≤ 1750000) := by omega
  simp [State.measValid, State.sampled, State.modKeep, hrange]

/-! ### What arming follows -/

theorem State.armFollows_disarmed {s : State} (h : s.keep.arm = .disarmed) : s.armFollows = s := by
  simp only [State.armFollows, h]

/-- An armed part whose measurement is not valid is suspended, with 0x0504. -/
theorem State.armFollows_suspends {s : State} (h : s.keep.arm = .armed) (hv : s.measValid = false)
    (hf : s.flag KEEP_CTL_INVDISARM = false) : s.armFollows =
      (s.post 0x0504 2 0xFF (s.keep.lastUv / 1000 % 65536)).modKeep fun k => { k with arm := .suspended, dmax := 0 } := by
  have hflag : (s.post 0x0504 2 0xFF (s.keep.lastUv / 1000 % 65536)).flag KEEP_CTL_INVDISARM = false := by
    rw [State.flag, State.fld_post _ _ _ _ _ (by decide), ← State.flag, hf]
  unfold State.armFollows
  rw [h, hv]
  dsimp only
  rw [if_pos rfl, if_neg (by rw [hflag]; exact Bool.false_ne_true)]

/-- The state of a part that has just been armed, before its event. -/
def State.armed (s : State) : State := s.modKeep fun k => { k with arm := .armed, below := false }

/-- Without a request that waits for it the end of arming answers nothing. -/
theorem State.armEnds_idle {s : State} (h : s.keep.armOps = []) (status : Nat) : s.armEnds status = s := by
  have hself : (s.modKeep fun k => { k with armOps := [] }) = s := State.modKeep_self _ _ (by rw [← h])
  unfold State.armEnds
  rw [h]
  exact hself

/-- An arming part whose measurement is valid and whose dirty pages fit is armed, with 0x0501. -/
theorem State.armFollows_arms {s : State} (h : s.keep.arm = .arming) (hv : s.measValid = true) (ho : s.keep.armOps = [])
    (hd : s.keep.dirtyCount ≤ s.keep.dmax) : s.armFollows = s.armed.post 0x0501 0 0xFF (s.keep.dmax / 256) := by
  have hends : (s.armed.post 0x0501 0 0xFF (s.keep.dmax / 256)).armEnds 0 = s.armed.post 0x0501 0 0xFF (s.keep.dmax / 256) :=
    State.armEnds_idle (by simp only [State.post_same]; exact ho) 0
  simp only [State.armFollows, h, hv, hd, if_true, Bool.true_eq_false, if_false]
  exact hends

/-! ### Updates (R251, R253) -/

/-- A part that is neither armed nor suspended, or whose dirty pages fit, is not below its budget. -/
theorem State.belowCheck_fits {s : State} (h : s.keep.arm = .disarmed ∨ s.keep.dirtyCount ≤ s.keep.dmax) :
    s.belowCheck = s.modKeep fun k => { k with below := false } := by
  have hlow : ((s.keep.arm == .armed || s.keep.arm == .suspended) && decide (s.keep.dmax < s.keep.dirtyCount)) = false := by
    rcases h with h | h
    · rw [h]; rfl
    · simp [h]
  unfold State.belowCheck
  dsimp only
  rw [hlow]
  split
  · rename_i hb
    exact (State.modKeep_self _ _ (by rw [hb])).symm
  · rfl

theorem exec_energyBudgetUpdate {s : State} (hd : s.dev ≠ .off) : exec .energyBudgetUpdate s =
    .next (if s.energy.armFollows.belowCheck.admHold = true then s.energy.armFollows.belowCheck.incFld KEEP_ADMHOLD_US 100
      else s.energy.armFollows.belowCheck) := congrArg Host.Outcome.next (if_neg hd)

theorem State.energy_keep {s : State} (h : s.keep.arm ≠ .suspended) : s.energy.keep = { s.keep with
    vmv := s.holdV / 1000, eavail := s.energyMj s.holdV, ceff := s.ceff, dmax := dmaxOf (s.energyMj s.holdV) } := by
  simp only [State.energy, State.modKeep, if_neg h]

/-- The update of a disarmed part computes, and nothing follows. -/
theorem State.update_disarmed {s : State} (h : s.keep.arm = .disarmed) :
    s.energy.armFollows.belowCheck = s.energy.modKeep fun k => { k with below := false } := by
  have harm : s.energy.keep.arm = .disarmed := h
  rw [State.armFollows_disarmed harm, State.belowCheck_fits (.inl harm)]

/-- The update of an arming part whose measurement is valid and whose dirty pages fit arms it. -/
theorem State.update_arms {s : State} (h : s.keep.arm = .arming) (hv : s.measValid = true) (ho : s.keep.armOps = [])
    (hd : s.keep.dirtyCount ≤ dmaxOf (s.energyMj s.holdV)) :
    s.energy.armFollows.belowCheck = s.energy.armed.post 0x0501 0 0xFF (dmaxOf (s.energyMj s.holdV) / 256) := by
  have hdmax : s.energy.keep.dmax = dmaxOf (s.energyMj s.holdV) := by rw [State.energy_keep (by simp [h])]
  have hfit : s.energy.keep.dirtyCount ≤ s.energy.keep.dmax := by rw [hdmax]; exact hd
  rw [State.armFollows_arms (s := s.energy) h hv ho hfit, hdmax, State.belowCheck_fits]
  · refine State.modKeep_self _ _ ?_
    simp only [State.post_same]; rfl
  · right; simp only [State.post_same]; exact hfit

/-! ### KEEP_HOLDCAP_WRITE (R252) -/

/-- The state once a write of KEEP_HOLDCAP has discarded the measured capacitance. -/
def State.holdcapSet (s : State) (v : Nat) : State := (s.setReg KEEP_HOLDCAP v).setReg KEEP_HOLDCHK 0

theorem State.holdSetup_disarmed {s : State} (h : s.keep.arm = .disarmed) : s.holdSetup = s := by
  rw [State.holdSetup, State.armFollows_disarmed h, ite_self]

theorem exec_keepHoldcapWrite {s : State} {a : Access} (h : s.served a KEEP_HOLDCAP = true) (v : Word) :
    exec (.keepHoldcapWrite a v) s = .next (((s.arrived a 9).holdcapSet v.toNat).holdSetup.respond a 9 0 0) :=
  congrArg Host.Outcome.next (State.cfgWrite_served h _)

/-- Settles O40: a sample and an update move what the budget follows, and a new capacitance is noted. -/
theorem energyAndArming : Obligations.EnergyAndArming := by
  unfold Obligations.EnergyAndArming
  refine ⟨fun s uv => ⟨fun h => ?_, fun hd hl hc ha => ?_, fun hd hl hc ha hf hu => ?_⟩,
    fun s => ⟨fun h => congrArg Host.Outcome.next (if_pos h), fun hd ha => ?_, fun hd ha hv ho hfit => ?_⟩, fun s a v h => ?_⟩
  · exact congrArg Host.Outcome.next (if_pos (h.imp_right List.contains_iff_mem.2))
  · have hfollow : (s.sampled uv).armFollows = s.sampled uv := State.armFollows_disarmed ha
    exact ⟨s.sampled uv, by rw [exec_holdSenseSample hd hl hc uv (by rw [hfollow]; rfl), hfollow], rfl, s.modKeep_only _⟩
  · have hfollow := State.armFollows_suspends (s := s.sampled uv) ha (s.sampled_invalid hu) hf
    refine ⟨_, exec_holdSenseSample hd hl hc uv ?_, ?_, ?_⟩
    all_goals rw [hfollow]
    · simp only [State.keep_modKeep, State.post_same]; rfl
    · simp only [State.keep_modKeep, State.post_same]; rfl
    · exact State.only_trans (State.only_trans (State.only_mono (s.modKeep_only _) (by simp) fun _ h => h.elim)
        (State.only_mono (State.post_only _ _ _ _ _) (by simp_all) fun _ h => h))
        (State.only_mono (State.modKeep_only _ _) (by simp) fun _ h => h.elim)
  · refine ⟨_, exec_energyBudgetUpdate hd, ?_, ?_⟩
    all_goals rw [State.update_disarmed ha]
    · rw [State.keep_modKeep, State.energy_keep (by simp [ha])]
    · exact State.only_trans (s.modKeep_only _) (State.modKeep_only _ _)
  · refine ⟨s.energy.armed, _, (State.update_arms ha hv ho hfit), exec_energyBudgetUpdate hd, ?_, ?_⟩
    · rw [State.armed, State.keep_modKeep, State.energy_keep (by simp [ha])]
    · exact State.only_trans (s.modKeep_only _) (State.modKeep_only _ _)
  · have hkeep : (s.arrived a 9).keep = s.keep := State.only_part (s.arrived_only a 9) .keep
    refine ⟨(s.arrived a 9).holdcapSet v.toNat, exec_keepHoldcapWrite h v, fun ha => State.holdSetup_disarmed (hkeep ▸ ha),
      ?_, ?_, ?_⟩
    · rw [State.holdcapSet, State.reg_setReg_ne _ _ (by decide), State.reg_setReg_self]; exact Nat.mod_eq_of_lt v.isLt
    · rw [State.holdcapSet, State.reg_setReg_self]; rfl
    · exact State.only_trans (State.only_mono (State.setReg_only _ _ _) (by simp) fun _ h => .inl h)
        (State.only_mono (State.setReg_only _ _ _) (by simp) fun _ h => .inr h)

end Sys2Proof.Machine

/-! SUPPORT. What stands through the work that a save and a fence cut short: the device state, the pins, and whether PWR_FAIL_N has been
high for 10 ms (R256, R262). -/

namespace Sys2Proof.Machine

/-- The device state, the pins and the 10 ms of power are as they were. -/
structure State.SameMode (s₀ s : State) : Prop where
  dev : s.dev = s₀.dev
  pins : s.pins = s₀.pins
  high : s.pwr.highFor10 = s₀.pwr.highFor10

theorem State.SameMode.refl (s : State) : s.SameMode s := ⟨rfl, rfl, rfl⟩

section
variable {s₀ s t : State}

theorem State.SameMode.trans (h : s₀.SameMode s) (h' : s.SameMode t) : s₀.SameMode t :=
  ⟨h'.dev.trans h.dev, h'.pins.trans h.pins, h'.high.trans h.high⟩

/-- A frame that names none of their parts. -/
theorem State.SameMode.only {ps : List Part} {rs : Nat → Prop} (h : s₀.SameMode s) (ho : s.only t ps rs)
    (hp : .dev ∉ ps ∧ .pins ∉ ps ∧ .pwr ∉ ps := by simp [wires]) : s₀.SameMode t := by
  have hd : t.dev = s.dev := State.only_part ho .dev hp.1
  have hi : t.pins = s.pins := State.only_part ho .pins hp.2.1
  have hw : t.pwr = s.pwr := State.only_part ho .pwr hp.2.2
  exact h.trans ⟨hd, hi, congrArg Pwr.highFor10 hw⟩

/-- Packets, events and answers touch none of them. -/
theorem State.SameMode.units (h : s₀.SameMode s) (hu : t.units = s.units) : s₀.SameMode t :=
  h.trans ⟨(congrArg State.dev hu :), (congrArg State.pins hu :), (congrArg (fun u : State => u.pwr.highFor10) hu :)⟩

/-- An update of the power part that leaves the 10 ms of power. -/
theorem State.SameMode.updPwr (h : s₀.SameMode s)
    {pending clock fresh prev regs act out ks lnk dram mc mtr wq chs intg keep thm pwr fus bst cal}
    (hp : pwr.highFor10 = s.pwr.highFor10 := by rfl) :
    s₀.SameMode ⟨pending, clock, fresh, s.dev, prev, regs, act, out, s.pins, ks, lnk, dram, mc, mtr, wq, chs, intg, keep, thm, pwr, fus,
      bst, cal⟩ := ⟨h.dev, h.pins, hp.trans h.high⟩

/-- An update of any other part. -/
theorem State.SameMode.upd (h : s₀.SameMode s)
    {pending clock fresh prev regs act out ks lnk dram mc mtr wq chs intg keep thm fus bst cal} :
    s₀.SameMode ⟨pending, clock, fresh, s.dev, prev, regs, act, out, s.pins, ks, lnk, dram, mc, mtr, wq, chs, intg, keep, thm, s.pwr, fus,
      bst, cal⟩ := h.updPwr

theorem State.SameMode.ite {c : Prop} [Decidable c] (hs : s₀.SameMode s) (ht : s₀.SameMode t) : s₀.SameMode (if c then s else t) :=
  ite_has s₀.SameMode hs ht

theorem State.SameMode.ite_fst {α : Type} {c : Prop} [Decidable c] {x y : State × α} (hx : s₀.SameMode x.1) (hy : s₀.SameMode y.1) :
    s₀.SameMode (if c then x else y).1 := ite_has (fun x : State × α => s₀.SameMode x.1) hx hy

theorem State.SameMode.foldl {β : Type} {f : State → β → State} {l : List β} (h : s₀.SameMode s)
    (hf : ∀ t x, s₀.SameMode t → s₀.SameMode (f t x)) : s₀.SameMode (l.foldl f s) :=
  List.foldlRecOn l f h fun t ht x _ => hf t x ht

theorem State.SameMode.foldl_fst {α β : Type} {f : State × α → β → State × α} {l : List β} {p : State × α} (h : s₀.SameMode p.1)
    (hf : ∀ p x, s₀.SameMode p.1 → s₀.SameMode (f p x).1) : s₀.SameMode (l.foldl f p).1 :=
  List.foldlRecOn l f (motive := fun p => s₀.SameMode p.1) h fun p hp x _ => hf p x hp

theorem State.SameMode.post (h : s₀.SameMode s) {c v u d} : s₀.SameMode (s.post c v u d) := h.units (s.post_units _ _ _ _)
theorem State.SameMode.answer (h : s₀.SameMode s) {p k st w d} : s₀.SameMode (s.answer p k st w d) := h.units (s.answer_units _ _ _ _ _)
theorem State.SameMode.injectRaw (h : s₀.SameMode s) {k} : s₀.SameMode (s.injectRaw k) := h.units (s.injectRaw_units _)
theorem State.SameMode.dropRoute (h : s₀.SameMode s) {u k c} : s₀.SameMode (s.dropRoute u k c) := h.units (s.dropRoute_units _ _ _)
theorem State.SameMode.enqueue (h : s₀.SameMode s) {p k src} : s₀.SameMode (s.enqueue p k src) :=
  h.units (State.units_of (s.enqueue_offLink _ _ _))
theorem State.SameMode.takeRx (h : s₀.SameMode s) {p k} : s₀.SameMode (s.takeRx p k) := h.only (s.takeRx_only p k)

/-! ### Registers and parts -/

theorem State.SameMode.setReg (h : s₀.SameMode s) {addr v} : s₀.SameMode (s.setReg addr v) :=
  .upd h
theorem State.SameMode.setFld (h : s₀.SameMode s) {f v} : s₀.SameMode (s.setFld f v) := .setReg h
theorem State.SameMode.incFld (h : s₀.SameMode s) {f d} : s₀.SameMode (s.incFld f d) := .setFld h
theorem State.SameMode.maxFld (h : s₀.SameMode s) {f v} : s₀.SameMode (s.maxFld f v) := .setFld h
theorem State.SameMode.setReg64 (h : s₀.SameMode s) {lo v} : s₀.SameMode (s.setReg64 lo v) := .setReg (.setReg h)
theorem State.SameMode.add64 (h : s₀.SameMode s) {lo d} : s₀.SameMode (s.add64 lo d) := .setReg64 h
theorem State.SameMode.bump (h : s₀.SameMode s) : s₀.SameMode s.bump := .upd h
theorem State.SameMode.modTgt (h : s₀.SameMode s) {t f} : s₀.SameMode (s.modTgt t f) := .upd h
theorem State.SameMode.poisonGran (h : s₀.SameMode s) {g} : s₀.SameMode (s.poisonGran g) :=
  .upd h
theorem State.SameMode.putGran (h : s₀.SameMode s) {g bs} : s₀.SameMode (s.putGran g bs) :=
  .upd h
theorem State.SameMode.putMasked (h : s₀.SameMode s) {g mask bs} : s₀.SameMode (s.putMasked g mask bs) :=
  .upd h
theorem State.SameMode.modCourse (h : s₀.SameMode s) {c f} : s₀.SameMode (s.modCourse c f) := .upd h
theorem State.SameMode.modKeep (h : s₀.SameMode s) {f} : s₀.SameMode (s.modKeep f) := .upd h
theorem State.SameMode.markDirty (h : s₀.SameMode s) {page} : s₀.SameMode (s.markDirty page) := .modKeep h

/-! ### Reads of granules (R301-R313) -/

theorem State.SameMode.fillTests (h : s₀.SameMode s) : s₀.SameMode s.fillTests := .upd h

theorem State.SameMode.requestTest (h : s₀.SameMode s) {kind target} : s₀.SameMode (s.requestTest kind target) := by
  unfold State.requestTest
  extract_lets s1 _ _
  have h1 : s₀.SameMode s1 := .foldl h fun _ _ ht => .ite (.setFld ht) ht
  exact .ite h1 (.post (.fillTests (.upd h1)))

theorem State.SameMode.corrected (h : s₀.SameMode s) {g master syms scrub} : s₀.SameMode (s.corrected g master syms scrub) := by
  unfold State.corrected
  extract_lets _ s1 s2 _ s3 s4 s5 _
  have h1 : s₀.SameMode s1 := .incFld (.add64 h)
  have h2 : s₀.SameMode s2 := .incFld h1
  have h3 : s₀.SameMode s3 := by
    unfold s3
    split
    · exact .setFld (.setFld (.incFld h1))
    · split
      · exact .setReg (.setReg (.setFld (.setFld (.setFld (.setFld (.setFld (.setFld (.setFld (.setReg h1)))))))))
      · exact .ite h2 (.post (.upd h2))
  have h4 : s₀.SameMode s4 := by
    unfold s4
    split
    · exact .ite (.requestTest h3) h3
    · exact h3
  have h5 : s₀.SameMode s5 := .ite (.foldl (.requestTest h4) fun _ _ ht => .ite (.requestTest ht) ht) h4
  exact .foldl h5 fun _ _ ht => .ite (.requestTest ht) ht

theorem State.SameMode.noteUe (h : s₀.SameMode s) {g master misdir poisoned recovered} :
    s₀.SameMode (s.noteUe g master misdir poisoned recovered) :=
  .setReg (.setReg h)

theorem State.SameMode.poisonUe (h : s₀.SameMode s) {g} : s₀.SameMode (s.poisonUe g) :=
  .post (.incFld (.poisonGran (.ite h (.markDirty h))))
theorem State.SameMode.postRecovered (h : s₀.SameMode s) {g} : s₀.SameMode (s.postRecovered g) :=
  .ite (.post (.upd h)) (.upd h)
theorem State.SameMode.ueCounted (h : s₀.SameMode s) {g named} : s₀.SameMode (s.ueCounted g named) :=
  .foldl (.requestTest (.incFld (.incFld h))) fun _ _ ht => .ite (.requestTest ht) ht

theorem State.SameMode.uncorrectable (h : s₀.SameMode s) {g master named misdir clean} :
    s₀.SameMode (s.uncorrectable g master named misdir clean).1 := by
  unfold State.uncorrectable
  extract_lets s1 _
  have h1 : s₀.SameMode s1 := .ueCounted h
  exact .ite_fst (.noteUe h1) (.ite_fst (.noteUe (.ite h1 (.upd h1))) (.noteUe (.poisonUe h1)))

theorem State.SameMode.readGran (h : s₀.SameMode s) {obs g master scrub clean} :
    s₀.SameMode (s.readGran obs g master scrub clean).1 := by
  unfold State.readGran
  extract_lets l o r s1 s2 _
  have h1 : s₀.SameMode s1 := .incFld (.incFld h)
  have h2 : s₀.SameMode s2 := .ite (.post (.incFld h)) h
  refine .ite_fst ?_ (.ite_fst (.uncorrectable h2) ?_)
  · clear_value r
    dsimp only
    split
    · exact .noteUe (.postRecovered (.incFld h1))
    · exact .noteUe (.post (.incFld h1))
  · clear_value s2 l o
    split
    · exact h2
    · exact .ite h2 (.corrected h2)
    · exact .uncorrectable (.bump h2)
    · exact .bump (.bump h2)

/-! ### Mortar and the channels (R147-R190) -/

theorem State.SameMode.modMaster (h : s₀.SameMode s) {m f} : s₀.SameMode (s.modMaster m f) := .upd h
theorem State.SameMode.zeroMeters (h : s₀.SameMode s) : s₀.SameMode s.zeroMeters :=
  .foldl h fun _ _ ht => .ite (.modMaster ht) ht
theorem State.SameMode.updateScale (h : s₀.SameMode s) : s₀.SameMode s.updateScale :=
  .ite (.zeroMeters h) (.ite (.post (.upd (.zeroMeters h))) (.post (.upd (.zeroMeters h))))
theorem State.SameMode.moved (h : s₀.SameMode s) {m bytes} : s₀.SameMode (s.moved m bytes) := .add64 (.modMaster h)
theorem State.SameMode.modChan (h : s₀.SameMode s) {c f} : s₀.SameMode (s.modChan c f) := .upd h
theorem State.SameMode.modPc (h : s₀.SameMode s) {c i f} : s₀.SameMode (s.modPc c i f) := .modChan h
theorem State.SameMode.modBank (h : s₀.SameMode s) {c i b f} : s₀.SameMode (s.modBank c i b f) := .modPc h
theorem State.SameMode.noteTrr (h : s₀.SameMode s) {c pc i row} : s₀.SameMode (s.noteTrr c pc i row) :=
  h.only (s.noteTrr_only _ _ _ _)
theorem State.SameMode.busyBg (h : s₀.SameMode s) {c g n} : s₀.SameMode (s.busyBg c g n) := .upd h
theorem State.SameMode.busyAll (h : s₀.SameMode s) {c n} : s₀.SameMode (s.busyAll c n) := .foldl h fun _ _ ht => .busyBg ht
theorem State.SameMode.issueTrr (h : s₀.SameMode s) {c pc i row} : s₀.SameMode (s.issueTrr c pc i row) :=
  .noteTrr (.setReg (.incFld (.busyBg (.modPc (.modBank (.upd h))))))
theorem State.SameMode.issueAct (h : s₀.SameMode s) {c pc i row} : s₀.SameMode (s.issueAct c pc i row) :=
  .add64 (.busyBg (.modPc (.modBank h)))
theorem State.SameMode.countGran (h : s₀.SameMode s) {write g} : s₀.SameMode (s.countGran write g) :=
  h.only (s.countGran_only _ _)
theorem State.SameMode.spend (h : s₀.SameMode s) {m c bytes} : s₀.SameMode (s.spend m c bytes) := .ite h (.modTgt h)
theorem State.SameMode.issue (h : s₀.SameMode s) {p k wasDirty} : s₀.SameMode (s.issue p k wasDirty) :=
  .foldl (.modMaster (.upd h)) fun _ _ ht => .modTgt ht
theorem State.SameMode.follow (h : s₀.SameMode s) {m a} : s₀.SameMode (s.follow m a) :=
  .foldl (.modMaster (.upd h)) fun _ _ ht => .modTgt ht

theorem State.SameMode.serve (h : s₀.SameMode s) {m n} : s₀.SameMode (s.serve m n) := by
  induction n generalizing s with
  | zero => exact h
  | succ n ih =>
    unfold State.serve
    split
    · exact h
    · exact .ite h (ih (.follow (.modMaster h)))

theorem State.SameMode.serveAll (h : s₀.SameMode s) {m} : s₀.SameMode (s.serveAll m) := .serve h
theorem State.SameMode.ask (h : s₀.SameMode s) {m op w us} : s₀.SameMode (s.ask m op w us) := h.only (s.ask_only _ _ _ _)
theorem State.SameMode.reservedMoves (h : s₀.SameMode s) {bytes} : s₀.SameMode (s.reservedMoves bytes) :=
  .foldl h fun _ _ ht => .ask ht

theorem State.SameMode.workBack (h : s₀.SameMode s) {w n} : s₀.SameMode (s.workBack w n) := by
  unfold State.workBack
  split
  · exact h
  · extract_lets s1 _ s2 s3
    have h1 : s₀.SameMode s1 := .maxFld (.modMaster h)
    have h2 : s₀.SameMode s2 := .upd h1
    have h3 : s₀.SameMode s3 := by
      unfold s3
      refine .ite (.upd h1) ?_
      split
      · exact .ask h2
      · exact .ask h2
      · exact .ask h2
      · exact h2
    exact .serveAll h3

theorem State.SameMode.overtake (h : s₀.SameMode s) {g mask bs} : s₀.SameMode (s.overtake g mask bs) := .modBank h
theorem State.SameMode.touchStart (h : s₀.SameMode s) {page} : s₀.SameMode (s.touchStart page) := h.only (s.touchStart_only _)

/-! ### Requests to this stack (R83-R87, R169) -/

theorem State.SameMode.readGrans (h : s₀.SameMode s) {m obs gs} : s₀.SameMode (s.readGrans m obs gs).1 := by
  induction gs generalizing s with
  | nil => exact h
  | cons g gs ih =>
    unfold State.readGrans
    extract_lets r rest
    have hrest : s₀.SameMode rest.1 := ih (.readGran (.countGran h))
    split <;> exact hrest

theorem State.SameMode.doRead (h : s₀.SameMode s) {m k obs} : s₀.SameMode (s.doRead m k obs).1 :=
  .ite_fst (.readGrans h) (.ite_fst (.readGrans h) (.readGrans h))

theorem State.SameMode.writeGran (h : s₀.SameMode s) {m obs wasDirty g mask bs} :
    s₀.SameMode (s.writeGran m obs wasDirty g mask bs).1 := by
  unfold State.writeGran
  extract_lets s1
  have h1 : s₀.SameMode s1.1 := .readGran (.countGran h)
  refine .ite_fst h (.ite_fst h (.ite_fst (.countGran (.putGran h)) ?_))
  split
  · exact .countGran (.putMasked h1)
  · exact h1
  · exact h1

theorem State.SameMode.writeGrans (h : s₀.SameMode s) {m k obs d gs} : s₀.SameMode (s.writeGrans m k obs d gs).1 := by
  induction gs generalizing s with
  | nil => exact h
  | cons g gs ih => exact ih (.writeGran h)

theorem State.SameMode.doWrite (h : s₀.SameMode s) {m k obs wasDirty} : s₀.SameMode (s.doWrite m k obs wasDirty).1 :=
  .ite_fst (.writeGrans h) (.writeGrans h)

theorem State.SameMode.doAtomic (h : s₀.SameMode s) {m k obs wasDirty} : s₀.SameMode (s.doAtomic m k obs wasDirty).1 := by
  unfold State.doAtomic
  extract_lets _ _ _ _ s1
  have h1 : s₀.SameMode s1.1 := .readGran (.countGran h)
  split
  · exact h1
  · exact h1
  · exact .ite_fst h1 (.ite (.putMasked h1) (.countGran (.putMasked h1)))

theorem State.SameMode.doReq (h : s₀.SameMode s) {m k obs wasDirty} : s₀.SameMode (s.doReq m k obs wasDirty).1 :=
  .ite_fst (.doRead h) (.ite_fst (.doWrite h) (.doAtomic h))

theorem State.SameMode.unitReturn (h : s₀.SameMode s) {u data} : s₀.SameMode (s.unitReturn u data) := by
  unfold State.unitReturn
  split
  · exact .workBack h
  · split
    · exact h
    · extract_lets s1 s2 _ _ s3 _ _
      have h1 : s₀.SameMode s1 := .modMaster h
      have h2 : s₀.SameMode s2 := .maxFld h1
      have h3 : s₀.SameMode s3 := .upd h2
      exact .ite (.upd h2) (.ite (.answer h3) (.ite (.ite (.answer h3) (.answer h3)) (.ite (.answer h3) (.answer h3))))

/-! ### Rows, refreshes and columns (R147-R166) -/

theorem State.SameMode.coverRows (h : s₀.SameMode s) {c pc i} : s₀.SameMode (s.coverRows c pc i) :=
  .modBank (.foldl h fun _ _ ht => .upd ht)

theorem State.SameMode.switchLands (h : s₀.SameMode s) {r} : s₀.SameMode (s.switchLands r) := by
  unfold State.switchLands
  extract_lets _ _ _ s1 _ s2 _ s3
  have h1 : s₀.SameMode s1 := .upd h
  have h2 : s₀.SameMode s2 := .post h1
  have h3 : s₀.SameMode s3 := .ite (.post h2) h2
  exact .ite (.post h1) (.ite (.ite (.updateScale (.post h3)) h3) (.updateScale (.post h1)))

theorem State.SameMode.issueRefAb (h : s₀.SameMode s) {c pc} : s₀.SameMode (s.issueRefAb c pc) :=
  .incFld (.modPc (.busyAll (.foldl h fun _ _ ht => .coverRows ht)))
theorem State.SameMode.pagePolicy (h : s₀.SameMode s) {c pc i} : s₀.SameMode (s.pagePolicy c pc i) :=
  h.only (s.pagePolicy_only _ _ _)
theorem State.SameMode.colMoves (h : s₀.SameMode s) {c pc i w key} : s₀.SameMode (s.colMoves c pc i w key) :=
  .modPc (.modBank (.add64 h))

theorem State.SameMode.applyTracked (h : s₀.SameMode s) {c} : s₀.SameMode (s.applyTracked c) := by
  unfold State.applyTracked
  extract_lets s1 s2 _
  have h1 : s₀.SameMode s1 := by
    unfold s1
    split
    · exact .setFld h
    · exact h
  have h2 : s₀.SameMode s2 := by
    unfold s2
    split
    · exact .setReg h1
    · exact h1
  exact .upd h2

theorem State.SameMode.applyDly (h : s₀.SameMode s) {c pc} : s₀.SameMode (s.applyDly c pc) := by
  unfold State.applyDly
  extract_lets s1 _ _ _ s2
  have h1 : s₀.SameMode s1 := .foldl h fun _ _ ht => .switchLands ht
  have h2 : s₀.SameMode s2 := .foldl h1 fun _ _ ht => .ite (.upd ht) ht
  exact .ite (.modPc h1) (.applyTracked (.modPc h2))

theorem State.SameMode.noteMisses (h : s₀.SameMode s) {c ms} : s₀.SameMode (s.noteMisses c ms) := by
  unfold State.noteMisses
  extract_lets s1 _ _ _ s2
  have h1 : s₀.SameMode s1 := .foldl h fun _ _ ht => .incFld ht
  have h2 : s₀.SameMode s2 := .modChan h1
  exact .ite (.post (.modChan h2)) h2

theorem State.SameMode.setMode (h : s₀.SameMode s) {c pc mode} : s₀.SameMode (s.setMode c pc mode) :=
  .ite h (.ite (.modPc h) (.incFld (.modPc h)))
theorem State.SameMode.slotAt (h : s₀.SameMode s) {c pc t} : s₀.SameMode (s.slotAt c pc t) := h.only (s.slotAt_only _ _ _)
theorem State.SameMode.slotEnds (h : s₀.SameMode s) {c pc} : s₀.SameMode (s.slotEnds c pc) := h.only (s.slotEnds_only _ _)
theorem State.SameMode.preGo (h : s₀.SameMode s) {c pc i} : s₀.SameMode (s.preGo c pc i) := h.only (s.preGo_only _ _ _)

theorem State.SameMode.trrGo (h : s₀.SameMode s) {c pc i} : s₀.SameMode (s.trrGo c pc i) := by
  unfold State.trrGo
  split
  · exact h
  · exact .slotEnds (.issueTrr (.slotAt h))

theorem State.SameMode.refAbGo (h : s₀.SameMode s) {c pc} : s₀.SameMode (s.refAbGo c pc) := by
  unfold State.refAbGo
  extract_lets s1 _
  have h1 : s₀.SameMode s1 := .slotEnds (.issueRefAb (.slotAt h))
  exact .ite (.applyDly (.slotAt h1)) h1

theorem State.SameMode.closeAll (h : s₀.SameMode s) {c} : s₀.SameMode (s.closeAll c) :=
  .foldl h fun _ _ ht => .foldl ht fun _ _ hu => .trrGo (.preGo hu)
theorem State.SameMode.enterSref (h : s₀.SameMode s) {c} : s₀.SameMode (s.enterSref c) :=
  .incFld (.modChan (.foldl (.closeAll h) fun _ _ ht => .foldl ht fun _ _ hu => .refAbGo hu))
theorem State.SameMode.drained (h : s₀.SameMode s) {c} : s₀.SameMode (s.drained c) := .ite (.enterSref h) h
theorem State.SameMode.openRow (h : s₀.SameMode s) {c pc i row} : s₀.SameMode (s.openRow c pc i row) :=
  .ite h (.slotEnds (.issueAct (.slotAt (.trrGo (.preGo (.ite (.modBank h) h))))))
theorem State.SameMode.colGo (h : s₀.SameMode s) {c pc i w key} : s₀.SameMode (s.colGo c pc i w key) :=
  .slotEnds (.colMoves (.slotAt h))

/-! ### Admission (R173) -/

theorem State.SameMode.unitPasses (h : s₀.SameMode s) {m w g n} : s₀.SameMode (s.unitPasses m w g n) := by
  unfold State.unitPasses
  extract_lets _ _ _ s1 s2 s3 s4 _ s5
  have h1 : s₀.SameMode s1 := .maxFld (.modChan (.modTgt h))
  have h2 : s₀.SameMode s2 := .ite (.modBank h1) h1
  have h3 : s₀.SameMode s3 := .openRow (.setMode h2)
  have h4 : s₀.SameMode s4 := .foldl h3 fun _ _ ht => .colGo ht
  have h5 : s₀.SameMode s5 := .ite (.noteMisses h4) h4
  exact .spend (.modBank (.pagePolicy h5))

theorem State.SameMode.passes (h : s₀.SameMode s) {p k} : s₀.SameMode (s.passes p k) :=
  .moved (.foldl h fun _ _ ht => .unitPasses ht)
theorem State.SameMode.admitWrite (h : s₀.SameMode s) {k} : s₀.SameMode (s.admitWrite k).1 := h.only (s.admitWrite_only _)

theorem State.SameMode.admitReq (h : s₀.SameMode s) {p k obs} : s₀.SameMode (s.admitReq p k obs) := by
  unfold State.admitReq
  extract_lets s1 s2
  have h1 : s₀.SameMode s1.1 := .admitWrite h
  have h2 : s₀.SameMode s2.1 := .doReq h1
  refine .ite ?_ (.issue h1)
  split
  · exact .issue h2
  · exact .answer (.passes h2)

theorem State.SameMode.park (h : s₀.SameMode s) {p k} : s₀.SameMode (s.park p k) := .modMaster h
theorem State.SameMode.selfReq (h : s₀.SameMode s) {m k} : s₀.SameMode (s.selfReq m k) :=
  .ite (.answer h) (.ite (.answer h) (.ite (.answer h) (.ite (.answer h) (.ite (.park h) (.admitReq h)))))

theorem State.SameMode.injectReq (h : s₀.SameMode s) {m k} : s₀.SameMode (s.injectReq m k) := by
  unfold State.injectReq
  refine .ite ?_ h
  split
  · exact .selfReq h
  · exact .enqueue h
  · exact .dropRoute (.injectRaw h)

theorem State.SameMode.sendReq (h : s₀.SameMode s) {m opc dest addr len mgt masked payload off o} :
    s₀.SameMode (s.sendReq m opc dest addr len mgt masked payload off o) :=
  .injectReq (.upd h)

/-! ### Completions (R111, R130-R134) -/

theorem State.SameMode.modQueue (h : s₀.SameMode s) {q f} : s₀.SameMode (s.modQueue q f) := .upd h
theorem State.SameMode.settle (h : s₀.SameMode s) {q} : s₀.SameMode (s.settle q) := .ite (.modQueue h) h
theorem State.SameMode.sendCplMsg (h : s₀.SameMode s) {q} : s₀.SameMode (s.sendCplMsg q) := .injectRaw (.modQueue h)

theorem State.SameMode.writeEntry (h : s₀.SameMode s) {q cid status opc result now} :
    s₀.SameMode (s.writeEntry q cid status opc result now) := by
  unfold State.writeEntry
  extract_lets _ _ _ _ _ _ _ _ s1 s2 s3
  have h1 : s₀.SameMode s1 := .modQueue h
  have h2 : s₀.SameMode s2 := .sendReq h1
  have h3 : s₀.SameMode s3 := .modQueue h2
  exact .ite (.ite (.sendCplMsg h3) h3) h2

theorem State.SameMode.complete (h : s₀.SameMode s) {o status result} : s₀.SameMode (s.complete o status result) :=
  .ite h (.settle (.ite (.writeEntry (.modQueue h)) (.modQueue h)))

/-! ### Copies, arming and fences (R249, R262, R270) -/

theorem State.SameMode.takeSpare (h : s₀.SameMode s) {k data} : s₀.SameMode (s.takeSpare k data) :=
  .ite (.post (.post (.modCourse h))) (.post (.modCourse h))
theorem State.SameMode.retireSlot (h : s₀.SameMode s) {k slot} : s₀.SameMode (s.retireSlot k slot) :=
  .takeSpare (.modCourse h)
theorem State.SameMode.cancelCopy (h : s₀.SameMode s) {x1} : s₀.SameMode (s.cancelCopy x1) := .modKeep (.modCourse h)
theorem State.SameMode.dropCopy (h : s₀.SameMode s) {x1 ok} : s₀.SameMode (s.dropCopy x1 ok) :=
  .ite (.retireSlot (.modKeep (.modCourse h))) (.modKeep (.modCourse h))
theorem State.SameMode.dropCopies (h : s₀.SameMode s) {p} : s₀.SameMode (s.dropCopies p) :=
  .foldl h fun _ _ ht => .ite (.cancelCopy ht) (.dropCopy ht)
theorem State.SameMode.armEnds (h : s₀.SameMode s) {status} : s₀.SameMode (s.armEnds status) :=
  .foldl (.modKeep h) fun _ _ ht => .complete ht
theorem State.SameMode.disarm (h : s₀.SameMode s) {cause sev status} : s₀.SameMode (s.disarm cause sev status) :=
  .ite h (.armEnds (.post (.modKeep h)))

theorem State.SameMode.ckptEnds (h : s₀.SameMode s) {status result} : s₀.SameMode (s.ckptEnds status result) := by
  unfold State.ckptEnds
  extract_lets s1 _
  have h1 : s₀.SameMode s1 := .modKeep h
  split
  · exact h
  · exact .complete (.upd h1)

theorem State.SameMode.characEnds (h : s₀.SameMode s) {status result} : s₀.SameMode (s.characEnds status result) := by
  unfold State.characEnds
  extract_lets s1 _
  have h1 : s₀.SameMode s1 := .modKeep h
  split
  · exact h
  · exact .complete (.upd h1)

theorem State.SameMode.ckptSealEnds (h : s₀.SameMode s) {status} : s₀.SameMode (s.ckptSealEnds status) :=
  .foldl (.modKeep h) fun _ _ ht => .complete (.upd ht)
theorem State.SameMode.moverOpsEnd (h : s₀.SameMode s) {status} : s₀.SameMode (s.moverOpsEnd status) :=
  .characEnds (.ckptSealEnds (.ckptEnds h))
theorem State.SameMode.fenceCourse (h : s₀.SameMode s) {k} : s₀.SameMode (s.fenceCourse k) :=
  .ite h (.moverOpsEnd (.disarm (.post (.post (.modKeep (.modCourse (.dropCopies h)))))))

/-! ### Repairs (R316-R319) -/

theorem State.SameMode.setPend (h : s₀.SameMode s) {ws} : s₀.SameMode (s.setPend ws) := .foldl h fun _ _ ht => .setReg ht
theorem State.SameMode.pgStart (h : s₀.SameMode s) {c} : s₀.SameMode (s.pgStart c) := .upd (.setFld (.setFld h))

theorem State.SameMode.fuseRecord (h : s₀.SameMode s) : s₀.SameMode s.fuseRecord := by
  unfold State.fuseRecord
  refine .ite h ?_
  split
  · exact .pgStart h
  · exact h

theorem State.SameMode.record (h : s₀.SameMode s) {word spare live} : s₀.SameMode (s.record word spare live) :=
  .ite (.fuseRecord (.setPend (.upd h))) (.upd h)
theorem State.SameMode.recordPin (h : s₀.SameMode s) {c word now} : s₀.SameMode (s.recordPin c word now) :=
  .ite (.record h) (.foldl (.record h) fun _ _ ht => .switchLands ht)

theorem State.SameMode.failPin0 (h : s₀.SameMode s) {c pin now} : s₀.SameMode (s.failPin0 c pin now).1 := by
  unfold State.failPin0
  split
  · exact .recordPin h
  · exact .ite_fst h (.recordPin h)

theorem State.SameMode.failPin (h : s₀.SameMode s) {c pin now} : s₀.SameMode (s.failPin c pin now).1 := by
  unfold State.failPin
  refine .ite_fst ?_ (.failPin0 h)
  split
  · exact .failPin0 h
  · exact .ite_fst h (.record h)

theorem State.SameMode.failKeep0 (h : s₀.SameMode s) {k tsv} : s₀.SameMode (s.failKeep0 k tsv).1 := by
  unfold State.failKeep0
  extract_lets s1
  have h1 : s₀.SameMode s1 := .record h
  split
  · exact .post (.record h)
  · exact .ite_fst h (.ite_fst (.fenceCourse h1) h1)

theorem State.SameMode.failKeep (h : s₀.SameMode s) {k tsv} : s₀.SameMode (s.failKeep k tsv).1 := by
  unfold State.failKeep
  refine .ite_fst ?_ (.failKeep0 h)
  split
  · exact .failKeep0 h
  · exact .ite_fst h (.record h)

theorem State.SameMode.failRow (h : s₀.SameMode s) {t} : s₀.SameMode (s.failRow t).1 := by
  unfold State.failRow
  dsimp only
  split
  · exact .upd h
  · exact .ite_fst h (.post (.record h))

theorem State.SameMode.failTsv (h : s₀.SameMode s) {t now} : s₀.SameMode (s.failTsv t now).1 :=
  .ite_fst (.failPin h) (.failKeep h)
theorem State.SameMode.repairWaits (h : s₀.SameMode s) {t} : s₀.SameMode (s.repairWaits t) := .upd h
theorem State.SameMode.repairTsv (h : s₀.SameMode s) {t now} : s₀.SameMode (s.repairTsv t now).1 :=
  .ite_fst (.repairWaits h) (.failTsv h)
theorem State.SameMode.failTarget (h : s₀.SameMode s) {t} : s₀.SameMode (s.failTarget t).1 :=
  .ite_fst (.failRow h) (.ite_fst (.repairWaits h) (.repairTsv h))
theorem State.SameMode.doTodo (h : s₀.SameMode s) {u} : s₀.SameMode (s.doTodo u) :=
  .ite h (.foldl (.upd h) fun _ _ ht => .failTsv ht)
theorem State.SameMode.freeCovered (h : s₀.SameMode s) {t} : s₀.SameMode (s.freeCovered t) :=
  .ite h (.upd (.foldl h fun _ _ ht => .setFld ht))

/-! ### Visits, slices and the Keystone's writes (R354, R373) -/

theorem State.SameMode.rowShut (h : s₀.SameMode s) {c pc i} : s₀.SameMode (s.rowShut c pc i) := .trrGo (.preGo h)
theorem State.SameMode.endHold (h : s₀.SameMode s) {c} : s₀.SameMode (s.endHold c) := .drained (.modChan h)

theorem State.SameMode.noteVisit (h : s₀.SameMode s) {u result pin width centre} :
    s₀.SameMode (s.noteVisit u result pin width centre) := by
  unfold State.noteVisit
  dsimp only
  split <;> exact .setReg h

theorem State.SameMode.calRise (h : s₀.SameMode s) : s₀.SameMode s.calRise := .setReg64 (.incFld (.upd h))
theorem State.SameMode.seenPin (h : s₀.SameMode s) {u pin} : s₀.SameMode (s.seenPin u pin) :=
  .ite (.calRise (.upd h)) (.upd h)
theorem State.SameMode.endVisit (h : s₀.SameMode s) {v} : s₀.SameMode (s.endVisit v) := .doTodo (.upd h)
theorem State.SameMode.abandonVisits (h : s₀.SameMode s) {p} : s₀.SameMode (s.abandonVisits p) :=
  .foldl h fun _ _ ht => .endVisit (.noteVisit ht)
theorem State.SameMode.ksEnds (h : s₀.SameMode s) {o status result} : s₀.SameMode (s.ksEnds o status result) :=
  .complete (.ite (.upd h) h)
theorem State.SameMode.ksMoves (h : s₀.SameMode s) {op g} : s₀.SameMode (s.ksMoves op g) := .ask h

theorem State.SameMode.ksGran (h : s₀.SameMode s) {g bs} : s₀.SameMode (s.ksGran g bs).1 := by
  unfold State.ksGran
  extract_lets _ s1 s2
  have h1 : s₀.SameMode s1 := .ksMoves h
  have h2 : s₀.SameMode s2 := .markDirty (.overtake h1)
  exact .ite_fst h1 (.ite (.putGran h2) (.ite h2 (.putMasked h2)))

theorem State.SameMode.ksPut {r : State × KsWait} (h : s₀.SameMode r.1) {g off bs} :
    s₀.SameMode (State.ksPut r g off bs).1 :=
  .ksGran h

theorem State.SameMode.putFwAt (h : s₀.SameMode s) {k x2 f} : s₀.SameMode (s.putFwAt k x2 f) :=
  .ite h (.reservedMoves (.upd h))
theorem State.SameMode.putFw (h : s₀.SameMode s) {f} : s₀.SameMode (s.putFw f) := .putFwAt (.putFwAt h)
theorem State.SameMode.fwEnd (h : s₀.SameMode s) {o r} : s₀.SameMode (s.fwEnd o r) :=
  .ite (.ksEnds (.putFw h)) (.ite (.ksEnds h) (.ite (.ksEnds h) (.ite (.ksEnds (.putFw h)) (.ksEnds (.putFw h)))))

theorem State.SameMode.ksSettle (h : s₀.SameMode s) {w} : s₀.SameMode (s.ksSettle w) := by
  unfold State.ksSettle
  extract_lets _ s1
  have h1 : s₀.SameMode s1 := .upd h
  refine .ite ?_ (.upd h)
  split
  · exact .fwEnd h1
  · exact .ksEnds h1
  · exact .ksEnds h1

theorem State.SameMode.ksSend (h : s₀.SameMode s) {o b off bs} : s₀.SameMode (s.ksSend o b off bs) :=
  .ite (.sendReq h) (.sendReq h)

theorem State.SameMode.ksWrite (h : s₀.SameMode s) {o b data status result hdr each} :
    s₀.SameMode (s.ksWrite o b data status result hdr each) := by
  unfold State.ksWrite
  extract_lets _ _ s1 _ s2
  have h1 : s₀.SameMode s1 := .foldl h fun _ _ ht => .ksSend ht
  have h2 : s₀.SameMode s2.1 := .foldl_fst h fun _ _ ht => .ite_fst ht (.ite_fst (.ite (.touchStart ht) ht) (.ksPut ht))
  exact .ite (.ksSettle h1) (.ksSettle h2)

theorem State.SameMode.queueRetest (h : s₀.SameMode s) {t} : s₀.SameMode (s.queueRetest t) := by
  unfold State.queueRetest
  refine .ite h (.ite ?_ (.upd h))
  split <;> exact .upd h

theorem State.SameMode.noteInc (h : s₀.SameMode s) {t result} : s₀.SameMode (s.noteInc t result) :=
  .ite (.queueRetest (.upd h)) (.upd h)
theorem State.SameMode.sliceCol (h : s₀.SameMode s) {l i write} : s₀.SameMode (s.sliceCol l i write) := .countGran (.colGo h)

theorem State.SameMode.rowEnds (h : s₀.SameMode s) {t steps restored} : s₀.SameMode (s.rowEnds t steps restored) := by
  unfold State.rowEnds
  extract_lets _ s1 s2
  have h1 : s₀.SameMode s1 := .foldl h fun _ _ ht => .sliceCol ht
  have h2 : s₀.SameMode s2 := .ite (.foldl h1 fun _ _ ht => .sliceCol ht) h
  exact .ite h (.endHold (.rowShut h2))

theorem State.SameMode.sliceVisitEnds (h : s₀.SameMode s) {t result} : s₀.SameMode (s.sliceVisitEnds t result) := by
  unfold State.sliceVisitEnds
  split
  · exact h
  · split
    · exact h
    · exact .ite (.endVisit (.seenPin (.noteVisit h))) h

theorem State.SameMode.sliceReport {act : State → State × Nat} (h : s₀.SameMode s)
    (hact : ∀ t, s₀.SameMode t → s₀.SameMode (act t).1) {c result cause steps final extra} :
    s₀.SameMode (s.sliceReport c result cause steps final extra act) := by
  unfold State.sliceReport
  extract_lets _ s1 s2 s3 s4 s5 s6 s7 _ _ _ s8
  have h1 : s₀.SameMode s1 := .upd h
  have h2 : s₀.SameMode s2 := .ite (.rowEnds h1) h1
  have h3 : s₀.SameMode s3 := .ite (.incFld h2) (.ite (.post (.incFld h2)) (.post (.incFld h2)))
  have h4 : s₀.SameMode s4.1 := hact _ h3
  have h5 : s₀.SameMode s5 := .sliceVisitEnds h4
  have h6 : s₀.SameMode s6 := .noteInc h5
  have h7 : s₀.SameMode s7 := .ite (.freeCovered h6) h6
  have h8 : s₀.SameMode s8 := .upd h7
  split
  · exact h8
  · exact .ksWrite h8

theorem State.SameMode.sliceRemedy (h : s₀.SameMode s) {t result} : s₀.SameMode (State.sliceRemedy t result s).1 :=
  .ite_fst (.failTarget h) h

theorem State.SameMode.cutSlice (h : s₀.SameMode s) {cause} : s₀.SameMode (s.cutSlice cause) := by
  unfold State.cutSlice
  extract_lets s1 _ _
  have h1 : s₀.SameMode s1 := .bump h
  split
  · exact h
  · exact .ite (.sliceReport (.bump h1) fun _ ht => .sliceRemedy ht) (.upd h)

theorem State.SameMode.stopSlicer (h : s₀.SameMode s) {cause} : s₀.SameMode (s.stopSlicer cause) := .upd (.cutSlice (.upd h))

/-! ### What a save cuts short (R103, R284) -/

theorem State.SameMode.withdraw (h : s₀.SameMode s) {c p status} : s₀.SameMode (s.withdraw c p status).1 :=
  .foldl (.upd (.modChan (.modTgt h))) fun _ _ ht => .unitReturn ht
theorem State.SameMode.deferReset (h : s₀.SameMode s) {d} : s₀.SameMode (s.deferReset d) :=
  .ite (.ite h (.updPwr h)) (.post (.ite h (.updPwr h)))
theorem State.SameMode.recordReset (h : s₀.SameMode s) {reach src ep mask} : s₀.SameMode (s.recordReset reach src ep mask) :=
  .post (.setReg64 (.setReg (.setReg h)))

theorem State.SameMode.refuseWaiting (h : s₀.SameMode s) : s₀.SameMode s.refuseWaiting := by
  unfold State.refuseWaiting
  extract_lets _ s1 _ s2 s3 _
  have h1 : s₀.SameMode s1 := .foldl h fun _ _ ht => .withdraw ht
  have h2 : s₀.SameMode s2 := .foldl h1 fun _ _ ht => .answer ht
  have h3 : s₀.SameMode s3 := .foldl h2 fun _ _ ht => .answer (.takeRx ht)
  exact .upd h3

theorem State.SameMode.intervalCut (h : s₀.SameMode s) : s₀.SameMode s.intervalCut :=
  .ite (.foldl (.updPwr (.ite (.recordReset h) h)) fun _ _ ht => .deferReset ht) h
end

end Sys2Proof.Machine

/-! SUPPORT. A save (R256-R260): channels that return for it, what no longer waits once it has started, and its steps. -/

namespace Sys2Proof.Machine

/-! ### Channels that return (R163, R256) -/

/-- One round of the loop in which channels that rest return. -/
def State.wake (s : State) (c : Nat) : State :=
  if s.chanFenced c then s
  else match (s.chan c).st with
    | .selfref => s.exitSref c
    | .down => s.modChan c fun (h : Chan) => { h with st := .training }
    | _ => s

theorem State.wakeChannels_eq (s : State) : s.wakeChannels = (List.range 32).foldl State.wake s := rfl

theorem State.coverAll_only (s : State) (c : Nat) (n : List Nat) : s.only (s.coverAll c n) [.mc] fun _ => False := by
  unfold State.coverAll State.busyAll
  dsimp only
  exact State.only_trans (s.setActs_only _) (State.only_foldl _ _ _ fun s g _ => s.busyBg_only _ _ _)

theorem State.coverAll_chan (s : State) (c : Nat) (n : List Nat) : (s.coverAll c n).mc.chans = s.mc.chans := by
  unfold State.coverAll State.busyAll
  exact foldl_keeps (fun s : State => s.mc.chans) _ (fun s _ => s.busyBg_chans _ _ _) _ _

theorem State.exitSref_only (s : State) (c : Nat) : s.only (s.exitSref c) [.mc] fun r => r = MC_REFAB c :=
  State.only_trans (State.only_mono (State.only_trans (s.coverAll_only c _) (State.modChan_only _ _ _)) (fun _ h => h) fun _ h => h.elim)
    (State.only_mono (State.incFld_only _ _ _) (by simp) fun _ h => h)

/-- A channel that leaves self-refresh is active, and the others stay. -/
theorem State.exitSref_chan (s : State) (c j : Nat) : (s.exitSref c).chan j =
    ((s.coverAll c [1, 1]).modChan c fun h => { h with
      st := .active
      pcs := h.pcs.zipIdx.map fun x => { x.1 with
        sref := false, abUntil := x.1.now + 360 + 350, lastRef := x.1.now + 360
        dlyArmed := x.1.dlyPend || (s.coverAll c [1, 1]).switchWaits c x.2
        banks := x.1.banks.map fun b => { b with debt := 0, refRow := (b.refRow + 1) % 8192, burst := 0, row := none } } }).chan j := rfl

theorem State.modChan_chan_ne (s : State) {c j : Nat} (f : Chan → Chan) (h : j ≠ c) : (s.modChan c f).chan j = s.chan j := by
  by_cases hc : c < s.mc.chans.length
  · rw [s.chan_modChan c j f hc, if_neg h]
  · exact s.chan_modChan_out c j f (Nat.le_of_not_lt hc)

theorem State.wake_only (s : State) (c : Nat) : s.only (s.wake c) [.mc] fun r => r = MC_REFAB c := by
  unfold State.wake
  refine ite_has (s.only · _ _) (s.only_refl _ _) ?_
  split
  · exact s.exitSref_only c
  · exact State.only_mono (s.modChan_only _ _) (by simp) fun _ h => h.elim
  · exact s.only_refl _ _

theorem State.wake_chan_ne (s : State) {c j : Nat} (h : j ≠ c) : (s.wake c).chan j = s.chan j := by
  unfold State.wake
  refine ite_keeps (State.chan · j) rfl ?_
  split
  · rw [s.exitSref_chan, State.modChan_chan_ne _ _ h, State.chan, s.coverAll_chan, State.chan]
  · exact s.modChan_chan_ne _ h
  · rfl

/-- A channel in self-refresh that is not fenced returns at once. -/
theorem State.wake_active {s : State} {c : Nat} (h : (s.chan c).st = .selfref) (hf : s.chanFenced c = false) :
    ((s.wake c).chan c).st = .active := by
  have hlen : c < (s.coverAll c [1, 1]).mc.chans.length := by
    rw [s.coverAll_chan]
    by_contra hc
    simp [State.chan, List.getD_eq_getElem?_getD, List.getElem?_eq_none (Nat.le_of_not_lt hc)] at h
  simp only [State.wake, hf, h, Bool.false_eq_true, if_false]
  rw [s.exitSref_chan, State.chan_modChan _ _ _ _ hlen, if_pos rfl]

theorem State.wake_fenced (s : State) (c j : Nat) : (s.wake c).chanFenced j = s.chanFenced j := by
  have h : (s.wake c).intg = s.intg := State.only_part (s.wake_only c) .intg
  simp only [State.chanFenced, State.words, h]

theorem State.wakeChannels_only (s : State) : s.only s.wakeChannels [.mc] fun r => ∃ c < 32, r = MC_REFAB c :=
  State.only_foldl _ _ _ fun s c hc => State.only_mono (s.wake_only c) (fun _ h => h) fun _ h => ⟨c, List.mem_range.1 hc, h⟩

/-- A loop over the first channels has not reached the others. -/
theorem State.wakes_chan_ge (s : State) {k c : Nat} (h : k ≤ c) : ((List.range k).foldl State.wake s).chan c = s.chan c :=
  List.foldlRecOn (List.range k) State.wake (motive := fun t => t.chan c = s.chan c) rfl fun t ht m hm =>
    (t.wake_chan_ne (by have := List.mem_range.1 hm; omega)).trans ht

theorem State.wakes_active {s : State} {k c : Nat} (hc : c < k) (h : (s.chan c).st = .selfref) (hf : s.chanFenced c = false) :
    (((List.range k).foldl State.wake s).chan c).st = .active := by
  induction k with
  | zero => omega
  | succ k ih =>
    rw [List.range_succ, List.foldl_append, List.foldl_cons, List.foldl_nil]
    by_cases hk : c = k
    · subst hk
      have hfence : ((List.range c).foldl State.wake s).chanFenced c = false :=
        (foldl_keeps (State.chanFenced · c) State.wake (fun t m => t.wake_fenced m c) _ _).trans hf
      exact State.wake_active (by rw [s.wakes_chan_ge (Nat.le_refl c)]; exact h) hfence
    · rw [State.wake_chan_ne _ hk]
      exact ih (by omega)

theorem State.wakeChannels_active {s : State} {c : Nat} (hc : c < 32) (h : (s.chan c).st = .selfref) (hf : s.chanFenced c = false) :
    (s.wakeChannels.chan c).st = .active := by
  rw [State.wakeChannels_eq]
  exact State.wakes_active hc h hf

/-! ### What waits at the ports (R103, R188) -/

/-- No request waits at any port, and no access at those of M4 and M6. -/
def State.portsClear (s : State) : Prop :=
  (∀ m, (s.master m).req = [] ∧ (s.master m).mgt = []) ∧ (s.master 4).asks = [] ∧ (s.master 6).asks = []

theorem State.portsClear_of_masters {s t : State} (h : s.portsClear) (hm : t.mtr.masters = s.mtr.masters) : t.portsClear := by
  simpa only [State.portsClear, State.master, hm] using h

theorem State.portsClear_of_only {s t : State} {ps : List Part} {rs : Nat → Prop} (h : s.portsClear) (ho : s.only t ps rs)
    (hp : .mtr ∉ ps := by simp [wires]) : t.portsClear := by
  have hm : t.mtr = s.mtr := State.only_part ho .mtr hp
  exact State.portsClear_of_masters h (by rw [hm])

/-- An update of M7 that leaves what waits as requests. -/
theorem State.portsClear_modMaster {s : State} (h : s.portsClear) (f : Master → Master)
    (hf : ∀ x, (f x).req = x.req ∧ (f x).mgt = x.mgt) : (s.modMaster 7 f).portsClear := by
  obtain ⟨hreq, h4, h6⟩ := h
  refine ⟨fun m => ?_, ?_, ?_⟩
  · by_cases hm : m = 7
    · subst hm
      by_cases hl : 7 < s.mtr.masters.length
      · rw [State.master_modMaster_self hl]
        obtain ⟨hr, hg⟩ := hf (s.master 7)
        exact ⟨hr.trans (hreq 7).1, hg.trans (hreq 7).2⟩
      · rw [s.master_modMaster_out 7 7 f (Nat.le_of_not_lt hl)]
        exact hreq 7
    · rw [s.master_modMaster_ne f hm]
      exact hreq m
  · rw [s.master_modMaster_ne f (by decide)]; exact h4
  · rw [s.master_modMaster_ne f (by decide)]; exact h6

theorem State.portsClear_follow {s : State} (h : s.portsClear) (a : Ask) : (s.follow 7 a).portsClear := by
  obtain ⟨ws, hfollow⟩ := s.follow_eq 7 a
  have hset : (s.setWorks ws).portsClear := h
  have hport : ((s.setWorks ws).modMaster 7 fun x => { x with ost := x.ost + a.grans }).portsClear :=
    State.portsClear_modMaster hset _ fun _ => ⟨rfl, rfl⟩
  rw [hfollow]
  exact State.portsClear_of_masters hport (foldl_keeps (fun t : State => t.mtr.masters) (State.headerWaits 7 a) (fun _ _ => rfl) _ _)

theorem State.portsClear_serve {s : State} (h : s.portsClear) (n : Nat) : (s.serve 7 n).portsClear := by
  induction n generalizing s with
  | zero => exact h
  | succ n ih =>
    unfold State.serve
    split
    · exact h
    · next a rest _ =>
      have hport : (s.modMaster 7 fun x => { x with asks := rest }).portsClear := State.portsClear_modMaster h _ fun _ => ⟨rfl, rfl⟩
      exact ite_has State.portsClear h (ih (State.portsClear_follow hport a))

theorem State.portsClear_ask {s : State} (h : s.portsClear) (op : Nat) (w : Own) (us : List (Nat × Nat)) :
    (s.ask 7 op w us).portsClear := by
  have hport : (s.modMaster 7 fun x => { x with asks := x.asks ++ [{ own := w, op := op, units := us }] }).portsClear :=
    State.portsClear_modMaster h _ fun _ => ⟨rfl, rfl⟩
  exact State.portsClear_serve hport _

theorem State.portsClear_reserved {s : State} (h : s.portsClear) (f : Course → Course) : (s.writeReserved f).portsClear := by
  have hcopies : (s.writeCopies f).portsClear := by
    refine State.portsClear_of_only h (ps := [.keep]) (rs := fun _ => False) (State.only_foldl _ _ s fun t k _ => ?_)
    exact ite_has (t.only · _ _) (t.only_refl _ _) (t.modCourse_only _ _)
  refine List.foldlRecOn _ _ hcopies fun t ht k _ => ite_has State.portsClear ht ?_
  exact List.foldlRecOn _ _ ht fun u hu x _ => State.portsClear_ask hu _ _ _

theorem State.portsClear_writeRecord {s : State} (h : s.portsClear) (f : StartRec → StartRec) : (s.writeRecord f).portsClear := by
  have hpwr : ({ s with pwr := { s.pwr with record := s.recordWritten f } } : State).portsClear := h
  have hfld {u : State} (hu : u.portsClear) (g : Fld) (v : Nat) : (u.setFld g v).portsClear :=
    State.portsClear_of_only hu (u.setFld_only g v)
  unfold State.writeRecord
  exact hfld (hfld (hfld (State.portsClear_reserved hpwr _) _ _) _ _) _ _

/-- The state with nothing left to ask at the ports but what M5 and M7 have under way. -/
def State.portsEmptied (s : State) : State :=
  { s with mtr := { s.mtr with masters := s.mtr.masters.zipIdx.map fun x =>
      { x.1 with req := [], mgt := [], asks := if x.2 = 4 ∨ x.2 = 6 then [] else x.1.asks } } }

theorem State.refuseWaiting_empties (s : State) : ∃ t, s.refuseWaiting = State.portsEmptied t := ⟨_, rfl⟩

theorem State.refuseWaiting_portsClear (s : State) : s.refuseWaiting.portsClear := by
  have hmaster {ms : List Master} {f : Master × Nat → Master} (hf : ∀ x, (f x).req = [] ∧ (f x).mgt = []) (m : Nat) :
      ((ms.zipIdx.map f).getD m {}).req = [] ∧ ((ms.zipIdx.map f).getD m {}).mgt = [] := by
    rw [List.getD_eq_getElem?_getD, List.getElem?_map]
    cases ms.zipIdx[m]? with
    | none => exact ⟨rfl, rfl⟩
    | some x => exact hf x
  have hasks {ms : List Master} {f : Master × Nat → Master} {m : Nat} (hf : ∀ x, (f (x, m)).asks = []) :
      ((ms.zipIdx.map f).getD m {}).asks = [] := by
    rw [List.getD_eq_getElem?_getD, List.getElem?_map, List.getElem?_zipIdx]
    cases ms[m]? with
    | none => rfl
    | some x => simpa using hf x
  obtain ⟨t, h⟩ := s.refuseWaiting_empties
  rw [h]
  exact ⟨hmaster fun _ => ⟨rfl, rfl⟩, hasks fun _ => rfl, hasks fun _ => rfl⟩

/-! ### The start of a save (R103, R256) -/

theorem State.updateLintel_only (s : State) (ring : Nat) : s.only (s.updateLintel ring) wires fun r => inLtc r ∨ ringRegs ring r := by
  have hpost {t : State} (c v u d : Nat) : t.only (t.post c v u d) wires fun r => inLtc r ∨ ringRegs ring r :=
    State.only_mono (t.post_only _ _ _ _) (fun _ h => h) fun _ h => .inl h
  have hclosed : s.only (s.ringClosed ring) wires fun r => inLtc r ∨ ringRegs ring r :=
    State.only_mono (s.ringClosed_only ring) (by simp [wires]) fun _ h => .inr h
  have hopened : s.only (s.ringOpened ring) wires fun r => inLtc r ∨ ringRegs ring r :=
    State.only_mono (s.ringOpened_only ring) (by simp [wires]) fun _ h => .inr h
  rw [State.updateLintel_eq, State.closeLintel_eq, State.openLintel_eq]
  exact ite_has (s.only · _ _) (s.only_refl _ _) (ite_has (s.only · _ _)
    (ite_has (s.only · _ _) hclosed (State.only_trans hclosed (hpost _ _ _ _))) (State.only_trans hopened (hpost _ _ _ _)))

theorem State.updateLintels_only (s : State) : s.only s.updateLintels wires fun r => inLtc r ∨ ∃ ring, ringRegs ring r :=
  State.only_trans (State.only_mono (s.updateLintel_only 0) (fun _ h => h) fun _ h => h.imp_right fun h => ⟨_, h⟩)
    (State.only_mono (State.updateLintel_only _ 1) (fun _ h => h) fun _ h => h.imp_right fun h => ⟨_, h⟩)

theorem State.dropOutputs_only (s : State) : s.only s.dropOutputs [.lnk] fun _ => False := s.setLnk_only _

/-- The device state, the pins and the ports as a save that starts has them. -/
structure State.Saving (s : State) : Prop where
  dev : s.dev = .saving
  pins : s.pins.pwrFailN = false
  high : s.pwr.highFor10 = false
  ports : s.portsClear

theorem State.Saving.only {s t : State} {ps : List Part} {rs : Nat → Prop} (h : s.Saving) (ho : s.only t ps rs)
    (hp : .dev ∉ ps ∧ .pins ∉ ps ∧ .pwr ∉ ps := by simp [wires]) (hm : .mtr ∉ ps := by simp [wires]) : t.Saving := by
  obtain ⟨hd, hi, hh⟩ := (State.SameMode.refl s).only ho hp
  exact ⟨hd.trans h.dev, (congrArg Pins.pwrFailN hi).trans h.pins, hh.trans h.high, State.portsClear_of_only h.ports ho hm⟩

/-- An update of other parts. -/
theorem State.Saving.parts {s t : State} (h : s.Saving) (hd : t.dev = s.dev) (hi : t.pins = s.pins)
    (hh : t.pwr.highFor10 = s.pwr.highFor10) (hm : t.mtr.masters = s.mtr.masters) : t.Saving :=
  ⟨hd.trans h.dev, (congrArg Pins.pwrFailN hi).trans h.pins, hh.trans h.high, State.portsClear_of_masters h.ports hm⟩

theorem State.Saving.unblocked {s : State} (h : s.Saving) :
    ({ s with pwr := { s.pwr with blk := none, paused := false, boot := 0 } } : State).Saving := h.parts rfl rfl rfl rfl

theorem State.Saving.post {s : State} (h : s.Saving) (c v u d : Nat) : (s.post c v u d).Saving := h.only (s.post_only c v u d)

theorem State.Saving.writeRecord {s : State} (h : s.Saving) (f : StartRec → StartRec) : (s.writeRecord f).Saving := by
  have hrec := s.writeRecord_only f
  have hd : (s.writeRecord f).dev = s.dev := State.only_part hrec .dev
  have hi : (s.writeRecord f).pins = s.pins := State.only_part hrec .pins
  have hh : (s.writeRecord f).pwr.highFor10 = s.pwr.highFor10 := by rw [s.writeRecord_pwr]
  exact ⟨hd.trans h.dev, (congrArg Pins.pwrFailN hi).trans h.pins, hh.trans h.high, State.portsClear_writeRecord h.ports f⟩

theorem State.Saving.abandonJobs {s : State} (h : s.Saving) : s.abandonJobs.Saving := by
  have hflight : ((List.range 16).foldl (fun s n => s.dropFlight n) s).Saving :=
    List.foldlRecOn _ _ h fun t ht n _ => ht.only (t.modJob_only n _)
  have hjobs {t : State} (ht : t.Saving) (c : Chs) : ({ t.dropJobReqs with chs := c } : State).Saving := ht.parts rfl rfl rfl rfl
  unfold State.abandonJobs
  exact hjobs hflight _

theorem State.Saving.drops {s : State} (h : s.Saving) : s.updateLintels.dropOutputs.resetQueues.ksLost.abandonJobs.Saving := by
  have hlinks : s.updateLintels.dropOutputs.Saving := (h.only s.updateLintels_only).only (State.dropOutputs_only _)
  have hqueues : s.updateLintels.dropOutputs.resetQueues.Saving := hlinks.parts rfl rfl rfl rfl
  exact State.Saving.abandonJobs (hqueues.parts rfl rfl rfl rfl)

/-- Meters that start afresh leave what waits. -/
theorem State.portsClear_zeroed {s : State} (h : s.portsClear) : ({ s with mtr := { s.mtr with
    masters := s.mtr.masters.zipIdx.map fun x => if privileged x.2 then x.1 else { x.1 with meter := 0 } } } : State).portsClear := by
  have hport (m : Nat) :
      ((s.mtr.masters.zipIdx.map fun x => if privileged x.2 then x.1 else { x.1 with meter := 0 }).getD m {}) =
        if privileged m then s.master m else { s.master m with meter := 0 } := by
    simp only [State.master, List.getD_eq_getElem?_getD, List.getElem?_map, List.getElem?_zipIdx]
    cases s.mtr.masters[m]? with
    | none => exact (ite_self _).symm
    | some x => simp
  obtain ⟨hreq, h4, h6⟩ := h
  simp only [State.portsClear, State.master, hport] at *
  refine ⟨fun m => ?_, ?_, ?_⟩
  · split
    · exact hreq m
    · exact hreq m
  · split
    · exact h4
    · exact h4
  · split
    · exact h6
    · exact h6

theorem State.setDev_dev (s : State) (d : Dev) : (s.setDev d).dev = d := by
  unfold State.setDev
  split
  · assumption
  · rfl

/-- Once nothing waits, the device goes to SAVING. -/
theorem State.saving_of_setDev {s₀ s : State} (h : s₀.SameMode s) (hc : s.portsClear) (hp : s₀.pins.pwrFailN = false)
    (hh : s₀.pwr.highFor10 = false) : (s.setDev .saving).Saving := by
  refine ⟨s.setDev_dev _, ?_, ?_, State.portsClear_of_masters hc (by simp only [State.setDev_same])⟩
  · simp only [State.setDev_same]; exact (congrArg Pins.pwrFailN h.pins).trans hp
  · simp only [State.setDev_same]; exact h.high.trans hh

theorem State.portsClear_setIntg {s : State} (h : s.portsClear) (i : Intg) : ({ s with intg := i } : State).portsClear := h

/-- A save that starts with PWR_FAIL_N low leaves the device SAVING, and no request waits. -/
theorem State.startSave_saving {s : State} (hp : s.pins.pwrFailN = false) (hh : s.pwr.highFor10 = false) : ∃ u : State, u.Saving ∧
    u.keep.saveStep = 1 ∧ u.keep.armOps = [] ∧ u.keep.ckpt = none ∧ (s.startSave = u ∨ s.startSave = u.wakeChannels) := by
  unfold State.startSave
  extract_lets s1 s2 wake s3 rc s4 mtr s5 s6 s7 s8 pw s9 folds s10 s11
  have h3 : s.SameMode s3 := .refuseWaiting (.abandonVisits (.stopSlicer (.intervalCut (.refl s))))
  have h5 : s.SameMode s5 := .upd (.upd h3)
  have hports3 : s3.portsClear := State.refuseWaiting_portsClear s2
  have hports4 : s4.portsClear := State.portsClear_setIntg hports3 _
  have hports5 : s5.portsClear := State.portsClear_zeroed hports4
  have h6 : s6.Saving := (State.saving_of_setDev h5 hports5 hp hh).post _ _ _ _
  have h7 : s7.Saving := h6.writeRecord _
  have h8 : s8.Saving := h7.drops
  have h9 : s9.Saving := h8.unblocked
  have h11 : s11.Saving := (ite_has State.Saving (h9.only (s9.modKeep_only _)) h9 : s10.Saving).only (s10.modKeep_only _)
  exact ⟨s11, h11, rfl, rfl, rfl, (em (wake = true)).symm.imp (fun h => if_neg h) fun h => if_pos h⟩

/-! ### The events of a save -/

/-- The state once PWR_FAIL_N has fallen. -/
def State.powerFell (s : State) : State :=
  { s with pins := { s.pins with pwrFailN := false }, pwr := { s.pwr with highFor10 := false } }

theorem exec_pwrFailNFall_saves {s : State} (hp : s.pins.pwrFailN = true) (hm : s.maySave = true) :
    exec .pwrFailNFall s = .next s.powerFell.startSave :=
  congrArg Host.Outcome.next ((if_neg (by simp [hp])).trans (if_pos hm))

/-- PWR_FAIL_N falls where no save may start, outside bring-up. -/
theorem exec_pwrFailNFall_noted {s : State} (hp : s.pins.pwrFailN = true) (hm : s.maySave = false) (hd : s.dev ≠ .bringup) :
    exec .pwrFailNFall s = .next s.powerFell :=
  congrArg Host.Outcome.next ((if_neg (by simp [hp])).trans ((if_neg (ne_true_of_eq_false hm)).trans (if_neg hd)))

/-- PWR_FAIL_N falls in the last step of bring-up. -/
theorem exec_pwrFailNFall_pauses {s : State} (hp : s.pins.pwrFailN = true) (hm : s.maySave = false) (hd : s.dev = .bringup)
    (hs : s.pwr.step = (if s.pwr.warm = true then 5 else 8)) (ha : s.pwr.paused = false) : exec .pwrFailNFall s =
      .next ({ s.powerFell with pwr := { s.powerFell.pwr with fell := true } } : State).pauseNow :=
  congrArg Host.Outcome.next ((if_neg (by simp [hp])).trans ((if_neg (ne_true_of_eq_false hm)).trans
    ((if_pos hd).trans (if_pos ⟨hs, ha⟩))))

/-- Power that has returned for 10 ms outside bring-up, SEALED and THERMAL_HOLD is noted. -/
theorem exec_powerReturn10ms_noted {s : State} (hp : s.pins.pwrFailN = true) (hb : s.dev ≠ .bringup) (hs : s.dev ≠ .sealed)
    (ht : s.dev ≠ .thermalHold) :
    exec .powerReturn10ms s = .next { s with pwr := { s.pwr with highFor10 := true, fell := false } } := by
  have hexit {t : State} (hs : t.dev ≠ .sealed) (ht : t.dev ≠ .thermalHold) : t.sealedExit.holdExit = t := by
    rw [State.sealedExit, if_neg fun h => hs h.1, State.holdExit, if_neg fun h => ht h.1]
  refine congrArg Host.Outcome.next ((if_neg (by simp [hp])).trans ?_)
  dsimp only
  rw [if_neg fun h => hb h.1]
  exact hexit hs ht

theorem exec_saveUnitsDrained {s : State} (hd : s.dev = .saving) (hs : s.keep.saveStep = 1) (hu : s.unitsLeft = false)
    (hc : s.draining = false) (u : State) (h : u = s.wakeChannels.modKeep fun k => { k with saveStep := 4 }) :
    exec .saveUnitsDrained s =
      .next (if u.keep.saveKey = false ∧ u.keepBarred = true then u.saveNoKey else u.sealAsk 3 0 .saveOpen) := by
  subst h
  exact congrArg Host.Outcome.next (if_neg (by simp [hd, hs, hu, hc]))

theorem State.wakeChannels_keep (s : State) : s.wakeChannels.keep = s.keep := State.only_part s.wakeChannels_only .keep

/-- Settles O41: a save starts with nothing waiting, and its steps follow what drains. -/
theorem saveRuns : Obligations.SaveRuns := by
  unfold Obligations.SaveRuns
  refine ⟨fun s => ⟨fun h => ?_, fun hp hm => ?_, fun hp hm hd => exec_pwrFailNFall_noted hp hm hd, fun hp hm hd hs ha => ?_,
    fun hb => congrArg Host.Outcome.next (if_pos hb), fun hp hb hs ht => exec_powerReturn10ms_noted hp hb hs ht⟩,
    fun s => ⟨fun h => congrArg Host.Outcome.next (if_pos h), fun hd hs hunits hc => ?_⟩, fun s k => ?_⟩
  · exact ⟨congrArg Host.Outcome.next (if_pos h), congrArg Host.Outcome.next (if_pos h)⟩
  · obtain ⟨u, hu, hstep, hops, hckpt, hstart⟩ := State.startSave_saving (s := s.powerFell) rfl rfl
    have hwake := u.wakeChannels_only
    have hkeep := u.wakeChannels_keep
    refine ⟨_, exec_pwrFailNFall_saves hp hm, ?_⟩
    have hsaved : s.powerFell.startSave.Saving ∧ s.powerFell.startSave.keep = u.keep := by
      rcases hstart with h | h
      · rw [h]; exact ⟨hu, rfl⟩
      · rw [h]; exact ⟨hu.only hwake, hkeep⟩
    obtain ⟨⟨hdev, hpins, hhigh, hreq, h4, h6⟩, hk⟩ := hsaved
    rw [hk]
    exact ⟨hdev, hstep, hpins, hhigh, hops, hckpt, fun m _ => hreq m, h4, h6⟩
  · refine ⟨_, exec_pwrFailNFall_pauses hp hm hd hs ha, rfl, rfl, fun p => ?_, fun _ => .inr rfl⟩
    cases p <;> simp [Part.same, State.powerFell]
  · obtain ⟨u, hu⟩ : ∃ u, u = s.wakeChannels.modKeep fun k => { k with saveStep := 4 } := ⟨_, rfl⟩
    have hkeep : u.keep = { s.keep with saveStep := 4 } := by rw [hu, State.keep_modKeep, s.wakeChannels_keep]
    have hframe : s.only u [.keep, .mc] fun r => ∃ c < 32, r = MC_REFAB c := by
      rw [hu]
      exact State.only_trans (State.only_mono s.wakeChannels_only (by simp) fun _ h => h)
        (State.only_mono (State.modKeep_only _ _) (by simp) fun _ h => h.elim)
    have hfus : u.fus = s.fus := State.only_part hframe .fus
    have hbar : u.keepBarred = s.keepBarred := by rw [State.keepBarred, State.keepBarred, hfus]
    have hkey : u.keep.saveKey = s.keep.saveKey := by rw [hkeep]
    have hexec := exec_saveUnitsDrained hd hs hunits hc u hu
    rw [hkey, hbar] at hexec
    refine ⟨u, hexec, hkeep, fun c hc hst hf => ?_, hframe⟩
    have hmc : u.mc = s.wakeChannels.mc := by simp only [hu, State.modKeep_same]
    rw [State.chan, hmc]
    exact State.wakeChannels_active hc hst hf
  · intro may
    have hiff : (s.dev = .saving ∧ s.keep.saveStep = 5 ∧ (s.keep.course k).hold.isSome ∧ s.pwr.highFor10 ∧ s.pwr.good = 0x3F ∧
        s.keep.copies.isEmpty ∧ s.pageLeft = false) ↔ may := by
      simp only [may, List.isEmpty_iff]
    exact ⟨fun h => congrArg Host.Outcome.next (if_neg (hiff.not.2 h)), fun h => congrArg Host.Outcome.next (if_pos (hiff.2 h))⟩

end Sys2Proof.Machine

/-! SUPPORT. A restore (R262-R265): the image that it takes, and the bytes and poison of the pages that it writes. -/

namespace Sys2Proof.Machine

/-! ### Memory in its canonical form -/

theorem Memory.wf_iff {m : List Host.Cell} : Memory.wf m = true ↔ tsorted m = true ∧ ∀ c ∈ m, c.2 ≠ 0 := by
  simp [Memory.wf]

theorem tsorted_iff_pairwise {α : Type} {t : Tab α} : tsorted t = true ↔ t.Pairwise fun x y => x.1 < y.1 := by
  induction t with
  | nil => simp [tsorted]
  | cons e t ih => rw [tsorted_cons, ih, List.pairwise_cons]

/-- In a table whose keys rise, what a key reads is its entry. -/
theorem mem_iff_tget {α : Type} {t : Tab α} (h : tsorted t = true) {k : Nat} {v : α} : (k, v) ∈ t ↔ tget t k = some v := by
  induction t with
  | nil => simp [tget]
  | cons e t ih =>
    obtain ⟨a, x⟩ := e
    obtain ⟨hlt, ht⟩ := (tsorted_cons a x t).1 h
    rw [List.mem_cons, ih ht]
    by_cases hk : a = k
    · subst hk
      have hnone : tget t a ≠ some v := fun hv => Nat.lt_irrefl _ (hlt _ ((ih ht).2 hv))
      simp [tget, hnone, eq_comm]
    · simp [tget, hk, Ne.symm hk]

/-- An entry of memory is a byte that is not 0 and reads so. -/
theorem Memory.mem_iff {m : List Host.Cell} (h : Memory.wf m = true) {c : Host.Cell} : c ∈ m ↔ c.2 ≠ 0 ∧ mget m c.1 = c.2 := by
  obtain ⟨hs, hz⟩ := Memory.wf_iff.1 h
  obtain ⟨k, v⟩ := c
  have hmem := mem_iff_tget hs (k := k) (v := v)
  constructor
  · intro hc
    exact ⟨hz _ hc, by simp [mget, tgetD, hmem.1 hc]⟩
  · rintro ⟨hv, hr⟩
    refine hmem.2 ?_
    unfold mget tgetD at hr
    cases ht : tget m k with
    | none => rw [ht] at hr; exact absurd hr.symm hv
    | some w => rw [ht] at hr; exact congrArg some hr

/-- Memories in their canonical form that read the same are the same. -/
theorem Memory.ext {m m' : List Host.Cell} (h : Memory.wf m = true) (h' : Memory.wf m' = true) (he : ∀ a, mget m a = mget m' a) :
    m = m' := by
  have : Std.Irrefl fun x y : Host.Cell => x.1 < y.1 := ⟨fun x => Nat.lt_irrefl x.1⟩
  refine List.Pairwise.eq_of_mem_iff (tsorted_iff_pairwise.1 (Memory.wf_iff.1 h).1) (tsorted_iff_pairwise.1 (Memory.wf_iff.1 h').1) ?_
  intro c
  rw [Memory.mem_iff h, Memory.mem_iff h', he]

theorem mget_tdelRange (m : List Host.Cell) (a n b : Nat) : mget (tdelRange m a n) b = if a ≤ b ∧ b < a + n then 0 else mget m b := by
  have hfilter := tget_filter m (fun k => decide (k < a) || decide (a + n ≤ k)) b
  unfold mget tgetD tdelRange
  rw [hfilter]
  by_cases hb : a ≤ b ∧ b < a + n
  · rw [if_pos hb, if_neg (by simp; omega)]; rfl
  · rw [if_neg hb, if_pos (by simp; omega)]

/-- The entries written from an address up read as they are, and every other byte as before. -/
theorem mget_foldl_mset {cs : List Host.Cell} (h : tsorted cs = true) (m : List Host.Cell) (a b : Nat) :
    mget (cs.foldl (fun m c => mset m (a + c.1) c.2) m) b = if a ≤ b ∧ (tget cs (b - a)).isSome then mget cs (b - a) else mget m b := by
  induction cs generalizing m with
  | nil => simp [tget]
  | cons c cs ih =>
    obtain ⟨k, v⟩ := c
    obtain ⟨hlt, hs⟩ := (tsorted_cons k v cs).1 h
    rw [List.foldl_cons, ih hs, mget_mset]
    by_cases hk : b = a + k
    · subst hk
      have hnone : tget cs k = none := by
        cases ht : tget cs k with
        | none => rfl
        | some w => exact absurd (hlt _ ((mem_iff_tget hs).2 ht)) (Nat.lt_irrefl k)
      simp [hnone, tget, mget, tgetD]
    · by_cases hb : a ≤ b
      · have hne : k ≠ b - a := by omega
        simp [tget, mget, tgetD, hne, hk]
      · simp [hb, hk]

theorem mget_mpaste {cs : List Host.Cell} {n : Nat} (h : tsorted cs = true) (hn : ∀ c ∈ cs, c.1 < n) (m : List Host.Cell) (a b : Nat) :
    mget (mpaste m a n cs) b = if a ≤ b ∧ b < a + n then mget cs (b - a) else mget m b := by
  unfold mpaste
  rw [mget_foldl_mset h, mget_tdelRange]
  cases ht : tget cs (b - a) with
  | none => simp [mget, tgetD, ht]
  | some v =>
    have hb := hn _ ((mem_iff_tget h).2 ht)
    by_cases ha : a ≤ b
    · have : b < a + n := by simp at hb; omega
      simp [ha, this]
    · simp [ha]

theorem mget_mcut (m : List Host.Cell) (a n i : Nat) : mget (mcut m a n) i = if i < n then mget m (a + i) else 0 := by
  induction m with
  | nil => simp [mcut, trange, mget, tgetD, tget]
  | cons c m ih =>
    obtain ⟨k, v⟩ := c
    unfold mcut trange mget tgetD at ih ⊢
    rw [List.filter_cons]
    by_cases hk : a ≤ k ∧ k < a + n
    · rw [if_pos (by simp [hk]), List.map_cons]
      by_cases hi : k = a + i
      · subst hi
        simp [tget, show i < n by omega]
      · have hne : k - a ≠ i := by omega
        simpa [tget, hi, hne] using ih
    · rw [if_neg (by simpa using hk)]
      have hi : i < n → k ≠ a + i := by omega
      by_cases hin : i < n
      · simpa [tget, hin, hi hin] using ih
      · simpa [tget, hin] using ih

theorem Memory.wf_mcut {m : List Host.Cell} (h : Memory.wf m = true) (a n : Nat) : Memory.wf (mcut m a n) = true := by
  obtain ⟨hs, hz⟩ := Memory.wf_iff.1 h
  refine Memory.wf_iff.2 ⟨?_, ?_⟩
  · rw [tsorted_iff_pairwise] at hs ⊢
    unfold mcut trange
    rw [List.pairwise_map]
    refine List.Pairwise.imp_of_mem (fun {x y} hx hy hxy => ?_) (hs.filter _)
    have hx := (List.mem_filter.1 hx).2
    simp at hx ⊢
    omega
  · intro c hc
    obtain ⟨x, hx, rfl⟩ := List.mem_map.1 hc
    exact hz x (List.mem_filter.1 hx).1

/-- A range that has been replaced reads as what replaced it. -/
theorem mcut_mpaste {m cs : List Host.Cell} {a n : Nat} (hm : Memory.wf m = true) (hc : Memory.wf cs = true)
    (hn : ∀ c ∈ cs, c.1 < n) : mcut (mpaste m a n cs) a n = cs := by
  refine Memory.ext (Memory.wf_mcut (Memory.wf_mpaste cs hm a n) a n) hc fun i => ?_
  have hs := (Memory.wf_iff.1 hc).1
  rw [mget_mcut, mget_mpaste hs hn]
  by_cases hi : i < n
  · simp [hi]
  · have hnone : tget cs i = none := by
      cases ht : tget cs i with
      | none => rfl
      | some v => exact absurd (hn _ ((mem_iff_tget hs).2 ht)) hi
    simp [hi, mget, tgetD, hnone]

/-! ### The image of a restore (R262) -/

theorem le_foldl_max_init (l : List Nat) (a : Nat) : a ≤ l.foldl max a := by
  induction l generalizing a with
  | nil => exact Nat.le_refl a
  | cons x l ih => exact (Nat.le_max_left a x).trans (ih _)

theorem le_foldl_max {l : List Nat} {x : Nat} (h : x ∈ l) (a : Nat) : x ≤ l.foldl max a := by
  induction l generalizing a with
  | nil => simp at h
  | cons y l ih =>
    rcases List.mem_cons.1 h with h | h
    · subst h; exact (Nat.le_max_right a x).trans (le_foldl_max_init l _)
    · exact ih h _

theorem foldl_max_mem (l : List Nat) (a : Nat) : l.foldl max a = a ∨ l.foldl max a ∈ l := by
  induction l generalizing a with
  | nil => exact .inl rfl
  | cons x l ih =>
    rw [List.foldl_cons]
    rcases ih (max a x) with h | h
    · rw [h]
      rcases le_total a x with hx | hx
      · rw [max_eq_right hx]; exact .inr List.mem_cons_self
      · exact .inl (max_eq_left hx)
    · exact .inr (List.mem_cons_of_mem _ h)

/-- A record that may name the image: sealed while the other course was fenced, or one whose sequence the other course has. -/
def imageRec (o : List SealRec) (r : SealRec) : Bool := r.single || o.any fun x => x.seq == r.seq

theorem imageRec_iff {o : List SealRec} {r : SealRec} : imageRec o r = true ↔ r.single = true ∨ ∃ x ∈ o, x.seq = r.seq := by
  simp [imageRec]

theorem imageSeq_both (v0 v1 : List SealRec) : imageSeq v0 v1 true =
    ((v0.filter (imageRec v1) ++ v1.filter (imageRec v0)).map (·.seq)).foldl max 0 := by
  simp only [imageSeq, Bool.not_true, Bool.or_false]
  rfl

theorem imageSeq_ge {v0 v1 : List SealRec} {r : SealRec} (h : (r ∈ v0 ∧ imageRec v1 r = true) ∨ (r ∈ v1 ∧ imageRec v0 r = true)) :
    r.seq ≤ imageSeq v0 v1 true := by
  rw [imageSeq_both]
  refine le_foldl_max (List.mem_map_of_mem (List.mem_append.2 ?_)) 0
  exact h.imp List.mem_filter.2 List.mem_filter.2

/-- The image is that of a record that may name it. -/
theorem imageSeq_eq (v0 v1 : List SealRec) : imageSeq v0 v1 true = 0 ∨ ∃ r, r.seq = imageSeq v0 v1 true ∧
    ((r ∈ v0 ∧ imageRec v1 r = true) ∨ (r ∈ v1 ∧ imageRec v0 r = true)) := by
  rw [imageSeq_both]
  refine (foldl_max_mem _ 0).imp_right fun h => ?_
  obtain ⟨r, hr, he⟩ := List.mem_map.1 h
  exact ⟨r, he, (List.mem_append.1 hr).imp List.mem_filter.1 List.mem_filter.1⟩

/-- The image taken is the newest that both courses have, or that one had alone. -/
theorem imageSeq_newest (v0 v1 : List SealRec) :
    (imageSeq v0 v1 true = 0 ∨ ∃ r ∈ v0 ++ v1, r.seq = imageSeq v0 v1 true ∧ (r.single = true ∨
      ((∃ a ∈ v0, a.seq = imageSeq v0 v1 true) ∧ ∃ b ∈ v1, b.seq = imageSeq v0 v1 true))) ∧
    (∀ a ∈ v0, ∀ b ∈ v1, a.seq = b.seq → a.seq ≤ imageSeq v0 v1 true) ∧
    ∀ r ∈ v0 ++ v1, r.single = true → r.seq ≤ imageSeq v0 v1 true := by
  refine ⟨(imageSeq_eq v0 v1).imp_right ?_, fun a ha b hb he => ?_, fun r hr hs => ?_⟩
  · rintro ⟨r, he, ⟨hr, hi⟩ | ⟨hr, hi⟩⟩
    · refine ⟨r, List.mem_append_left _ hr, he, (imageRec_iff.1 hi).imp_right ?_⟩
      rintro ⟨x, hx, hxr⟩
      exact ⟨⟨r, hr, he⟩, x, hx, hxr.trans he⟩
    · refine ⟨r, List.mem_append_right _ hr, he, (imageRec_iff.1 hi).imp_right ?_⟩
      rintro ⟨x, hx, hxr⟩
      exact ⟨⟨x, hx, hxr.trans he⟩, r, hr, he⟩
  · exact imageSeq_ge (.inl ⟨ha, imageRec_iff.2 (.inr ⟨b, hb, he.symm⟩)⟩)
  · have hi (o : List SealRec) : imageRec o r = true := imageRec_iff.2 (.inl hs)
    exact imageSeq_ge ((List.mem_append.1 hr).imp (fun h => ⟨h, hi _⟩) fun h => ⟨h, hi _⟩)

/-! ### A page restored (R262-R264) -/

/-- Poison with that of a page replaced: the granules of the page that are given. -/
def poisonWith (page : Nat) (is p : List Nat) : List Nat :=
  is.foldl (fun l i => sins l (64 * page + i)) (p.filter fun g => g / 64 != page)

theorem mem_poisonWith {page : Nat} {is p : List Nat} {g : Nat} :
    g ∈ poisonWith page is p ↔ (∃ i ∈ is, 64 * page + i = g) ∨ (g ∈ p ∧ g / 64 ≠ page) := by
  unfold poisonWith
  rw [← List.foldl_map (f := fun i => 64 * page + i) (g := sins), mem_foldl_sins, List.mem_map, List.mem_filter, bne_iff_ne]

/-- What a restore writes for a page: its version, or none where the page is to be poisoned. -/
def State.pageRestored (s : State) (page : Nat) : Option (List Host.Cell × Nat) :=
  if (s.keep.course (homeOf page)).fenced = true ∨ rmem s.keep.poisonPg page = true then none
  else if s.keepBarred then some ([], 0) else s.keep.version page

/-- DRAM with a page's bytes and poison replaced. -/
def Dram.pagePut (d : Dram) (page : Nat) : Option (List Host.Cell × Nat) → Dram
  | some (data, mask) =>
    { mem := mpaste d.mem (4096 * page) 4096 data, poison := poisonWith page ((List.range 64).filter fun i => bitAt mask i) d.poison }
  | none => { mem := tdelRange d.mem (4096 * page) 4096, poison := poisonWith page (List.range 64) d.poison }

theorem Dram.pagePut_none (d : Dram) (page : Nat) : d.pagePut page none =
    { mem := tdelRange d.mem (4096 * page) 4096, poison := poisonWith page (List.range 64) d.poison } := by
  simp only [Dram.pagePut]

theorem Dram.pagePut_some (d : Dram) (page : Nat) (data : List Host.Cell) (mask : Nat) : d.pagePut page (some (data, mask)) =
    { mem := mpaste d.mem (4096 * page) 4096 data
      poison := poisonWith page ((List.range 64).filter fun i => bitAt mask i) d.poison } := by
  simp only [Dram.pagePut]

/-- The state with a page's bytes and poison replaced. -/
def State.pagePut (s : State) (page : Nat) (v : Option (List Host.Cell × Nat)) : State := { s with dram := s.dram.pagePut page v }

theorem State.pagePut_only (s : State) (page : Nat) (v : Option (List Host.Cell × Nat)) :
    s.only (s.pagePut page v) [.dram] fun _ => False := s.setDram_only _

/-- The access in which a page crosses mortar. -/
def State.pageCrosses (s : State) (page : Nat) (read : Bool) : State :=
  if read then s.ask 5 0 (.fetch page) (pageUnits page) else s.ask 5 1 (.restore page) (pageUnits page)

theorem State.pageCrosses_only (s : State) (page : Nat) (read : Bool) : s.only (s.pageCrosses page read) [.mtr] fun _ => False :=
  ite_has (s.only · _ _) (s.ask_only _ _ _ _) (s.ask_only _ _ _ _)

/-- A page that is read well takes what its version holds, and crosses mortar. -/
theorem State.restorePage_eq (s : State) (page : Nat) : ∃ read, s.restorePage page false =
    (s.pagePut page (s.pageRestored page)).pageCrosses page read := by
  refine ⟨!(s.keep.course (homeOf page)).fenced &&
    !(s.keepBarred || (mapAt (s.keep.course (homeOf page)).cur (indexOf page)).zero), ?_⟩
  unfold State.restorePage State.pageRestored
  simp only [Bool.false_and, Bool.false_eq_true, false_or, if_false]
  generalize (if (s.keep.course (homeOf page)).fenced = true ∨ rmem s.keep.poisonPg page = true then none
    else if s.keepBarred = true then some ([], 0) else s.keep.version page) = v
  cases v <;> rfl

theorem State.restorePage_dram (s : State) (page : Nat) :
    (s.restorePage page false).dram = s.dram.pagePut page (s.pageRestored page) := by
  obtain ⟨read, h⟩ := s.restorePage_eq page
  have hcross : ((s.pagePut page (s.pageRestored page)).pageCrosses page read).dram = (s.pagePut page (s.pageRestored page)).dram :=
    State.only_part (State.pageCrosses_only _ page read) .dram
  rw [h, hcross]; rfl

theorem State.restorePage_only (s : State) (page : Nat) : s.only (s.restorePage page false) [.dram, .mtr] fun _ => False := by
  obtain ⟨read, h⟩ := s.restorePage_eq page
  rw [h]
  exact State.only_trans (State.only_mono (s.pagePut_only _ _) (by simp) fun _ h => h)
    (State.only_mono (State.pageCrosses_only _ page read) (by simp) fun _ h => h)

/-- A page without a version to write is poisoned. -/
theorem Dram.pagePut_none_poison (d : Dram) (page : Nat) {i : Nat} (hi : i < 64) :
    (d.pagePut page none).poison.contains (64 * page + i) = true := by
  rw [Dram.pagePut_none]
  rw [List.contains_iff_mem, mem_poisonWith]
  exact .inl ⟨i, List.mem_range.2 hi, rfl⟩

section
variable (d : Dram) (page : Nat) (data : List Host.Cell) (mask : Nat)

theorem Dram.pagePut_mask {i : Nat} (hi : i < 64) :
    (d.pagePut page (some (data, mask))).poison.contains (64 * page + i) = bitAt mask i := by
  rw [Bool.eq_iff_iff, List.contains_iff_mem, Dram.pagePut_some]
  refine mem_poisonWith.trans ⟨?_, fun h => .inl ⟨i, List.mem_filter.2 ⟨List.mem_range.2 hi, h⟩, rfl⟩⟩
  rintro (⟨j, hj, he⟩ | ⟨-, h⟩)
  · have hji : j = i := by omega
    exact hji ▸ (List.mem_filter.1 hj).2
  · omega

theorem Dram.pagePut_other {g : Nat} (hg : g / 64 ≠ page) :
    (d.pagePut page (some (data, mask))).poison.contains g = d.poison.contains g := by
  rw [Bool.eq_iff_iff, List.contains_iff_mem, List.contains_iff_mem, Dram.pagePut_some]
  refine mem_poisonWith.trans ⟨?_, fun h => .inr ⟨h, hg⟩⟩
  rintro (⟨j, hj, he⟩ | ⟨h, -⟩)
  · have hlt := List.mem_range.1 (List.mem_filter.1 hj).1
    omega
  · exact h

end

/-- A version in its canonical form is what the page then holds, and the other pages stay. -/
theorem Dram.pagePut_mem {d : Dram} {page : Nat} {data : List Host.Cell} (hd : Memory.wf d.mem = true) (hw : Memory.wf data = true)
    (hn : ∀ x ∈ data, x.1 < 4096) (mask : Nat) :
    mcut (d.pagePut page (some (data, mask))).mem (4096 * page) 4096 = data ∧
    ∀ a, a / 4096 ≠ page → mget (d.pagePut page (some (data, mask))).mem a = mget d.mem a := by
  rw [Dram.pagePut_some]
  refine ⟨mcut_mpaste hd hw hn, fun a ha => ?_⟩
  exact (mget_mpaste (Memory.wf_iff.1 hw).1 hn _ _ _).trans (if_neg (by omega))

/-! ### A unit restored (R263, R264) -/

/-- The pages of a unit restored, all of them read well. -/
def State.unitPages (s : State) (unit : Nat) : State := (List.range 16).foldl (fun s i => s.restorePage (16 * unit + i) false) s

theorem State.unitPages_only (s : State) (unit : Nat) : s.only (s.unitPages unit) [.dram, .mtr] fun _ => False :=
  State.only_foldl _ _ _ fun s _ _ => s.restorePage_only _

/-- A unit counted as restored. -/
def Keep.unitDone (unit : Nat) (k : Keep) : Keep :=
  { k with restored := radd k.restored unit, touch := k.touch.filter fun t => t.1 != unit }

/-- In RESTORING, while nothing waits for a restore and units are left, a unit's pages are written and it counts. -/
theorem State.restoreUnit_counts {s : State} {unit : Nat} (hd : s.dev = .restoring) (hp : s.keep.phase = 6) (hw : s.wq.waits = [])
    (hr : rcount (radd s.keep.restored unit) ≠ allUnits) : s.restoreUnit unit [] = (s.unitPages unit).modKeep (Keep.unitDone unit) := by
  have hpages := s.unitPages_only unit
  have hdev : (s.unitPages unit).dev = s.dev := State.only_part hpages .dev
  have hkeep : (s.unitPages unit).keep = s.keep := State.only_part hpages .keep
  have hwq : (s.unitPages unit).wq = s.wq := State.only_part hpages .wq
  have hretry : ((s.unitPages unit).modKeep (Keep.unitDone unit)).ksRetry = (s.unitPages unit).modKeep (Keep.unitDone unit) := by
    have hwaits : ((s.unitPages unit).modKeep (Keep.unitDone unit)).wq.waits = [] := by
      simp only [State.modKeep_same, hwq, hw]
    rw [State.ksRetry, hwaits]; rfl
  have hleft : rcount ((s.unitPages unit).modKeep (Keep.unitDone unit)).keep.restored ≠ allUnits := by
    rw [State.keep_modKeep, hkeep]; exact hr
  have hphase : ((s.unitPages unit).modKeep (Keep.unitDone unit)).keep.phase ≠ 5 := by
    rw [State.keep_modKeep, hkeep]
    simp [Keep.unitDone, hp]
  have hres : ((s.unitPages unit).modKeep (Keep.unitDone unit)).dev = .restoring := by simp only [State.modKeep_same, hdev, hd]
  unfold State.restoreUnit
  extract_lets t0 t1 t2
  have h1 : t1 = (s.unitPages unit).modKeep (Keep.unitDone unit) := rfl
  have h2 : t2 = if t1.dev = .restoring then t1.ksRetry else t1 := rfl
  clear_value t2 t1
  subst h1
  rw [if_pos hres, hretry] at h2
  subst h2
  rw [if_neg hleft]
  exact if_neg fun h => hphase h.1

end Sys2Proof.Machine

/-! SUPPORT. The steps of a restore (R262, R263): the image chosen, its maps written, and host access opened. -/

namespace Sys2Proof.Machine

/-! ### The image chosen (R262, R263) -/

theorem State.loadImage_keep (s : State) (r : SealRec) : ∃ ms, (s.loadImage r).keep = { s.keep with saveMs := ms } := ⟨_, rfl⟩

theorem State.SameMode.loadImage {s₀ s : State} (h : s₀.SameMode s) {r : SealRec} : s₀.SameMode (s.loadImage r) :=
  .setReg64 (.setReg64 (.setFld (.setFld (.setFld (.setReg (.modKeep (.setFld (.setFld h))))))))

/-- The image that a restore chooses is that of R262, and step 4 follows. -/
theorem State.chooseImage_chosen {s t : State} {r0 r1 : Bool} (ht : s.chooseImage r0 r1 = t) (h0 : (s.keep.course 0).fenced = false)
    (h1 : (s.keep.course 1).fenced = false) : s.SameMode t ∧ t.keep.phase = 4 ∧
      t.keep.chosen = imageSeq ((s.keep.course 0).valid r0) ((s.keep.course 1).valid r1) (r0 && r1) := by
  unfold State.chooseImage at ht
  extract_lets c0 c1 v0 v1 both n omitted f0 f1 s1 s2 i0 i1 pg pages inc lost top cks ck rec_ upd s3 s4 s5 s6 at ht
  have hboth : both = (r0 && r1) := by simp only [both, c0, c1, h0, h1, Bool.not_false, Bool.and_true]
  have hn : n = imageSeq v0 v1 (r0 && r1) := congrArg (imageSeq v0 v1) hboth
  have hs1 : s.SameMode s1 := .ite (.fenceCourse (.refl s)) (.refl s)
  have hs2 : s.SameMode s2 := .ite (.fenceCourse hs1) hs1
  have hs4 : s.SameMode s4 := .modKeep (.modCourse (.modCourse hs2))
  have hk4 : s4.keep.phase = 4 ∧ s4.keep.chosen = n := ⟨rfl, rfl⟩
  clear_value s4
  have hs5 : s.SameMode s5 ∧ s5.keep.phase = 4 ∧ s5.keep.chosen = n := by
    unfold s5
    split
    · next r _ _ =>
      obtain ⟨ms, hload⟩ := s4.loadImage_keep r
      have hkeep (t : State) (a v : Nat) : (t.setReg64 a v).keep = t.keep := rfl
      rw [hkeep, hload]
      exact ⟨.setReg64 (.loadImage hs4), hk4⟩
    · exact ⟨hs4, hk4⟩
  clear_value s5
  have hs6 : s.SameMode s6 ∧ s6.keep.phase = 4 ∧ s6.keep.chosen = n := ⟨.setFld hs5.1, hs5.2⟩
  clear_value s6
  obtain ⟨hmode, hphase, hchosen⟩ := hs6
  rw [← hn, ← ht]
  clear_value inc n
  cases inc
  · exact ⟨hmode, hphase, hchosen⟩
  · refine ⟨.post hmode, ?_⟩
    simp only [if_true, State.post_same]
    exact ⟨hphase, hchosen⟩

/-! ### The map written (R262, R263, R270) -/

/-- Between two states only courses have moved, with the packets of events and the transfers of records. -/
structure State.CoursesMoved (s t : State) : Prop where
  keep : ∃ cs, t.keep = { s.keep with courses := cs }
  frame : s.only t (.fresh :: .keep :: .mtr :: wires) inLtc

section
variable {s t : State}

theorem State.CoursesMoved.refl (s : State) : s.CoursesMoved s := ⟨⟨_, rfl⟩, s.only_refl _ _⟩

theorem State.CoursesMoved.trans {u : State} (h : s.CoursesMoved t) (h' : t.CoursesMoved u) : s.CoursesMoved u := by
  obtain ⟨cs, hc⟩ := h.keep
  obtain ⟨ds, hd⟩ := h'.keep
  exact ⟨⟨ds, by rw [hd, hc]⟩, State.only_trans h.frame h'.frame⟩

theorem State.CoursesMoved.of_only {ps : List Part} (h : s.only t ps inLtc) (hk : t.keep = s.keep)
    (hp : ∀ p ∈ ps, p ∈ .fresh :: .keep :: .mtr :: wires) : s.CoursesMoved t :=
  ⟨⟨s.keep.courses, hk⟩, State.only_mono h hp fun _ h => h⟩

theorem State.CoursesMoved.modCourse (s : State) (k : Nat) (f : Course → Course) : s.CoursesMoved (s.modCourse k f) :=
  ⟨⟨_, rfl⟩, State.only_mono (s.modCourse_only k f) (by simp) fun _ h => h.elim⟩

theorem State.CoursesMoved.takeSpare (s : State) (k data : Nat) : s.CoursesMoved (s.takeSpare k data) :=
  ⟨⟨_, s.takeSpare_keep k data⟩, State.only_mono (s.takeSpare_only k data) (by simp_all) fun _ h => h⟩

theorem State.CoursesMoved.foldl {β : Type} {f : State → β → State} (l : List β) (s : State)
    (h : ∀ t x, State.CoursesMoved t (f t x)) : s.CoursesMoved (l.foldl f s) :=
  List.foldlRecOn l f (.refl s) fun t ht x _ => ht.trans (h t x)

theorem State.CoursesMoved.ite {c : Prop} [Decidable c] {u : State} (ht : s.CoursesMoved t) (hu : s.CoursesMoved u) :
    s.CoursesMoved (if c then t else u) := ite_has s.CoursesMoved ht hu

theorem State.CoursesMoved.retireMeta (s : State) (k n : Nat) : s.CoursesMoved (s.retireMeta k n) :=
  .foldl _ s fun t _ => .trans (.of_only (State.only_mono t.bump_only (fun _ h => h) fun _ h => h.elim) rfl (by simp))
    (.takeSpare _ _ _)

theorem State.CoursesMoved.mapWritten (s : State) (k copy : Nat) : s.CoursesMoved (s.mapWritten k copy) :=
  .trans (.modCourse s _ _) (.retireMeta _ _ _)

theorem State.CoursesMoved.ringWritten (s : State) (k pages : Nat) : s.CoursesMoved (s.ringWritten k pages) :=
  .trans (.modCourse s _ _) (.retireMeta _ _ _)

theorem State.CoursesMoved.wearWritten (s : State) (k : Nat) : s.CoursesMoved (s.wearWritten k) :=
  .trans (.modCourse s _ _) (.retireMeta _ _ _)

theorem State.CoursesMoved.mapsWritten (s : State) : s.CoursesMoved s.mapsWritten :=
  .foldl _ s fun t _ => .ite (.refl t) (.mapWritten t _ _)

theorem State.CoursesMoved.recsWritten (s : State) (r0 r1 : SealRec) : s.CoursesMoved (s.recsWritten r0 r1) :=
  .foldl _ s fun t _ => .ite (.refl t) (.ringWritten t _ _)

theorem State.CoursesMoved.recAsked (s : State) (k : Nat) (r : SealRec) : s.CoursesMoved (s.recAsked k r) :=
  .of_only (State.only_mono (s.recAsked_only k r) (fun _ h => h) fun _ h => h.elim) (State.only_part (s.recAsked_only k r) .keep) (by simp)

theorem State.CoursesMoved.wearFolded (s : State) : s.CoursesMoved s.wearFolded :=
  .foldl _ s fun t _ => .ite (.refl t) (.wearWritten t _)

end

/-- A fold of a restore counted: its record takes the next sequence, and what is not a course stays. -/
theorem State.foldCounted_keep {s t u : State} (h : s.CoursesMoved t) (hu : (t.modKeep fun k => { k with
    seq := k.seq + 1, copiesSince := 0 }).CoursesMoved u) : u.keep.seq = s.keep.seq + 1 ∧
    u.keep.epochChange = s.keep.epochChange ∧ u.keep.poisonPg = s.keep.poisonPg ∧ u.reg KEEP_OPEN_MS = s.reg KEEP_OPEN_MS := by
  obtain ⟨cs, hcs⟩ := h.keep
  obtain ⟨ds, hds⟩ := hu.keep
  have hreg : u.reg KEEP_OPEN_MS = t.reg KEEP_OPEN_MS := State.only_reg_eq hu.frame (by unfold inLtc; decide)
  rw [hds, State.keep_modKeep, hcs, hreg]
  exact ⟨rfl, rfl, rfl, State.only_reg_eq h.frame (by unfold inLtc; decide)⟩

/-- A restore without pages to poison folds once: one record more, and nothing else that the restore follows changes. -/
theorem State.foldImage_quiet {s t : State} {n : Nat} (ht : s.foldImage (n + 1) = t) (h : s.keep.poisonPg = []) :
    t.keep.seq = s.keep.seq + 1 ∧ t.keep.epochChange = s.keep.epochChange ∧ t.reg KEEP_OPEN_MS = s.reg KEEP_OPEN_MS := by
  unfold State.foldImage at ht
  extract_lets s1 f0 f1 r0 r1 s2 s3 s4 at ht
  have h1 : s1 = s := by simp only [s1, h, rcount, rlist, List.foldl_nil]
  clear_value s1
  subst h1
  have h2 : s1.CoursesMoved s2 :=
    .trans (.trans (.trans (.mapsWritten s1) (.recsWritten _ r0 r1)) (.recAsked _ 0 r0)) (.recAsked _ 1 r1)
  clear_value s2
  have hboth : s1.CoursesMoved ((s2.modCourse 0 fun c => c.foldedInto r0).modCourse 1 fun c => c.foldedInto r1) :=
    .trans (.trans h2 (.modCourse _ _ _)) (.modCourse _ _ _)
  have h3 : s3.keep.seq = s1.keep.seq + 1 ∧ s3.keep.epochChange = s1.keep.epochChange ∧ s3.keep.poisonPg = s1.keep.poisonPg ∧
      s3.reg KEEP_OPEN_MS = s1.reg KEEP_OPEN_MS := State.foldCounted_keep hboth (.wearFolded _)
  clear_value s3
  have h4 : s4.keep = s3.keep ∧ s4.reg KEEP_OPEN_MS = s3.reg KEEP_OPEN_MS :=
    ⟨rfl, (State.reg_setReg64_ne _ _ (by decide) (by decide)).trans (State.reg_setReg64_ne _ _ (by decide) (by decide))⟩
  clear_value s4
  obtain ⟨hseq, hepoch, hpois, hreg⟩ := h3
  obtain ⟨hkeep, hreg4⟩ := h4
  rw [if_pos (by rw [hkeep, hpois, h]; rfl)] at ht
  subst ht
  rw [hkeep, hreg4]
  exact ⟨hseq, hepoch, hreg⟩

/-! ### Host access opens (R263, R300) -/

theorem State.setPwr_only (s : State) (p : Pwr) : s.only { s with pwr := p } [.pwr] fun _ => False :=
  ⟨fun q => by cases q <;> simp [Part.same], fun _ => .inr rfl⟩

theorem State.setDev_only (s : State) (d : Dev) : s.only (s.setDev d) [.dev, .prev] fun _ => False := by
  unfold State.setDev
  exact ite_has (s.only · _ _) (s.only_refl _ _) ⟨fun q => by cases q <;> simp [Part.same], fun _ => .inr rfl⟩

theorem State.stepClose_only (s : State) : s.only s.stepClose [.pwr] fun r => ∃ n, r = RST_STEPMS n := by
  have hreg : s.only (if s.pwr.warm ∨ s.pwr.step = 0 then s else s.setFld (RST_STEPMS_MS (s.pwr.step - 1))
      (min 65535 ((s.clock - s.pwr.stepAt) / 1000000))) [.pwr] fun r => ∃ n, r = RST_STEPMS n :=
    ite_has (s.only · _ _) (s.only_refl _ _) (State.only_mono (s.setFld_only _ _) (by simp) fun _ h => ⟨_, h⟩)
  exact State.only_trans hreg (State.only_mono (State.setPwr_only _ _) (fun _ h => h) fun _ h => h.elim)

theorem State.stepsEnd_only (s : State) : s.only s.stepsEnd [.pwr] fun r => ∃ n, r = RST_STEPMS n :=
  State.only_trans s.stepClose_only (State.only_mono (State.setPwr_only _ _) (fun _ h => h) fun _ h => h.elim)

/-- The end of the steps leaves the kind of reset that the image fields follow. -/
theorem State.stepsEnd_full (s : State) : s.stepsEnd.pwr.full = s.pwr.full := by
  have hreg : (if s.pwr.warm ∨ s.pwr.step = 0 then s else s.setFld (RST_STEPMS_MS (s.pwr.step - 1))
      (min 65535 ((s.clock - s.pwr.stepAt) / 1000000))).pwr = s.pwr := ite_keeps State.pwr rfl rfl
  unfold State.stepsEnd State.stepClose
  dsimp only
  rw [hreg]

/-- The state in which host access is open, before its event. -/
def State.opened (s : State) : State := (s.stepsEnd.setDev .restoring).modKeep fun k => { k with phase := 6 }

theorem State.openAccess_eq (s : State) :
    s.openAccess = s.opened.post 0x0509 0 0xFF ((s.opened.clock - s.opened.keep.restAt) / 1000000) := rfl

theorem State.opened_only (s : State) : s.only s.opened [.dev, .prev, .pwr, .keep] fun r => ∃ n, r = RST_STEPMS n :=
  State.only_trans (State.only_trans (State.only_mono s.stepsEnd_only (by simp) fun _ h => h)
    (State.only_mono (State.setDev_only _ _) (by simp) fun _ h => h.elim))
    (State.only_mono (State.modKeep_only _ _) (by simp) fun _ h => h.elim)

theorem State.openAccess_only (s : State) :
    s.only s.openAccess ([.dev, .prev, .pwr, .keep] ++ wires) fun r => inLtc r ∨ ∃ n, r = RST_STEPMS n := by
  rw [s.openAccess_eq]
  exact State.only_trans (State.only_mono s.opened_only (fun _ h => List.mem_append_left _ h) fun _ h => .inr h)
    (State.only_mono (State.post_only _ _ _ _ _) (fun _ h => List.mem_append_right _ h) fun _ h => .inl h)

theorem State.openAccess_opens (s : State) : s.openAccess.dev = .restoring ∧ s.openAccess.keep = { s.keep with phase := 6 } ∧
    s.openAccess.pwr.full = s.pwr.full := by
  have hkeep : s.stepsEnd.keep = s.keep := State.only_part s.stepsEnd_only .keep
  rw [s.openAccess_eq]
  simp only [State.post_same, State.opened, State.modKeep_same, State.setDev_same, State.keep_modKeep, State.setDev_dev, hkeep,
    s.stepsEnd_full, and_self]

/-! ### The events of a restore -/

/-- A restore goes on at a step: its phase, in bring-up that neither a reset nor a pause holds. -/
def State.restoreAt (s : State) (phase : Nat) : Prop :=
  s.dev = .bringup ∧ s.keep.phase = phase ∧ s.pwr.interval = false ∧ s.pwr.paused = false

theorem State.not_restoreAt_iff {s : State} {n : Nat} :
    ¬s.restoreAt n ↔ s.dev ≠ .bringup ∨ s.keep.phase ≠ n ∨ s.pwr.interval = true ∨ s.pwr.paused = true := by
  simp only [State.restoreAt, not_and_or, Bool.not_eq_false, ne_eq]

section
variable {s : State}

theorem exec_restoreImageChosen_idle (h : ¬s.restoreAt 3) (r0 r1 : Bool) : exec (.restoreImageChosen r0 r1) s = .next s :=
  congrArg Host.Outcome.next (if_pos (State.not_restoreAt_iff.1 h))

theorem exec_restoreImageChosen_barred (h : s.restoreAt 3) (hb : s.keepBarred = true) (r0 r1 : Bool) :
    exec (.restoreImageChosen r0 r1) s =
      .next (s.modKeep fun k => { k with phase := 4, courses := k.courses.map fun (c : Course) => { c with cur := [] } }) :=
  congrArg Host.Outcome.next ((if_neg fun hn => State.not_restoreAt_iff.2 hn h).trans (if_pos hb))

theorem exec_restoreImageChosen (h : s.restoreAt 3) (hb : s.keepBarred = false) (r0 r1 : Bool) :
    exec (.restoreImageChosen r0 r1) s = .next (s.chooseImage r0 r1) :=
  congrArg Host.Outcome.next ((if_neg fun hn => State.not_restoreAt_iff.2 hn h).trans (if_neg (ne_true_of_eq_false hb)))

theorem exec_restoreMapLoaded_idle (h : ¬s.restoreAt 4) : exec .restoreMapLoaded s = .next s :=
  congrArg Host.Outcome.next (if_pos (State.not_restoreAt_iff.1 h))

theorem exec_hotPassTimeout_idle (h : ¬s.restoreAt 5) : exec .hotPassTimeout s = .next s := congrArg Host.Outcome.next (if_neg h)

theorem exec_hotPassTimeout (h : s.restoreAt 5) : exec .hotPassTimeout s = .next s.openAccess := congrArg Host.Outcome.next (if_pos h)

end

/-- The part is to be armed again once the maps are loaded. -/
def State.rearms (s : State) : Bool :=
  s.keep.arm == .disarmed && s.flag KEEP_CTL_REARM && s.keep.restArmed && s.keep.keyHeld && s.keep.courses.all fun c => !c.fenced

/-- The state with the maps loaded: units are counted from here. -/
def State.mapLoaded (s : State) : State :=
  let arm := s.rearms
  let s := s.modKeep fun k => { k with phase := 5, restMap := true, restored := [], arm := if arm then .arming else k.arm }
  { s with pwr := { s.pwr with full := false } }

/-- What follows once the maps are loaded. -/
def State.loadedGoes (s : State) : State :=
  let s := if s.keep.epochChange ∧ s.keepBarred = false ∧ s.keep.keyHeld then s.sealAsk 7 0 .epoch else s
  if s.fld KEEP_OPEN_MS_MS = 0 ∨ s.keep.hotLeft = false then s.openAccess else s

theorem State.loadedGoes_opens {s : State} (he : s.keep.epochChange = false) (ho : s.fld KEEP_OPEN_MS_MS = 0) :
    s.loadedGoes = s.openAccess := by
  have hseal : ¬(s.keep.epochChange = true ∧ s.keepBarred = false ∧ s.keep.keyHeld = true) := by simp [he]
  unfold State.loadedGoes
  rw [if_neg hseal]
  exact if_pos (.inl ho)

theorem exec_restoreMapLoaded {s : State} (h : s.restoreAt 4) (hb : s.keepBarred = false) :
    exec .restoreMapLoaded s = .next (s.foldImage 16).mapLoaded.loadedGoes := by
  have hexec : exec .restoreMapLoaded s = .next (
      if s.dev ≠ .bringup ∨ s.keep.phase ≠ 4 ∨ s.pwr.interval ∨ s.pwr.paused then s
      else (if s.keepBarred then s else s.foldImage 16).mapLoaded.loadedGoes) := rfl
  rw [hexec, if_neg fun hn => State.not_restoreAt_iff.2 hn h, if_neg (ne_true_of_eq_false hb)]

/-- With the maps loaded, no change of epoch to seal and KEEP_OPEN_MS 0, host access opens at once. -/
theorem restoreMapLoaded_opens {s : State} (h : s.restoreAt 4) (hb : s.keepBarred = false) (he : s.keep.epochChange = false)
    (hp : s.keep.poisonPg = []) (ho : s.fld KEEP_OPEN_MS_MS = 0) : ∃ t, exec .restoreMapLoaded s = .next t ∧ t.dev = .restoring ∧
      t.keep.phase = 6 ∧ t.keep.restMap = true ∧ t.keep.restored = [] ∧ t.keep.seq = s.keep.seq + 1 ∧ t.pwr.full = false := by
  have hexec := exec_restoreMapLoaded h hb
  generalize hu : s.foldImage 16 = u at hexec
  obtain ⟨hseq, hepoch, hreg⟩ := State.foldImage_quiet (n := 15) hu hp
  have hopens : u.mapLoaded.loadedGoes = u.mapLoaded.openAccess :=
    State.loadedGoes_opens (hepoch.trans he) ((State.fld_congr (f := KEEP_OPEN_MS_MS) hreg).trans ho)
  obtain ⟨hdev, hkeep, hfull⟩ := u.mapLoaded.openAccess_opens
  rw [hopens] at hexec
  refine ⟨_, hexec, hdev, ?_, ?_, ?_, ?_, hfull⟩
  all_goals rw [hkeep]
  · rfl
  · rfl
  · exact hseq

/-- A unit's restore that may not be performed changes nothing. -/
theorem exec_restoreUnitDone_idle {s : State} {unit : Nat}
    (h : rmem s.keep.restored unit = true ∨ allUnits ≤ unit ∨ s.pwr.interval = true) (bad : List Nat) :
    exec (.restoreUnitDone unit bad) s = .next s := by
  refine congrArg Host.Outcome.next (if_pos ?_)
  rcases h with h | h | h
  · exact .inr (.inr (.inr (.inr h)))
  · exact .inr (.inr (.inr (.inl h)))
  · exact .inr (.inl h)

/-- A unit's restore in RESTORING. -/
theorem exec_restoreUnitDone {s : State} {unit : Nat} (hd : s.dev = .restoring) (hp : s.keep.phase = 6) (hi : s.pwr.interval = false)
    (ha : s.pwr.paused = false) (hu : unit < allUnits) (hr : rmem s.keep.restored unit = false) (bad : List Nat) :
    exec (.restoreUnitDone unit bad) s = .next (s.restoreUnit unit bad) := by
  refine congrArg Host.Outcome.next (if_neg ?_)
  simp [hd, hp, hi, ha, hr, hu]

/-- A touch fetch leaves its latency and counts before its unit is restored. -/
def State.touchCounted (s : State) (ns : Nat) : State :=
  (s.maxFld KEEP_TOUCHLAT_NS ns).modKeep fun k => { k with restTouch := k.restTouch + 1 }

theorem exec_touchFetchDone {s : State} {unit : Nat} (hd : s.dev = .restoring) (hi : s.pwr.interval = false)
    (ht : ∃ x ∈ s.keep.touch.take 64, x.1 = unit) (bad : List Nat) (ns : Nat) :
    exec (.touchFetchDone unit bad ns) s = .next ((s.touchCounted ns).restoreUnit unit bad) := by
  obtain ⟨x, hx, he⟩ := ht
  have hany : ((s.keep.touch.take 64).any fun t => t.1 == unit) = true := List.any_eq_true.2 ⟨x, hx, beq_iff_eq.2 he⟩
  refine congrArg Host.Outcome.next (if_neg ?_)
  rw [hd, hi, hany]
  simp

/-- Settles O42: the newest image is taken, and its versions are written page by page. -/
theorem restoreSteps : Obligations.RestoreSteps := by
  unfold Obligations.RestoreSteps
  refine ⟨imageSeq_newest, fun s r0 r1 => ?_, fun s => ?_, fun s page mask data hm hw hn => ?_, fun s unit => ?_⟩
  · intro may
    refine ⟨fun h => exec_restoreImageChosen_idle h r0 r1, fun h hb => ?_, fun h hb h0 h1 => ?_⟩
    · exact ⟨_, exec_restoreImageChosen_barred h hb r0 r1, rfl, s.modKeep_only _⟩
    · obtain ⟨hmode, hphase, hchosen⟩ := State.chooseImage_chosen (t := s.chooseImage r0 r1) rfl h0 h1
      exact ⟨_, exec_restoreImageChosen h hb r0 r1, hphase, hmode.dev.trans h.1, hchosen⟩
  · intro may
    refine ⟨exec_restoreMapLoaded_idle, exec_hotPassTimeout_idle, restoreMapLoaded_opens, fun h => ?_⟩
    obtain ⟨hdev, hkeep, -⟩ := s.openAccess_opens
    exact ⟨_, exec_hotPassTimeout h, hdev, hkeep, s.openAccess_only⟩
  · intro t
    have hkeep : t.keep = s.keep := State.only_part (s.restorePage_only page) .keep
    have hdram : t.dram = s.dram.pagePut page (s.pageRestored page) := s.restorePage_dram page
    have hmem : Memory.wf s.dram.mem = true := hm
    refine ⟨fun h i hi => ?_, fun hf hp hb hv => ?_, hkeep⟩
    · have hnone : s.pageRestored page = none := if_pos h
      rw [State.poisoned, hdram, hnone]
      exact s.dram.pagePut_none_poison page hi
    · have hsome : s.pageRestored page = some (data, mask) := by
        rw [State.pageRestored, if_neg (by simp [hf, hp]), if_neg (ne_true_of_eq_false hb), hv]
      obtain ⟨hcut, hother⟩ := Dram.pagePut_mem (page := page) hmem hw hn mask
      rw [hsome] at hdram
      simp only [State.poisoned, hdram]
      exact ⟨hcut, hother, fun i hi => s.dram.pagePut_mask page data mask hi, fun g hg => s.dram.pagePut_other page data mask hg⟩
  · intro t0
    refine ⟨exec_restoreUnitDone_idle, fun hd bad ns => congrArg Host.Outcome.next (if_pos (.inl hd)),
      fun hd hp hi ha hu hr hw hl => ?_, fun hd hi ht bad ns => ⟨_, exec_touchFetchDone hd hi ht bad ns, ?_, rfl, ?_⟩⟩
    · have hpages := s.unitPages_only unit
      have hdev : (s.unitPages unit).dev = s.dev := State.only_part hpages .dev
      have hkeep : (s.unitPages unit).keep = s.keep := State.only_part hpages .keep
      have hexec := exec_restoreUnitDone hd hp hi ha hu hr []
      rw [State.restoreUnit_counts hd hp hw hl] at hexec
      refine ⟨_, hexec, ?_, ?_, ?_, ?_⟩
      · simp only [State.modKeep_same]; rfl
      · simp only [State.modKeep_same, hdev, hd]
      · rw [State.keep_modKeep, hkeep]; rfl
      · rw [State.keep_modKeep, hkeep]
        intro x hx
        simpa using (List.mem_filter.1 hx).2
    · exact State.fld_maxFld s ns (by rfl)
    · exact State.only_trans (State.only_mono (s.maxFld_only _ _) (by simp) fun _ h => h)
        (State.only_mono (State.modKeep_only _ _) (fun _ h => h) fun _ h => h.elim)

end Sys2Proof.Machine
